-- ==== Sys2Proof/Word.lean ====
section
/-!
DEFINITION. The word and byte of the register space, the sparse tables the state is built from, and the plain data that
commands carry.
-/
namespace Sys2Proof

/-- A register word: every register is 32 bits wide (R7). -/
abbrev Word := BitVec 32

/-- A byte. -/
abbrev Byte := BitVec 8

/-- A table of numbered things as plain data: pairs of number and value, the numbers strictly rising. A number that is not
listed holds the default the reader of the table names. -/
abbrev Tbl (α : Type) := List (Nat × α)

/-- The three roles that hold rights (R506, R507). -/
inductive Role where
  | operator
  | installer
  | maker
  deriving DecidableEq, Repr

/-- The access path of a register access (R12, R17). `proxy` carries the ROLES byte of the packet (R431); `foreman` is the
unit's own firmware, whose writes need no session and are not entered in the shift book (R81). -/
inductive Path where
  | bar0
  | i2c
  | proxy (roles : Nat)
  | foreman
  deriving DecidableEq, Repr

/-- A submission descriptor as R423 lays it out: the ring it came from, FLAGS, CID, TALLY and the operand bytes 8 to 63. -/
structure Desc where
  sq : Nat
  flags : Nat
  cid : Nat
  tally : Nat
  operands : List Nat
  deriving DecidableEq, Repr

/-- What a slice step or a re-calibration derives for one slice of a bank (R159, R161): OFS and GAIN at HCG and LCG, SKEW in the form of
their registers, and the largest fit residual in DN × 2⁻⁴. -/
structure SliceResult where
  bank : Nat
  slice : Nat
  ofs0 : Nat
  gain0 : Nat
  ofs1 : Nat
  gain1 : Nat
  skew : Nat
  fit : Nat
  deriving DecidableEq, Repr

/-- The raw codes a slice gives in a slice step or a bank re-calibration (R159): 8 conversions of each of the 16 ramp levels in turn at HCG and
at LCG, and the code sampled on the fast ramp edge. -/
structure SliceSample where
  bank : Nat
  slice : Nat
  hcg : List Nat
  lcg : List Nat
  edge : Nat
  deriving DecidableEq, Repr

/-- The raw codes the converters give for one column of a latched row: side (0 top, 1 bottom), active column, HCG and LCG code. -/
structure RowCode where
  side : Nat
  x : Nat
  hcg : Nat
  lcg : Nat
  deriving DecidableEq, Repr

/-- What the comparator reads of one copy of the cadence unit on a tick (R119): the trackers' states, p and P; the pointers of the table and of
the video schedule; the gate command of each stope column; the pass and the end of the gap; EXPO levels and MREQ; each trigger's arm state. -/
structure CadCopy where
  scan : Nat × Option Nat × Option Nat
  mains : Nat × Option Nat × Option Nat
  pointer : Nat × Nat
  gates : List Nat
  pass : Option (Nat × Nat)
  gap : Option Nat
  expo : List Bool
  mreq : Bool
  arms : List (Bool × Nat × Nat)
  deriving DecidableEq, Repr

/-- Operations of the scalar ALU (R187). -/
inductive ScalarOp where
  | add | sub | and | or | xor | shl | shr | sar | eq | lt | ltu | mul
  deriving DecidableEq, Repr

/-- Branch class (R187): a conditional branch by condition number, a call and a return by the register that holds the return address, a
hardware loop. -/
inductive BranchOp where
  | cond (k : Nat) | call | ret | loop
  deriving DecidableEq, Repr

/-- Operations of the vector ALU (R187). -/
inductive VectorOp where
  | add | sub | min | max | compare | select | shift | saturate
  deriving DecidableEq, Repr

/-- Vector load and store forms (R187): 64 aligned bytes, strided elements, a gather by the offsets in a vector register. -/
inductive VectorMem where
  | block | strided (stride : Nat) | gather (idx : Nat)
  deriving DecidableEq, Repr

/-- Permute and reduce (R187): shuffle by an index vector, broadcast of a scalar, horizontal sum into a scalar. -/
inductive PermOp where
  | shuffle | broadcast | sum
  deriving DecidableEq, Repr

end Sys2Proof

namespace Sys2Proof.Machine

/-- A packet (R299). -/
structure Packet where
  dt : Nat
  vc : Nat
  inc : Nat
  src : Nat
  dst : Nat
  sweep : Nat
  gear : Nat
  assign : Nat
  payload : List Nat
  deriving DecidableEq, Repr

end Sys2Proof.Machine
end

