-- ==== Sys2Proof/Syntax.lean ====
section
/-!
DEFINITION. The commands of the block: one constructor for each row of spec/opcode_table.json, in the table's order, with the operands the spec
gives the row. `p` is the access path of a register access, `d` a port (false U, true D), `k` a packet as it arrives, `e` an engine.
-/
namespace Sys2Proof

/-- A command. -/
inductive Instr where
  /-- A write to a register that has no row of its own, with role checks, reserved-field handling and value-range rules (R11). -/
  | registerWrite (p : Path) (off : Nat) (w : Word) (full : Bool)
  /-- A read of the lowest word of a multi-word value latches the higher words (R16). -/
  | wideRegisterRead (p : Path) (off : Nat)
  /-- CLEAR clears EXP_ARRAY_ERRCNT0 and EXP_ARRAY_ERRCNT1 (R9). -/
  | expArrayErrclr (p : Path) (w : Word)
  /-- CLEAR clears CAD_ERRCNT0 and CAD_ERRCNT1 (R9). -/
  | cadErrclr (p : Path) (w : Word)
  /-- CLEAR clears EXP_MODE_ERRCNT (R9). -/
  | expModeErrclr (p : Path) (w : Word)
  /-- CLEAR clears the calibration step, deferral and hold counters (R9). -/
  | calErrclr (p : Path) (w : Word)
  /-- CLEAR clears MON_STATUS.OVERRUN_CNT (R9). -/
  | monErrclr (p : Path) (w : Word)
  /-- CLEAR clears the engine error counters and every ENG_ECC count (R9). -/
  | engErrclr (p : Path) (w : Word)
  /-- CLEAR clears a port's link error and PRBS counters (R9). -/
  | lnkErrclr (d : Bool) (p : Path) (w : Word)
  /-- CLEAR clears CHN_ERRCNT0 to CHN_ERRCNT4 (R9). -/
  | chnErrclr (p : Path) (w : Word)
  /-- CLEAR clears EXP_SPOT_ERRCNT (R9). -/
  | expSpotErrclr (p : Path) (w : Word)
  /-- CLEAR clears PIPE_ERRCNT0 to PIPE_ERRCNT2 (R9). -/
  | pipeErrclr (p : Path) (w : Word)
  /-- CLEAR clears TIM_ERRCNT0 and TIM_ERRCNT1 (R9). -/
  | timErrclr (p : Path) (w : Word)
  /-- CLEAR clears HST_ERRCNT0 to HST_ERRCNT2 (R9). -/
  | hstErrclr (p : Path) (w : Word)
  /-- CLEAR clears PWR_ERRCNT (R9). -/
  | pwrErrclr (p : Path) (w : Word)
  /-- CLEAR clears LOSS_CNT of every PLL (R9). -/
  | pllErrclr (p : Path) (w : Word)
  /-- CLEAR clears SAF_CNT0 and SAF_CNT1 (R9). -/
  | safErrclr (p : Path) (w : Word)
  /-- CLEAR clears NVS_ERRCNT0 and NVS_ERRCNT1 (R9). -/
  | nvsErrclr (p : Path) (w : Word)
  /-- CLEAR clears ROL_ERRCNT (R9). -/
  | rolErrclr (p : Path) (w : Word)
  /-- CLEAR clears I2C_ERRCNT0 and I2C_ERRCNT1 (R9). -/
  | i2cErrclr (p : Path) (w : Word)
  /-- VAON becomes good from OFF; AON power-on reset; the unit enters STANDBY and samples its straps (R454). -/
  | vaonGood (addr : Nat) (strap : Bool)
  /-- VAON fails and the unit goes to OFF from any state (R454). -/
  | vaonFail
  /-- A rail of groups 2 to 6 has been above 93 % for 100 µs and is marked good (R451). -/
  | railGood (i : Fin 9)
  /-- A rail has been below 90 % for 2 µs above STANDBY; FAULT bit set and the unit enters HOLD (R453). -/
  | railFault (i : Fin 9)
  /-- TARGET 1 commands STANDBY, stopping all domains but AON and I2C (R454). -/
  | pwrCmdStandby (p : Path)
  /-- TARGET 2 commands IDLE: start-up from STANDBY, leave HOLD, or stop READY (R454). -/
  | pwrCmdIdle (p : Path)
  /-- TARGET 3 commands READY from IDLE, HOLD or CAPTURE (R454). -/
  | pwrCmdReady (p : Path)
  /-- TARGET 4 with an operator session commands CAPTURE at the next sweep start (R454). -/
  | pwrCmdCapture (p : Path)
  /-- A STANDBY command that waited for a calibration set commit runs when the commit ends (R457). -/
  | standbyAfterCommit
  /-- Internal power-on reset of groups 2 to 6 released at E2; CANARY starts and the freewheel counter restarts (R456). -/
  | startupReset
  /-- The foreman has booted from the store, loaded trims, installer fields, goldens and keys and reviewed the shift book (R486). -/
  | foremanBootDone (crc : List Nat) (unc : List Nat)
  /-- One lamp check item completes and sets its FAIL bit on failure; the next item starts (R487). -/
  | lampCheckItemDone (ok : Bool) (readings : List Nat)
  /-- The lamp check ends; the unit enters IDLE, HOLD or SAFE-TALK and BUSY clears (R488). -/
  | lampCheckDone
  /-- SYSRST_N low for 1 µs forces outputs, holds the foreman in reset, stops CADENCE and closes sessions (R485). -/
  | sysrstNAssert
  /-- SYSRST_N released: the foreman boots and the warm lamp check runs; the chain state becomes SOLO (R485). -/
  | sysrstNRelease
  /-- PERST_N asserted acts as Function Level Reset and takes the link down (R412). -/
  | perstNAssert
  /-- PERST_N released: link trains, and from STANDBY the unit starts up when PERST_EN is 1 (R412). -/
  | perstNRelease
  /-- A Hot Reset or DL_Down acts on the host interface as Function Level Reset (R412). -/
  | hotReset
  /-- Function Level Reset stops MREQ, resets rings and BAR0 sessions, sets contexts OFF and holds the chain as L3 (R435). -/
  | functionLevelReset
  /-- The function is ready for configuration requests after Function Level Reset (R435). -/
  | flrDone
  /-- Entry to D3hot is handled as a clear of Bus Master Enable, halting rings with CAUSE 5 (R411). -/
  | d3hotEntry
  /-- Return to D0 resets nothing; halted rings wait for RESUME (R411). -/
  | d0Return
  /-- Bus Master Enable cleared: no new requests, rings halt with CAUSE 1, capture continues (R434). -/
  | bmeClear
  /-- Bus Master Enable set again; rings may be resumed and MREQ may restart at a sweep start (R434). -/
  | bmeSet
  /-- The PCI Express link speed or width changes (R438). -/
  | linkChanged (speed : Nat) (width : Nat) (flit : Bool)
  /-- A 256-CANARY-cycle window ends; REF_PRESENT is set from the REFCLK count and the reference qualified (R442). -/
  | refQualificationWindow (edges : Nat)
  /-- The binary band search of a PLL ends and the loop closes (R441). -/
  | pllBandSearchDone (x : Fin 3) (band : Fin 64)
  /-- 1 024 consecutive detector cycles within ±150 ps; lock declared and the hold period starts (R441). -/
  | pllLockDeclared (x : Fin 3)
  /-- The hold period passes; output gates open and LOCKED becomes 1 (R441). -/
  | pllLocked (x : Fin 3)
  /-- Five expected REFCLK edges are missing; a locked PLL declares loss, an unlocked one abandons its lock (R443). -/
  | pllReferenceMissing
  /-- Phase error beyond ±1 ns on 4 detector cycles; the PLL declares a loss of lock (R443). -/
  | pllLockBreak (x : Fin 3)
  /-- RELOCK makes PLL-L or PLL-T lock again in IDLE; otherwise it is ignored (R440). -/
  | pllRelock (p : Path) (x : Fin 3) (w : Word)
  /-- A write of PLL_CLKOUTn with EN 1 is checked and the output enabled or refused (R447). -/
  | pllClkoutEnable (p : Path) (n : Fin 2) (w : Word)
  /-- A canary cause latches: forcing lines raised, HOLD requested, trip raised (R463). -/
  | canaryTrip (i : Fin 11)
  /-- The two foreman cores disagree; the comparator asserts the HOLD request in the same cycle (R465). -/
  | foremanLockstep
  /-- No heartbeat from both foreman cores for SAF_HB.US µs (R461). -/
  | foremanHeartbeatTimeout
  /-- Diode 4 has been above 100 °C for 10 µs; cause TEMP goes live (R461). -/
  | dieTempTrip
  /-- No CANARY edge for 1.0 µs; the missing-pulse detector drives the forcing lines unclocked (R464). -/
  | oscMissingPulse
  /-- The CANARY oscillator returns and the OSC bit latches at its first edge (R464). -/
  | oscReturn
  /-- SAF_CMD.TEST_TRIP causes a TEST trip (R461). -/
  | testTrip (p : Path)
  /-- A 1 written to a SAF_TRIP.LATCHED bit clears it when its live bit is 0 (R471). -/
  | safTripClear (p : Path) (w : Word)
  /-- After a foreman trip the canary releases both cores after 1 µs and the foreman reboots (R561). -/
  | foremanResetRelease
  /-- Once per second the foreman counts CANARY against REFCLK (R466). -/
  | canaryCount (n : Nat)
  /-- An L1, L2 or L3 recovery exceeds its time limit (R478). -/
  | recoveryTimeout
  /-- A deferred L1 has waited SAF_L1_DEFER.MS and escalates to L2 (R478). -/
  | l1DeferExpired
  /-- With L2 actions complete, causes cleared and L2_RELEASE 1, the foreman clears trips and commands the state at entry (R479). -/
  | l2Release
  /-- SAF_CMD.CHAIN_RESTART on the pithead moves it to READY and sets recovery level 0 in its BEAT (R480). -/
  | chainRestart (p : Path)
  /-- An active SCAN_FRM edge is timestamped and the scan tracker updated under its state table (R91). -/
  | scanFrmEdge (t : Nat) (rising : Bool)
  /-- A SCAN_LINE edge is timestamped and counted for the line check (R89). -/
  | scanLineEdge (t : Nat) (rising : Bool)
  /-- An active MAINS_ZX edge is timestamped and the mains tracker updated (R91). -/
  | mainsZxEdge (t : Nat) (rising : Bool)
  /-- A start computed from NETSCAN or NETMAINS publications serves as the tracker edge (R90). -/
  | netComputedStart (m : Bool)
  /-- A FREE tracker reaches its period and takes a reference instant with zero error (R562). -/
  | freeReferenceInstant (m : Bool)
  /-- A tracker window closes without an edge; the edge is missing and the tracker coasts or is lost (R92). -/
  | trackerWindowClose (m : Bool)
  /-- A change of a tracker source takes effect at once, passing the tracker through OFF to ACQUIRING (R93). -/
  | cadSrcWrite (p : Path) (w : Word)
  /-- The sweep-start event: pending values applied, swaps and commits, items, resets, gap mark in READY, derailleur stages, MREQ start (R97). -/
  | sweepStart
  /-- A table entry steers the masked columns into tap A, subject to MEAS and pass refusal (R102). -/
  | openA
  /-- A table entry steers the masked columns into tap B (R102). -/
  | openB
  /-- A table entry returns the masked columns' gates to DG (R102). -/
  | close
  /-- A table entry starts a pass of one tap at its gain set (R66). -/
  | read
  /-- A table entry sends a gap mark to both converter sides and the scheduler starts steps (R117). -/
  | gap
  /-- A table entry sets the levels of the selected EXPO lines (R102). -/
  | expo
  /-- A table entry arms trigger n for the masked columns and a tap (R107). -/
  | armEntry
  /-- A table entry disarms trigger n (R107). -/
  | disarm
  /-- A table entry ends the table for this sweep (R102). -/
  | sweepEnd
  /-- A NOP table entry does nothing (R102). -/
  | tableNop
  /-- The length of an OPEN runs out and its columns return to DG (R104). -/
  | openLengthEnd
  /-- An active TRIGn edge opens the armed tap through the fast path or schedules a delayed opening (R114). -/
  | triggerEdge (n : Nat) (t : Nat) (rising : Bool)
  /-- DLY ticks after the edge the delayed triggered opening takes place (R115). -/
  | triggerDelayOpen (n : Nat)
  /-- CAD_TRIG_LENn ticks after opening the triggered exposure ends and the trigger disarms (R107). -/
  | triggerExposureEnd (n : Nat)
  /-- A write of CAD_SHD_HI commits a shadow entry, increments ADDR and sets SHD_NEW (R16). -/
  | cadShdHiWrite (p : Path) (w : Word)
  /-- A read of CAD_ACT_HI returns the latched entry and increments CAD_ACT_ADDR (R16). -/
  | cadActHiRead (p : Path)
  /-- REQ validates the shadow table and mode and schedules or refuses the swap (R108). -/
  | cadSwapReq (p : Path)
  /-- A mode code is written to EXP_MODE.MODE, to take effect at the next swap or commit (R125). -/
  | expModeWrite (p : Path) (w : Word)
  /-- A counted difference between cadence copies forces DG, stops the table and reaches the canary (R120). -/
  | lockstepFault (t : Nat) (q : CadCopy) (fastP : Nat) (fastQ : Nat)
  /-- A step of the built-in video schedule runs: open tap A, read it, or declare a gap (R134). -/
  | videoScheduleStep
  /-- A source-7 EXPO pulse ends after EXP_EXPO_PW ticks (R135). -/
  | expoPulseEnd
  /-- At a skim-cycle end an armed tap at threshold loses a packet and its counter increments (R55). -/
  | skim (tap : Nat) (row : Nat) (col : Nat) (charge : Nat)
  /-- A row's counters are latched and its residues converted and reconstructed; line slots claimed (R61). -/
  | rowLatch (dark : Nat) (codes : List RowCode)
  /-- A row's reset completes; counters 0 and comparators armed (R61). -/
  | rowResetDone
  /-- A calibration kind's age reaches its interval and it becomes due (R163). -/
  | calKindDue (kind : Nat)
  /-- A slice step ends; plausible results rotate the spare, implausible ones add a strike (R160). -/
  | sliceStepDone (res : List SliceSample)
  /-- A packet calibration step ends; new Q_P accepted or refused and rows reset (R71). -/
  | pktCalStepDone (res : List (Nat × Nat))
  /-- The L1 bank re-calibration ends, restoring, degrading or failing the bank (R162). -/
  | bankRecalDone (res : List SliceSample)
  /-- Coefficients or Q_P of some stope pass MAX_AGE and the set of aged stopes grows from empty (R166). -/
  | calAged
  /-- A pass held by a running calibration step starts when the step finishes (R168). -/
  | heldPassStart
  /-- CAPTURE copies every coefficient and Q_P in force into the working copy (R171). -/
  | calBaseCapture (p : Path)
  /-- A write of CAL_BASE_VAL changes one working-copy value (R171). -/
  | calBaseValWrite (p : Path) (w : Word)
  /-- COMMIT starts a calibration set commit of the working copy (R171). -/
  | calBaseCommit (p : Path)
  /-- A monitor conversion ends and its record is written to the circular buffer (R178). -/
  | monitorConversionDone (uv : Nat) (vref : Nat) (err : Int)
  /-- RUN 0 stops the monitor after the conversion; RUN 1 restarts at entry 0 (R175). -/
  | monCtrlRunWrite (p : Path) (w : Word)
  /-- The reference settling time passes and REF_SETTLED becomes 1 (R176). -/
  | monRefSettled
  /-- The foreman converts a diode code into MON_TEMPn and MON_TDIE (R180). -/
  | monTempUpdate (n : Nat)
  /-- The stope DMA finishes writing an item and increments LCL_IN_WR (R202). -/
  | itemPublish (stope : Nat)
  /-- A scalar add, logic, shift, compare or multiply instruction (R187). -/
  | engScalarAlu (e : Nat) (ferr : Nat) (op : ScalarOp) (rd : Nat) (rs : Nat) (rt : Nat)
  /-- A branch, call, return or hardware-loop instruction (R187). -/
  | engBranch (e : Nat) (ferr : Nat) (op : BranchOp) (rs : Nat) (rt : Nat) (target : Nat)
  /-- A scalar load or store, with address-map and ECC checks (R189). -/
  | engScalarLoadStore (e : Nat) (ferr : Nat) (load : Bool) (size : Nat) (sx : Bool) (reg : Nat) (base : Nat) (off : Nat) (err : Nat)
  /-- WAIT stops issue until a selected wake source (R188). -/
  | wait (e : Nat) (ferr : Nat)
  /-- A FENCE control instruction (R187). -/
  | fence (e : Nat) (ferr : Nat)
  /-- A TRAP instruction faults the engine with TRAP (R218). -/
  | trap (e : Nat) (ferr : Nat) (code : Nat)
  /-- A vector arithmetic, compare, select, shift or saturate instruction (R187). -/
  | engVectorAlu (e : Nat) (ferr : Nat) (op : VectorOp) (wide : Bool) (vd : Nat) (va : Nat) (vb : Nat) (vc : Nat)
  /-- A vector multiply-accumulate into the accumulators (R187). -/
  | engVectorMac (e : Nat) (ferr : Nat) (wide : Bool) (sx : Bool) (ad : Nat) (va : Nat) (vb : Nat)
  /-- A vector load, store, strided access or gather (R187). -/
  | engVectorLoadStore (e : Nat) (ferr : Nat) (load : Bool) (mode : VectorMem) (wide : Bool) (vr : Nat) (base : Nat) (off : Nat) (errs : List Nat)
  /-- A shuffle, broadcast or horizontal sum (R187). -/
  | engPermuteReduce (e : Nat) (ferr : Nat) (op : PermOp) (wide : Bool) (sx : Bool) (rd : Nat) (ra : Nat) (rb : Nat)
  /-- LCL_TIMER counts down to 0 (R188). -/
  | lclTimerZero (e : Nat)
  /-- The program releases input slots; releasing unpublished slots is a RING_PROTO fault (R204). -/
  | lclInRdWrite (e : Nat) (v : Nat)
  /-- A push with SEAL 0 copies output-window bytes into a sweep's held output, or is refused (R206). -/
  | lclPush (e : Nat) (stream : Nat) (count : Nat)
  /-- The push copy ends and LCL_PUSH_STATUS.BUSY clears (R206). -/
  | pushCopyDone (e : Nat)
  /-- A push with SEAL 1 seals a sweep, to be released once its request state is held (R208). -/
  | lclPushSeal (e : Nat)
  /-- A write of LCL_PET restarts the engine watchdog (R218). -/
  | lclPetWrite (e : Nat)
  /-- A write of LCL_TRAP faults the engine with TRAP and CODE (R218). -/
  | lclTrapWrite (e : Nat) (code : Nat)
  /-- A write of LCL_EVENT raises program event 0x0A80 + CAUSE (R228). -/
  | lclEventWrite (e : Nat) (cause : Nat)
  /-- The program advances LCL_OUTBOX_WR to post a message to the foreman (R211). -/
  | lclOutboxPost (e : Nat) (v : Nat)
  /-- An engine READY message reports initialisation complete (R212). -/
  | engineReadyMessage (e : Nat)
  /-- An engine LOG message is entered in the foreman's log (R212). -/
  | logMessage (e : Nat)
  /-- The foreman delivers KEY_REFRESH naming a sweep to be a key sweep (R212). -/
  | keyRefresh (stope : Nat)
  /-- The foreman delivers MAP_CHANGED for a rewritten table region (R212). -/
  | mapChanged (stope : Nat) (base : Nat) (len : Nat) (sweep : Nat)
  /-- The foreman delivers STAT_REQ asking for a STAT stream (R212). -/
  | statReq (stope : Nat) (sweep : Nat)
  /-- The program frees inbox slots and a held message is delivered (R211). -/
  | lclInboxRdWrite (e : Nat) (v : Nat)
  /-- A sweep reaches its deadline unsealed; held output discarded and an ABANDONED header released (R209). -/
  | sweepDeadline
  /-- No LCL_PET for LIMIT_US µs outside WAIT; WATCHDOG fault (R218). -/
  | engWatchdog (e : Nat)
  /-- The scrubber reads one data SRAM word and corrects or records its error (R190). -/
  | scrubRead (e : Nat) (addr : Nat) (err : Nat)
  /-- ENG_CMD 1 starts a HALTED engine at address 0 (R216). -/
  | engStart (p : Path)
  /-- ENG_CMD 2 halts a RUNNING engine at an instruction boundary (R216). -/
  | engHalt (p : Path)
  /-- ENG_CMD 3 clears memories and fault cause of a HALTED, FAULTED or RETIRED engine (R216). -/
  | engClear (p : Path)
  /-- A write of ENG_MEM_ADDR sets the window address and clears ENG_MEM_CRC (R213). -/
  | engMemAddrWrite (p : Path) (w : Word)
  /-- A word is written to engine memory if taken, with CRC update and address increment (R213). -/
  | engMemDataWrite (p : Path) (w : Word)
  /-- A word of engine memory is read, gated by state and maker session, and the address increments (R213). -/
  | engMemDataRead (p : Path)
  /-- The foreman takes ENG_FAULT, chooses a spare and begins the L1 copy (R220). -/
  | remapStart
  /-- The copy of memories and local registers to the target ends (R220). -/
  | remapCopyDone (bad : List Nat)
  /-- ENG_MAP updated and the target started with CAUSE 2 (R220). -/
  | remapComplete
  /-- ENG_REMAP GO remaps a stope onto a named engine in IDLE or READY (R224). -/
  | engRemapGo (p : Path) (w : Word)
  /-- A write of ENG_CTRL.QEN enables or disables quadrants (R226). -/
  | engQenWrite (p : Path) (w : Word)
  /-- A first-enabled quadrant's memories are zeroed and QRUN shows it (R226). -/
  | quadrantInitDone (q : Nat)
  /-- The transmitter composes and sends a lane block with run-length stuffing (R268). -/
  | txBlock (d : Bool)
  /-- A lane block is received; header checked, block lock searched or kept (R270). -/
  | laneBlockReceive (d : Bool) (n : Fin 8) (words : List Word)
  /-- 32 equal bits on an active lane; the lane fails and the port narrows (R269). -/
  | laneStuck (d : Bool) (n : Fin 8)
  /-- Signal or lock lost on every lane without SLEEP; the port goes down (R289). -/
  | laneSignalLoss (d : Bool)
  /-- Signal detected on a lane; the port moves from DETECT to LOCK (R274). -/
  | clockRecovered (d : Bool) (n : Fin 8)
  /-- A training block with valid CRC gives serials, seeds, lane map and EQ exchange (R272). -/
  | trainingBlockReceive (d : Bool) (n : Fin 8) (words : List Word) (h : Byte) (v : Byte)
  /-- Pre-emphasis has been agreed and stored for the peer (R275). -/
  | eqComplete (d : Bool)
  /-- At block START_BC keystreams start and the first link frames are sent (R273). -/
  | keystreamStart (d : Bool)
  /-- Residence measured; the port becomes ACTIVE (R273). -/
  | linkUp (d : Bool) (ud : Nat) (du : Nat)
  /-- Training has not reached ACTIVE within 2 ms (R274). -/
  | trainTimeout (d : Bool)
  /-- 10 ms after a training timeout the port re-enters DETECT (R274). -/
  | trainRetryDelay (d : Bool)
  /-- A link frame is received, checked, accepted in order or NAKed; ACKs free the replay buffer (R282). -/
  | linkFrameReceive (d : Bool)
  /-- A WIDTH_REQ control message proposes a new lane map at OFFSET blocks (R277). -/
  | widthReq (d : Bool) (lanes : Byte) (offset : Nat) (tally : Nat) (hops : Nat)
  /-- A WIDTH_ACK acknowledges a lane-map change (R277). -/
  | widthAck (d : Bool)
  /-- A RETRAIN_REQ asks the far end to retrain (R286). -/
  | retrainReq (d : Bool) (tally : Nat) (hops : Nat)
  /-- A RETRAIN_ACK accepts a retrain; the port goes to LOCK (R274). -/
  | retrainAck (d : Bool)
  /-- A WITHDRAW cancels the sender's colliding request (R286). -/
  | withdraw (d : Bool)
  /-- A SLEEP control message announces the far transmitter's sleep (R287). -/
  | sleep (d : Bool)
  /-- A far-end loop request is answered when FE_ALLOW is 1 (R290). -/
  | feLoopReq (d : Bool) (lanes : Byte) (tally : Nat) (hops : Nat)
  /-- A far-end loop acknowledgement puts both ports into LOOP (R290). -/
  | feLoopAck (d : Bool)
  /-- A far-end loop ends and both ports retrain (R290). -/
  | feLoopEnd (d : Bool)
  /-- The agreed block boundary arrives and the new lane map takes effect (R277). -/
  | widthChangeBoundary (d : Bool) (ud : Nat) (du : Nat)
  /-- The oldest unacknowledged frame waited TIMEOUT µs and is replayed (R285). -/
  | replayTimeout (d : Bool)
  /-- An idle transmit direction sends SLEEP and enters electrical idle after its ACK (R287). -/
  | txSleepEntry (d : Bool)
  /-- A sleeping transmitter wakes because traffic or unacknowledged frames are pending (R288). -/
  | txWake (d : Bool)
  /-- EN 1 starts training; EN 0 sends the port to electrical idle and DISABLED (R274). -/
  | lnkEnWrite (p : Path) (d : Bool) (w : Word)
  /-- RETRAIN sends RETRAIN_REQ and retrains the port (R274). -/
  | lnkRetrainWrite (p : Path) (d : Bool) (w : Word)
  /-- RUN enters or leaves a loop mode (R290). -/
  | lnkLoopRunWrite (p : Path) (d : Bool) (w : Word)
  /-- A passing packet crosses the M path to the other port, or is discarded if that port is down (R33). -/
  | packetForward (d : Bool) (k : Machine.Packet)
  /-- A queued local packet leaves a port by virtual channel priority (R302). -/
  | packetTransmit (d : Bool)
  /-- A CLAIM packet is compared and forwarded or absorbed; a pithead answers STANDING (R306). -/
  | claim (d : Bool) (k : Machine.Packet)
  /-- Every 1 ms a claimant broadcasts CLAIM (R305). -/
  | claimInterval
  /-- ELECT_MS passes with no better claim; the claimant takes tally 1 and starts a full roll call (R306). -/
  | electionTimeout
  /-- The roll token assigns or keeps a tally, counts hops and is forwarded; at the pithead it ends the call (R309). -/
  | roll (d : Bool) (k : Machine.Packet)
  /-- The token has not returned in 10 ms; a second ROLL goes out of port U (R310). -/
  | rollTimeout
  /-- The pithead records a unit's report and grants or refuses it (R311). -/
  | rollReport (d : Bool) (k : Machine.Packet)
  /-- A GRANT gives the unit its tally, incarnation and role; it becomes JOINED (R312). -/
  | grant (d : Bool) (k : Machine.Packet)
  /-- A unit receives ROLL_DONE with ring state and standby (R312). -/
  | rollDoneReceive (d : Bool) (k : Machine.Packet)
  /-- A BENCH addressed to the unit's incarnation sets tally 0 and sends it to IDLE (R317). -/
  | bench (d : Bool) (k : Machine.Packet)
  /-- A RECOVER packet calls an L2 recovery on the unit (R326). -/
  | recover (d : Bool) (k : Machine.Packet)
  /-- A STOPES packet gives the unit its stope mask for a new assignment epoch (R323). -/
  | stopes (d : Bool) (k : Machine.Packet)
  /-- A unit validates its pending gear and sends ARM_ACK (R323). -/
  | arm (d : Bool) (k : Machine.Packet)
  /-- The pithead records a unit's acknowledgement; a refusal cancels the derailleur (R323). -/
  | armAck (d : Bool) (k : Machine.Packet)
  /-- A unit holds COMMIT and switches at the commit sweep (R323). -/
  | commit (d : Bool) (k : Machine.Packet)
  /-- A unit receives CANCEL and keeps its gear and epochs (R324). -/
  | cancel (d : Bool) (k : Machine.Packet)
  /-- A crew unit sends KEY_REFRESH to the named stope's engine (R335). -/
  | keyRefreshReq (d : Bool) (k : Machine.Packet)
  /-- The standby stores the pithead's tables (R319). -/
  | mirror (d : Bool) (k : Machine.Packet)
  /-- A unit marks or clears the arrival port as broken and forwards the notice (R297). -/
  | ringNotice (d : Bool) (k : Machine.Packet)
  /-- A heartbeat is received; missed counts reset, rejoins granted, chain hold and restart followed (R315). -/
  | beat (d : Bool) (k : Machine.Packet)
  /-- A 1 ms window ends: BEAT sent and missed windows counted (R316). -/
  | beatWindow
  /-- A crew unit applies the request state to sealed sweeps and releases them (R321). -/
  | sweepState (d : Bool) (k : Machine.Packet)
  /-- 10 ms after a port-active notice with JOIN_AUTO the pithead starts a join roll call (R313). -/
  | joinCallDelay
  /-- FULL_CALL starts a full roll call on the pithead (R309). -/
  | chnFullCall (p : Path)
  /-- JOIN_CALL starts a join roll call on the pithead (R311). -/
  | chnJoinCall (p : Path)
  /-- GO_GEAR starts a gear derailleur on the pithead in CAPTURE (R323). -/
  | goGear (p : Path)
  /-- GO_ASSIGN starts an assignment derailleur with the next bank (R323). -/
  | goAssign (p : Path)
  /-- A write of CHN_ASG_HI commits an entry of the next bank (R327). -/
  | chnAsgHiWrite (p : Path) (w : Word)
  /-- COPY copies the bank in force into the next bank (R327). -/
  | chnAsgCopy (p : Path)
  /-- CLEAR clears the next bank (R327). -/
  | chnAsgClear (p : Path)
  /-- The pithead starts building a stope sweep; a pending one is closed incomplete (R331). -/
  | sweepHdr (d : Bool) (k : Machine.Packet)
  /-- Key records arrive and, when the sweep is complete, are checked and written as a ledger block (R333). -/
  | key (d : Bool) (k : Machine.Packet)
  /-- Delta records arrive and are accepted against KEYREF or replaced by STALE records (R334). -/
  | delta (d : Bool) (k : Machine.Packet)
  /-- STAT records of a stope sweep arrive at the pithead (R337). -/
  | stat (d : Bool) (k : Machine.Packet)
  /-- AUX records of a stope sweep arrive at the pithead (R337). -/
  | aux (d : Bool) (k : Machine.Packet)
  /-- An event from a crew unit arrives and is queued as an event record (R428). -/
  | event (d : Bool) (k : Machine.Packet)
  /-- A crew unit carries out a proxied register read and answers (R431). -/
  | proxyRd (d : Bool) (k : Machine.Packet)
  /-- A crew unit applies a proxied register write with the named roles and answers (R431). -/
  | proxyWr (d : Bool) (k : Machine.Packet)
  /-- The pithead completes the proxied command from the response (R433). -/
  | proxyRsp (d : Bool) (k : Machine.Packet)
  /-- A crew unit writes a bulk packet's words to engine memory and answers after LAST (R432). -/
  | bulk (d : Bool) (k : Machine.Packet)
  /-- A spotlight packet from a crew unit enters the spot buffer or is dropped (R354). -/
  | spot (d : Bool) (k : Machine.Packet)
  /-- The spotlight source sends its next packet within its rate limit (R347). -/
  | spotPacketSend
  /-- A spotlight control write; stopping STAGED starts clearing of staging regions (R348). -/
  | expSpotCtrlWrite (p : Path) (w : Word)
  /-- Staging regions are zeroed and START and CLEAR are accepted again (R348). -/
  | spotClearDone
  /-- The pipeline takes a spotlight item, applies contexts and stages, writes output and statistics (R362). -/
  | pipeItemProcess
  /-- A frame reaches FRAME_MS without its CLOSE and ends (R356). -/
  | pipeFrameTimeout
  /-- COMMIT checks the staging copy and makes it pending (R358). -/
  | pipeCtxCommit (p : Path)
  /-- DISABLE turns a context off at the next OPEN item (R359). -/
  | pipeCtxDisable (p : Path)
  /-- A write of PIPE_MEM sets the spot buffer and table area or is refused (R353). -/
  | pipeMemWrite (p : Path) (w : Word)
  /-- A write of TIM_RATE moves the anchor and sets ADJ (R374). -/
  | timRateWrite (p : Path) (w : Word)
  /-- A write of TIM_STEP2 commits a step, applied at once or turned into a slew (R376). -/
  | timStepCommit (p : Path) (w : Word)
  /-- ACCEPT applies the slew remainder at once and ends the slew (R378). -/
  | timStepAccept (p : Path) (w : Word)
  /-- The slew remainder has been applied and SLEWING returns to 0 (R377). -/
  | timeSlewDone
  /-- No host time write for HOST_S s; discipline lost and holdover entered (R380). -/
  | hostDisciplineLapse
  /-- Holdover has lasted MAX_S and time becomes INVALID (R381). -/
  | timeInvalid
  /-- After training, a width change or each second, a port sends a link delay REQ (R384). -/
  | delayExchangeStart (d : Bool) (t1 : Nat)
  /-- A link delay REQ is received and answered with RESP and INFO (R384). -/
  | delayReq (d : Bool) (k : Machine.Packet) (t2 : Nat) (t3 : Nat)
  /-- A link delay RESP is received and its arrival stamped (R384). -/
  | delayResp (d : Bool) (k : Machine.Packet) (t4 : Nat)
  /-- A link delay INFO completes an exchange and updates the port delay (R385). -/
  | delayInfo (d : Bool) (k : Machine.Packet)
  /-- Every INTERVAL_MS the pithead sends a Sync (R386). -/
  | syncSend (u : Nat) (v : Nat)
  /-- The pithead sends the Follow_Up with the Sync's departure time (R386). -/
  | followUpSend
  /-- A Sync is received, stamped, checked and forwarded (R388). -/
  | sync (d : Bool) (k : Machine.Packet) (t : Nat)
  /-- A Follow_Up completes a pair; delay and residence added and the servo corrects time (R390). -/
  | followUp (d : Bool) (k : Machine.Packet) (t : Nat)
  /-- SYNC_LOSS intervals without a used pair; CHAIN_OK becomes 0 (R391). -/
  | chainTimeLost
  /-- After a published frame start the pithead broadcasts PUBLISH (R393). -/
  | publishSend (mains : Bool)
  /-- A publication gives NETSCAN or NETMAINS epoch, period and sweep number (R394). -/
  | publish (d : Bool) (k : Machine.Packet)
  /-- A write of TIM_TPn_CFG.EN 1 is checked and pulses scheduled (R395). -/
  | tpEnable (p : Path) (n : Fin 4) (w : Word)
  /-- Reported time reaches S_k and TPULSEn rises (R396). -/
  | tpulseRise (n : Fin 4)
  /-- W ticks after the rise TPULSEn falls (R397). -/
  | tpulseFall (n : Fin 4)
  /-- A submission ring tail doorbell; descriptors are fetched as completion room allows (R414). -/
  | sqDoorbell (p : Path) (n : Fin 32) (w : Word)
  /-- A completion ring head doorbell returns entries to the unit (R416). -/
  | cqDoorbell (p : Path) (n : Fin 32) (w : Word)
  /-- A data ring tail doorbell posts empty buffers; waiting items are delivered (R414). -/
  | drDoorbell (p : Path) (n : Fin 16) (w : Word)
  /-- EN 1 resets a ring's indices and phase; EN 0 stops it after in-flight commands (R418). -/
  | ringEnable (p : Path) (k : Fin 3) (n : Fin 32) (w : Word)
  /-- RESUME clears HALTED when EN is 1 and the cause no longer holds (R418). -/
  | ringResume (p : Path) (k : Fin 3) (n : Fin 32)
  /-- A NOP command completes with no action (R424). -/
  | nop (d : Desc)
  /-- A REG_READ command returns COUNT words locally or by proxy (R424). -/
  | regRead (d : Desc)
  /-- A REG_WRITE command writes COUNT words locally or by proxy (R424). -/
  | regWrite (d : Desc)
  /-- A BULK_WRITE reads host data and writes engine memory or the table area, with CRC check (R425). -/
  | bulkWrite (d : Desc)
  /-- A SESSION_CHALLENGE returns a nonce and counter for a role on BAR0 (R509). -/
  | sessionChallenge (d : Desc)
  /-- A SESSION_OPEN checks the HMAC response and opens the BAR0 session (R510). -/
  | sessionOpen (d : Desc)
  /-- A SESSION_CLOSE closes a BAR0 session (R512). -/
  | sessionClose (d : Desc)
  /-- MOD_US µs after the first unsignalled entry the CQ vector fires (R422). -/
  | cqModerationTimer (n : Fin 32)
  /-- FLUSH ms after its first item a data ring buffer closes (R429). -/
  | drFlushTimeout (n : Fin 16)
  /-- A BAR2 read returns kibble store bytes with a maker session, or 0 (R408). -/
  | bar2Read (off : Nat) (write : Bool)
  /-- No PROXY_RSP within HST_PROXY.MS; the command completes with PROXY_TIMEOUT (R433). -/
  | proxyTimeout
  /-- Bus Master Enable or D3hot has lasted HST_GRACE.MS; REQ_OK 0 and MREQ stops (R434). -/
  | hostGraceExpired
  /-- PET restarts the host watchdog (R436). -/
  | hostWdogPet (p : Path)
  /-- No PET for HST_WDOG.MS; REQ_OK becomes 0 (R436). -/
  | hostWdogExpired
  /-- REARM marks the host link armed after a reset event (R436). -/
  | hstRearm (p : Path)
  /-- A store word write completes and is verified; errors retire or wear the block (R498). -/
  | storeWordVerify (block : Nat) (err : Nat)
  /-- The index block is written and the new bank is in force (R495). -/
  | commitComplete (uncorr : Bool)
  /-- IMG_OPEN invalidates the target bank of firmware or defect map and resets the address (R497). -/
  | nvsImgOpen (p : Path)
  /-- A word of the image is written to the target bank and the address advances (R497). -/
  | nvsImgDataWrite (p : Path) (w : Word)
  /-- IMG_COMMIT checks the image CRC and writes the index block or ends with CRC (R497). -/
  | nvsImgCommit (p : Path)
  /-- SAVE_INST commits the installer record (R495). -/
  | nvsSaveInst (p : Path)
  /-- A store word read latches HI and status and reports corrections (R499). -/
  | nvsRdDataLoRead (p : Path) (err : Nat)
  /-- A read of NVS_RD_DATA_HI returns the latched word and increments the address (R499). -/
  | nvsRdDataHiRead (p : Path)
  /-- A block with a 2-bit read error is rewritten in place once the store is free (R499). -/
  | storeRewrite (err : Nat)
  /-- A queued shift book entry is written to its slot (R518). -/
  | shiftBookEntryWrite
  /-- GO with KIND 0 runs the LBIST of a target (R501). -/
  | bistLbist (p : Path) (target : Nat)
  /-- GO with KIND 1 runs the MBIST of a target (R501). -/
  | bistMbist (p : Path) (target : Nat)
  /-- A BIST run ends with pass, fail or abort (R502). -/
  | bistDone (sig : Nat) (failCnt : Nat) (addr : Nat)
  /-- COMMIT makes the last LBIST signature the golden of its target (R503). -/
  | bistGoldCommit (p : Path)
  /-- ROL_CHAL_CMD GO issues a challenge for a role on the path (R509). -/
  | rolChallenge (p : Path) (role : Nat)
  /-- ROL_SESSION_CMD OPEN checks ROL_RESP0–7 and opens the session (R510). -/
  | rolSessionOpen (p : Path) (role : Nat)
  /-- ROL_SESSION_CMD CLOSE closes a session (R512). -/
  | rolSessionClose (p : Path) (role : Nat)
  /-- ROL_KEY_CMD GO unwraps, checks and stores a new role key (R513). -/
  | rolKeyReplace (p : Path) (target : Nat)
  /-- A write of ROL_SB_SEL shows the selected shift book entry (R519). -/
  | rolSbSelWrite (p : Path) (w : Word)
  /-- No accepted write for the role for IDLE_S s closes the session (R512). -/
  | sessionIdleTimeout (path : Nat) (role : Nat)
  /-- The 60 s lockout of a role on a path ends (R512). -/
  | lockoutEnd (path : Nat) (role : Nat)
  /-- An outstanding challenge expires after 10 s (R509). -/
  | challengeExpiry (path : Nat) (role : Nat)
  /-- An I²C ACCESS_INC command sets PTR and writes words with advancing pointer (R526). -/
  | accessInc (known : Bool) (ptr : Byte) (data : List Byte)
  /-- An I²C ACCESS_FIXED command writes words without advancing PTR (R526). -/
  | accessFixed (known : Bool) (ptr : Byte) (data : List Byte)
  /-- An I²C SELECT command sets PAGE and WIN and clears PTR (R526). -/
  | select (known : Bool) (page : Byte) (win : Byte) (further : Bool)
  /-- An I²C read transfer reads a word when asked and advances PTR (R529). -/
  | i2cWordRead
  /-- A stop or repeated start ends a transfer; a partial word is discarded (R527). -/
  | i2cTransferEnd (whole : Bool)
  /-- The target has held SCL for 1 ms and releases it (R530). -/
  | i2cHoldTimeout
  /-- The stuck-line timer expires and the bus state is reset (R535). -/
  | i2cStuckTimeout (sda : Bool)
  /-- Every rail of groups 2 to 6 has fallen below 0.3 V, which clears PWR_RAIL.SEQ_VIOL (R452). -/
  | railDown
  /-- The die-temperature comparator on diode 4 falls below 90 °C and the TEMP live bit clears (R461). -/
  | dieTempNormal
  /-- A completion arrives for a descriptor fetch or BULK_WRITE data read, with data or with UR, CA or poisoned status (R410). -/
  | hostReadCompletion (ix : Nat) (status : Nat) (data : List Byte)
  /-- A read request the function issued gets no completion within the completion timeout, halting the ring with CAUSE 2 or failing the BULK_WRITE (R410). -/
  | completionTimeout (ix : Nat)
  /-- The PCI Express link reaches DL_Up after training and HST_LINK.DL_UP becomes 1 (R436). -/
  | dlUp
  /-- Each 500 ns MREQ phase ends and the MREQ command toggles, checked by the canary's MREQ run rule (R140). -/
  | mreqToggle
  /-- REFCLK wander beyond ±3.5 ns slips the elastic buffer of an M crossing and the port retrains (R264). -/
  | elasticBufferSlip (d : Bool)
  deriving DecidableEq, Repr

end Sys2Proof
end

