-- ==== Sys2Proof/Config.lean ====
section
/-!
DEFINITION. The values the manual leaves open. None has a body a proof could see: what is proved holds for every choice.
-/
namespace Sys2Proof.Config

/-- A value the manual does not state, fresh for every use: the step applies it to the counter `State.freeIx` it advances
(notes/assumptions/1.md). -/
opaque freeValue : Nat → Nat

/-- The outcome of "a is later than b" on `n` bits when the difference is exactly half the range, which R4 leaves undefined. -/
opaque serialTie : Nat → Nat → Nat → Bool

/-- The word a block of the store holds where the manual gives the record but not the layout of its body (R493, R494): by
logical word address and sequence number. -/
opaque storeWord : Nat → Nat → Nat

/-- How the data of an event fill the 6 data bytes of an EVENT packet or of an event record (R303, R428): by code and data. -/
opaque eventData : Nat → List Nat → Nat

/-- How the TARGET field of a class 5 shift book entry holds tally and engine (R517). -/
opaque bulkTarget : Nat → Nat → Nat

/-- What the engine's instruction set leaves to the Sakonu architecture (R187): an operation of which the manual gives the
name and not the result, by operation, operand values. -/
opaque sakonu : Nat → List Nat → Nat

/-- The payload of a MIRROR packet (R319): the manual names the tables it carries and not their layout. By the numbers of the
tables laid end to end. -/
opaque mirror : List Nat → List Nat

/-- What a standby reads back from the last MIRROR payload: the assignment entries as (256 · tally + stope, OWN_LO, OWN_HI, SLOT_BASE),
the incarnation last granted to a tally, the spare of a tally. -/
opaque mirrorBank : List Nat → List (Nat × Nat × Nat × Nat)
opaque mirrorInc : List Nat → Nat → Nat
opaque mirrorSpare : List Nat → Nat → Nat

/-- SKEW derived from the code sampled on the fast ramp edge (R159): the manual states no slope. By slice (8 · bank + slice) and code. -/
opaque skewFrom : Nat → Nat → Nat

/-- The factory two-point trim of a die-temperature diode (R180): two codes and the temperatures they stand for, in °C × 2⁻⁴. -/
opaque diodeTrim : Nat → (Nat × Int) × (Nat × Int)

/-- Which program of the Kynko kit an instruction memory (address and byte) holds: 0 another, 1 the standard program, 2 the survey program. The
manual gives neither image (R230, R241). -/
opaque kitProgram : List (Nat × BitVec 8) → Nat

/-- Where the standard program puts its rings within its working area (R231): LCL_IN_BASE, LCL_IN_TAG and LOG2SLOTS. -/
opaque kitRing : Nat × Nat × Nat

/-- The bright regions of a picture of net values, row by row, as the survey program finds them (R241): lists of pixels (x, y). -/
opaque brightRegions : List (List Int) → List (List (Nat × Nat))

/-- The bytes of the pre-emphasis exchange (R272, R275), of which the manual gives the places and not the coding: an EQ request by what it asks
(as in State.eqAsk) and its number, what a request asks, the acknowledgement of a request; the eye figure of a horizontal and a vertical
margin. -/
opaque eqCode : Nat → Nat → Nat
opaque eqAsk : Nat → Nat
opaque eqAck : Nat → Nat
opaque eyeFigure : Nat → Nat → Nat

/-- Where a BAR2 read finds a byte of the kibble store (R408): by the sizes of its areas and the offset, the area (those of State.kibbleArea, 5 the
table area, others free) and the byte within it. The manual gives no map. -/
opaque kibblePlace : List Nat → Nat → Nat × Nat

end Sys2Proof.Config
end

