-- ==== Sys2Proof/Machine/Maps.lean ====
section
/-!
DEFINITION. Reading and writing the sparse tables of the state. A table lists only what differs from its default, in rising
order of its numbers, so equal tables are equal data.
-/
namespace Sys2Proof

/-- What number `k` holds, `d` where it is not listed. -/
def Tbl.get {α : Type} (d : α) : Tbl α → Nat → α
  | [], _ => d
  | (a, v) :: t, k => if a = k then v else Tbl.get d t k

/-- Strike number `k` from the table. -/
def Tbl.erase {α : Type} : Tbl α → Nat → Tbl α
  | [], _ => []
  | (a, v) :: t, k => if a = k then Tbl.erase t k else (a, v) :: Tbl.erase t k

/-- List `v` at number `k`. -/
def Tbl.insert {α : Type} : Tbl α → Nat → α → Tbl α
  | [], k, v => [(k, v)]
  | (a, w) :: t, k, v =>
    if a = k then (k, v) :: t else if k < a then (k, v) :: (a, w) :: t else (a, w) :: Tbl.insert t k v

/-- Number `k` holds `v` from now on; a `v` that is the default is not listed. -/
def Tbl.set {α : Type} [DecidableEq α] (d : α) (t : Tbl α) (k : Nat) (v : α) : Tbl α :=
  if v = d then Tbl.erase t k else Tbl.insert t k v

/-- The numbers rise strictly, all above a bound where one is given. -/
def Tbl.rises {α : Type} : Option Nat → Tbl α → Bool
  | _, [] => true
  | none, (a, _) :: t => Tbl.rises (some a) t
  | some b, (a, _) :: t => decide (b < a) && Tbl.rises (some a) t

/-- No listed value is the default. -/
def Tbl.sparse {α : Type} [DecidableEq α] (d : α) (t : Tbl α) : Bool := t.all fun p => decide (p.2 ≠ d)

/-- The canonical form: strictly rising, nothing listed that equals the default. -/
def Tbl.wf {α : Type} [DecidableEq α] (d : α) (t : Tbl α) : Bool := Tbl.rises none t && Tbl.sparse d t

/-- Every number of a list takes the value a function gives it. -/
def Tbl.setAll {α : Type} [DecidableEq α] (d : α) (f : Nat → α) : List Nat → Tbl α → Tbl α
  | [], t => t
  | k :: ks, t => Tbl.setAll d f ks (Tbl.set d t k (f k))

/-- Keep only the entries a test on the number accepts. -/
def Tbl.keep {α : Type} (p : Nat → Bool) (t : Tbl α) : Tbl α := t.filter fun e => p e.1

/-- Bit `i` of a number. -/
def bit (v i : Nat) : Bool := Nat.testBit v i

/-- A number with bit `i` set or cleared. -/
def setBit (v i : Nat) (b : Bool) : Nat :=
  if b then v ||| (1 <<< i) else v - (v &&& (1 <<< i))

/-- The `w` bits of a number from bit `lo`. -/
def bits (v lo w : Nat) : Nat := (v >>> lo) % 2 ^ w

/-- 1 for true, 0 for false: the value of a one-bit field. -/
def ofBool (b : Bool) : Nat := if b then 1 else 0

/-- How many bits of the low `n` are 1. -/
def popCount (v : Nat) : Nat → Nat
  | 0 => 0
  | n + 1 => popCount v n + ofBool (bit v n)

/-- The numbers of the bits of the low `n` that are 1, rising. -/
def bitsOf (v n : Nat) : List Nat := (List.range n).filter fun i => bit v i

/-- A field of `w` bits read as a two's complement number. -/
def signed (w v : Nat) : Int := if v % 2 ^ w < 2 ^ (w - 1) then (v % 2 ^ w : Nat) else (v % 2 ^ w : Nat) - (2 ^ w : Nat)

/-- A whole number as the `w` bits of its two's complement form. -/
def unsigned (w : Nat) (z : Int) : Nat := (z % ((2 ^ w : Nat) : Int)).toNat

/-- A whole number held between two bounds. -/
def clampInt (lo hi z : Int) : Int := if z < lo then lo else if hi < z then hi else z

/-- The whole number nearest to `a / b`, halves to even. -/
def roundHalfEven (a b : Int) : Int :=
  let q := a / b
  let r := a % b
  if 2 * r < b then q else if b < 2 * r then q + 1 else if q % 2 = 0 then q else q + 1

/-- The little-endian bytes of a number, `n` of them (R2). -/
def leBytes (v : Nat) : Nat → List Nat
  | 0 => []
  | n + 1 => v % 256 :: leBytes (v / 256) n

/-- The number a list of bytes spells, little-endian (R2). -/
def ofLeBytes : List Nat → Nat
  | [] => 0
  | b :: bs => b % 256 + 256 * ofLeBytes bs

/-- Serial comparison on `n` bits (R4): `a` is later than `b`. At a difference of exactly half the range the manual leaves the
comparison undefined, and so does the model. -/
def serialLater (n a b : Nat) : Bool :=
  let d := (a % 2 ^ n + 2 ^ n - b % 2 ^ n) % 2 ^ n
  if d = 2 ^ (n - 1) then Config.serialTie n a b else decide (0 < d ∧ d < 2 ^ (n - 1))

/-- The serial difference a − b on `n` bits. -/
def serialDiff (n a b : Nat) : Nat := (a % 2 ^ n + 2 ^ n - b % 2 ^ n) % 2 ^ n

end Sys2Proof
end

