-- ==== Sys2Proof/Machine/Codes.lean ====
section
/-!
DEFINITION. The check codes and the message authentication the manual names: CRC-32 (IEEE 802.3), CRC-16 and CRC-4 of the chain
and the records, and HMAC-SHA-256 (FIPS 198-1) of the roles block.
-/
namespace Sys2Proof

/-- One bit step of a reflected CRC with polynomial `p`. -/
def crcStepR (p c : Nat) : Nat := if c % 2 = 1 then (c / 2) ^^^ p else c / 2

/-- `n` bit steps of a reflected CRC. -/
def crcStepsR (p : Nat) : Nat → Nat → Nat
  | 0, c => c
  | n + 1, c => crcStepsR p n (crcStepR p c)

/-- CRC-32, IEEE 802.3 polynomial, continued over bytes from register value `c`. -/
def crc32Run : Nat → List Nat → Nat
  | c, [] => c
  | c, b :: bs => crc32Run (crcStepsR 0xEDB88320 8 (c ^^^ (b % 256))) bs

/-- CRC-32 of a byte string. -/
def crc32 (bs : List Nat) : Nat := crc32Run 0xFFFFFFFF bs ^^^ 0xFFFFFFFF

/-- One bit step of a CRC of width `w` with polynomial `p`, most significant bit first, taking in bit `b`. -/
def crcStepL (w p c : Nat) (b : Bool) : Nat :=
  let t := (bit c (w - 1)) != b
  let c2 := (c * 2) % 2 ^ w
  if t then c2 ^^^ p else c2

/-- The low `n` bits of `v`, most significant first, run through a CRC. -/
def crcBitsL (w p : Nat) : Nat → Nat → Nat → Nat
  | 0, c, _ => c
  | n + 1, c, v => crcBitsL w p n (crcStepL w p c (bit v n)) v

/-- A CRC of width `w` over bytes, most significant bit first. -/
def crcBytesL (w p : Nat) : Nat → List Nat → Nat
  | c, [] => c
  | c, b :: bs => crcBytesL w p (crcBitsL w p 8 c (b % 256)) bs

/-! ### SHA-256 (FIPS 180-4), which HMAC-SHA-256 (R509) takes. Its constants are computed from their definition there: the first 32
bits of the fractional parts of roots of the first primes. -/

/-- The integer root of degree `k` of `n`, found bit by bit from bit `b - 1` down, `r` found so far. -/
def rootFrom (k n : Nat) : Nat → Nat → Nat
  | 0, r => r
  | b + 1, r => rootFrom k n b (if (r + 2 ^ b) ^ k ≤ n then r + 2 ^ b else r)

/-- The first 32 bits of the fractional part of the root of degree `k` of `p`, for roots below 2⁵. -/
def rootFraction (k p : Nat) : Nat := rootFrom k (p * 2 ^ (32 * k)) 37 0 % 2 ^ 32

/-- The first 64 primes: those below 312. -/
def smallPrimes : List Nat :=
  (List.range 312).filter fun n => decide (2 ≤ n) && (List.range 18).all fun d => decide (d < 2 ∨ n < d * d ∨ n % d ≠ 0)

/-- A 32-bit word rotated right by each of some distances, the results added without carry. -/
def turned (by_ : List Nat) (v : Nat) : Nat := by_.foldl (fun x n => x ^^^ v * (2 ^ 32 + 1) / 2 ^ n % 2 ^ 32) 0

/-- The sum of words modulo 2³². -/
def wordSum (l : List Nat) : Nat := l.foldl Nat.add 0 % 2 ^ 32

/-- The message schedule, newest word first, grown by `n` words. -/
def schedule : Nat → List Nat → List Nat
  | 0, w => w
  | n + 1, w =>
    let at_ (i : Nat) := w.getD (i - 1) 0
    schedule n (wordSum [at_ 16, at_ 7, turned [7, 18] (at_ 15) ^^^ at_ 15 / 8, turned [17, 19] (at_ 2) ^^^ at_ 2 / 1024] :: w)

/-- The working variables as the two shift registers they form: a to d and e to h. -/
structure Working where
  near : Nat × Nat × Nat × Nat
  far : Nat × Nat × Nat × Nat

/-- One round with the sum of its constant and its schedule word. -/
def Working.round (x : Working) (kw : Nat) : Working :=
  let (a, b, c, d) := x.near
  let (e, f, g, h) := x.far
  let t := h + turned [6, 11, 25] e + (g ^^^ e &&& (f ^^^ g)) + kw
  ⟨(wordSum [t, turned [2, 13, 22] a, a &&& b ||| c &&& (a ||| b)], a, b, c), (wordSum [d, t], e, f, g)⟩

/-- The eight words of the working variables. -/
def Working.words (x : Working) : List Nat := [x.near.1, x.near.2.1, x.near.2.2.1, x.near.2.2.2, x.far.1, x.far.2.1, x.far.2.2.1, x.far.2.2.2]

/-- The working variables that start from eight words. -/
def Working.start (h : List Nat) : Working :=
  let at_ (i : Nat) := h.getD i 0
  ⟨(at_ 0, at_ 1, at_ 2, at_ 3), (at_ 4, at_ 5, at_ 6, at_ 7)⟩

/-- The number that a byte string spells, first byte most significant, cut into `n` words of `w` bits. -/
def cutWords (w : Nat) : Nat → Nat → List Nat
  | 0, _ => []
  | n + 1, v => v / 2 ^ (w * n) % 2 ^ w :: cutWords w n v

/-- The number that digits of `w` bits spell, the first most significant. -/
def spelled (w : Nat) (l : List Nat) : Nat := l.foldl (fun v x => v * 2 ^ w + x) 0

/-- The hash value after one block, given as a number of 512 bits. -/
def hashBlock (h : List Nat) (block : Nat) : List Nat :=
  let sums := List.zipWith Nat.add (smallPrimes.map (rootFraction 3)) (schedule 48 (cutWords 32 16 block).reverse).reverse
  List.zipWith (fun x y => wordSum [x, y]) h (sums.foldl Working.round (Working.start h)).words

/-- SHA-256 of a byte string, 32 bytes in digest order. The padded message is one number: the string, the bit 1, zeros and the length. -/
def sha256 (bs : List Nat) : List Nat :=
  let blocks := (bs.length + 72) / 64
  let padded := (spelled 8 bs * 2 + 1) * 2 ^ (512 * blocks - 8 * bs.length - 1) + 8 * bs.length
  let h := (cutWords 512 blocks padded).foldl hashBlock ((smallPrimes.take 8).map (rootFraction 2))
  cutWords 8 32 (spelled 32 h)

/-- HMAC-SHA-256 with a key of at most 64 bytes (FIPS 198-1). -/
def hmacSha256 (key msg : List Nat) : List Nat :=
  let k := key ++ List.replicate (64 - key.length) 0
  sha256 (k.map (fun b => b ^^^ 0x5C) ++ sha256 (k.map (fun b => b ^^^ 0x36) ++ msg))

end Sys2Proof
end

