-- ==== Sys2Proof/Machine/State.lean ====
section
/-!
DEFINITION. The state of one ZG201 as plain data: the register store, the freewheel counter, and one record for each block
with what that block holds beside its registers; and the state right after power-on reset.
-/
namespace Sys2Proof.Machine

/-- Access codes of the register tables (R9). -/
inductive Acc where
  | ro
  | rw
  | w1c
  | wo
  | rws
  deriving DecidableEq, Repr

/-- A field of the register space (R8): the offset of its register, its lowest bit, its width, its access code, the role that
gates writes to it and its reset value. -/
structure Field where
  off : Nat
  lo : Nat
  width : Nat
  acc : Acc
  role : Option Role
  reset : Nat
  deriving DecidableEq, Repr

/-- The number a field is kept under in the register store. -/
def Field.key (f : Field) : Nat := f.off * 32 + f.lo

/-- An event on its way to the host: code (R20), raising unit and incarnation, data as the code's table lists them, and the
raising unit's freewheel count (R428). -/
structure Event where
  code : Nat
  data : List Nat
  tally : Nat
  inc : Nat
  fwc : Nat
  /-- The data bytes as an EVENT packet of a crew unit brought them, least significant first. -/
  raw : Option Nat
  deriving DecidableEq, Repr

/-- No command of the block ends in a fault: the manual gives every listed command an effect (notes/assumptions/2.md). -/
inductive Fault where
  deriving DecidableEq, Repr

/-- Why a command has no outcome. -/
inductive Refusal where
  /-- The command has no meaning in this model yet; raised by the dispatch table alone. Safe: nothing is claimed of it. -/
  | notModelled (mnemonic : String)
  deriving DecidableEq, Repr

/-! ### Power and clocks (ch. 13), start-up (ch. 15) -/

/-- What the power controller, the PLLs and the start-up sequence hold beside pages 0x01 and 0x02. -/
structure Pwr where
  /-- VAON is good; false is the state OFF (R454). -/
  vaon : Bool := true
  /-- The last event E1 to E5 of R456 that has passed, 0 when no start-up is running. -/
  startup : Nat := 0
  /-- Rails of groups 2 to 6 below 0.3 V, bit order of PWR_RAIL.GOOD (R452). -/
  railLow : Nat := 0x1FF
  /-- Stage of each PLL (0 L, 1 T, 2 S): 0 stopped, 1 waiting for its reference, 2 band search, 3 analogue lock, 4 hold,
  5 locked (R441). -/
  pllStage : Tbl Nat := []
  /-- SYSRST_N is low (R485). -/
  sysrst : Bool := false
  /-- PERST_N is asserted (R412). -/
  perst : Bool := true
  /-- The foreman boots: 1 at start-up, 2 after SYSRST_N, 3 under R561, 4 while the canary holds its cores in
  reset; 0 when it runs or SYS has not started. -/
  boot : Nat := 0
  /-- The lamp check item to run next, while a lamp check runs (R487). -/
  lampItem : Option Nat := none
  /-- Freewheel count at which the lamp check began. -/
  lampAt : Nat := 0
  /-- The foreman stays in the ROM loader for want of a valid firmware bank (R486): no firmware runs. -/
  rom : Bool := false
  deriving DecidableEq, Repr

/-! ### Safety (ch. 14) -/

/-- What the canary and the recovery logic hold beside page 0x03. -/
structure Saf where
  /-- R44 has been met since the last power-on or start-up reset. -/
  r44 : Bool := false
  /-- Power state at entry to the recovery or HOLD in progress (R473). -/
  entryState : Nat := 0
  /-- Freewheel count of the first action of the recovery in progress (R473). -/
  since : Nat := 0
  /-- Fault code and argument of the L1 action in progress (R478). -/
  l1 : Option (Nat × Nat) := none
  /-- Code, argument and count of the fault whose L1 waits for a gap mark (R478). -/
  deferred : Option (Nat × Nat × Nat) := none
  /-- L1 actions abandoned or timed out, to be carried out again by the L2 actions (R568 step 3). -/
  redo : List (Nat × Nat) := []
  /-- The L2 actions of R568 are not complete. -/
  acting : Bool := false
  /-- The foreman reboot of R568 step 2 is awaited. -/
  reboot : Bool := false
  /-- The HOLD request line (R465). -/
  request : Bool := false
  /-- Rails other than VDDIO, VCORE and VMID whose RAIL_FAULT is a HOLD cause (R471), bit order of PWR_RAIL.GOOD. -/
  railCause : Nat := 0
  /-- RAIL_FAULT of VDDIO, VCORE or VMID: only STANDBY is accepted (R453, R471). -/
  railFatal : Bool := false
  /-- PLL-T or PLL-S lost and not LOCKED since: bit 1 PLL-T, bit 2 PLL-S (R471). -/
  pllCause : Nat := 0
  /-- The last CANARY count was beyond ±10 % (R466). -/
  drift : Bool := false
  /-- A converter bank is FAILED (R471). -/
  bankFailed : Bool := false
  /-- Freewheel count of the last rising edge of the request run in progress (R462). -/
  mreqRise : Option Nat := none
  /-- Freewheel count at which the MREQ command went low, while it is low (R462). -/
  mreqFall : Option Nat := none
  /-- Freewheel count of the CHAIN_RESTART write, while its L3 runs (R480). -/
  restart : Option Nat := none
  /-- RECOVERY_TIMEOUT has been raised for the L2 in progress (R478). -/
  timedOut : Bool := false
  /-- Fault classes the recovery in progress already covers (R475). -/
  covered : List Nat := []
  /-- Crew tallies that reported READY since the CHAIN_RESTART (R480 step 5), one bit each. -/
  readyUnits : Nat := 0
  deriving DecidableEq, Repr

/-! ### Roles and the shift book (ch. 16) -/

/-- A challenge outstanding for one role on one path (R509). -/
structure Chal where
  nonce : List Nat
  ctr : Nat
  issued : Nat
  deriving DecidableEq, Repr

/-- An open session: the challenge that opened it and the freewheel count of the last accepted write that needed it (R512,
R513). -/
structure Sess where
  nonce : List Nat
  ctr : Nat
  used : Nat
  deriving DecidableEq, Repr

/-- A shift book entry (R517), its reserved bytes and CRC left to the function that lays it out. -/
structure SbEntry where
  number : Nat
  role : Nat
  path : Nat
  cls : Nat
  result : Nat
  target : Nat
  value : Nat
  sec : Nat
  ns : Nat
  frac : Nat
  tstate : Nat
  tally : Nat
  fwc : Nat
  detail : List Nat
  deriving DecidableEq, Repr

/-- What the roles block holds beside page 0x10. Tables by path and role use the number 4 · path + role, path 0 BAR0 and 1 I²C,
role 1 to 3 (R510). -/
structure Rol where
  chal : Tbl (Option Chal) := []
  sess : Tbl (Option Sess) := []
  fails : Tbl Nat := []
  /-- End of the lockout as a freewheel count (R512). -/
  locked : Tbl (Option Nat) := []
  /-- The counter C (R511). -/
  ctr : Nat := 0
  /-- The stored base of C (R511); kept by the store. -/
  base : Nat := 65536
  /-- The three 256-bit keys as 32 bytes each, by role (R510); kept by the store. -/
  keys : Tbl (List Nat) := [(1, List.replicate 32 1), (2, List.replicate 32 2), (3, List.replicate 32 3)]
  /-- SEQ of the key record in force (R514); kept by the store. -/
  keySeq : Nat := 1
  /-- Response words written on a path, by 8 · path + word (ROL_RESPk reads 0). -/
  resp : Tbl Nat := []
  /-- Wrapped-key words written on a path, by 8 · path + word (ROL_KEY_Wk reads 0). -/
  keyW : Tbl Nat := []
  /-- Key check value written on a path (ROL_KEY_CHK reads 0). -/
  keyChk : Tbl Nat := []
  /-- Sessions open when SYSRST_N closed them, by 4 · path + role (R512). -/
  wasOpen : List Nat := []
  deriving DecidableEq, Repr

/-! ### The store and the self-test (ch. 15) -/

/-- A write operation of the store controller (R500): OP as NVS_STATUS.OP codes it, area (R494), bank and SEQ written, words
written so far, and whether a block was retired in it. -/
structure NvsOp where
  op : Nat
  area : Nat
  bank : Nat
  seq : Nat
  words : Nat
  retired : Bool
  path : Nat
  role : Nat
  deriving DecidableEq, Repr

/-- An image being written (R497). -/
structure NvsImg where
  area : Nat
  bank : Nat
  seq : Nat
  deriving DecidableEq, Repr

/-- What the store holds, and its controller beside page 0x0F. Areas are numbered in the order of R493: 1 firmware,
2 calibration set, 3 installer record, 4 role keys, 5 goldens, 6 shift book, 7 defect map. -/
structure Nvs where
  /-- SEQ + 1 of each valid bank, by 2 · area + bank; 0 for an invalid one (R494). -/
  banks : Tbl Nat := [(2, 2), (4, 2), (10, 2)]
  /-- What each bank of the calibration, installer and goldens areas holds, by 2 · area + bank. -/
  content : Tbl (Tbl Nat) := []
  /-- Content being committed by the operation in progress. -/
  staged : Tbl Nat := []
  /-- 64-bit words of the image areas written since the factory, + 1, by logical word address. -/
  words : Tbl Nat := []
  /-- Physical block + 1 of each logical block that was moved, 0 for one that stands at its own number (R492). -/
  phys : Tbl Nat := []
  /-- Spare blocks left (R492). -/
  spares : Nat := 16
  worn : Tbl Bool := []
  moved : Tbl Bool := []
  corr : Tbl Nat := []
  headerSeq : Nat := 1
  op : Option NvsOp := none
  img : Option NvsImg := none
  /-- Area, bank and SEQ of a STARTED entry that has no closing entry (R496). -/
  unclosed : Option (Nat × Nat × Nat) := none
  /-- Shift book entries waiting to be written (R500). -/
  sbQueue : List SbEntry := []
  /-- The entry that accepted writes still coalesce into, and its opening count (R516). -/
  sbOpen : Option (SbEntry × Nat) := none
  /-- Number of the next entry (R517). -/
  sbNext : Nat := 0
  /-- Entries in their slots (R518). -/
  sbSlots : Tbl (Option SbEntry) := []
  /-- High half of the word latched by a read of NVS_RD_DATA_LO. -/
  rdHi : Nat := 0
  /-- Blocks waiting for a rewrite in place (R499). -/
  rewrite : List Nat := []
  /-- The BIST run in progress: target and kind (R501). -/
  bist : Option (Nat × Nat) := none
  /-- The quadrant that a run in SAFE-TALK enabled for its duration (R501). -/
  bistQuad : Option Nat := none
  deriving DecidableEq, Repr

/-! ### The host interface (ch. 12) and the I²C target (ch. 17) -/

/-- A read the function has issued to host memory and not seen completed: kind 0 a submission descriptor, 1 a data ring
descriptor, 2 data of a BULK_WRITE; its ring, index, host address and length, and for kind 2 the transfer number of its command as index. -/
structure HostRead where
  kind : Nat
  ring : Nat
  index : Nat
  addr : Nat
  len : Nat
  deriving DecidableEq, Repr

/-- A write the function has issued to host memory. -/
structure HostWrite where
  addr : Nat
  bytes : List Nat
  deriving DecidableEq, Repr

/-- A command fetched and not yet completed (R419, R424, R433): its opcode and descriptor, the TAG or transfer number and the count at which its
request or LAST packet was sent, and, for a BULK_WRITE, data bytes asked for, words written, words not taken and the CRC register. -/
structure Flight where
  opc : Nat
  desc : Desc
  tag : Nat
  sent : Option Nat := none
  asked : Nat := 0
  written : Nat := 0
  refused : Nat := 0
  crc : Nat := 0xFFFFFFFF
  deriving DecidableEq, Repr

/-- A bulk transfer arriving at a crew unit (R432): transfer number, words written, words not taken, CRC register. -/
structure BulkIn where
  xfer : Nat
  written : Nat
  refused : Nat
  crc : Nat
  deriving DecidableEq, Repr

/-- The buffer a data ring is filling (R427, R429). -/
structure DrBuf where
  addr : Nat
  cookie : Nat
  used : Nat
  count : Nat
  first : Nat
  last : Nat
  since : Nat
  deriving DecidableEq, Repr

/-- An item waiting for a data ring: its stream, the ring it goes to, its bytes, its sweep number. -/
structure Item where
  stream : Nat
  ring : Nat
  bytes : List Nat
  sweep : Nat
  deriving DecidableEq, Repr

/-- What the host interface holds beside page 0x0E. -/
structure Hst where
  /-- Ring base addresses as committed by BASE_HI (R16), by 64 · kind + ring. -/
  base : Tbl Nat := []
  reads : List HostRead := []
  writes : List HostWrite := []
  /-- Descriptor fetches whose completions were dropped under R468, to be issued again. -/
  refetch : List HostRead := []
  flight : List Flight := []
  /-- Commands fetched that wait for earlier ones of their ring (R420): opcode and descriptor. -/
  held : List (Nat × Desc) := []
  /-- Submission rings whose EN was written 0 with commands in flight (R418). -/
  stopping : List Nat := []
  /-- A bulk transfer arriving at this crew unit. -/
  bulkIn : Option BulkIn := none
  /-- Count of the Function Level Reset whose E5 is to come (R435). -/
  flrAt : Option Nat := none
  /-- Entries of each submission ring fetched ahead of its HEAD. -/
  sqFetched : Tbl Nat := []
  /-- Entries of each completion ring written and not yet signalled, and the count of the first of them (R422). -/
  unsignalled : Tbl Nat := []
  firstUnsignalled : Tbl (Option Nat) := []
  /-- The buffer each data ring is filling; descriptors read ahead of it. -/
  dr : Tbl (Option DrBuf) := []
  drReady : Tbl (List (Nat × Nat)) := []
  drStarved : Tbl Bool := []
  drLost : Tbl Nat := []
  waiting : List Item := []
  /-- MSI-X table words and pending bits (R407, R409). -/
  msix : Tbl Nat := []
  msixPending : Nat := 0
  /-- Vectors sent, oldest first. -/
  sent : List Nat := []
  /-- The next proxy TAG. -/
  tag : Nat := 0
  bmeCleared : Option Nat := none
  d3Entered : Option Nat := none
  graceOver : Bool := false
  pet : Option Nat := none
  /-- Freewheel count of the last BAR2_DENIED event and shift book entry (R408). -/
  bar2Denied : Option Nat := none
  eventLost : Bool := false
  rdRobin : Nat := 0
  deriving DecidableEq, Repr

/-- The identifiers that configuration space holds (R404); the Device Serial Number is the unit's own, `State.serial`. Which revision the silicon
has is not in the manual, only that they count from 0x01: DESIGN CHOICE (notes/assumptions/65.md). -/
structure CfgSpace where
  vendorId : Nat := 0x1F7D
  deviceId : Nat := 0x0201
  revisionId : Nat := 0x01
  classCode : Nat := 0x118000
  subsystemVendorId : Nat := 0x1F7D
  subsystemId : Nat := 0x0201
  deriving DecidableEq, Repr

/-- What the I²C target holds beside page 0x11 (R526 to R535). -/
structure I2c where
  /-- The ADDR straps sampled at power-on reset (R522). -/
  addr : Nat := 0
  /-- I2C_CFG.FILT as taken at the last start condition (R524). -/
  filt : Nat := 1
  /-- Bytes of the word being written by the transfer in progress (R527). -/
  partialBytes : List Nat := []
  /-- The word being sent by the read transfer in progress, if its bytes are not all sent. -/
  reading : Bool := false
  /-- The target holds SCL for an access (R530): 0 no, 1 a write, 2 a read. -/
  hold : Nat := 0
  /-- Count at which the hold began. -/
  holdAt : Nat := 0
  /-- The last word sent on a read transfer, as the master saw it. -/
  sent : List Nat := []
  /-- The last byte of the transfer was not acknowledged. -/
  nack : Bool := false
  deriving DecidableEq, Repr

/-! ### Time (ch. 11). Times are whole numbers of 2⁻¹⁶ ns, counts are freewheel counts. -/

/-- A published frame start as received, or as the host wrote it (R393, R394): epoch, period and wall frame. -/
structure Pub where
  epoch : Int
  period : Nat
  frame : Nat
  /-- Count at its arrival (R90). -/
  arrived : Nat := 0
  deriving DecidableEq, Repr

/-- The link delay exchanges of one port (R384, R385): number of the exchange in progress, departure of its REQ and arrival of
its RESP in ticks × 2⁻³, the last delays accepted (newest first, in halves of that), and how many since the port became ACTIVE. -/
structure DelayX where
  seq : Nat := 0
  t1 : Option Nat := none
  t4 : Option Nat := none
  last : List Int := []
  count : Nat := 0
  deriving DecidableEq, Repr

/-- A pulse output (R396, R397): the number of the next edge, the land level, and the count at which it falls. -/
structure Pulse where
  next : Option Nat := none
  high : Bool := false
  fall : Nat := 0
  deriving DecidableEq, Repr

/-- What the time unit holds beside page 0x04. -/
structure Tim where
  /-- T_A of R373. -/
  anchor : Int := 0
  /-- f_A of R373. -/
  anchorFwc : Nat := 0
  /-- The remainder a slew began with and the count at which it began (R377). -/
  slew : Option (Int × Nat) := none
  /-- Count of the last host write of TIM_RATE or TIM_STEP2 (R380). -/
  lastHost : Option Nat := none
  /-- Count at which the holdover in progress began (R381). -/
  holdAt : Option Nat := none
  /-- Consecutive pairs within LOCK_NS, and the count of the last pair used (R391). -/
  goodPairs : Nat := 0
  pairAt : Nat := 0
  /-- The Sync waiting for its Follow_Up: arrival port, sequenceId, arrival count in ticks × 2⁻³ (R388). -/
  sync : Option (Nat × Nat × Nat) := none
  /-- The sequenceId of the last pair used (R388). -/
  lastSeq : Option Nat := none
  /-- The sequenceId of the next Sync sent, and the departures of the last one by port (R386). -/
  syncSeq : Nat := 0
  syncOut : List (Nat × Nat) := []
  /-- Count of the last SYNC_DROPPED event (R388). -/
  lastDrop : Option Nat := none
  delay : Tbl DelayX := []
  /-- The last publication of each kind received (0 scan, 1 mains) (R394). -/
  pubs : Tbl (Option Pub) := []
  /-- TIM_PUB_W0–W5 as staged and as committed, by 8 · kind + word (R16). -/
  pubW : Tbl Nat := []
  pubC : Tbl Nat := []
  /-- START of each pulse output as committed, in seconds × 10⁹ + nanoseconds (R16, R396). -/
  tpStart : Tbl Nat := []
  tp : Tbl Pulse := []
  deriving DecidableEq, Repr

/-! ### Cegon link (ch. 08). Ports are numbered 0 U, 1 D. -/

/-- The pre-emphasis exchange of a lane (R275): as receiver, the stage of what it asks of the far transmitter (0 to 7 presets in turn, 8 the best
one again, 9 C_PRE up, 10 down, 11 C_POST up, 12 down, 13 done), whether a step that did not help is being taken back, the best preset, the
margin it keeps, the figure of the last request, the far taps as asked for and the number of requests; as transmitter, the request it
answered last. -/
structure LaneEq where
  stage : Nat := 0
  undo : Bool := false
  best : Nat := 0
  margin : Nat := 0
  last : Nat := 0
  pre : Nat := 0
  post : Nat := 0
  number : Nat := 0
  taken : Option Nat := none
  deriving DecidableEq, Repr

/-- One lane of a port: bit alignment tested, blocks confirmed there, blocks in a row without SYNC (R271), keystream generators of both
directions (R267), the run of equal bits that ends the last block sent (R268). -/
structure Lane where
  align : Nat := 0
  confirm : Nat := 0
  miss : Nat := 0
  /-- Keystream state of the transmit direction, 58 bits. -/
  txKey : Nat := 0
  rxKey : Nat := 0
  /-- The keystream of the receive direction runs (E7 of R273). -/
  rxOn : Bool := false
  /-- Value and length of the run of equal bits that ends the last block sent. -/
  txRun : Nat × Nat := (0, 0)
  /-- Words of the last block sent at the lands. -/
  sent : List Nat := []
  /-- Block count of the last block received (slot 4 of R272). -/
  count : Nat := 0
  /-- Blocks that wait for those of the other lanes: count and payload words, none where the header was in error (R270, R272). -/
  rx : List (Nat × Option (List Nat)) := []
  /-- Words a far-end loop returns (R290). -/
  back : List Nat := []
  /-- Pattern generator and checker of the loops; the checker follows the pattern (R290). -/
  gen : Nat := 0
  chk : Nat := 0
  chkOn : Bool := false
  /-- Valid training blocks in a row (E4 of R273). -/
  trained : Nat := 0
  eq : LaneEq := {}
  deriving DecidableEq, Repr

/-- A DATA frame kept for replay (R283): its SEQ, control word, packet bytes, the count at which it was last due to leave first, and OFFSCHED. -/
structure LinkFrame where
  seq : Nat
  ctrl : Nat
  bytes : List Nat
  born : Nat
  late : Bool
  deriving DecidableEq, Repr

/-- Packet bytes on their way out of a port (R284): for passing bytes the block count from which they may leave; a time message; a whole
packet, of which no byte has left. -/
structure OutBytes where
  bytes : List Nat
  due : Option Nat
  time : Bool
  whole : Bool
  deriving DecidableEq, Repr

/-- What a port holds beside its registers. -/
structure Port where
  /-- Lanes with signal. -/
  signal : Nat := 0
  lanes : Tbl Lane := []
  /-- Count of the last entry to DETECT, while training runs (R274). -/
  detectAt : Option Nat := none
  /-- A training timed out and the port waits 10 ms (R274). -/
  waiting : Bool := false
  /-- The port has trained since power-on (ERRCNT2.RETRAINS). -/
  everTrained : Bool := false
  /-- WIDTH_MAX as it stood when training began (R278). -/
  widthMax : Nat := 8
  /-- Training information of the far end: lanes locked there, its proposed map, its START_BC, tally and hops (R272). -/
  farLocked : Nat := 0
  farMap : Nat := 0
  farStart : Option Nat := none
  farTally : Nat := 0
  farHops : Nat := 63
  /-- Lane map agreed at E5, lanes locked at both ends there, and the transmit map in force (R276, R278). -/
  agreed : Nat := 0
  trainedMap : Nat := 0
  txMap : Nat := 0
  /-- M depth of the path that leaves by this port, in blocks (R272, R284). -/
  depth : Nat := 0
  /-- Block count at which this end starts its keystreams, once it is chosen (R272, R273). -/
  startBc : Option Nat := none
  /-- Peer serial and lane map of the stored taps; preset, C_PRE and C_POST stored for each lane (R275). -/
  tapsPeer : Option Nat := none
  tapsMap : Nat := 0
  taps : Tbl (Nat × Nat × Nat) := []
  /-- Blocks sent since the start of training. -/
  blocks : Nat := 0
  /-- Keystreams run (E7 of R273). -/
  keyed : Bool := false
  /-- SEQ of the next DATA frame, last SEQ received in order, and the NAK this end sends (R281, R282). -/
  txSeq : Nat := 0
  rxSeq : Nat := 4095
  nak : Bool := false
  /-- NAK stood in the last good frame from the far end (R281, R283). -/
  peerNak : Bool := false
  /-- Frames not yet acknowledged, and how many of them have left since the last replay began (R283). -/
  replay : List LinkFrame := []
  sentTo : Nat := 0
  /-- Replays in a row without the ACK advancing (R285). -/
  replays : Nat := 0
  /-- Packet bytes on their way out; control words that wait for a frame (R279, R284). -/
  out : List OutBytes := []
  ctls : List Nat := []
  /-- Packet bytes received in order; a frame that brought some of the packet at their head carried OFFSCHED (R284). -/
  rxBytes : List Nat := []
  rxLate : Bool := false
  /-- For the time messages received and not yet taken, oldest first: some of it arrived in an OFFSCHED frame (R284). -/
  stamps : List Bool := []
  /-- Frames accepted since this end last sent an ACK, and the count at the first of them (R288). -/
  unacked : Nat := 0
  unackedAt : Option Nat := none
  /-- Requests sent and not acknowledged: their control CODE and LANES, one of each kind (R286). -/
  requests : List (Nat × Nat) := []
  /-- Lane maps that take effect at an agreed boundary, with the blocks left to it; none until the request's frame has left (R277). -/
  newRx : Option (Nat × Option Nat) := none
  newTx : Option (Nat × Nat) := none
  /-- A narrowing to request once the change under way has taken effect (R286). -/
  laterMap : Option Nat := none
  /-- The count at which a packet byte last waited (R287); SLEEP has been asked for and its ACK is awaited. -/
  lastByte : Nat := 0
  sleeping : Bool := false
  /-- The far transmitter has fallen silent since its SLEEP (R287, R288). -/
  peerQuiet : Bool := false
  /-- The loop in progress was asked for by the far end: the lanes it loops (R290). -/
  loopFar : Option Nat := none
  deriving DecidableEq, Repr

/-- The two ports. -/
structure Lnk where
  u : Port := {}
  d : Port := {}
  deriving DecidableEq, Repr

/-! ### The chain (ch. 09) -/

/-- What the pithead keeps of a tally (R311, R316, CHN_PEER_STATUS). -/
structure Peer where
  serial : Nat := 0
  joined : Bool := false
  dead : Bool := false
  quarantined : Bool := false
  inc : Nat := 0
  missed : Nat := 0
  hopsU : Nat := 63
  hopsD : Nat := 63
  strap : Bool := false
  priority : Nat := 0
  gear : Nat := 0
  power : Nat := 0
  /-- The unit reported in the roll call in progress. -/
  reported : Bool := false
  deriving DecidableEq, Repr

/-- A roll call in progress at the pithead (R309 to R313): join call or full call, second token sent, its start. -/
structure RollCall where
  join : Bool
  second : Bool
  began : Nat
  /-- Units the token had passed when it came back to port U. -/
  expect : Option Nat
  /-- Reports received. -/
  reports : Nat
  whole : Bool
  deriving DecidableEq, Repr

/-- An assignment entry (R327). -/
structure Asg where
  valid : Bool := false
  lo : Nat := 0
  hi : Nat := 0
  base : Nat := 0
  deriving DecidableEq, Repr

/-- The pithead's derailleur (R323): number, what changes, commit sweep, lock ratios and the epochs it announced. -/
structure Derail where
  gearCh : Bool
  asgCh : Bool
  k : Nat
  lOld : Nat
  lNew : Nat
  gear : Nat
  assign : Nat
  prevGear : Nat
  prevAssign : Nat
  deriving DecidableEq, Repr

/-- What a unit holds of an ARM it acknowledged (R323). -/
structure Armed where
  number : Nat
  gear : Nat
  assign : Nat
  k : Nat
  gearCh : Bool
  asgCh : Bool
  result : Nat
  deriving DecidableEq, Repr

/-- A stope sweep being built from a run of packets (R331): the tags of its packets, the 40 header bytes, and the record bytes
received so far. -/
structure Build where
  inc : Nat
  sweep : Nat
  gear : Nat
  assign : Nat
  hdr : List Nat
  keys : List Nat
  deltas : List Nat
  stat : List Nat
  aux : List Nat
  deriving DecidableEq, Repr

/-- What the chain block holds beside page 0x0B. Tables by tally and stope use the number 256 · tally + stope. -/
structure Chn where
  /-- Count of the first claim, and whether a better claim stopped the claiming (R305, R306). -/
  claimAt : Option Nat := none
  /-- A ROLL, or a CLAIM with STANDING 1, has been heard (R305). -/
  heard : Bool := false
  /-- The last ROLL heard was that of a join call (R311). -/
  joinCall : Bool := false
  pitheadSerial : Nat := 0
  standby : Nat := 0
  roll : Option RollCall := none
  /-- A call that waits for the derailleur to end: 1 full, 2 join (R313). -/
  waitingCall : Nat := 0
  /-- A tally declared dead whose spare plan waits for the derailleur that is COMMITTED (R330). -/
  spareFor : Option Nat := none
  /-- A remap in CAPTURE has been reported; the pithead owes it an assignment epoch (R223). -/
  remapped : Bool := false
  /-- Count of the notice that a port is ACTIVE again (R313). -/
  joinAt : Option Nat := none
  peers : Tbl Peer := []
  /-- Incarnation last granted to each tally (R312). -/
  incs : Tbl Nat := []
  /-- A BEAT of the pithead arrived in this window; windows without one in a row (R314). -/
  beatSeen : Bool := false
  beatMissed : Nat := 0
  /-- Tallies heard in this window, one bit each (R316). -/
  seen : Nat := 0
  /-- Gear and assignment epoch of the chain, as SWEEP_STATE last brought them (R321). -/
  chainEpochs : Option (Nat × Nat) := none
  /-- BEAT carries REJOIN (R318). -/
  rejoin : Bool := false
  /-- Count of the last BENCH sent to each tally (R317). -/
  benchAt : Tbl (Option Nat) := []
  /-- Sweep for which a KEY_REFRESH_REQ was last sent, plus one (R334). -/
  refreshAt : Tbl Nat := []
  drl : Option Derail := none
  armed : Option Armed := none
  /-- Commit sweep of the COMMIT held (R323). -/
  commit : Option Nat := none
  /-- Stope mask of the STOPES received, with its assignment epoch (R323). -/
  stopes : Option (Nat × Nat) := none
  /-- The assignment banks: in force, next, previous (R327, R329). -/
  bank : Tbl Asg := []
  next : Tbl Asg := []
  prev : Tbl Asg := []
  /-- Commit sweep of the bank in force, previous epochs while the grace lasts, and its end (R329, R323 E6). -/
  since : Option Nat := none
  /-- Tallies that acknowledged the derailleur committed there, one bit each (R326). -/
  acked : Nat := 0
  prevAssign : Nat := 0
  prevGear : Nat := 0
  graceEnd : Option Nat := none
  /-- Entry words staged for CHN_ASG_HI (R16). -/
  stageBase : Nat := 0
  stageLo : Nat := 0
  keyref : Tbl (Option Nat) := []
  stale : Tbl Bool := []
  build : Tbl (Option Build) := []
  /-- INTAKE_HWM has been raised (R338). -/
  hwmRaised : Bool := false
  /-- Stope sweeps dropped, and the sweeps for which EGRESS_DROP has been raised (R339). -/
  egressDropped : Nat := 0
  egressRaised : List Nat := []
  /-- Packets waiting for each port, in the order queued (R302). -/
  queue : Tbl (List Packet) := []
  /-- Turns of weighted round robin left for VC6 to VC8 of each port (R302), by 16 · port + channel. -/
  wrr : Tbl Nat := []
  /-- Passing packets on their way through the M path, by outgoing port, oldest first (R33), each with the block count from which it may
  leave (R284). -/
  passed : Tbl (List (Packet × Nat)) := []
  /-- Tables mirrored by the pithead (R319). -/
  mirror : List Nat := []
  deriving DecidableEq, Repr

/-! ### The cadence unit, exposure modes and MREQ (ch. 03, 04). Instants p and periods P are in ticks × 2⁻¹⁶. -/

/-- One tracker (R88 to R92, R562, R563). State codes as CAD_STATE: 0 OFF, 1 ACQUIRING, 2 LOCKED, 3 COASTING, 4 LOST. -/
structure Trk where
  st : Nat := 0
  /-- The predicted instant p, while it holds one. -/
  p : Option Nat := none
  /-- The period P, while it holds one. -/
  per : Option Nat := none
  /-- The first edge t₁ of a period measurement (R563). -/
  first : Option Nat := none
  agree : Nat := 0
  left : Nat := 0
  /-- Consecutive missing edges in ACQUIRING (R563). -/
  miss : Nat := 0
  /-- The start at p has been taken as a frame start already. -/
  taken : Bool := false
  /-- The last start p that has passed, as it was tracked (R394). -/
  last : Option Nat := none
  /-- The prediction it gave up when it lost p, until it holds one again (R118). -/
  held : Option Nat := none
  deriving DecidableEq, Repr

/-- The gates of one stope column (R53): exit 0 DG, 1 tap A, 2 tap B; the count at which an opening with a length ends; the number
of the gate action that set it; whether it is a MEAS opening; wall frame and offset of its opening. -/
structure Gate where
  exit : Nat := 0
  ends : Option Nat := none
  number : Nat := 0
  meas : Bool := false
  deriving DecidableEq, Repr

/-- One trigger (R107, R114 to R116): armed for a tap and columns; the instant of a delayed opening, the end of the exposure that runs or
waits, with its tap and columns; the end of the last one. -/
structure Trg where
  armed : Bool := false
  tap : Nat := 0
  cols : Nat := 0
  /-- It has fired since its ARM (R129). -/
  fired : Bool := false
  opensAt : Option Nat := none
  endsAt : Option Nat := none
  lastEnd : Option Nat := none
  runTap : Nat := 0
  runCols : Nat := 0
  deriving DecidableEq, Repr

/-- What the cadence unit and the exposure-mode block hold beside pages 0x05 and 0x06. -/
structure Cad where
  scan : Trk := {}
  mains : Trk := {}
  /-- SCAN_LINE edges since the last SCAN_FRM edge, once there has been one (R89). -/
  lines : Option Nat := none
  /-- Sweep number of the wall frame in progress (R97 to R99); whether a frame has been counted since entry to READY. -/
  wall : Nat := 0
  counting : Bool := false
  /-- The unit has been joined to a chain since its last power-on or start-up reset (R98, R99). -/
  everJoined : Bool := false
  /-- The next tracked frame start is the chain start, wall frame 0 (R99). -/
  zeroNext : Bool := false
  /-- The unit holds a publication received since it joined (R98). -/
  published : Bool := false
  /-- A frame start that begins a sweep has passed and its sweep-start event is due. -/
  sweepDue : Bool := false
  dueAt : Nat := 0
  /-- Tracked start, on its tick and exact, and index within the sweep of the wall frame in progress. -/
  frameAt : Nat := 0
  startAt : Nat := 0
  frameIx : Nat := 0
  /-- The active and the shadow table (R101): 64-bit entries by index. -/
  act : Tbl Nat := [(0, 0xF000000000000000)]
  shd : Tbl Nat := []
  /-- SHD words staged and latched under R16. -/
  shdLo : Nat := 0
  /-- Next entry; next step of the video schedule (R134). -/
  ptr : Nat := 0
  video : Nat := 0
  /-- EXP_VIDEO_LEN.LEN and EXP_VIDEO.GAIN in force (R134). -/
  videoLen : Nat := 2000000
  videoGain : Nat := 2
  /-- Video setting already refused. -/
  videoBad : Option (Nat × Nat) := none
  /-- Gates by stope column; the number of the last gate action. -/
  gates : Tbl Gate := []
  gateNo : Nat := 0
  /-- Count at which the last scheduled gate command of each column, and the last EXPO command, was issued (R113, R137). -/
  gateCmd : Tbl Nat := []
  expoCmd : Nat := 0
  /-- Count of the last tick on which the copies' fast-path outputs differed (R119). -/
  fastAt : Option Nat := none
  trg : Tbl Trg := []
  /-- Count at which the gap in progress ends (R117). -/
  gapEnd : Option Nat := none
  /-- Condition bits of the last sweeps known here, by sweep number (R201). -/
  conds : Tbl Nat := []
  /-- Whether the table of a sweep's gear holds a MEAS entry, by sweep number: 1 no, 2 yes (R130, R260). -/
  meas : Tbl Nat := []
  late : Bool := false
  suppr : Bool := false
  integ : Bool := false
  /-- Fields of R80 in force, by `Field.key`; those not listed hold their reset values. -/
  force : Tbl Nat := []
  /-- Fields of R80 written in CAPTURE, which wait for a commit. -/
  waits : List Nat := []
  /-- Levels set by EXPO entries; end of the source-7 pulse (R135). -/
  expo : Nat := 0
  pulse : Option Nat := none
  /-- Level of the MREQ command, and the MEAS_OK part of its restart rule (R95): it has been 1 since the start of a sweep. -/
  mreq : Bool := false
  measSince : Bool := false
  /-- Gain sets of the last pass of each tap in this stay in CAPTURE (R156). -/
  gains : Tbl Nat := []
  /-- Sweep whose OPEN item was given and whose CLOSE is to come (R194). -/
  opened : Option Nat := none
  /-- Passes scheduled in the sweep in progress: tap and gain set (R199). -/
  plan : List (Nat × Nat) := []
  /-- Passes started in the sweep in progress. -/
  passIx : Nat := 0
  /-- Freewheel count of the sweep start, 0 before the first since CADENCE started. -/
  sweepAt : Nat := 0
  deriving DecidableEq, Repr

/-! ### The array and its passes (ch. 02). Pixels are numbered tap × 2²⁹ + physical row × 2¹⁵ + physical column. -/

/-- A pass (R60 to R66): tap, gain set, sweep, count at its start, black rows read, the 256 stope enables in force, the next row to
latch, rows whose reset is complete, and flags once per pass. -/
structure Pass where
  tap : Nat
  gains : Nat
  sweep : Nat
  began : Nat
  black : Bool
  enables : Nat
  row : Nat := 0
  reset : Nat := 0
  exh : Bool := false
  clip : Bool := false
  index : Nat := 0
  deriving DecidableEq, Repr

/-- What the array holds beside its registers. -/
structure Arr where
  /-- Charge on each storage node, in 2⁻⁸ electrons, the unit of Q_P (R54, R55). -/
  charge : Tbl Nat := []
  /-- Overflow count and, × 4096, the exhausted flag of each tap (R55 to R57). -/
  counts : Tbl Nat := []
  /-- SHORT of the pass in progress and SHORT carried to the next, by tap (R65): bit 0 and bit 1. -/
  short : Tbl Nat := []
  pass : Option Pass := none
  /-- A READ held by a calibration step: tap, gain set, count of the READ (R168). -/
  held : Option (Nat × Nat × Nat) := none
  /-- Rows of a binning block received so far, by stope: words of each row (R77). -/
  block : Tbl (List (List Nat)) := []
  /-- Sums of black values by side × 4096 + group × 2 + gain, in 1/1280 electron (R67). -/
  black : Tbl Int := []
  /-- Q_P accepted and not yet in force, + 1, by tap × 1024 + group (R71). -/
  qpNext : Tbl Nat := []
  /-- Count at which the last pass ended (R134). -/
  lastEnd : Nat := 0
  deriving DecidableEq, Repr

/-! ### Conversion, calibration and the monitor (ch. 05) -/

/-- A converter bank (R149, R160 to R162): slice at each interleave position, spare, parked slice (7 none), strikes. -/
structure Bank where
  active : List Nat := [0, 1, 2, 3]
  spare : Nat := 4
  parked : Nat := 7
  strikes : Nat := 0
  failed : Bool := false
  degraded : Bool := false
  recal : Bool := false
  deriving DecidableEq, Repr

/-- What conversion and calibration hold beside pages 0x07 and 0x08. A calibration value is kept under a number: Q_P
tap × 1024 + group; OFS, GAIN and SKEW kind × 2²⁰ + bank × 16 + slice × 2 + gain (kinds 1 to 3, SKEW with gain 0). Numbers not listed
hold the nominal value. Calibration kinds: 1 SLICE, 2 PKT_A, 3 PKT_B. -/
structure Cnv where
  coef : Tbl Nat := []
  base : Tbl Nat := []
  work : Tbl Nat := []
  /-- Q_P numbers that come from an accepted packet calibration (EXP_QP_VAL.FACTORY 0). -/
  accepted : Tbl Bool := []
  /-- Count + 1 of the last acceptance: Q_P by number, slices by 4096 + bank × 8 + slice; 0 for those as loaded. -/
  stamp : Tbl Nat := []
  loadAt : Nat := 0
  banks : Tbl Bank := []
  /-- The step running: kind, count of its start. -/
  step : Option (Nat × Nat) := none
  /-- The bank re-calibration runs (R162). -/
  recal : Bool := false
  /-- Ticks left in the gap mark in progress, and kinds run in it (R164). -/
  mark : Option Nat := none
  ran : List Nat := []
  /-- Count at the start of the last step of each kind, + 1. -/
  last : Tbl Nat := []
  /-- Steps each kind still owes after entry to READY (R167). -/
  owed : Tbl Nat := []
  /-- Stopes were aged when last looked at (R166). -/
  wasAged : Bool := false
  /-- A commit of the working copy was asked for (R171). -/
  commit : Bool := false
  deriving DecidableEq, Repr

/-- A monitor conversion in progress (R174): entry, count at its start, whether the reference was settled, and the entry's channel,
gain and the reference at its start. -/
structure MonConv where
  entry : Nat
  start : Nat
  settled : Bool
  chan : Nat
  gain : Nat
  ref : Nat
  samp : Nat
  deriving DecidableEq, Repr

/-- What the monitor converter holds beside page 0x09. -/
structure Mon where
  conv : Option MonConv := none
  /-- Reference in use and MON_CTRL.LEN in use (R175, R176). -/
  ref : Nat := 0
  len : Nat := 15
  /-- MON_OVERRUN has been raised and the count not cleared (R179). -/
  overrun : Bool := false
  /-- The buffer is full: every record of it is unread and the indexes are equal (R179). -/
  full : Bool := false
  /-- Foreman SRAM bytes of the monitor buffer, by byte offset (R178). -/
  sram : Tbl Nat := []
  /-- The conversion in progress is the last: RUN was written 0. -/
  stopping : Bool := false
  /-- Count from which the reference in use settles (R176). -/
  refAt : Nat := 0
  deriving DecidableEq, Repr

/-! ### Stope engines (ch. 06) -/

/-- An item the stope DMA has claimed a slot for and not published: the payload words and the 16 tag bytes. -/
structure RingItem where
  words : List Nat
  tag : List Nat
  deriving DecidableEq, Repr

/-- What the standard program has taken in of a sweep (R244): the OPEN payload, BLACK words by tap, LINE words by tap × 2¹⁶ + row, gain sets by
tap. -/
structure StdSweep where
  opening : List Nat
  black : Tbl (List Nat) := []
  lines : Tbl (List Nat) := []
  gains : Tbl Nat := []
  deriving DecidableEq, Repr

/-- What a program of the Kynko kit keeps beside its tables in data SRAM (R233 to R261). -/
structure Std where
  survey : Bool := false
  /-- The table region of the map in force, and whether its CRCs and FORMAT are right (R233, R235). -/
  map : List Host.Cell := []
  sound : Bool := false
  /-- A map named by MAP_CHANGED: the first sweep, its soundness, its tables. -/
  next : Option (Nat × Bool × List Host.Cell) := none
  /-- A key sweep is owed after an event of R257, or a scheduled one deferred. -/
  owed : Bool := true
  deferred : Bool := false
  /-- Sweeps named by KEY_REFRESH and by STAT_REQ. -/
  refresh : List Nat := []
  stats : List Nat := []
  /-- Gear and assignment epoch of the last OPEN item. -/
  epochs : Option (Nat × Nat) := none
  /-- The last key sweep of this program (R258). -/
  keyRef : Nat := 0
  /-- FLAGS of the emitters' key records, and the emitters that got a record in the previous sweep (R259). -/
  keyFlags : Tbl Nat := []
  before : List Nat := []
  /-- Sweeps closed since START (R241). -/
  sweeps : Nat := 0
  cur : Option StdSweep := none
  deriving DecidableEq, Repr

/-- One engine (R186, R216). State codes 0 HALTED, 1 RUNNING, 2 FAULTED, 3 RETIRED. -/
structure Eng where
  st : Nat := 0
  fault : Nat := 0
  pc : Nat := 0
  /-- ENG_PC: the instruction address at the last stop. -/
  stopPc : Nat := 0
  cause : Nat := 0
  /-- The foreman starts it as the unit leaves HOLD, with this CAUSE (R216, R220). -/
  ran : Bool := false
  again : Nat := 1
  /-- It is in WAIT, since a count (R188). -/
  waiting : Bool := false
  waitAt : Nat := 0
  /-- Scalar registers s1 to s31; vector registers as 512-bit numbers; accumulators as 32 × 48 = 16 × 64-bit lanes by
  accumulator × 64 + lane; the two hardware loops: start, end, count left (R186, R187). -/
  s : Tbl Nat := []
  v : Tbl Nat := []
  a : Tbl Nat := []
  loops : List (Nat × Nat × Nat) := []
  /-- Bytes of instruction memory, data SRAM, mailbox and output window at their engine addresses (R189). -/
  mem : List Host.Cell := []
  /-- 64-bit words with an error in them, by address ÷ 8: 1 one bit, 2 two bits (R190, R191). -/
  bad : Tbl Nat := []
  /-- Local registers by offset. -/
  lcl : Tbl Nat := []
  /-- Slots claimed and not released, ahead of LCL_IN_WR (R202). -/
  claimed : List RingItem := []
  corr : Nat := 0
  uncorr : Nat := 0
  /-- Consecutive sweeps sealed at their deadline (R209). -/
  late : Nat := 0
  /-- Count at START; count at the last write of LCL_PET, moved on by the time spent in WAIT since (R218); end of LCL_TIMER in fifths of a
  tick, 0 when it has run out. -/
  startAt : Nat := 0
  pet : Nat := 0
  timer : Nat := 0
  /-- Messages the foreman holds for a full inbox (R211). -/
  inbox : List (List Nat) := []
  /-- Memory holds staged spotlight lines (R348). -/
  staged : Bool := false
  /-- The program it was started with is one of the Kynko kit's (R230, R241). -/
  std : Option Std := none
  deriving DecidableEq, Repr

/-- The held output of one stope sweep (R206 to R210): the tags of its OPEN item, open for output, sealed, the condition word
learned so far, the request state when it is held, sweep starts seen since, bytes pushed by stream. -/
structure OutSweep where
  stope : Nat
  sweep : Nat
  engine : Nat
  gear : Nat
  assign : Nat
  opened : Bool := true
  sealed : Bool := false
  cond : Nat := 0
  refused : Bool := false
  starts : Nat := 0
  streams : Tbl (List Nat) := []
  /-- Bytes of a push being copied: stream and count. -/
  copying : Option (Nat × Nat) := none
  /-- Lines written for taps A and B, lines lost (R200). -/
  linesA : Nat := 0
  linesB : Nat := 0
  lost : Nat := 0
  /-- Sweep start count. -/
  at_ : Nat := 0
  deriving DecidableEq, Repr

/-- A remap under way (R220, R224): stope, old engine, target, whether its copy is done, first bad address and number of bad words,
and whether a fault started it. -/
structure Remap where
  stope : Nat
  old : Nat
  target : Nat
  copied : Bool
  bad : List Nat
  fault : Bool
  deriving DecidableEq, Repr

/-- What the engine block holds beside page 0x0A. -/
structure Engs where
  engs : Tbl Eng := []
  out : List OutSweep := []
  remap : Option Remap := none
  /-- Quadrants whose memories have been initialised since power-on, one bit each (R226). -/
  inited : Nat := 0
  /-- Quadrants whose first enable is under way. -/
  initing : Nat := 0
  /-- Faulted engines whose stope awaits a remap, oldest first (R219). -/
  faulted : List Nat := []
  /-- Request states held, by sweep number: 1 requested throughout, 2 not (R146, R208). -/
  requests : Tbl Nat := []
  /-- Count of the last ENG_HWIN_REJECT event (R213). -/
  rejectAt : Option Nat := none
  /-- ENG_LINE_LOST raised for the sweep in progress. -/
  lostRaised : Bool := false
  /-- Foreman's log: engine, freewheel count, payload (R212). -/
  log : List (Nat × Nat × List Nat) := []
  /-- Program messages for the host kit (R212). -/
  messages : List (Nat × List Nat) := []
  /-- Engines that reported READY. -/
  ready : List Nat := []
  /-- Targets of fault-driven remaps, until the next sweep start (R225). -/
  fresh : List Nat := []
  /-- CRC register of the words written since the last write of ENG_MEM_ADDR, none before the first. -/
  crc : Option Nat := none
  /-- High words latched by the last read of LCL_CYCLE_LO and LCL_FWC_LO (R16), by engine × 2 + which. -/
  latch : Tbl Nat := []
  deriving DecidableEq, Repr

/-! ### Spotlight source and pithead pipeline (ch. 10) -/

/-- A spotlight item (R350): the tags of its frame and the fields of the spot header. -/
structure SpotItem where
  src : Nat
  inc : Nat
  sweep : Nat
  gear : Nat
  assign : Nat
  kind : Nat
  fmt : Nat := 0
  bin : Nat := 0
  last : Bool := false
  gains : Nat := 0
  tap : Nat := 0
  stope : Nat := 0
  pass : Nat := 0
  row : Nat := 0
  count : Nat := 0
  time : Nat := 0
  body : List Nat := []
  deriving DecidableEq, Repr

/-- The frame the spotlight source takes or sends (R343, R345). -/
structure SpotFrame where
  sweep : Nat
  gear : Nat
  assign : Nat
  staged : Bool
  fmt : Nat
  taps : Nat
  mask : Nat
  /-- Engines used for staging, by stope. -/
  lines : Nat := 0
  dropped : Nat := 0
  /-- Conditions of its stopes beside those of the whole sweep (R201), and the freewheel count at its sweep start (R350). -/
  cond : Nat := 0
  at_ : Nat := 0
  /-- The last pass has ended. -/
  complete : Bool := false
  raised : Bool := false
  /-- Items staged in the engines' memories, in the order they leave (R351). -/
  items : List SpotItem := []
  deriving DecidableEq, Repr

/-- The spotlight source beside its registers. -/
structure Spot where
  frame : Option SpotFrame := none
  /-- The spot queue (DIRECT): items waiting, with the bytes they take (R345). -/
  queue : List SpotItem := []
  queued : Nat := 0
  /-- Control values in force since the last sweep start (R344): EN, METHOD, FMT, EVERY, TAPS, GBPS and the masks, by `Field.key`. -/
  force : Tbl Nat := []
  /-- Count before which the rate limit lets no packet go. -/
  nextAt : Nat := 0
  skipped : Bool := false
  deriving DecidableEq, Repr

/-- A context in force (R358, R359): parameter fields by `Field.key` as committed. -/
structure Ctx where
  staging : Tbl Nat := []
  pending : Option (Tbl Nat) := none
  on : Bool := false
  force : Tbl Nat := []
  gen : Nat := 0
  result : Nat := 0
  disable : Bool := false
  deriving DecidableEq, Repr

/-- The statistics a context gathers over a frame (R369). Sums are in electrons × 2⁻³. -/
structure Stats where
  lines : Nat := 0
  fixed : Nat := 0
  left : Nat := 0
  flagged : Nat := 0
  /-- Minimum and maximum by channel. -/
  lo : Tbl (Option Int) := []
  hi : Tbl (Option Int) := []
  hist : Tbl Nat := []
  /-- Sum and count by 4 · zone + channel, focus by zone. -/
  sum : Tbl Int := []
  cnt : Tbl Nat := []
  focus : Tbl Nat := []
  deriving DecidableEq, Repr

/-- A frame open in the pipeline (R356). -/
structure Frame where
  src : Nat
  inc : Nat
  sweep : Nat
  gear : Nat
  assign : Nat
  opened : Nat
  mosaic : Bool
  lost : Nat := 0
  /-- An output block of it was dropped (R368). -/
  cut : Bool := false
  raised : Bool := false
  /-- Contexts that serve it: number, GEN and the parameters it opened with (R359); their statistics. -/
  ctxs : List (Nat × Nat × Tbl Nat) := []
  stats : Tbl Stats := []
  /-- BLACK averages received, by tap × 2²⁰ + pass × 2¹⁶ + stope: the 128 words. -/
  black : Tbl (List Nat) := []
  /-- Row last processed + 1, by stope × 64 + pass × 2 + tap (R357). -/
  rows : Tbl Nat := []
  /-- First row of a colour cell, waiting for the second: values and flags, by the same number. -/
  half : Tbl (List (Int × Bool)) := []
  deriving DecidableEq, Repr

/-- The pipeline beside page 0x0D. -/
structure Pipe where
  ctx : Tbl Ctx := []
  frames : List Frame := []
  /-- In-line buffer and spot buffer, oldest first; bytes in the spot buffer (R354). -/
  inline : List SpotItem := []
  spot : List SpotItem := []
  level : Nat := 0
  /-- PIPE_SPOT_FULL was raised and the level has not fallen below half. -/
  full : Bool := false
  /-- PIPE_INLINE_DROP was raised for this sweep, + 1. -/
  inlineRaised : Nat := 0
  /-- Count of the last PIPE_NO_CTX (R360). -/
  noCtxAt : Option Nat := none
  /-- Bytes of the table area (R361). -/
  table : List Host.Cell := []
  /-- Nothing has been written into the kibble store since a march left it 0 (R487); the table area keeps its own bytes. -/
  blank : Bool := false
  /-- Source and sweep of each line lost before the OPEN of its frame, still buffered, has been taken (R354, R356). -/
  early : List (Nat × Nat) := []
  deriving DecidableEq, Repr

/-! ### The whole state -/

/-- The state of the block. Each register field holds its reset value unless the register store lists it. -/
structure State where
  /-- The commands waiting, first in, first out. -/
  pending : List Instr := []
  /-- The register store: every field of the register space that differs from its reset value, by `Field.key`. -/
  regs : Tbl Nat := []
  /-- The freewheel counter, 80 bits (R31). -/
  fwc : Nat := 0
  /-- The MODEL's own counter of free values used (notes/assumptions/1.md). -/
  freeIx : Nat := 0
  /-- The unit's 64-bit serial number (R404). -/
  serial : Nat := 0
  /-- The unit is a ZG201-MN, which has no mosaic (R1). -/
  mono : Bool := false
  /-- The PITHEAD_EN strap. -/
  strap : Bool := false
  /-- The word answered to the last register read: the MODEL's own field, where a read's answer is seen. -/
  answer : Nat := 0
  /-- Higher words latched by the read of the lowest word of their value (R16), + 1, by offset. -/
  latched : Tbl Nat := []
  /-- The foreman's event queue, oldest first (R430). -/
  events : List Event := []
  /-- Events queued in the always-on controller while SYS is stopped (R460). -/
  heldAon : List Event := []
  /-- Events queued in the canary while SYS is stopped or before the firmware runs (R482, R505). -/
  heldCanary : List Event := []
  pwr : Pwr := {}
  saf : Saf := {}
  rol : Rol := {}
  nvs : Nvs := {}
  cfg : CfgSpace := {}
  hst : Hst := {}
  i2c : I2c := {}
  tim : Tim := {}
  lnk : Lnk := {}
  chn : Chn := {}
  cad : Cad := {}
  arr : Arr := {}
  cnv : Cnv := {}
  mon : Mon := {}
  eng : Engs := {}
  spot : Spot := {}
  pipe : Pipe := {}
  deriving DecidableEq, Repr

/-- The machine right after power-on reset: VAON good, state STANDBY, every field at its reset value, nothing waiting. -/
def State.reset : State := {}

end Sys2Proof.Machine
end

