-- ==== Sys2Proof/Machine/Registers.lean ====
section
/-!
DEFINITION. Every register of the unit register space as named fields: REGISTER.FIELD is the manual's own name (R8), with the
offset, the lowest bit, the width, the access code (R9), the gating role (R10) and the reset value its register table gives.
Where a table gives no number (Store, Factory trim, Baseline, Pins) the reset field is 0 here: a value the model names
(notes/assumptions/3.md, DESIGN CHOICE).
-/
namespace Sys2Proof.Machine

/-- RO, reset 0x1 (CX), 0x0 (MN). 0x1: mosaic of R51; 0x0: none (02_pixel_array.md) -/
def EXP_ARRAY_ID.MOSAIC : Field := ⟨0x06800, 20, 4, .ro, none, 1⟩

/-- RO, reset 16. Stope rows (02_pixel_array.md) -/
def EXP_ARRAY_ID.STOPE_ROWS : Field := ⟨0x06800, 8, 8, .ro, none, 16⟩

/-- RO, reset 16. Stope columns (02_pixel_array.md) -/
def EXP_ARRAY_ID.STOPE_COLS : Field := ⟨0x06800, 0, 8, .ro, none, 16⟩

/-- RW/I, reset 0x8. Skim threshold code of R58; takes effect under R80; reads return the last value written (02_pixel_array.md) -/
def EXP_SKIM.THRESH : Field := ⟨0x06804, 0, 4, .rw, some .installer, 8⟩

/-- RO, reset 0x8. Threshold code in force (02_pixel_array.md) -/
def EXP_ARRAY_STATUS.THRESH_ACTIVE : Field := ⟨0x06808, 12, 4, .ro, none, 8⟩

/-- RO, reset 0. 1 throughout a range-transition sweep (02_pixel_array.md) -/
def EXP_ARRAY_STATUS.RANGE_TRANS : Field := ⟨0x06808, 1, 1, .ro, none, 0⟩

/-- RO, reset 0. 1 while any field of R80 holds a value not yet in force (02_pixel_array.md) -/
def EXP_ARRAY_STATUS.PENDING : Field := ⟨0x06808, 0, 1, .ro, none, 0⟩

/-- RW/M, reset 1. 1: black rows read under R60 and averaged under R67; 0: black rows skipped and no averages delivered. Takes effect at the next pass (02_pixel_array.md) -/
def EXP_OB_CTRL.BLACK_ROWS_EN : Field := ⟨0x0680C, 1, 1, .rw, some .maker, 1⟩

/-- RW, reset 1. Black column band averaging, R50 (02_pixel_array.md) -/
def EXP_OB_CTRL.OBCOL_SUM_EN : Field := ⟨0x0680C, 0, 1, .rw, none, 1⟩

/-- RW/I, reset 0xFFFF_FFFF. Bit k enables stope 32w + k (R76); takes effect under R80; also written by the foreman (R81) (02_pixel_array.md) -/
def EXP_STOPE_EN.EN (n : Nat) : Field := ⟨0x06810 + 4 * n, 0, 32, .rw, some .installer, 4294967295⟩

/-- RW/O, reset 0b00. Binning code of stope 16w + k (R77, R79); takes effect under R80 (02_pixel_array.md) -/
def EXP_BIN.BIN (s : Nat) : Field := ⟨0x06830 + 4 * (s / 16), 2 * (s % 16), 2, .rw, some .operator, 0⟩

/-- RW/I, reset 1. Code 0b10 allowed (02_pixel_array.md) -/
def EXP_BIN_ALLOW.ALLOW2 : Field := ⟨0x06870, 2, 1, .rw, some .installer, 1⟩

/-- RW/I, reset 1. Code 0b01 allowed (02_pixel_array.md) -/
def EXP_BIN_ALLOW.ALLOW1 : Field := ⟨0x06870, 1, 1, .rw, some .installer, 1⟩

/-- RO, reset 1. Code 0b00 always allowed (02_pixel_array.md) -/
def EXP_BIN_ALLOW.ALLOW0 : Field := ⟨0x06870, 0, 1, .ro, none, 1⟩

/-- RW, reset 0. 0: tap A; 1: tap B (02_pixel_array.md) -/
def EXP_QP_SEL.TAP : Field := ⟨0x06874, 10, 1, .rw, none, 0⟩

/-- RW, reset 0. Column group shown in EXP_QP_VAL (02_pixel_array.md) -/
def EXP_QP_SEL.GROUP : Field := ⟨0x06874, 0, 10, .rw, none, 0⟩

/-- RO, reset 1. 1: QP is the factory baseline; 0: QP comes from an accepted packet calibration (02_pixel_array.md) -/
def EXP_QP_VAL.FACTORY : Field := ⟨0x06878, 31, 1, .ro, none, 1⟩

/-- RO, reset Baseline. Q_P in force for the selected group and tap; unsigned, electrons × 2⁻⁸ (02_pixel_array.md) -/
def EXP_QP_VAL.QP : Field := ⟨0x06878, 0, 24, .ro, none, 0⟩

/-- RO, reset 0. Tap values delivered with EXH set; saturates at 0xFFFF (02_pixel_array.md) -/
def EXP_ARRAY_ERRCNT0.EXH_CNT : Field := ⟨0x0687C, 16, 16, .ro, none, 0⟩

/-- RO, reset 0. Tap values delivered with CLIP set; saturates at 0xFFFF (02_pixel_array.md) -/
def EXP_ARRAY_ERRCNT0.CLIP_CNT : Field := ⟨0x0687C, 0, 16, .ro, none, 0⟩

/-- RO, reset 0. Transfers refused under R64; saturates at 0xFFFF (02_pixel_array.md) -/
def EXP_ARRAY_ERRCNT1.SHORT_CNT : Field := ⟨0x06880, 0, 16, .ro, none, 0⟩

/-- WO, reset 0. 1 clears EXP_ARRAY_ERRCNT0 and EXP_ARRAY_ERRCNT1 (02_pixel_array.md) -/
def EXP_ARRAY_ERRCLR.CLEAR : Field := ⟨0x06884, 0, 1, .wo, none, 0⟩

/-- RW/O, reset 0x1. Wall frames per sweep, 1 to 15; a write of 0 leaves the field unchanged; takes effect at the points of R80 (03_cadence_unit.md) -/
def CAD_CTRL.LOCK_N : Field := ⟨0x05000, 16, 4, .rw, some .operator, 1⟩

/-- RW/O, reset 0. 1: R94 also requires the mains tracker; takes effect at the points of R80 (03_cadence_unit.md) -/
def CAD_CTRL.MAINS_REQ : Field := ⟨0x05000, 8, 1, .rw, some .operator, 0⟩

/-- RW/I, reset 0. Mains tracker source (R87, R93) (03_cadence_unit.md) -/
def CAD_SRC.MAINS_SRC : Field := ⟨0x05004, 8, 3, .rw, some .installer, 0⟩

/-- RW/I, reset 5. Scan tracker source (R87, R93) (03_cadence_unit.md) -/
def CAD_SRC.SCAN_SRC : Field := ⟨0x05004, 0, 3, .rw, some .installer, 5⟩

/-- RW/I, reset 0. CAD_SCAN_CFG only: SCAN_LINE edges per frame for R89; 0 means not checked. Reserved in CAD_MAINS_CFG (03_cadence_unit.md) -/
def CAD_SCAN_CFG.LINES : Field := ⟨0x05008, 16, 16, .rw, some .installer, 0⟩

/-- RW/I, reset 0. CAD_SCAN_CFG only: 0 rising, 1 falling SCAN_LINE edge. Reserved in CAD_MAINS_CFG (03_cadence_unit.md) -/
def CAD_SCAN_CFG.LINE_POL : Field := ⟨0x05008, 1, 1, .rw, some .installer, 0⟩

/-- RW/I, reset 0. Active edge of SCAN_FRM or MAINS_ZX: 0 rising, 1 falling (03_cadence_unit.md) -/
def CAD_SCAN_CFG.POL : Field := ⟨0x05008, 0, 1, .rw, some .installer, 0⟩

/-- RW/I, reset 0. Active edge of SCAN_FRM or MAINS_ZX: 0 rising, 1 falling (03_cadence_unit.md) -/
def CAD_MAINS_CFG.POL : Field := ⟨0x0500C, 0, 1, .rw, some .installer, 0⟩

/-- RW/I, reset 33 333 333 (scan), 40 000 000 (mains). FREE period in ticks, 1 000 000 to 134 217 727; other values leave the field unchanged (03_cadence_unit.md) -/
def CAD_FREE_SCAN.PERIOD : Field := ⟨0x05010, 0, 32, .rw, some .installer, 33333333⟩

/-- RW/I, reset 33 333 333 (scan), 40 000 000 (mains). FREE period in ticks, 1 000 000 to 134 217 727; other values leave the field unchanged (03_cadence_unit.md) -/
def CAD_FREE_MAINS.PERIOD : Field := ⟨0x05014, 0, 32, .rw, some .installer, 40000000⟩

/-- RW/I, reset 6. Period gain exponent of R91, 2 to 12; other values leave it unchanged (03_cadence_unit.md) -/
def CAD_TRK.KI : Field := ⟨0x05018, 8, 4, .rw, some .installer, 6⟩

/-- RW/I, reset 2. Phase gain exponent of R91, 0 to 8; other values leave it unchanged (03_cadence_unit.md) -/
def CAD_TRK.KP : Field := ⟨0x05018, 0, 4, .rw, some .installer, 2⟩

/-- RW/I, reset 50. Mains tolerance in µs, 1 to 255 (03_cadence_unit.md) -/
def CAD_ACQ.MAINS_TOL : Field := ⟨0x0501C, 24, 8, .rw, some .installer, 50⟩

/-- RW/I, reset 40. Scan tolerance in ticks, 4 to 65 535 (03_cadence_unit.md) -/
def CAD_ACQ.SCAN_TOL : Field := ⟨0x0501C, 0, 16, .rw, some .installer, 40⟩

/-- RW/I, reset 16. Coast count of R92, 1 to 255; a write of 0 leaves the field unchanged (03_cadence_unit.md) -/
def CAD_COAST.COUNT : Field := ⟨0x05020, 0, 8, .rw, some .installer, 16⟩

/-- RW/I, reset 0. 1: TRIGn receiver enabled; 0: ARM entries for n are refused by validation with ERR 0x2 (03_cadence_unit.md) -/
def CAD_TRIG_CFG.EN (n : Nat) : Field := ⟨0x05024, 8 * n + 2, 1, .rw, some .installer, 0⟩

/-- RW/I, reset 0. 0 rising, 1 falling active edge (03_cadence_unit.md) -/
def CAD_TRIG_CFG.POL (n : Nat) : Field := ⟨0x05024, 8 * n + 1, 1, .rw, some .installer, 0⟩

/-- RW/I, reset 0. 0 LVCMOS, 1 LVDS (03_cadence_unit.md) -/
def CAD_TRIG_CFG.STD (n : Nat) : Field := ⟨0x05024, 8 * n, 1, .rw, some .installer, 0⟩

/-- RW/O, reset 100 (LEN), 0 (DLY). LEN: triggered exposure length in ticks (R107). DLY: 0 selects the fast path (R114); otherwise R115 (03_cadence_unit.md) -/
def CAD_TRIG_LEN.LEN (n : Nat) : Field := ⟨0x05028 + 4 * n, 0, 25, .rw, some .operator, 100⟩

/-- RW/O, reset 100 (LEN), 0 (DLY). LEN: triggered exposure length in ticks (R107). DLY: 0 selects the fast path (R114); otherwise R115 (03_cadence_unit.md) -/
def CAD_TRIG_DLY.DLY (n : Nat) : Field := ⟨0x05038 + 4 * n, 0, 25, .rw, some .operator, 0⟩

/-- RW/O, reset 0xFFFF. Bit c selects stope column c (03_cadence_unit.md) -/
def CAD_MASK.MASK (m : Nat) : Field := ⟨0x05048 + 4 * (m / 2), 16 * (m % 2), 16, (if m = 0 then .ro else .rw), some .operator, 65535⟩

/-- RW/I, reset 0xF_FFFF. MEAS opening limit per wall frame for validation, in units of 128 ticks (03_cadence_unit.md) -/
def CAD_ENV.MEAS_LIMIT : Field := ⟨0x05058, 0, 20, .rw, some .installer, 1048575⟩

/-- RW/O, reset 0. Shadow entry index; after a write of CAD_SHD_HI it increments, wrapping from 4095 to 0 (03_cadence_unit.md) -/
def CAD_SHD_ADDR.ADDR : Field := ⟨0x0505C, 0, 12, .rw, some .operator, 0⟩

/-- RW/O, reset 0. Entry bits [31:0]; a read latches HI under R16 (03_cadence_unit.md) -/
def CAD_SHD_LO.LO : Field := ⟨0x05060, 0, 32, .rw, some .operator, 0⟩

/-- RW/O, reset 0. Entry bits [63:32]; a write commits the entry under R16 (03_cadence_unit.md) -/
def CAD_SHD_HI.HI : Field := ⟨0x05064, 0, 32, .rw, some .operator, 0⟩

/-- WO/O, reset 0. 1: validate the shadow and swap under R108 and R109 (03_cadence_unit.md) -/
def CAD_SWAP.REQ : Field := ⟨0x05068, 0, 1, .wo, some .operator, 0⟩

/-- RO, reset 0. Entry of the last refusal (03_cadence_unit.md) -/
def CAD_TBL_STATUS.ERR_INDEX : Field := ⟨0x0506C, 20, 12, .ro, none, 0⟩

/-- RO, reset 0. Code of R108 for the last request (03_cadence_unit.md) -/
def CAD_TBL_STATUS.ERR : Field := ⟨0x0506C, 16, 4, .ro, none, 0⟩

/-- RO, reset 0. R111 (03_cadence_unit.md) -/
def CAD_TBL_STATUS.PENDING : Field := ⟨0x0506C, 15, 1, .ro, none, 0⟩

/-- RO, reset 0. 1 after any write of CAD_SHD_HI since the last swap; a swap clears it (R110, R322) (03_cadence_unit.md) -/
def CAD_TBL_STATUS.SHD_NEW : Field := ⟨0x0506C, 13, 1, .ro, none, 0⟩

/-- RO, reset 1. Entries run per sweep, SWEEP_END included (03_cadence_unit.md) -/
def CAD_TBL_STATUS.ACTIVE_LEN : Field := ⟨0x0506C, 0, 13, .ro, none, 1⟩

/-- RW, reset 0. Active entry index; increments by 1, wrapping from 4095 to 0, after every read of CAD_ACT_HI, whether or not a read of CAD_ACT_LO came before it (03_cadence_unit.md) -/
def CAD_ACT_ADDR.ADDR : Field := ⟨0x05070, 0, 12, .rw, none, 0⟩

/-- RO, reset 0. Bits [31:0] of the entry at ADDR; a read latches HI of the same entry under R16 (03_cadence_unit.md) -/
def CAD_ACT_LO.LO : Field := ⟨0x05074, 0, 32, .ro, none, 0⟩

/-- RO, reset 0xF000_0000. Entry bits [63:32] as latched by the last read of CAD_ACT_LO; a whole entry is read as CAD_ACT_LO then CAD_ACT_HI; the reset active table is one SWEEP_END followed by NOP (03_cadence_unit.md) -/
def CAD_ACT_HI.HI : Field := ⟨0x05078, 0, 32, .ro, none, 4026531840⟩

/-- RO, reset 0. Scan tracker coast periods left (03_cadence_unit.md) -/
def CAD_STATE.COAST_LEFT : Field := ⟨0x0507C, 24, 8, .ro, none, 0⟩

/-- RO, reset 0. Scan tracker agreeing periods, 0 to 8 (03_cadence_unit.md) -/
def CAD_STATE.AGREE : Field := ⟨0x0507C, 20, 4, .ro, none, 0⟩

/-- RO, reset 0. Mains tracker: 0 OFF, 1 ACQUIRING, 2 LOCKED, 3 COASTING, 4 LOST (03_cadence_unit.md) -/
def CAD_STATE.MAINS_ST : Field := ⟨0x0507C, 16, 3, .ro, none, 0⟩

/-- RO, reset 0. Scan tracker, same encoding (03_cadence_unit.md) -/
def CAD_STATE.SCAN_ST : Field := ⟨0x0507C, 12, 3, .ro, none, 0⟩

/-- RO, reset 0. R94 (03_cadence_unit.md) -/
def CAD_STATE.MEAS_OK : Field := ⟨0x0507C, 8, 1, .ro, none, 0⟩

/-- RO, reset 0. R121 (03_cadence_unit.md) -/
def CAD_STATE.LS_FAULT : Field := ⟨0x0507C, 1, 1, .ro, none, 0⟩

/-- RO, reset 0. Active table running (03_cadence_unit.md) -/
def CAD_STATE.TABLE_RUN : Field := ⟨0x0507C, 0, 1, .ro, none, 0⟩

/-- RO, reset 0. Period P bits [31:0], ticks × 2⁻¹⁶; a read latches HI (03_cadence_unit.md) -/
def CAD_SCAN_PER_LO.PER_LO : Field := ⟨0x05080, 0, 32, .ro, none, 0⟩

/-- RO, reset 0. Period P bits [31:0], ticks × 2⁻¹⁶; a read latches HI (03_cadence_unit.md) -/
def CAD_MAINS_PER_LO.PER_LO : Field := ⟨0x0508C, 0, 32, .ro, none, 0⟩

/-- RO, reset 0. Period P bits [47:32] (03_cadence_unit.md) -/
def CAD_SCAN_PER_HI.PER_HI : Field := ⟨0x05084, 0, 16, .ro, none, 0⟩

/-- RO, reset 0. Period P bits [47:32] (03_cadence_unit.md) -/
def CAD_MAINS_PER_HI.PER_HI : Field := ⟨0x05090, 0, 16, .ro, none, 0⟩

/-- RO, reset 0. Last e of R91, signed, ticks × 2⁻³; saturates at the limits (03_cadence_unit.md) -/
def CAD_SCAN_ERR.ERR : Field := ⟨0x05088, 0, 32, .ro, none, 0⟩

/-- RO, reset 0. Last e of R91, signed, ticks × 2⁻³; saturates at the limits (03_cadence_unit.md) -/
def CAD_MAINS_ERR.ERR : Field := ⟨0x05094, 0, 32, .ro, none, 0⟩

/-- RO, reset 0. Sweep number of the sweep in progress (R97) (03_cadence_unit.md) -/
def CAD_SWEEP.SWEEP : Field := ⟨0x05098, 0, 32, .ro, none, 0⟩

/-- RW/M, reset Factory trim. R113; loaded from the store at start-up (03_cadence_unit.md) -/
def CAD_GATE_LAT.LAT : Field := ⟨0x0509C, 0, 6, .rw, some .maker, 0⟩

/-- RO, reset 0. R105; saturates at 0xFFFF (03_cadence_unit.md) -/
def CAD_ERRCNT0.LATE_CNT : Field := ⟨0x050A0, 16, 16, .ro, none, 0⟩

/-- RO, reset 0. R106, R107; saturates (03_cadence_unit.md) -/
def CAD_ERRCNT0.SUPPR_CNT : Field := ⟨0x050A0, 0, 16, .ro, none, 0⟩

/-- RO, reset 0. R116; saturates (03_cadence_unit.md) -/
def CAD_ERRCNT1.TRIG_IGN_CNT : Field := ⟨0x050A4, 16, 16, .ro, none, 0⟩

/-- RO, reset 0. R88; saturates (03_cadence_unit.md) -/
def CAD_ERRCNT1.GLITCH_CNT : Field := ⟨0x050A4, 0, 16, .ro, none, 0⟩

/-- WO, reset 0. 1 clears CAD_ERRCNT0 and CAD_ERRCNT1 (03_cadence_unit.md) -/
def CAD_ERRCLR.CLEAR : Field := ⟨0x050A8, 0, 1, .wo, none, 0⟩

/-- RO, reset 0. Freewheel count of the most recent lockstep fault at its first counted difference (R122), bits [31:0]; a read latches the higher words (03_cadence_unit.md) -/
def CAD_LS_FWC0.FWC_LO : Field := ⟨0x050AC, 0, 32, .ro, none, 0⟩

/-- RO, reset 0. Bits [63:32] (03_cadence_unit.md) -/
def CAD_LS_FWC1.FWC_MID : Field := ⟨0x050B0, 0, 32, .ro, none, 0⟩

/-- RO, reset 0. Bits [79:64] (03_cadence_unit.md) -/
def CAD_LS_FWC2.FWC_HI : Field := ⟨0x050B4, 0, 16, .ro, none, 0⟩

/-- RO, reset 0. Differing state at the first counted difference of the most recent lockstep fault (R122): [0] trackers, [1] table pointer, [2] gate commands, [3] pass or gap, [4] EXPO or MREQ, [5] trigger arm, [6] fast-path output (03_cadence_unit.md) -/
def CAD_LS_DIFF.GROUPS : Field := ⟨0x050B8, 0, 7, .ro, none, 0⟩

/-- RO, reset 0. Mode in force (R126) (04_exposure_modes.md) -/
def EXP_MODE.MODE_ACTIVE : Field := ⟨0x06000, 8, 3, .ro, none, 0⟩

/-- RW/O, reset 0. Mode code of R124; checked under R125; applied under R126 (04_exposure_modes.md) -/
def EXP_MODE.MODE : Field := ⟨0x06000, 0, 3, .rw, some .operator, 0⟩

/-- RW/I, reset 0x1F. Bit k allows mode k (R125, R127 ERR 0x1) (04_exposure_modes.md) -/
def EXP_MODE_ALLOW.ALLOW : Field := ⟨0x06004, 0, 5, .rw, some .installer, 31⟩

/-- RO, reset 0. Code of R127 for the last swap request (04_exposure_modes.md) -/
def EXP_MODE_STATUS.ERR : Field := ⟨0x06008, 20, 4, .ro, none, 0⟩

/-- RO, reset 0. R134 (04_exposure_modes.md) -/
def EXP_MODE_STATUS.VIDEO_RUN : Field := ⟨0x06008, 16, 1, .ro, none, 0⟩

/-- RO, reset 0. Entry of the last refusal (04_exposure_modes.md) -/
def EXP_MODE_STATUS.ERR_INDEX : Field := ⟨0x06008, 0, 12, .ro, none, 0⟩

/-- RW/I, reset 0. Permitted A/B open-time difference per mask, in ticks (R127 ERR 0x4) (04_exposure_modes.md) -/
def EXP_DIFF.BAL_TOL : Field := ⟨0x0600C, 0, 16, .rw, some .installer, 0⟩

/-- RW/I, reset 20. Tolerance of R132 in µs; a write of 0 leaves it unchanged (04_exposure_modes.md) -/
def EXP_INTEG.TOL : Field := ⟨0x06010, 24, 8, .rw, some .installer, 20⟩

/-- RW/I, reset 5. Mains half-cycles per window (R132) (04_exposure_modes.md) -/
def EXP_INTEG.HALVES : Field := ⟨0x06010, 8, 8, .rw, some .installer, 5⟩

/-- RW/I, reset 3. Wall frames per window, 1 to 14 (R131); a write of 15 leaves it unchanged (04_exposure_modes.md) -/
def EXP_INTEG.FRAMES : Field := ⟨0x06010, 0, 4, .rw, some .installer, 3⟩

/-- RW/O, reset 2 000 000. Video exposure in ticks (R134); takes effect at the next sweep start, after the check of R127 ERR 0x8; a value that fails is kept unapplied and raises MODE_REFUSED (04_exposure_modes.md) -/
def EXP_VIDEO_LEN.LEN : Field := ⟨0x06014, 0, 25, .rw, some .operator, 2000000⟩

/-- RW/O, reset 0b10. 0b01 HCG, 0b10 LCG, 0b11 both; 0b00 leaves the field unchanged; takes effect as LEN (04_exposure_modes.md) -/
def EXP_VIDEO.GAIN : Field := ⟨0x06018, 0, 2, .rw, some .operator, 2⟩

/-- RW/I, reset 0. Stope-column mask index for sources 2 to 4 (04_exposure_modes.md) -/
def EXP_EXPO_CFG.MASK (n : Nat) : Field := ⟨0x0601C, 8 * n + 4, 3, .rw, some .installer, 0⟩

/-- RW/I, reset 0. Source of R135; takes effect at the points of R80 (04_exposure_modes.md) -/
def EXP_EXPO_CFG.SRC (n : Nat) : Field := ⟨0x0601C, 8 * n, 4, .rw, some .installer, 0⟩

/-- RW/I, reset 2 000. Source 7 pulse width in ticks, 20 to 1 048 575; lower values leave it unchanged (04_exposure_modes.md) -/
def EXP_EXPO_PW.PW : Field := ⟨0x06020, 0, 20, .rw, some .installer, 2000⟩

/-- RW/M, reset Factory trim. R137; loaded from the store at start-up (04_exposure_modes.md) -/
def EXP_EXPO_LAT.LAT : Field := ⟨0x06024, 0, 6, .rw, some .maker, 0⟩

/-- RW/I, reset 2. Sweeps flagged after each start (R146), 1 to 15; a write of 0 leaves it unchanged (04_exposure_modes.md) -/
def EXP_MREQ_CTRL.LEAD : Field := ⟨0x06028, 8, 4, .rw, some .installer, 2⟩

/-- RW/I, reset 0. 1: MREQ may request (R141); a write of 0 stops it under R143 (04_exposure_modes.md) -/
def EXP_MREQ_CTRL.EN : Field := ⟨0x06028, 0, 1, .rw, some .installer, 0⟩

/-- RO, reset 0. Last stop: 0 none since reset; 1 MEAS_OK; 2 EN; 3 left CAPTURE; 4 lockstep or canary; 5 host link; 6 tally 1 lost; 7 mode or table without MEAS (04_exposure_modes.md) -/
def EXP_MREQ_STATUS.STOP_CAUSE : Field := ⟨0x0602C, 16, 4, .ro, none, 0⟩

/-- RO, reset 0. Flagged sweeps still to come under R146; set to LEAD at each start (R142), counts down with each flagged sweep, and reads 0 from each stop (R143) until the next start (04_exposure_modes.md) -/
def EXP_MREQ_STATUS.LEAD_LEFT : Field := ⟨0x0602C, 8, 4, .ro, none, 0⟩

/-- RO, reset 0. 1 while MREQ toggles (04_exposure_modes.md) -/
def EXP_MREQ_STATUS.REQUESTING : Field := ⟨0x0602C, 0, 1, .ro, none, 0⟩

/-- RO, reset 0. R132; saturates at 0xFFFF (04_exposure_modes.md) -/
def EXP_MODE_ERRCNT.INTEG_MISMATCH_CNT : Field := ⟨0x06030, 16, 16, .ro, none, 0⟩

/-- RO, reset 0. R129; saturates at 0xFFFF (04_exposure_modes.md) -/
def EXP_MODE_ERRCNT.NO_TRIGGER_CNT : Field := ⟨0x06030, 0, 16, .ro, none, 0⟩

/-- WO, reset 0. 1 clears EXP_MODE_ERRCNT (04_exposure_modes.md) -/
def EXP_MODE_ERRCLR.CLEAR : Field := ⟨0x06034, 0, 1, .wo, none, 0⟩

/-- RW/I, reset 0. R155 (05_conversion.md) -/
def CNV_CTRL.FORCE_LCG : Field := ⟨0x07000, 8, 1, .rw, some .installer, 0⟩

/-- RW/M, reset 1. R163; 0 stops rotation (05_conversion.md) -/
def CNV_CTRL.BG_CAL_EN : Field := ⟨0x07000, 0, 1, .rw, some .maker, 1⟩

/-- RO, reset 0. Banks degraded under R162 (05_conversion.md) -/
def CNV_STATUS.DEGRADED_CNT : Field := ⟨0x07004, 16, 12, .ro, none, 0⟩

/-- RO, reset 0. Gain set of the last tap B pass: 0b01 HCG, 0b10 LCG, 0b11 both, 0b00 none (05_conversion.md) -/
def CNV_STATUS.GAIN_B : Field := ⟨0x07004, 8, 2, .ro, none, 0⟩

/-- RO, reset 0. As GAIN_B, for tap A (05_conversion.md) -/
def CNV_STATUS.GAIN_A : Field := ⟨0x07004, 0, 2, .ro, none, 0⟩

/-- RW, reset 0. 0 HCG, 1 LCG (05_conversion.md) -/
def CNV_COEF_SEL.GAIN : Field := ⟨0x07008, 15, 1, .rw, none, 0⟩

/-- RW, reset 0. 0 to 4; 5 to 7 leave the field unchanged (05_conversion.md) -/
def CNV_COEF_SEL.SLICE : Field := ⟨0x07008, 12, 3, .rw, none, 0⟩

/-- RW, reset 0. Bank of R149 (05_conversion.md) -/
def CNV_COEF_SEL.BANK : Field := ⟨0x07008, 0, 11, .rw, none, 0⟩

/-- RO, reset Store. Signed, DN × 2⁻⁴ (R151) (05_conversion.md) -/
def CNV_COEF_OFS.OFS : Field := ⟨0x0700C, 0, 16, .ro, none, 0⟩

/-- RO, reset Store. Unsigned, × 2⁻¹⁶ (05_conversion.md) -/
def CNV_COEF_GAIN.GAIN : Field := ⟨0x07010, 0, 18, .ro, none, 0⟩

/-- RO, reset Store. Signed, steps of 15.625 ps (05_conversion.md) -/
def CNV_COEF_SKEW.SKEW : Field := ⟨0x07014, 0, 6, .ro, none, 0⟩

/-- RO, reset 0. Age of the oldest active coefficients of the selected bank, ms; saturates (05_conversion.md) -/
def CNV_BANK_STATUS.OLDEST_AGE : Field := ⟨0x07018, 16, 16, .ro, none, 0⟩

/-- RO, reset 4. Spare slice (05_conversion.md) -/
def CNV_BANK_STATUS.SPARE : Field := ⟨0x07018, 10, 3, .ro, none, 4⟩

/-- RO, reset 7. Parked slice; 7 none (05_conversion.md) -/
def CNV_BANK_STATUS.PARKED : Field := ⟨0x07018, 7, 3, .ro, none, 7⟩

/-- RO, reset 0. R161 (05_conversion.md) -/
def CNV_BANK_STATUS.STRIKES : Field := ⟨0x07018, 4, 3, .ro, none, 0⟩

/-- RO, reset 0. R162 (05_conversion.md) -/
def CNV_BANK_STATUS.FAILED : Field := ⟨0x07018, 2, 1, .ro, none, 0⟩

/-- RO, reset 0. R162 (05_conversion.md) -/
def CNV_BANK_STATUS.DEGRADED : Field := ⟨0x07018, 1, 1, .ro, none, 0⟩

/-- RO, reset 0. Awaiting a gap under R162 (05_conversion.md) -/
def CNV_BANK_STATUS.RECAL_PENDING : Field := ⟨0x07018, 0, 1, .ro, none, 0⟩

/-- RW/I, reset 200. Interval in ms, 10 to 65 535; lower values leave it unchanged (05_conversion.md) -/
def CAL_INT_SLICE.MS : Field := ⟨0x08000, 0, 16, .rw, some .installer, 200⟩

/-- RW/I, reset 1 000. Interval per tap in ms, 10 to 65 535 (05_conversion.md) -/
def CAL_INT_PKT.MS : Field := ⟨0x08004, 0, 16, .rw, some .installer, 1000⟩

/-- RW/I, reset 10. R166, in s, 1 to 60; other values leave it unchanged (05_conversion.md) -/
def CAL_LIMIT.MAX_AGE : Field := ⟨0x08008, 24, 8, .rw, some .installer, 10⟩

/-- RW/M, reset 3. R162, 1 to 15; a write of 0 leaves it unchanged (05_conversion.md) -/
def CAL_LIMIT.STRIKES : Field := ⟨0x08008, 0, 4, .rw, some .maker, 3⟩

/-- RW/M, reset 32. R161, DN × 2⁻⁴ (05_conversion.md) -/
def CAL_PLAUS.OFS_STEP : Field := ⟨0x0800C, 24, 8, .rw, some .maker, 32⟩

/-- RW/M, reset 10. R161, units of 0.01 % (05_conversion.md) -/
def CAL_PLAUS.GAIN_STEP : Field := ⟨0x0800C, 16, 8, .rw, some .maker, 10⟩

/-- RW/M, reset 16. R161, DN (05_conversion.md) -/
def CAL_PLAUS.OFS_BASE : Field := ⟨0x0800C, 8, 8, .rw, some .maker, 16⟩

/-- RW/M, reset 30. R161, units of 0.1 % (05_conversion.md) -/
def CAL_PLAUS.GAIN_BASE : Field := ⟨0x0800C, 0, 8, .rw, some .maker, 30⟩

/-- RO, reset 0. R167 (05_conversion.md) -/
def CAL_STATUS.INIT_DONE : Field := ⟨0x08010, 16, 1, .ro, none, 0⟩

/-- RO, reset 0. [8] SLICE, [9] PKT_A, [10] PKT_B cause CAL_AGED in some stope (05_conversion.md) -/
def CAL_STATUS.AGED : Field := ⟨0x08010, 8, 3, .ro, none, 0⟩

/-- RO, reset 0. Step running: 0 none, 1 SLICE, 2 PKT_A, 3 PKT_B (05_conversion.md) -/
def CAL_STATUS.RUN : Field := ⟨0x08010, 0, 2, .ro, none, 0⟩

/-- RO, reset 0. Freewheel count at the start of the last step of the kind, bits [31:0]; a read latches HI (05_conversion.md) -/
def CAL_LAST_LO.FWC_LO (k : Nat) : Field := ⟨0x08014 + 8 * k, 0, 32, .ro, none, 0⟩

/-- RO, reset 0. Bits [63:32] (05_conversion.md) -/
def CAL_LAST_HI.FWC_HI (k : Nat) : Field := ⟨0x08018 + 8 * k, 0, 32, .ro, none, 0⟩

/-- RO, reset 0. Steps run; saturates at 0xFFFF (05_conversion.md) -/
def CAL_CNT.RUN_CNT (k : Nat) : Field := ⟨0x0802C + 4 * k, 16, 16, .ro, none, 0⟩

/-- RO, reset 0. Steps in which any bank or group was refused (R161, R73); saturates (05_conversion.md) -/
def CAL_CNT.REFUSED_CNT (k : Nat) : Field := ⟨0x0802C + 4 * k, 0, 16, .ro, none, 0⟩

/-- RO, reset 0. R165; saturates at 1 023 (05_conversion.md) -/
def CAL_DEFER.PKTB : Field := ⟨0x08038, 20, 10, .ro, none, 0⟩

/-- RO, reset 0. R165; saturates (05_conversion.md) -/
def CAL_DEFER.PKTA : Field := ⟨0x08038, 10, 10, .ro, none, 0⟩

/-- RO, reset 0. R165; saturates (05_conversion.md) -/
def CAL_DEFER.SLICE : Field := ⟨0x08038, 0, 10, .ro, none, 0⟩

/-- RO, reset 0. R168; saturates (05_conversion.md) -/
def CAL_HOLD.HOLD_CNT : Field := ⟨0x0803C, 0, 16, .ro, none, 0⟩

/-- WO, reset 0. 1 clears CAL_CNT_x, CAL_DEFER and CAL_HOLD (05_conversion.md) -/
def CAL_ERRCLR.CLEAR : Field := ⟨0x08040, 0, 1, .wo, none, 0⟩

/-- RW/M, reset 0. 0 Q_P, 1 OFS, 2 GAIN, 3 SKEW; others leave it unchanged (05_conversion.md) -/
def CAL_BASE_SEL.KIND : Field := ⟨0x08044, 28, 4, .rw, some .maker, 0⟩

/-- RW/M, reset 0. 0 HCG, 1 LCG; kinds 1 to 3 (05_conversion.md) -/
def CAL_BASE_SEL.GAIN : Field := ⟨0x08044, 15, 1, .rw, some .maker, 0⟩

/-- RW/M, reset 0. Kinds 1 to 3 (05_conversion.md) -/
def CAL_BASE_SEL.SLICE : Field := ⟨0x08044, 12, 3, .rw, some .maker, 0⟩

/-- RW/M, reset 0. Kind 0: 0 A, 1 B (05_conversion.md) -/
def CAL_BASE_SEL.TAP : Field := ⟨0x08044, 11, 1, .rw, some .maker, 0⟩

/-- RW/M, reset 0. Kind 0: column group; kinds 1 to 3: bank (05_conversion.md) -/
def CAL_BASE_SEL.INDEX : Field := ⟨0x08044, 0, 11, .rw, some .maker, 0⟩

/-- RW/M, reset Store. Working-copy value in the format of its register: EXP_QP_VAL.QP, CNV_COEF_OFS, CNV_COEF_GAIN or CNV_COEF_SKEW; ignored while BUSY (05_conversion.md) -/
def CAL_BASE_VAL.VAL : Field := ⟨0x08048, 0, 32, .rw, some .maker, 0⟩

/-- WO/M, reset 0. R171 step 1; ignored while BUSY (05_conversion.md) -/
def CAL_BASE_CMD.CAPTURE : Field := ⟨0x0804C, 1, 1, .wo, some .maker, 0⟩

/-- WO/M, reset 0. R171 step 3; ignored while BUSY (05_conversion.md) -/
def CAL_BASE_CMD.COMMIT : Field := ⟨0x0804C, 0, 1, .wo, some .maker, 0⟩

/-- RO, reset Store. Sequence number of the calibration set in force (05_conversion.md) -/
def CAL_BASE_STATUS.SEQ : Field := ⟨0x08050, 16, 16, .ro, none, 0⟩

/-- RO, reset 0. Commit in progress (05_conversion.md) -/
def CAL_BASE_STATUS.BUSY : Field := ⟨0x08050, 1, 1, .ro, none, 0⟩

/-- RO, reset 1. Result of the last commit (05_conversion.md) -/
def CAL_BASE_STATUS.LAST_OK : Field := ⟨0x08050, 0, 1, .ro, none, 1⟩

/-- RW, reset 1. R174, R175 (05_conversion.md) -/
def MON_CTRL.RUN : Field := ⟨0x09000, 31, 1, .rw, none, 1⟩

/-- RW/M, reset 0. R176 (05_conversion.md) -/
def MON_CTRL.REF : Field := ⟨0x09000, 8, 2, .rw, some .maker, 0⟩

/-- RW, reset 15. Last entry of the sequence (05_conversion.md) -/
def MON_CTRL.LEN : Field := ⟨0x09000, 0, 4, .rw, none, 15⟩

/-- RO, reset 0. R179; saturates (05_conversion.md) -/
def MON_STATUS.OVERRUN_CNT : Field := ⟨0x09004, 16, 16, .ro, none, 0⟩

/-- RO, reset 0. R176 (05_conversion.md) -/
def MON_STATUS.REF_SETTLED : Field := ⟨0x09004, 8, 1, .ro, none, 0⟩

/-- RO, reset 0. Conversions in progress (05_conversion.md) -/
def MON_STATUS.RUNNING : Field := ⟨0x09004, 4, 1, .ro, none, 0⟩

/-- RO, reset 0. Entry converting (05_conversion.md) -/
def MON_STATUS.ENTRY : Field := ⟨0x09004, 0, 4, .ro, none, 0⟩

/-- RW/M, reset 16. Buffer size 2^LOG2SIZE bytes, 10 to 16 (05_conversion.md) -/
def MON_BUF_CFG.LOG2SIZE : Field := ⟨0x09008, 24, 5, .rw, some .maker, 16⟩

/-- RW/M, reset 0x1F_0000. Byte offset in foreman SRAM, aligned to the size; a misaligned write leaves it unchanged (05_conversion.md) -/
def MON_BUF_CFG.BASE : Field := ⟨0x09008, 0, 21, .rw, some .maker, 2031616⟩

/-- RO, reset 0. Wraps of the write index, modulo 2¹⁶ (05_conversion.md) -/
def MON_BUF_WR.WRAPS : Field := ⟨0x0900C, 16, 16, .ro, none, 0⟩

/-- RO, reset 0. Byte index of the next record (05_conversion.md) -/
def MON_BUF_WR.WR : Field := ⟨0x0900C, 0, 16, .ro, none, 0⟩

/-- RO, reset 0. Byte index of the oldest unread record; advanced by the foreman (05_conversion.md) -/
def MON_BUF_RD.RD : Field := ⟨0x09010, 0, 16, .ro, none, 0⟩

/-- W1C, reset 0. Bit n: R177 (05_conversion.md) -/
def MON_LIMSTAT.EXCEEDED : Field := ⟨0x09014, 0, 16, .w1c, none, 0⟩

/-- WO, reset 0. 1 clears OVERRUN_CNT (05_conversion.md) -/
def MON_ERRCLR.CLEAR : Field := ⟨0x09018, 0, 1, .wo, none, 0⟩

/-- RW, reset 6. Sampling cycles, 6 to 1 023; lower values leave it unchanged (05_conversion.md) -/
def MON_SEQ.SAMP (n : Nat) : Field := ⟨0x09040 + 4 * n, 16, 10, .rw, none, 6⟩

/-- RW, reset 1. 0 ×0.5, 1 ×1, 2 ×2, 3 ×4 (05_conversion.md) -/
def MON_SEQ.GAIN (n : Nat) : Field := ⟨0x09040 + 4 * n, 8, 2, .rw, none, 1⟩

/-- RW, reset n + 1. Channel of R172 (05_conversion.md) -/
def MON_SEQ.CHAN (n : Nat) : Field := ⟨0x09040 + 4 * n, 0, 5, .rw, none, (n + 1)⟩

/-- RW/I, reset 0. R177 (05_conversion.md) -/
def MON_LIM.EN (n : Nat) : Field := ⟨0x09080 + 4 * n, 31, 1, .rw, some .installer, 0⟩

/-- RW/I, reset 0x3FFF. Upper limit code (05_conversion.md) -/
def MON_LIM.HI (n : Nat) : Field := ⟨0x09080 + 4 * n, 16, 14, .rw, some .installer, 16383⟩

/-- RW/I, reset 0. Lower limit code (05_conversion.md) -/
def MON_LIM.LO (n : Nat) : Field := ⟨0x09080 + 4 * n, 0, 14, .rw, some .installer, 0⟩

/-- RO, reset 0. Channel c converted since MONITOR started (05_conversion.md) -/
def MON_LAST.VALID (c : Nat) : Field := ⟨0x090C0 + 4 * c, 31, 1, .ro, none, 0⟩

/-- RO, reset 0. Bytes 0–1 of the latest record of channel c (05_conversion.md) -/
def MON_LAST.REC (c : Nat) : Field := ⟨0x090C0 + 4 * c, 0, 16, .ro, none, 0⟩

/-- RO, reset 0. Signed, °C × 2⁻⁴ (R180) (05_conversion.md) -/
def MON_TEMP.DEGC (n : Nat) : Field := ⟨0x09120 + 4 * n, 0, 16, .ro, none, 0⟩

/-- RO, reset 0. Signed, °C × 2⁻⁴ (R180) (05_conversion.md) -/
def MON_TDIE.DEGC : Field := ⟨0x09140, 0, 16, .ro, none, 0⟩

/-- RW/I, reset 0. Quadrant enables (R226) (06_stope_engines.md) -/
def ENG_CTRL.QEN : Field := ⟨0x0A000, 8, 4, .rw, some .installer, 0⟩

/-- RW/M, reset 1. R219 (06_stope_engines.md) -/
def ENG_CTRL.SPARE_AUTO : Field := ⟨0x0A000, 0, 1, .rw, some .maker, 1⟩

/-- RO, reset 0. R222 (06_stope_engines.md) -/
def ENG_STATUS.UNSERVED : Field := ⟨0x0A004, 16, 8, .ro, none, 0⟩

/-- RO, reset 0. Free engines (R185) in enabled quadrants; 0 until a quadrant is enabled, 8 once all four are enabled after power-on reset (06_stope_engines.md) -/
def ENG_STATUS.FREE : Field := ⟨0x0A004, 4, 9, .ro, none, 0⟩

/-- RO, reset 0. Quadrants running (R226) (06_stope_engines.md) -/
def ENG_STATUS.QRUN : Field := ⟨0x0A004, 0, 4, .ro, none, 0⟩

/-- RW, reset 0. Engine for ENG_CMD to ENG_MEM_CRC and ENG_ECC; 264 to 511 leave it unchanged (06_stope_engines.md) -/
def ENG_SEL.ENGINE : Field := ⟨0x0A008, 0, 9, .rw, none, 0⟩

/-- WO/I for 1, 2; WO/M for 3, reset 0. 1 START, 2 HALT, 3 CLEAR (R216, R217); 0 no action (06_stope_engines.md) -/
def ENG_CMD.CMD : Field := ⟨0x0A00C, 0, 2, .wo, none, 0⟩

/-- RO, reset —. Engine serves a stope (06_stope_engines.md) -/
def ENG_STATE.MAPPED : Field := ⟨0x0A010, 31, 1, .ro, none, 0⟩

/-- RO, reset —. Stope served when MAPPED (06_stope_engines.md) -/
def ENG_STATE.STOPE : Field := ⟨0x0A010, 16, 8, .ro, none, 0⟩

/-- RO, reset 0. R218; last fault, kept until CLEAR (06_stope_engines.md) -/
def ENG_STATE.FAULT : Field := ⟨0x0A010, 12, 4, .ro, none, 0⟩

/-- RO, reset 0. R216 (06_stope_engines.md) -/
def ENG_STATE.STATE : Field := ⟨0x0A010, 0, 2, .ro, none, 0⟩

/-- RO, reset 0. Instruction address at the last stop (06_stope_engines.md) -/
def ENG_PC.PC : Field := ⟨0x0A014, 2, 14, .ro, none, 0⟩

/-- RW/I, reset 0. Engine-local address; bits [1:0] written as 0; a write clears ENG_MEM_CRC (06_stope_engines.md) -/
def ENG_MEM_ADDR.ADDR : Field := ⟨0x0A018, 0, 32, .rw, some .installer, 0⟩

/-- RW/I, reset —. R213, R214; the address increments by 4 after each access (06_stope_engines.md) -/
def ENG_MEM_DATA.DATA : Field := ⟨0x0A01C, 0, 32, .rw, some .installer, 0⟩

/-- RO, reset 0xFFFF_FFFF. CRC-32 (IEEE 802.3 polynomial) of words written since the last ENG_MEM_ADDR write, bytes in address order (06_stope_engines.md) -/
def ENG_MEM_CRC.CRC : Field := ⟨0x0A020, 0, 32, .ro, none, 4294967295⟩

/-- RW/I, reset 0. R214 (06_stope_engines.md) -/
def ENG_BCAST_CTRL.EN : Field := ⟨0x0A024, 0, 1, .rw, some .installer, 0⟩

/-- RW/I, reset 0. Bit k selects engine 32w + k; bits for engines above 263 are reserved (06_stope_engines.md) -/
def ENG_BCAST.MASK (w : Nat) : Field := ⟨0x0A028 + 4 * w, 0, if w = 8 then 8 else 32, .rw, some .installer, 0⟩

/-- RW/I, reset 1 000. R218, 10 to 65 535; lower values leave it unchanged (06_stope_engines.md) -/
def ENG_WD.LIMIT_US : Field := ⟨0x0A04C, 0, 16, .rw, some .installer, 1000⟩

/-- RW/I, reset 3. R209, 1 to 15; 0 leaves it unchanged (06_stope_engines.md) -/
def ENG_DEADLINE.STRIKES : Field := ⟨0x0A050, 8, 4, .rw, some .installer, 3⟩

/-- RW/I, reset 2. R209, 1 to 4; other values leave it unchanged (06_stope_engines.md) -/
def ENG_DEADLINE.SWEEPS : Field := ⟨0x0A050, 0, 4, .rw, some .installer, 2⟩

/-- RW/I, reset 32. Held-output pool in the kibble store, 8 to 64 MiB; a write in CAPTURE or HOLD, or out of range, leaves it unchanged (06_stope_engines.md) -/
def ENG_POOL.MIB : Field := ⟨0x0A054, 0, 8, .rw, some .installer, 32⟩

/-- WO/M, reset 0. R224 (06_stope_engines.md) -/
def ENG_REMAP.GO : Field := ⟨0x0A058, 31, 1, .wo, some .maker, 0⟩

/-- WO/M, reset 0. Target engine (06_stope_engines.md) -/
def ENG_REMAP.ENGINE : Field := ⟨0x0A058, 16, 9, .wo, some .maker, 0⟩

/-- WO/M, reset 0. Stope to remap (06_stope_engines.md) -/
def ENG_REMAP.STOPE : Field := ⟨0x0A058, 0, 8, .wo, some .maker, 0⟩

/-- RO, reset 0. Remap in progress (06_stope_engines.md) -/
def ENG_REMAP_STATUS.BUSY : Field := ⟨0x0A05C, 31, 1, .ro, none, 0⟩

/-- RO, reset 0. 0 done, 1 reload needed (R221), 2 target not free, 3 refused in CAPTURE or HOLD (06_stope_engines.md) -/
def ENG_REMAP_STATUS.RESULT : Field := ⟨0x0A05C, 28, 3, .ro, none, 0⟩

/-- RO, reset 0. Target of the last remap (06_stope_engines.md) -/
def ENG_REMAP_STATUS.ENGINE : Field := ⟨0x0A05C, 16, 9, .ro, none, 0⟩

/-- RO, reset 0. Stope of the last remap (06_stope_engines.md) -/
def ENG_REMAP_STATUS.STOPE : Field := ⟨0x0A05C, 0, 8, .ro, none, 0⟩

/-- RO, reset 0. R190, R191, selected engine; saturates (06_stope_engines.md) -/
def ENG_ECC.CORR_CNT : Field := ⟨0x0A060, 16, 16, .ro, none, 0⟩

/-- RO, reset 0. As above (06_stope_engines.md) -/
def ENG_ECC.UNCORR_CNT : Field := ⟨0x0A060, 0, 16, .ro, none, 0⟩

/-- RO, reset 0. R203, all engines; saturates (06_stope_engines.md) -/
def ENG_ERRCNT0.LOST_LINES : Field := ⟨0x0A064, 16, 16, .ro, none, 0⟩

/-- RO, reset 0. R209; saturates (06_stope_engines.md) -/
def ENG_ERRCNT0.LATE_SWEEPS : Field := ⟨0x0A064, 0, 16, .ro, none, 0⟩

/-- RO, reset 0. R213; saturates (06_stope_engines.md) -/
def ENG_ERRCNT1.HWIN_REJECT : Field := ⟨0x0A068, 24, 8, .ro, none, 0⟩

/-- RO, reset 0. R216; saturates (06_stope_engines.md) -/
def ENG_ERRCNT1.FAULTS : Field := ⟨0x0A068, 16, 8, .ro, none, 0⟩

/-- RO, reset 0. R206; saturates (06_stope_engines.md) -/
def ENG_ERRCNT1.PUSH_REFUSED : Field := ⟨0x0A068, 0, 16, .ro, none, 0⟩

/-- WO, reset 0. 1 clears ENG_ERRCNT0, ENG_ERRCNT1 and every ENG_ECC count (06_stope_engines.md) -/
def ENG_ERRCLR.CLEAR : Field := ⟨0x0A06C, 0, 1, .wo, none, 0⟩

/-- RO, reset 2k + 1. Engine serving stope 2k + 1; 0x1FF none (06_stope_engines.md) -/
def ENG_MAP.ENG_ODD (k : Nat) : Field := ⟨0x0A100 + 4 * k, 16, 9, .ro, none, (2 * k + 1)⟩

/-- RO, reset 2k. Engine serving stope 2k; 0x1FF none (06_stope_engines.md) -/
def ENG_MAP.ENG_EVEN (k : Nat) : Field := ⟨0x0A100 + 4 * k, 0, 9, .ro, none, (2 * k)⟩

/-- RW/I, reset 1. R274 (08_cegon_link.md) -/
def LNK_CTRL.EN (x : Nat) : Field := ⟨0x0C000 + 0x400 * x, 31, 1, .rw, some .installer, 1⟩

/-- RW/I, reset 0. R287 (08_cegon_link.md) -/
def LNK_CTRL.SLEEP_EN (x : Nat) : Field := ⟨0x0C000 + 0x400 * x, 30, 1, .rw, some .installer, 0⟩

/-- RW/I, reset 0. R290 (08_cegon_link.md) -/
def LNK_CTRL.FE_ALLOW (x : Nat) : Field := ⟨0x0C000 + 0x400 * x, 29, 1, .rw, some .installer, 0⟩

/-- WO/I, reset 0. 1: send RETRAIN_REQ; retrain under R286 (08_cegon_link.md) -/
def LNK_CTRL.RETRAIN (x : Nat) : Field := ⟨0x0C000 + 0x400 * x, 24, 1, .wo, some .installer, 0⟩

/-- RW/I, reset 8. 1 to 8; other values leave it unchanged; takes effect at the next training (08_cegon_link.md) -/
def LNK_CTRL.WIDTH_MAX (x : Nat) : Field := ⟨0x0C000 + 0x400 * x, 20, 4, .rw, some .installer, 8⟩

/-- RW/I, reset 100. R287, 1 to 65 535; 0 leaves it unchanged (08_cegon_link.md) -/
def LNK_CTRL.SLEEP_US (x : Nat) : Field := ⟨0x0C000 + 0x400 * x, 0, 16, .rw, some .installer, 100⟩

/-- RO, reset 0. R274 (08_cegon_link.md) -/
def LNK_STATE.STATE (x : Nat) : Field := ⟨0x0C004 + 0x400 * x, 28, 4, .ro, none, 0⟩

/-- RO, reset 0. R287 (08_cegon_link.md) -/
def LNK_STATE.TX_SLEEP (x : Nat) : Field := ⟨0x0C004 + 0x400 * x, 27, 1, .ro, none, 0⟩

/-- RO, reset 0. R287, R288 (08_cegon_link.md) -/
def LNK_STATE.PEER_SLEEP (x : Nat) : Field := ⟨0x0C004 + 0x400 * x, 26, 1, .ro, none, 0⟩

/-- RO, reset 0. Receive width in force (08_cegon_link.md) -/
def LNK_STATE.WIDTH (x : Nat) : Field := ⟨0x0C004 + 0x400 * x, 20, 4, .ro, none, 0⟩

/-- RO, reset 0. Lanes failed since the last training (08_cegon_link.md) -/
def LNK_STATE.FAILED (x : Nat) : Field := ⟨0x0C004 + 0x400 * x, 8, 8, .ro, none, 0⟩

/-- RO, reset 0. Receive lane map in force (08_cegon_link.md) -/
def LNK_STATE.MAP (x : Nat) : Field := ⟨0x0C004 + 0x400 * x, 0, 8, .ro, none, 0⟩

/-- RW/I, reset 8. R285, 1 to 255; 0 leaves it unchanged (08_cegon_link.md) -/
def LNK_RETRY.LIMIT (x : Nat) : Field := ⟨0x0C008 + 0x400 * x, 24, 8, .rw, some .installer, 8⟩

/-- RW/I, reset 20. R285, µs, 2 to 255; lower values leave it unchanged (08_cegon_link.md) -/
def LNK_RETRY.TIMEOUT (x : Nat) : Field := ⟨0x0C008 + 0x400 * x, 0, 8, .rw, some .installer, 20⟩

/-- RW/I, reset 0. R274, R290 (08_cegon_link.md) -/
def LNK_LOOP.RUN (x : Nat) : Field := ⟨0x0C00C + 0x400 * x, 31, 1, .rw, some .installer, 0⟩

/-- RW/I, reset 0. R290; 0 and 4 to 15 leave RUN at 0 (08_cegon_link.md) -/
def LNK_LOOP.MODE (x : Nat) : Field := ⟨0x0C00C + 0x400 * x, 24, 4, .rw, some .installer, 0⟩

/-- RW/I, reset 2. 0 PRBS7, 1 PRBS15, 2 PRBS31, 3 LNK_x_LOOP_WORD repeated (08_cegon_link.md) -/
def LNK_LOOP.PATTERN (x : Nat) : Field := ⟨0x0C00C + 0x400 * x, 16, 4, .rw, some .installer, 2⟩

/-- RW/I, reset 0xFF. Lanes looped (08_cegon_link.md) -/
def LNK_LOOP.LANES (x : Nat) : Field := ⟨0x0C00C + 0x400 * x, 0, 8, .rw, some .installer, 255⟩

/-- RW/I, reset 0xA55A_5AA5. Fixed pattern (08_cegon_link.md) -/
def LNK_LOOP_WORD.WORD (x : Nat) : Field := ⟨0x0C010 + 0x400 * x, 0, 32, .rw, some .installer, 2774162085⟩

/-- RO, reset 0. Peer serial from training, bits [31:0] and [63:32]; a read of _LO latches _HI (08_cegon_link.md) -/
def LNK_PEER_LO.SERIAL (x : Nat) : Field := ⟨0x0C014 + 0x400 * x, 0, 32, .ro, none, 0⟩

/-- RO, reset 0. Peer serial from training, bits [31:0] and [63:32]; a read of _LO latches _HI (08_cegon_link.md) -/
def LNK_PEER_HI.SERIAL (x : Nat) : Field := ⟨0x0C018 + 0x400 * x, 0, 32, .ro, none, 0⟩

/-- RO, reset 0. Frames failed under R282; saturates (08_cegon_link.md) -/
def LNK_ERRCNT0.CRC_ERR (x : Nat) : Field := ⟨0x0C020 + 0x400 * x, 16, 16, .ro, none, 0⟩

/-- RO, reset 0. NAKs received; saturates (08_cegon_link.md) -/
def LNK_ERRCNT0.NAK_RX (x : Nat) : Field := ⟨0x0C020 + 0x400 * x, 0, 16, .ro, none, 0⟩

/-- RO, reset 0. R284; saturates (08_cegon_link.md) -/
def LNK_ERRCNT1.TIME_DROP (x : Nat) : Field := ⟨0x0C024 + 0x400 * x, 24, 8, .ro, none, 0⟩

/-- RO, reset 0. R283, R285; saturates (08_cegon_link.md) -/
def LNK_ERRCNT1.REPLAYS (x : Nat) : Field := ⟨0x0C024 + 0x400 * x, 16, 8, .ro, none, 0⟩

/-- RO, reset 0. R270, R271; saturates (08_cegon_link.md) -/
def LNK_ERRCNT1.HDR_ERR (x : Nat) : Field := ⟨0x0C024 + 0x400 * x, 0, 16, .ro, none, 0⟩

/-- RO, reset 0. Trainings after the first; saturates (08_cegon_link.md) -/
def LNK_ERRCNT2.RETRAINS (x : Nat) : Field := ⟨0x0C028 + 0x400 * x, 24, 8, .ro, none, 0⟩

/-- RO, reset 0. R271; saturates (08_cegon_link.md) -/
def LNK_ERRCNT2.LOCK_LOSS (x : Nat) : Field := ⟨0x0C028 + 0x400 * x, 16, 8, .ro, none, 0⟩

/-- RO, reset 0. R269; saturates (08_cegon_link.md) -/
def LNK_ERRCNT2.STUCK (x : Nat) : Field := ⟨0x0C028 + 0x400 * x, 8, 8, .ro, none, 0⟩

/-- RO, reset 0. R268; saturates (08_cegon_link.md) -/
def LNK_ERRCNT2.RUN_UNMET (x : Nat) : Field := ⟨0x0C028 + 0x400 * x, 0, 8, .ro, none, 0⟩

/-- WO, reset 0. 1 clears LNK_x_ERRCNT0–2 and LNK_x_PRBS_ERR0–7 (08_cegon_link.md) -/
def LNK_ERRCLR.CLEAR (x : Nat) : Field := ⟨0x0C02C + 0x400 * x, 0, 1, .wo, none, 0⟩

/-- RO, reset 0. Bit n: lane n in block lock (R271) (08_cegon_link.md) -/
def LNK_LOCK.BLOCK_LOCK (x : Nat) : Field := ⟨0x0C030 + 0x400 * x, 0, 8, .ro, none, 0⟩

/-- RW/I, reset 0. R275 (08_cegon_link.md) -/
def LNK_PE.FIXED (x n : Nat) : Field := ⟨0x0C040 + 0x400 * x + 4 * n, 31, 1, .rw, some .installer, 0⟩

/-- RW/I, reset 2. R275 (08_cegon_link.md) -/
def LNK_PE.SWING (x n : Nat) : Field := ⟨0x0C040 + 0x400 * x + 4 * n, 24, 2, .rw, some .installer, 2⟩

/-- RO, reset 0xF. Preset chosen at the last EQ; 0xF none (08_cegon_link.md) -/
def LNK_PE.PRESET (x n : Nat) : Field := ⟨0x0C040 + 0x400 * x + 4 * n, 20, 4, .ro, none, 15⟩

/-- RW/I, reset 0. Taps in force; a write applies under R275 when FIXED is 1 (08_cegon_link.md) -/
def LNK_PE.C_PRE (x n : Nat) : Field := ⟨0x0C040 + 0x400 * x + 4 * n, 8, 4, .rw, some .installer, 0⟩

/-- RW/I, reset 4. As C_PRE (08_cegon_link.md) -/
def LNK_PE.C_POST (x n : Nat) : Field := ⟨0x0C040 + 0x400 * x + 4 * n, 0, 4, .rw, some .installer, 4⟩

/-- RO, reset 0. Horizontal eye margin, UI × 2⁻⁸ (08_cegon_link.md) -/
def LNK_EYE.H_MARGIN (x n : Nat) : Field := ⟨0x0C060 + 0x400 * x + 4 * n, 8, 8, .ro, none, 0⟩

/-- RO, reset 0. Vertical eye margin, mV × 4 (08_cegon_link.md) -/
def LNK_EYE.V_MARGIN (x n : Nat) : Field := ⟨0x0C060 + 0x400 * x + 4 * n, 0, 8, .ro, none, 0⟩

/-- RO, reset 0. Bit errors in LOOP (R290); saturates (08_cegon_link.md) -/
def LNK_PRBS_ERR.ERRORS (x n : Nat) : Field := ⟨0x0C080 + 0x400 * x + 4 * n, 0, 32, .ro, none, 0⟩

/-- RO, reset 0. PLL-L locked (08_cegon_link.md) -/
def LNK_REF_STATUS.PLL_L_LOCK : Field := ⟨0x0C800, 1, 1, .ro, none, 0⟩

/-- RO, reset 0. REFCLK within ±1 % of nominal, measured against CANARY (08_cegon_link.md) -/
def LNK_REF_STATUS.REF_PRESENT : Field := ⟨0x0C800, 0, 1, .ro, none, 0⟩

/-- RO, reset 0. Residence, U receive land to D transmit land, ticks × 2⁻³ (R272) (08_cegon_link.md) -/
def LNK_RES_UD.RES : Field := ⟨0x0C804, 0, 32, .ro, none, 0⟩

/-- RO, reset 0. As LNK_RES_UD, D to U (08_cegon_link.md) -/
def LNK_RES_DU.RES : Field := ⟨0x0C808, 0, 32, .ro, none, 0⟩

/-- WO/I, reset 0. 1: full roll call (R309, R313); pithead only (09_chain_protocol.md) -/
def CHN_CTRL.FULL_CALL : Field := ⟨0x0B000, 31, 1, .wo, some .installer, 0⟩

/-- WO/I, reset 0. 1: join roll call (R311, R313); pithead only (09_chain_protocol.md) -/
def CHN_CTRL.JOIN_CALL : Field := ⟨0x0B000, 30, 1, .wo, some .installer, 0⟩

/-- RW/I, reset 0. Claim priority (R305) (09_chain_protocol.md) -/
def CHN_CTRL.PRIORITY : Field := ⟨0x0B000, 20, 4, .rw, some .installer, 0⟩

/-- RW/I, reset 8. R314, R316; 4 to 64; other values leave it unchanged (09_chain_protocol.md) -/
def CHN_CTRL.DEAD_THRESH : Field := ⟨0x0B000, 8, 8, .rw, some .installer, 8⟩

/-- RW/I, reset 50. R306; 10 to 255; lower values leave it unchanged (09_chain_protocol.md) -/
def CHN_CTRL.ELECT_MS : Field := ⟨0x0B000, 0, 8, .rw, some .installer, 50⟩

/-- RW/I, reset 1. R313 (09_chain_protocol.md) -/
def CHN_CFG.JOIN_AUTO : Field := ⟨0x0B004, 3, 1, .rw, some .installer, 1⟩

/-- RW/I, reset 0. R337 (09_chain_protocol.md) -/
def CHN_CFG.WITNESS_EN : Field := ⟨0x0B004, 2, 1, .rw, some .installer, 0⟩

/-- RW/I, reset 1. R330 (09_chain_protocol.md) -/
def CHN_CFG.AUTO_SPARE : Field := ⟨0x0B004, 1, 1, .rw, some .installer, 1⟩

/-- RO, reset 0. R314 (09_chain_protocol.md) -/
def CHN_STATE.STATE : Field := ⟨0x0B008, 29, 3, .ro, none, 0⟩

/-- RO, reset 0. 0 crew, 1 standby, 2 pithead (09_chain_protocol.md) -/
def CHN_STATE.ROLE : Field := ⟨0x0B008, 27, 2, .ro, none, 0⟩

/-- RO, reset 0. Joined with no stope enabled (09_chain_protocol.md) -/
def CHN_STATE.BENCHED : Field := ⟨0x0B008, 26, 1, .ro, none, 0⟩

/-- RO, reset 0. Incarnation (09_chain_protocol.md) -/
def CHN_STATE.INC : Field := ⟨0x0B008, 16, 8, .ro, none, 0⟩

/-- RO, reset 0. Tally (09_chain_protocol.md) -/
def CHN_STATE.TALLY : Field := ⟨0x0B008, 8, 6, .ro, none, 0⟩

/-- RO, reset 0. Port D marked broken (R297) (09_chain_protocol.md) -/
def CHN_STATE.BROKEN_D : Field := ⟨0x0B008, 1, 1, .ro, none, 0⟩

/-- RO, reset 0. Port U marked broken (09_chain_protocol.md) -/
def CHN_STATE.BROKEN_U : Field := ⟨0x0B008, 0, 1, .ro, none, 0⟩

/-- RO, reset 63. R294 (09_chain_protocol.md) -/
def CHN_RING.HOPS_U : Field := ⟨0x0B00C, 24, 6, .ro, none, 63⟩

/-- RO, reset 63. R294 (09_chain_protocol.md) -/
def CHN_RING.HOPS_D : Field := ⟨0x0B00C, 16, 6, .ro, none, 63⟩

/-- RO, reset 0. Ring whole (09_chain_protocol.md) -/
def CHN_RING.WHOLE : Field := ⟨0x0B00C, 15, 1, .ro, none, 0⟩

/-- RO, reset 0. Tally before the break (09_chain_protocol.md) -/
def CHN_RING.BREAK_AFTER : Field := ⟨0x0B00C, 8, 6, .ro, none, 0⟩

/-- RO, reset 0. Units joined, pithead included (09_chain_protocol.md) -/
def CHN_RING.UNITS : Field := ⟨0x0B00C, 0, 6, .ro, none, 0⟩

/-- RO, reset 0. Gear epoch in force (09_chain_protocol.md) -/
def CHN_EPOCH.GEAR : Field := ⟨0x0B010, 16, 16, .ro, none, 0⟩

/-- RO, reset 0. Assignment epoch in force (09_chain_protocol.md) -/
def CHN_EPOCH.ASSIGN : Field := ⟨0x0B010, 0, 16, .ro, none, 0⟩

/-- RW/I, reset 3. R323; 3 to 15; other values leave it unchanged (09_chain_protocol.md) -/
def CHN_DRL_CMD.AHEAD : Field := ⟨0x0B014, 8, 4, .rw, some .installer, 3⟩

/-- WO/I, reset 0. Derailleur with the next bank (09_chain_protocol.md) -/
def CHN_DRL_CMD.GO_ASSIGN : Field := ⟨0x0B014, 1, 1, .wo, some .installer, 0⟩

/-- WO/O, reset 0. Derailleur with the pending gear (09_chain_protocol.md) -/
def CHN_DRL_CMD.GO_GEAR : Field := ⟨0x0B014, 0, 1, .wo, some .operator, 0⟩

/-- RO, reset 0. Derailleur number (09_chain_protocol.md) -/
def CHN_DRL_STATUS.NUMBER : Field := ⟨0x0B018, 24, 8, .ro, none, 0⟩

/-- RO, reset 0. First refusing tally (09_chain_protocol.md) -/
def CHN_DRL_STATUS.NACK_TALLY : Field := ⟨0x0B018, 18, 6, .ro, none, 0⟩

/-- RO, reset 0. Its ARM_ACK result (09_chain_protocol.md) -/
def CHN_DRL_STATUS.NACK_RESULT : Field := ⟨0x0B018, 12, 4, .ro, none, 0⟩

/-- RO, reset 0. 0 none, 1 committed, 2 refused by a unit, 3 unit dead, 4 pithead recovery, 5 busy or not CAPTURE, 6 slot owned twice (09_chain_protocol.md) -/
def CHN_DRL_STATUS.RESULT : Field := ⟨0x0B018, 4, 4, .ro, none, 0⟩

/-- RO, reset 0. 0 IDLE, 1 ARMED, 2 COMMITTED (09_chain_protocol.md) -/
def CHN_DRL_STATUS.STATE : Field := ⟨0x0B018, 0, 2, .ro, none, 0⟩

/-- RO, reset 0. Commit sweep of the last derailleur (09_chain_protocol.md) -/
def CHN_DRL_SWEEP.K : Field := ⟨0x0B01C, 0, 32, .ro, none, 0⟩

/-- RO, reset 0. Bit t of the 64-bit value: tally t joined (09_chain_protocol.md) -/
def CHN_JOINED.MAP (n : Nat) : Field := ⟨0x0B020 + 4 * n, 0, 32, .ro, none, 0⟩

/-- RO, reset 0. Bit t: tally t acknowledged the current ARM (09_chain_protocol.md) -/
def CHN_ACKED.MAP (n : Nat) : Field := ⟨0x0B028 + 4 * n, 0, 32, .ro, none, 0⟩

/-- RW/I, reset 0. 0 in force, read only; 1 next (09_chain_protocol.md) -/
def CHN_ASG_SEL.BANK : Field := ⟨0x0B030, 31, 1, .rw, some .installer, 0⟩

/-- RW/I, reset 0. Entry tally (09_chain_protocol.md) -/
def CHN_ASG_SEL.TALLY : Field := ⟨0x0B030, 8, 6, .rw, some .installer, 0⟩

/-- RW/I, reset 0. Entry stope (09_chain_protocol.md) -/
def CHN_ASG_SEL.STOPE : Field := ⟨0x0B030, 0, 8, .rw, some .installer, 0⟩

/-- RW/I, reset 0. R327 (09_chain_protocol.md) -/
def CHN_ASG_BASE.SLOT_BASE : Field := ⟨0x0B034, 0, 32, .rw, some .installer, 0⟩

/-- RW/I, reset 0. R327 (09_chain_protocol.md) -/
def CHN_ASG_LO.OWN_LO : Field := ⟨0x0B038, 0, 17, .rw, some .installer, 0⟩

/-- RW/I, reset 0. R327 (09_chain_protocol.md) -/
def CHN_ASG_HI.VALID : Field := ⟨0x0B03C, 31, 1, .rw, some .installer, 0⟩

/-- RW/I, reset 0. R327; a write commits the entry under R16; ignored for BANK 0 or while ARMED (09_chain_protocol.md) -/
def CHN_ASG_HI.OWN_HI : Field := ⟨0x0B03C, 0, 17, .rw, some .installer, 0⟩

/-- WO/I, reset 0. Bank in force copied into next (09_chain_protocol.md) -/
def CHN_ASG_CMD.COPY : Field := ⟨0x0B040, 1, 1, .wo, some .installer, 0⟩

/-- WO/I, reset 0. Next bank cleared (09_chain_protocol.md) -/
def CHN_ASG_CMD.CLEAR : Field := ⟨0x0B040, 0, 1, .wo, some .installer, 0⟩

/-- RW/I, reset 16. R339; 4 to 64 (09_chain_protocol.md) -/
def CHN_INTAKE.EGRESS_MIB : Field := ⟨0x0B044, 8, 8, .rw, some .installer, 16⟩

/-- RW/I, reset 64. R338; 16 to 88 (09_chain_protocol.md) -/
def CHN_INTAKE.HWM_MIB : Field := ⟨0x0B044, 0, 8, .rw, some .installer, 64⟩

/-- RW/I, reset 1. R302; 0 leaves it unchanged (09_chain_protocol.md) -/
def CHN_WRR.W_BULK : Field := ⟨0x0B048, 8, 4, .rw, some .installer, 1⟩

/-- RW/I, reset 2. As W_BULK (09_chain_protocol.md) -/
def CHN_WRR.W_SPOT : Field := ⟨0x0B048, 4, 4, .rw, some .installer, 2⟩

/-- RW/I, reset 4. As W_BULK (09_chain_protocol.md) -/
def CHN_WRR.W_REC : Field := ⟨0x0B048, 0, 4, .rw, some .installer, 4⟩

/-- RW, reset 0. Tally shown in CHN_PEER_STATUS and CHN_PEER_SERIAL (09_chain_protocol.md) -/
def CHN_PEER_SEL.TALLY : Field := ⟨0x0B04C, 0, 6, .rw, none, 0⟩

/-- RO, reset 0. — (09_chain_protocol.md) -/
def CHN_PEER_STATUS.JOINED : Field := ⟨0x0B050, 31, 1, .ro, none, 0⟩

/-- RO, reset 0. Declared dead, no live grant (09_chain_protocol.md) -/
def CHN_PEER_STATUS.DEAD : Field := ⟨0x0B050, 30, 1, .ro, none, 0⟩

/-- RO, reset 0. R326 (09_chain_protocol.md) -/
def CHN_PEER_STATUS.QUARANTINED : Field := ⟨0x0B050, 29, 1, .ro, none, 0⟩

/-- RO, reset 0. Current incarnation (09_chain_protocol.md) -/
def CHN_PEER_STATUS.INC : Field := ⟨0x0B050, 16, 8, .ro, none, 0⟩

/-- RO, reset 0. Consecutive empty windows (R316) (09_chain_protocol.md) -/
def CHN_PEER_STATUS.MISSED : Field := ⟨0x0B050, 8, 8, .ro, none, 0⟩

/-- RO, reset 63. Hops from the pithead by its way (09_chain_protocol.md) -/
def CHN_PEER_STATUS.HOPS : Field := ⟨0x0B050, 0, 6, .ro, none, 63⟩

/-- RO, reset 0. Serial, bits [31:0] and [63:32]; a read of _LO latches _HI (09_chain_protocol.md) -/
def CHN_PEER_SERIAL.SERIAL (n : Nat) : Field := ⟨0x0B054 + 4 * n, 0, 32, .ro, none, 0⟩

/-- RO, reset 0. R301; saturates (09_chain_protocol.md) -/
def CHN_ERRCNT0.HDR_CRC : Field := ⟨0x0B060, 16, 16, .ro, none, 0⟩

/-- RO, reset 0. R301; saturates (09_chain_protocol.md) -/
def CHN_ERRCNT0.PAY_CRC : Field := ⟨0x0B060, 0, 16, .ro, none, 0⟩

/-- RO, reset 0. R317; saturates (09_chain_protocol.md) -/
def CHN_ERRCNT1.SUPERSEDED : Field := ⟨0x0B064, 16, 16, .ro, none, 0⟩

/-- RO, reset 0. R301, R332; saturates (09_chain_protocol.md) -/
def CHN_ERRCNT1.TAG_DROP : Field := ⟨0x0B064, 0, 16, .ro, none, 0⟩

/-- RO, reset 0. R329, R332; saturates (09_chain_protocol.md) -/
def CHN_ERRCNT2.GRACE_DROP : Field := ⟨0x0B068, 16, 16, .ro, none, 0⟩

/-- RO, reset 0. R332, R337; saturates (09_chain_protocol.md) -/
def CHN_ERRCNT2.NOT_OWNED : Field := ⟨0x0B068, 0, 16, .ro, none, 0⟩

/-- RO, reset 0. R334; saturates (09_chain_protocol.md) -/
def CHN_ERRCNT3.STALE_DELTA : Field := ⟨0x0B06C, 16, 16, .ro, none, 0⟩

/-- RO, reset 0. R331; saturates (09_chain_protocol.md) -/
def CHN_ERRCNT3.INCOMPLETE : Field := ⟨0x0B06C, 0, 16, .ro, none, 0⟩

/-- RO, reset 0. R338; saturates (09_chain_protocol.md) -/
def CHN_ERRCNT4.INTAKE_DROP : Field := ⟨0x0B070, 16, 16, .ro, none, 0⟩

/-- RO, reset 0. R339; saturates (09_chain_protocol.md) -/
def CHN_ERRCNT4.EGRESS_DROP : Field := ⟨0x0B070, 8, 8, .ro, none, 0⟩

/-- RO, reset 0. R298; saturates (09_chain_protocol.md) -/
def CHN_ERRCNT4.PORT_DROP : Field := ⟨0x0B070, 0, 8, .ro, none, 0⟩

/-- WO, reset 0. 1 clears CHN_ERRCNT0–CHN_ERRCNT4 (09_chain_protocol.md) -/
def CHN_ERRCLR.CLEAR : Field := ⟨0x0B074, 0, 1, .wo, none, 0⟩

/-- RW/I, reset 0. Spare tally for tally 4w + k (R330); 0 none (09_chain_protocol.md) -/
def CHN_SPARE.SPARE (t : Nat) : Field := ⟨0x0B080 + 4 * (t / 4), 8 * (t % 4), 6, .rw, some .installer, 0⟩

/-- RW/I, reset 0. R343 (10_pithead_pipeline.md) -/
def EXP_SPOT_CTRL.EN : Field := ⟨0x06400, 31, 1, .rw, some .installer, 0⟩

/-- RW/I, reset 0. R345 (10_pithead_pipeline.md) -/
def EXP_SPOT_CTRL.METHOD : Field := ⟨0x06400, 28, 1, .rw, some .installer, 0⟩

/-- RW/I, reset 0. 0 S16, 1 S32; 2 and 3 leave it unchanged (10_pithead_pipeline.md) -/
def EXP_SPOT_CTRL.FMT : Field := ⟨0x06400, 24, 2, .rw, some .installer, 0⟩

/-- RW/I, reset 1. R343, 1 to 15; 0 leaves it unchanged (10_pithead_pipeline.md) -/
def EXP_SPOT_CTRL.EVERY : Field := ⟨0x06400, 16, 4, .rw, some .installer, 1⟩

/-- RW/I, reset 0b01. [0] tap A, [1] tap B (10_pithead_pipeline.md) -/
def EXP_SPOT_CTRL.TAPS : Field := ⟨0x06400, 0, 2, .rw, some .installer, 1⟩

/-- RW/I, reset 96. R347, 1 to 240; other values leave it unchanged (10_pithead_pipeline.md) -/
def EXP_SPOT_RATE.GBPS : Field := ⟨0x06404, 0, 8, .rw, some .installer, 96⟩

/-- RO, reset 0. A frame is being taken or sent (10_pithead_pipeline.md) -/
def EXP_SPOT_STATUS.RUN : Field := ⟨0x06408, 31, 1, .ro, none, 0⟩

/-- RO, reset 0. R348 (10_pithead_pipeline.md) -/
def EXP_SPOT_STATUS.CLEARING : Field := ⟨0x06408, 30, 1, .ro, none, 0⟩

/-- RO, reset 0. A STAGED frame is being sent (10_pithead_pipeline.md) -/
def EXP_SPOT_STATUS.SENDING : Field := ⟨0x06408, 29, 1, .ro, none, 0⟩

/-- RO, reset 0. Frames completed, modulo 2¹⁶ (10_pithead_pipeline.md) -/
def EXP_SPOT_STATUS.FRAMES : Field := ⟨0x06408, 0, 16, .ro, none, 0⟩

/-- RO, reset 0. R349; saturates (10_pithead_pipeline.md) -/
def EXP_SPOT_ERRCNT.LINE_DROP : Field := ⟨0x0640C, 16, 16, .ro, none, 0⟩

/-- RO, reset 0. R346, R347; saturates (10_pithead_pipeline.md) -/
def EXP_SPOT_ERRCNT.SKIPPED : Field := ⟨0x0640C, 0, 16, .ro, none, 0⟩

/-- WO, reset 0. 1 clears EXP_SPOT_ERRCNT (10_pithead_pipeline.md) -/
def EXP_SPOT_ERRCLR.CLEAR : Field := ⟨0x06410, 0, 1, .wo, none, 0⟩

/-- RW/I, reset 0. Bit k selects stope 32w + k (10_pithead_pipeline.md) -/
def EXP_SPOT_MASK.MASK (w : Nat) : Field := ⟨0x06420 + 4 * w, 0, 32, .rw, some .installer, 0⟩

/-- RW/I, reset 0. R354, R355 (10_pithead_pipeline.md) -/
def PIPE_CTRL.EN : Field := ⟨0x0D000, 31, 1, .rw, some .installer, 0⟩

/-- RW/I, reset 100. R356, 10 to 255; lower values leave it unchanged (10_pithead_pipeline.md) -/
def PIPE_CTRL.FRAME_MS : Field := ⟨0x0D000, 0, 8, .rw, some .installer, 100⟩

/-- RW/I, reset 0. R353 (10_pithead_pipeline.md) -/
def PIPE_MEM.SPOT_MIB : Field := ⟨0x0D004, 8, 8, .rw, some .installer, 0⟩

/-- RW/I, reset 0. R353 (10_pithead_pipeline.md) -/
def PIPE_MEM.TBL_MIB : Field := ⟨0x0D004, 0, 8, .rw, some .installer, 0⟩

/-- RO, reset 0. Spot buffer in use, 64 KiB units (10_pithead_pipeline.md) -/
def PIPE_STATUS.LEVEL : Field := ⟨0x0D008, 20, 12, .ro, none, 0⟩

/-- RO, reset 0. Pipeline running (10_pithead_pipeline.md) -/
def PIPE_STATUS.RUN : Field := ⟨0x0D008, 16, 1, .ro, none, 0⟩

/-- RO, reset 0. Contexts ON (10_pithead_pipeline.md) -/
def PIPE_STATUS.CTX_ON : Field := ⟨0x0D008, 0, 7, .ro, none, 0⟩

/-- RW, reset 0. Context shown at 0x0D010–0x0D070 (10_pithead_pipeline.md) -/
def PIPE_CTX_SEL.CTX : Field := ⟨0x0D00C, 0, 6, .rw, none, 0⟩

/-- RW/I, reset 0. Source tally (R360) (10_pithead_pipeline.md) -/
def PIPE_CTX_CFG.SRC : Field := ⟨0x0D010, 26, 6, .rw, some .installer, 0⟩

/-- RW/I, reset 0. 0 A, 1 B (10_pithead_pipeline.md) -/
def PIPE_CTX_CFG.TAP : Field := ⟨0x0D010, 25, 1, .rw, some .installer, 0⟩

/-- RW/I, reset 0. Data ring (10_pithead_pipeline.md) -/
def PIPE_CTX_CFG.RING : Field := ⟨0x0D010, 20, 4, .rw, some .installer, 0⟩

/-- RW/I, reset 1. R365 (10_pithead_pipeline.md) -/
def PIPE_CTX_CFG.FMT : Field := ⟨0x0D010, 16, 2, .rw, some .installer, 1⟩

/-- RW/I, reset 0. R362 (10_pithead_pipeline.md) -/
def PIPE_CTX_CFG.DEF_EN : Field := ⟨0x0D010, 3, 1, .rw, some .installer, 0⟩

/-- RW/I, reset 1. R362 (10_pithead_pipeline.md) -/
def PIPE_CTX_CFG.BLK_EN : Field := ⟨0x0D010, 2, 1, .rw, some .installer, 1⟩

/-- RW/I, reset 0. R362 (10_pithead_pipeline.md) -/
def PIPE_CTX_CFG.FLAT_EN : Field := ⟨0x0D010, 1, 1, .rw, some .installer, 0⟩

/-- RW/I, reset 0. Signed, electrons × 2⁻⁴ (R362) (10_pithead_pipeline.md) -/
def PIPE_CTX_OFS.OFS : Field := ⟨0x0D014, 0, 32, .rw, some .installer, 0⟩

/-- RW/I, reset 0. R361, R364 (10_pithead_pipeline.md) -/
def PIPE_CTX_FLAT.BASE : Field := ⟨0x0D018, 0, 20, .rw, some .installer, 0⟩

/-- RW/I, reset 0. R361, R366 (10_pithead_pipeline.md) -/
def PIPE_CTX_DEF.BASE : Field := ⟨0x0D01C, 0, 20, .rw, some .installer, 0⟩

/-- RW/I, reset 0. R366 (10_pithead_pipeline.md) -/
def PIPE_CTX_DEFN.COUNT : Field := ⟨0x0D020, 0, 20, .rw, some .installer, 0⟩

/-- RW/I, reset 0. Zones down, minus 1 (10_pithead_pipeline.md) -/
def PIPE_CTX_STAT.ZY : Field := ⟨0x0D024, 20, 4, .rw, some .installer, 0⟩

/-- RW/I, reset 0. Zones across, minus 1 (10_pithead_pipeline.md) -/
def PIPE_CTX_STAT.ZX : Field := ⟨0x0D024, 16, 4, .rw, some .installer, 0⟩

/-- RW/I, reset 0. R369 (10_pithead_pipeline.md) -/
def PIPE_CTX_STAT.FOCUS : Field := ⟨0x0D024, 2, 1, .rw, some .installer, 0⟩

/-- RW/I, reset 0. R369 (10_pithead_pipeline.md) -/
def PIPE_CTX_STAT.ZONES : Field := ⟨0x0D024, 1, 1, .rw, some .installer, 0⟩

/-- RW/I, reset 1. R369 (10_pithead_pipeline.md) -/
def PIPE_CTX_STAT.HIST : Field := ⟨0x0D024, 0, 1, .rw, some .installer, 1⟩

/-- RW/I, reset 0. Bit k selects stope 32w + k (10_pithead_pipeline.md) -/
def PIPE_CTX_MASK.MASK (w : Nat) : Field := ⟨0x0D028 + 4 * w, 0, 32, .rw, some .installer, 0⟩

/-- RW/I, reset 0x0100_0000 for i = 0, 4, 8; 0 otherwise. R363 (10_pithead_pipeline.md) -/
def PIPE_CTX_MAT.M (i : Nat) : Field := ⟨0x0D048 + 4 * i, 0, 32, .rw, some .installer, (if i % 4 = 0 then 0x1000000 else 0)⟩

/-- WO/I, reset 0. R359 (10_pithead_pipeline.md) -/
def PIPE_CTX_CMD.DISABLE : Field := ⟨0x0D06C, 1, 1, .wo, some .installer, 0⟩

/-- WO/I, reset 0. R358 (10_pithead_pipeline.md) -/
def PIPE_CTX_CMD.COMMIT : Field := ⟨0x0D06C, 0, 1, .wo, some .installer, 0⟩

/-- RO, reset 0. Context in force (10_pithead_pipeline.md) -/
def PIPE_CTX_STATUS.ON : Field := ⟨0x0D070, 31, 1, .ro, none, 0⟩

/-- RO, reset 0. R358 (10_pithead_pipeline.md) -/
def PIPE_CTX_STATUS.PENDING : Field := ⟨0x0D070, 30, 1, .ro, none, 0⟩

/-- RO, reset 0. R358 (10_pithead_pipeline.md) -/
def PIPE_CTX_STATUS.RESULT : Field := ⟨0x0D070, 24, 4, .ro, none, 0⟩

/-- RO, reset 0. R359 (10_pithead_pipeline.md) -/
def PIPE_CTX_STATUS.GEN : Field := ⟨0x0D070, 0, 16, .ro, none, 0⟩

/-- RO, reset 0. R360; saturates (10_pithead_pipeline.md) -/
def PIPE_ERRCNT0.NO_CTX : Field := ⟨0x0D074, 16, 16, .ro, none, 0⟩

/-- RO, reset 0. R354, R355; saturates (10_pithead_pipeline.md) -/
def PIPE_ERRCNT0.SPOT_DROP : Field := ⟨0x0D074, 0, 16, .ro, none, 0⟩

/-- RO, reset 0. R354; saturates (10_pithead_pipeline.md) -/
def PIPE_ERRCNT1.INLINE_DROP : Field := ⟨0x0D078, 16, 16, .ro, none, 0⟩

/-- RO, reset 0. R368; saturates (10_pithead_pipeline.md) -/
def PIPE_ERRCNT1.OUT_DROP : Field := ⟨0x0D078, 0, 16, .ro, none, 0⟩

/-- RO, reset 0. R356; saturates (10_pithead_pipeline.md) -/
def PIPE_ERRCNT2.INCOMPLETE : Field := ⟨0x0D07C, 16, 16, .ro, none, 0⟩

/-- RO, reset 0. R357; saturates (10_pithead_pipeline.md) -/
def PIPE_ERRCNT2.ORDER_DROP : Field := ⟨0x0D07C, 0, 16, .ro, none, 0⟩

/-- WO, reset 0. 1 clears PIPE_ERRCNT0–PIPE_ERRCNT2 (10_pithead_pipeline.md) -/
def PIPE_ERRCLR.CLEAR : Field := ⟨0x0D080, 0, 1, .wo, none, 0⟩

/-- RW/I, reset 1. R379, R390; no effect on tally 1 (11_time.md) -/
def TIM_CTRL.SERVO : Field := ⟨0x04000, 0, 1, .rw, some .installer, 1⟩

/-- RO, reset 0. R381 (11_time.md) -/
def TIM_STATUS.STATE : Field := ⟨0x04004, 30, 2, .ro, none, 0⟩

/-- RO, reset 0. R391 (11_time.md) -/
def TIM_STATUS.CHAIN_OK : Field := ⟨0x04004, 29, 1, .ro, none, 0⟩

/-- RO, reset 0. R376, R377 (11_time.md) -/
def TIM_STATUS.SLEWING : Field := ⟨0x04004, 28, 1, .ro, none, 0⟩

/-- W1C, reset 0. R376 (11_time.md) -/
def TIM_STATUS.STEP_REFUSED : Field := ⟨0x04004, 27, 1, .w1c, none, 0⟩

/-- RO, reset 0. R382 (11_time.md) -/
def TIM_STATUS.COARSE : Field := ⟨0x04004, 26, 1, .ro, none, 0⟩

/-- RO, reset 0. R387 (11_time.md) -/
def TIM_STATUS.ORIGIN_HOLD : Field := ⟨0x04004, 25, 1, .ro, none, 0⟩

/-- RO, reset 0. R380 (11_time.md) -/
def TIM_STATUS.DISC : Field := ⟨0x04004, 24, 1, .ro, none, 0⟩

/-- RO, reset 0. R385 (11_time.md) -/
def TIM_STATUS.DLY_OK_D : Field := ⟨0x04004, 17, 1, .ro, none, 0⟩

/-- RO, reset 0. R385 (11_time.md) -/
def TIM_STATUS.DLY_OK_U : Field := ⟨0x04004, 16, 1, .ro, none, 0⟩

/-- RO, reset 0. Seconds in the present holdover; saturates (11_time.md) -/
def TIM_STATUS.HOLD_S : Field := ⟨0x04004, 0, 16, .ro, none, 0⟩

/-- RO, reset 0. Bits [31:24] of TIM_STATUS at the latch (11_time.md) -/
def TIM_NOW0.FLAGS : Field := ⟨0x04008, 24, 8, .ro, none, 0⟩

/-- RO, reset 0. ns × 2⁻¹⁶; a read latches TIM_NOW1–TIM_NOW6 (R375) (11_time.md) -/
def TIM_NOW0.FRAC : Field := ⟨0x04008, 0, 16, .ro, none, 0⟩

/-- RO, reset 0. 0 to 999 999 999 (11_time.md) -/
def TIM_NOW1.NS : Field := ⟨0x0400C, 0, 32, .ro, none, 0⟩

/-- RO, reset 0. Seconds [31:0], [63:32] (11_time.md) -/
def TIM_NOW2.SEC : Field := ⟨0x04010, 0, 32, .ro, none, 0⟩

/-- RO, reset 0. Seconds [31:0], [63:32] (11_time.md) -/
def TIM_NOW3.SEC : Field := ⟨0x04014, 0, 32, .ro, none, 0⟩

/-- RO, reset 0. Freewheel count [31:0], [63:32]; TIM_NOW6 [15:0] holds [79:64], [31:16] reserved (11_time.md) -/
def TIM_NOW4.FWC : Field := ⟨0x04018, 0, 32, .ro, none, 0⟩

/-- RO, reset 0. Freewheel count [31:0], [63:32]; TIM_NOW6 [15:0] holds [79:64], [31:16] reserved (11_time.md) -/
def TIM_NOW5.FWC : Field := ⟨0x0401C, 0, 32, .ro, none, 0⟩

/-- RO, reset 0. Freewheel count [31:0], [63:32]; TIM_NOW6 [15:0] holds [79:64], [31:16] reserved (11_time.md) -/
def TIM_NOW6.FWC : Field := ⟨0x04020, 0, 32, .ro, none, 0⟩

/-- RW, reset 0. Signed, × 2⁻⁴⁰ (R373, R374, R379) (11_time.md) -/
def TIM_RATE.ADJ : Field := ⟨0x04024, 0, 32, .rw, none, 0⟩

/-- RW, reset 0. Δ fraction (11_time.md) -/
def TIM_STEP0.FRAC : Field := ⟨0x04028, 0, 16, .rw, none, 0⟩

/-- RW, reset 0. Δ, signed 64-bit ns; a write of TIM_STEP2 commits (R376) (11_time.md) -/
def TIM_STEP1.NS : Field := ⟨0x0402C, 0, 32, .rw, none, 0⟩

/-- RW, reset 0. Δ, signed 64-bit ns; a write of TIM_STEP2 commits (R376) (11_time.md) -/
def TIM_STEP2.NS : Field := ⟨0x04030, 0, 32, .rw, none, 0⟩

/-- WO/I, reset 0. R378 (11_time.md) -/
def TIM_STEP_CMD.ACCEPT : Field := ⟨0x04034, 0, 1, .wo, some .installer, 0⟩

/-- RW/I, reset 100. R377, 1 to 100; other values leave it unchanged (11_time.md) -/
def TIM_SLEW.PPM : Field := ⟨0x04038, 0, 7, .rw, some .installer, 100⟩

/-- RO, reset 0. Remainder, signed 64-bit ns; a read of _LO latches _HI (11_time.md) -/
def TIM_SLEW_REM_LO.REM : Field := ⟨0x0403C, 0, 32, .ro, none, 0⟩

/-- RO, reset 0. Remainder, signed 64-bit ns; a read of _LO latches _HI (11_time.md) -/
def TIM_SLEW_REM_HI.REM : Field := ⟨0x04040, 0, 32, .ro, none, 0⟩

/-- RW/I, reset 1 000. R376, 1 to 1 000 000; other values leave it unchanged (11_time.md) -/
def TIM_JUMP.US : Field := ⟨0x04044, 0, 32, .rw, some .installer, 1000⟩

/-- RW/I, reset 0. R381; 0 means no limit (11_time.md) -/
def TIM_HOLD.MAX_S : Field := ⟨0x04048, 16, 16, .rw, some .installer, 0⟩

/-- RW/I, reset 16. R380, 1 to 255; 0 leaves it unchanged (11_time.md) -/
def TIM_HOLD.HOST_S : Field := ⟨0x04048, 8, 8, .rw, some .installer, 16⟩

/-- RW/I, reset 8. R391, 2 to 255; lower values leave it unchanged (11_time.md) -/
def TIM_HOLD.SYNC_LOSS : Field := ⟨0x04048, 0, 8, .rw, some .installer, 8⟩

/-- RW/I, reset 5. R391, ns, 1 to 65 535 (11_time.md) -/
def TIM_SERVO.LOCK_NS : Field := ⟨0x0404C, 16, 16, .rw, some .installer, 5⟩

/-- RW/I, reset 4. R390, 1 to 12 (11_time.md) -/
def TIM_SERVO.KI : Field := ⟨0x0404C, 8, 4, .rw, some .installer, 4⟩

/-- RW/I, reset 1. R390, 0 to 8 (11_time.md) -/
def TIM_SERVO.KP : Field := ⟨0x0404C, 0, 4, .rw, some .installer, 1⟩

/-- RO, reset 0. Last e, signed, ns × 2⁻⁴; saturates (11_time.md) -/
def TIM_OFS_ERR.E : Field := ⟨0x04050, 0, 32, .ro, none, 0⟩

/-- RW/I, reset 1. R386; tally 1 only (11_time.md) -/
def TIM_SYNC.EN : Field := ⟨0x04054, 31, 1, .rw, some .installer, 1⟩

/-- RW/I, reset 1. R387 (11_time.md) -/
def TIM_SYNC.PTP_TS : Field := ⟨0x04054, 16, 1, .rw, some .installer, 1⟩

/-- RW/I, reset 0. R387 (11_time.md) -/
def TIM_SYNC.DOMAIN : Field := ⟨0x04054, 8, 8, .rw, some .installer, 0⟩

/-- RW/I, reset 1. R386, 1 to 255; 0 leaves it unchanged (11_time.md) -/
def TIM_SYNC.INTERVAL_MS : Field := ⟨0x04054, 0, 8, .rw, some .installer, 1⟩

/-- RO, reset 0. R385, ticks × 2⁻³ (11_time.md) -/
def TIM_DELAY.DELAY (x : Nat) : Field := ⟨0x04058 + 4 * x, 0, 32, .ro, none, 0⟩

/-- RW/I, reset 0. Signed, ticks × 2⁻³ (R384) (11_time.md) -/
def TIM_ASYM.ASYM_D : Field := ⟨0x04060, 16, 16, .rw, some .installer, 0⟩

/-- RW/I, reset 0. As ASYM_D (11_time.md) -/
def TIM_ASYM.ASYM_U : Field := ⟨0x04060, 0, 16, .rw, some .installer, 0⟩

/-- RW/I, reset 0. R394; 3 leaves it unchanged (11_time.md) -/
def TIM_PUB_CTRL.MAINS_FROM : Field := ⟨0x04064, 4, 2, .rw, some .installer, 0⟩

/-- RW/I, reset 1. R394; 3 leaves it unchanged (11_time.md) -/
def TIM_PUB_CTRL.SCAN_FROM : Field := ⟨0x04064, 0, 2, .rw, some .installer, 1⟩

/-- RW, reset 0. 0 scan, 1 mains, for TIM_PUB_W0–W5 (11_time.md) -/
def TIM_PUB_SEL.KIND : Field := ⟨0x04068, 0, 1, .rw, none, 0⟩

/-- RW/I, reset 0. Epoch ns (11_time.md) -/
def TIM_PUB_W0.EP_NS : Field := ⟨0x0406C, 0, 32, .rw, some .installer, 0⟩

/-- RW/I, reset 0. Epoch seconds [31:0] (11_time.md) -/
def TIM_PUB_W1.EP_SEC_LO : Field := ⟨0x04070, 0, 32, .rw, some .installer, 0⟩

/-- RW/I, reset 0. Epoch fraction (11_time.md) -/
def TIM_PUB_W2.EP_FRAC : Field := ⟨0x04074, 16, 16, .rw, some .installer, 0⟩

/-- RW/I, reset 0. Epoch seconds [47:32] (11_time.md) -/
def TIM_PUB_W2.EP_SEC_HI : Field := ⟨0x04074, 0, 16, .rw, some .installer, 0⟩

/-- RW/I, reset 0. Period [31:0], ns × 2⁻¹⁶ (11_time.md) -/
def TIM_PUB_W3.PER_LO : Field := ⟨0x04078, 0, 32, .rw, some .installer, 0⟩

/-- RW/I, reset 0. Period [47:32] (11_time.md) -/
def TIM_PUB_W4.PER_HI : Field := ⟨0x0407C, 0, 16, .rw, some .installer, 0⟩

/-- RW/I, reset 0. Wall frame of the epoch; a write commits W0–W5 under R16 (11_time.md) -/
def TIM_PUB_W5.FRAME : Field := ⟨0x04080, 0, 32, .rw, some .installer, 0⟩

/-- RO, reset 0. R388; saturates (11_time.md) -/
def TIM_ERRCNT0.SYNC_DROP : Field := ⟨0x04084, 0, 16, .ro, none, 0⟩

/-- RO, reset 0. R379; saturates (11_time.md) -/
def TIM_ERRCNT1.HOST_IGN : Field := ⟨0x04088, 24, 8, .ro, none, 0⟩

/-- RO, reset 0. R385; saturates (11_time.md) -/
def TIM_ERRCNT1.DELAY_OUTLIER : Field := ⟨0x04088, 16, 8, .ro, none, 0⟩

/-- RO, reset 0. R398; saturates (11_time.md) -/
def TIM_ERRCNT1.TP_SKIP : Field := ⟨0x04088, 0, 16, .ro, none, 0⟩

/-- WO, reset 0. 1 clears TIM_ERRCNT0 and TIM_ERRCNT1 (11_time.md) -/
def TIM_ERRCLR.CLEAR : Field := ⟨0x0408C, 0, 1, .wo, none, 0⟩

/-- RW/M, reset Factory trim. R400; loaded from the store at start-up (11_time.md) -/
def TIM_TP_LAT.LAT : Field := ⟨0x04090, 0, 6, .rw, some .maker, 0⟩

/-- RW/I, reset 0. R395, R399 (11_time.md) -/
def TIM_TP_CFG.EN (n : Nat) : Field := ⟨0x04100 + 32 * n, 31, 1, .rw, some .installer, 0⟩

/-- RW/I, reset 1. 0 once, 1 periodic (11_time.md) -/
def TIM_TP_CFG.MODE (n : Nat) : Field := ⟨0x04100 + 32 * n, 8, 1, .rw, some .installer, 1⟩

/-- RO, reset 0. 0 accepted, 1 WIDTH too small, 2 PERIOD too small, 3 WIDTH too large (11_time.md) -/
def TIM_TP_CFG.RESULT (n : Nat) : Field := ⟨0x04100 + 32 * n, 0, 2, .ro, none, 0⟩

/-- RW/I, reset 0. START nanoseconds (11_time.md) -/
def TIM_TP_START0.NS (n : Nat) : Field := ⟨0x04104 + 32 * n, 0, 32, .rw, some .installer, 0⟩

/-- RW/I, reset 0. START seconds [31:0], [63:32]; a write of START2 commits (11_time.md) -/
def TIM_TP_START1.SEC (n : Nat) : Field := ⟨0x04108 + 32 * n, 0, 32, .rw, some .installer, 0⟩

/-- RW/I, reset 0. START seconds [31:0], [63:32]; a write of START2 commits (11_time.md) -/
def TIM_TP_START2.SEC (n : Nat) : Field := ⟨0x0410C + 32 * n, 0, 32, .rw, some .installer, 0⟩

/-- RW/I, reset 1 000 000 000. R395, R396 (11_time.md) -/
def TIM_TP_PERIOD.NS (n : Nat) : Field := ⟨0x04110 + 32 * n, 0, 32, .rw, some .installer, 1000000000⟩

/-- RW/I, reset 100 000. R395, R397 (11_time.md) -/
def TIM_TP_WIDTH.NS (n : Nat) : Field := ⟨0x04114 + 32 * n, 0, 32, .rw, some .installer, 100000⟩

/-- RO, reset 0. Link in DL_Up (12_host_interface.md) -/
def HST_LINK.DL_UP : Field := ⟨0x0E000, 31, 1, .ro, none, 0⟩

/-- RO, reset 0. Flit mode in use (12_host_interface.md) -/
def HST_LINK.FLIT : Field := ⟨0x0E000, 30, 1, .ro, none, 0⟩

/-- RO, reset 0. 1 to 6: 2.5, 5.0, 8.0, 16.0, 32.0, 64.0 GT/s (12_host_interface.md) -/
def HST_LINK.SPEED : Field := ⟨0x0E000, 16, 4, .ro, none, 0⟩

/-- RO, reset 0. Lanes: 1, 2, 4 or 8 (12_host_interface.md) -/
def HST_LINK.WIDTH : Field := ⟨0x0E000, 0, 4, .ro, none, 0⟩

/-- RO, reset 0. R436 (12_host_interface.md) -/
def HST_STATUS.REQ_OK : Field := ⟨0x0E004, 31, 1, .ro, none, 0⟩

/-- RO, reset 0. Bus Master Enable (12_host_interface.md) -/
def HST_STATUS.BME : Field := ⟨0x0E004, 30, 1, .ro, none, 0⟩

/-- RO, reset 0. Function in D3hot (12_host_interface.md) -/
def HST_STATUS.D3HOT : Field := ⟨0x0E004, 29, 1, .ro, none, 0⟩

/-- RO, reset 0. REARM written since the last event of R412 (12_host_interface.md) -/
def HST_STATUS.ARMED : Field := ⟨0x0E004, 28, 1, .ro, none, 0⟩

/-- RO, reset 0. Watchdog lapsed (R436) (12_host_interface.md) -/
def HST_STATUS.WDOG_EXP : Field := ⟨0x0E004, 27, 1, .ro, none, 0⟩

/-- WO, reset 0. R436 (12_host_interface.md) -/
def HST_CTRL.REARM : Field := ⟨0x0E008, 0, 1, .wo, none, 0⟩

/-- RWS/I, reset 50. R434, R436; 0 leaves it unchanged (12_host_interface.md) -/
def HST_GRACE.MS : Field := ⟨0x0E00C, 0, 16, .rws, some .installer, 50⟩

/-- RWS/I, reset 0. R436; 0 off (12_host_interface.md) -/
def HST_WDOG.MS : Field := ⟨0x0E010, 16, 16, .rws, some .installer, 0⟩

/-- WO, reset 0. R436 (12_host_interface.md) -/
def HST_WDOG.PET : Field := ⟨0x0E010, 0, 1, .wo, none, 0⟩

/-- RWS/I, reset 10. R433; 0 leaves it unchanged (12_host_interface.md) -/
def HST_PROXY.MS : Field := ⟨0x0E014, 0, 8, .rws, some .installer, 10⟩

/-- RW/M, reset 0. R408 (12_host_interface.md) -/
def HST_BAR2.BASE : Field := ⟨0x0E018, 0, 1, .rw, some .maker, 0⟩

/-- RO, reset 0. R434; saturates (12_host_interface.md) -/
def HST_ERRCNT0.CPL_DROP : Field := ⟨0x0E01C, 16, 16, .ro, none, 0⟩

/-- RO, reset 0. R410; saturates (12_host_interface.md) -/
def HST_ERRCNT0.HOST_RD_ERR : Field := ⟨0x0E01C, 0, 16, .ro, none, 0⟩

/-- RO, reset 0. R406; saturates (12_host_interface.md) -/
def HST_ERRCNT1.BAR0_PARTIAL : Field := ⟨0x0E020, 24, 8, .ro, none, 0⟩

/-- RO, reset 0. R408; saturates (12_host_interface.md) -/
def HST_ERRCNT1.BAR2_DENIED : Field := ⟨0x0E020, 16, 8, .ro, none, 0⟩

/-- RO, reset 0. R429; saturates (12_host_interface.md) -/
def HST_ERRCNT1.OVERSIZE : Field := ⟨0x0E020, 0, 16, .ro, none, 0⟩

/-- RO, reset 0. R430; saturates (12_host_interface.md) -/
def HST_ERRCNT2.EVENT_LOST : Field := ⟨0x0E024, 16, 16, .ro, none, 0⟩

/-- RO, reset 0. R433; saturates (12_host_interface.md) -/
def HST_ERRCNT2.PROXY_TIMEOUT : Field := ⟨0x0E024, 0, 16, .ro, none, 0⟩

/-- WO, reset 0. 1 clears HST_ERRCNT0–HST_ERRCNT2 (12_host_interface.md) -/
def HST_ERRCLR.CLEAR : Field := ⟨0x0E028, 0, 1, .wo, none, 0⟩

/-- RW, reset 0. Ring base bits [31:12] (R413) (12_host_interface.md) -/
def HST_SQ_BASE_LO.BASE_LO (n : Nat) : Field := ⟨0x0E100 + 16 * n, 12, 20, .rw, none, 0⟩

/-- RW, reset 0. Ring base bits [31:12] (R413) (12_host_interface.md) -/
def HST_CQ_BASE_LO.BASE_LO (n : Nat) : Field := ⟨0x0E300 + 16 * n, 12, 20, .rw, none, 0⟩

/-- RW, reset 0. Ring base bits [31:12] (R413) (12_host_interface.md) -/
def HST_DR_BASE_LO.BASE_LO (n : Nat) : Field := ⟨0x0E500 + 16 * n, 12, 20, .rw, none, 0⟩

/-- RW, reset 0. Ring base bits [63:32] (12_host_interface.md) -/
def HST_SQ_BASE_HI.BASE_HI (n : Nat) : Field := ⟨0x0E104 + 16 * n, 0, 32, .rw, none, 0⟩

/-- RW, reset 0. Ring base bits [63:32] (12_host_interface.md) -/
def HST_CQ_BASE_HI.BASE_HI (n : Nat) : Field := ⟨0x0E304 + 16 * n, 0, 32, .rw, none, 0⟩

/-- RW, reset 0. Ring base bits [63:32] (12_host_interface.md) -/
def HST_DR_BASE_HI.BASE_HI (n : Nat) : Field := ⟨0x0E504 + 16 * n, 0, 32, .rw, none, 0⟩

/-- RW, reset 0. R418 (12_host_interface.md) -/
def HST_SQ_CFG.EN (n : Nat) : Field := ⟨0x0E108 + 16 * n, 31, 1, .rw, none, 0⟩

/-- WO, reset 0. R418 (12_host_interface.md) -/
def HST_SQ_CFG.RESUME (n : Nat) : Field := ⟨0x0E108 + 16 * n, 30, 1, .wo, none, 0⟩

/-- RW, reset 0. Bound completion ring (12_host_interface.md) -/
def HST_SQ_CFG.CQ (n : Nat) : Field := ⟨0x0E108 + 16 * n, 16, 5, .rw, none, 0⟩

/-- RW, reset 6. R413 (12_host_interface.md) -/
def HST_SQ_CFG.LOG2SIZE (n : Nat) : Field := ⟨0x0E108 + 16 * n, 0, 5, .rw, none, 6⟩

/-- RW, reset 0. R418 (12_host_interface.md) -/
def HST_CQ_CFG.EN (n : Nat) : Field := ⟨0x0E308 + 16 * n, 31, 1, .rw, none, 0⟩

/-- WO, reset 0. R418 (12_host_interface.md) -/
def HST_CQ_CFG.RESUME (n : Nat) : Field := ⟨0x0E308 + 16 * n, 30, 1, .wo, none, 0⟩

/-- RW, reset 0. R409 (12_host_interface.md) -/
def HST_CQ_CFG.VECTOR (n : Nat) : Field := ⟨0x0E308 + 16 * n, 24, 6, .rw, none, 0⟩

/-- RW, reset 0. R422 (12_host_interface.md) -/
def HST_CQ_CFG.MOD_US (n : Nat) : Field := ⟨0x0E308 + 16 * n, 16, 8, .rw, none, 0⟩

/-- RW, reset 1. R422 (12_host_interface.md) -/
def HST_CQ_CFG.MOD_CNT (n : Nat) : Field := ⟨0x0E308 + 16 * n, 8, 8, .rw, none, 1⟩

/-- RW, reset 6. R413 (12_host_interface.md) -/
def HST_CQ_CFG.LOG2SIZE (n : Nat) : Field := ⟨0x0E308 + 16 * n, 0, 5, .rw, none, 6⟩

/-- RW, reset 0. R418 (12_host_interface.md) -/
def HST_DR_CFG.EN (n : Nat) : Field := ⟨0x0E508 + 16 * n, 31, 1, .rw, none, 0⟩

/-- WO, reset 0. R418 (12_host_interface.md) -/
def HST_DR_CFG.RESUME (n : Nat) : Field := ⟨0x0E508 + 16 * n, 30, 1, .wo, none, 0⟩

/-- RW, reset 0. R409 (12_host_interface.md) -/
def HST_DR_CFG.VECTOR (n : Nat) : Field := ⟨0x0E508 + 16 * n, 24, 6, .rw, none, 0⟩

/-- RW, reset 0. R427, 0 to 12; other values leave it unchanged (12_host_interface.md) -/
def HST_DR_CFG.BUFSZ (n : Nat) : Field := ⟨0x0E508 + 16 * n, 20, 4, .rw, none, 0⟩

/-- RW, reset 0. R428 (12_host_interface.md) -/
def HST_DR_CFG.STREAM (n : Nat) : Field := ⟨0x0E508 + 16 * n, 16, 4, .rw, none, 0⟩

/-- RW, reset 10. R429, ms; 0 off (12_host_interface.md) -/
def HST_DR_CFG.FLUSH (n : Nat) : Field := ⟨0x0E508 + 16 * n, 8, 8, .rw, none, 10⟩

/-- RW, reset 6. R413 (12_host_interface.md) -/
def HST_DR_CFG.LOG2SIZE (n : Nat) : Field := ⟨0x0E508 + 16 * n, 0, 5, .rw, none, 6⟩

/-- RO, reset 0. R418 (12_host_interface.md) -/
def HST_SQ_STATUS.HALTED (n : Nat) : Field := ⟨0x0E10C + 16 * n, 31, 1, .ro, none, 0⟩

/-- RO, reset 0. 0 none; 1 Bus Master Enable clear; 2 host memory error; 3 doorbell invalid; 4 EN 0; 5 D3hot; 6 bound CQ halted (12_host_interface.md) -/
def HST_SQ_STATUS.CAUSE (n : Nat) : Field := ⟨0x0E10C + 16 * n, 24, 4, .ro, none, 0⟩

/-- RO, reset 1. CQ and DR: phase now written (R417); 0 for SQ (12_host_interface.md) -/
def HST_SQ_STATUS.PHASE (n : Nat) : Field := ⟨0x0E10C + 16 * n, 16, 1, .ro, none, 0⟩

/-- RO, reset 0. SQ and DR: HEAD; CQ: TAIL (R414) (12_host_interface.md) -/
def HST_SQ_STATUS.INDEX (n : Nat) : Field := ⟨0x0E10C + 16 * n, 0, 16, .ro, none, 0⟩

/-- RO, reset 0. R418 (12_host_interface.md) -/
def HST_CQ_STATUS.HALTED (n : Nat) : Field := ⟨0x0E30C + 16 * n, 31, 1, .ro, none, 0⟩

/-- RO, reset 0. 0 none; 1 Bus Master Enable clear; 2 host memory error; 3 doorbell invalid; 4 EN 0; 5 D3hot; 6 bound CQ halted (12_host_interface.md) -/
def HST_CQ_STATUS.CAUSE (n : Nat) : Field := ⟨0x0E30C + 16 * n, 24, 4, .ro, none, 0⟩

/-- RO, reset 1. CQ and DR: phase now written (R417); 0 for SQ (12_host_interface.md) -/
def HST_CQ_STATUS.PHASE (n : Nat) : Field := ⟨0x0E30C + 16 * n, 16, 1, .ro, none, 1⟩

/-- RO, reset 0. SQ and DR: HEAD; CQ: TAIL (R414) (12_host_interface.md) -/
def HST_CQ_STATUS.INDEX (n : Nat) : Field := ⟨0x0E30C + 16 * n, 0, 16, .ro, none, 0⟩

/-- RO, reset 0. R418 (12_host_interface.md) -/
def HST_DR_STATUS.HALTED (n : Nat) : Field := ⟨0x0E50C + 16 * n, 31, 1, .ro, none, 0⟩

/-- RO, reset 0. 0 none; 1 Bus Master Enable clear; 2 host memory error; 3 doorbell invalid; 4 EN 0; 5 D3hot; 6 bound CQ halted (12_host_interface.md) -/
def HST_DR_STATUS.CAUSE (n : Nat) : Field := ⟨0x0E50C + 16 * n, 24, 4, .ro, none, 0⟩

/-- RO, reset 1. CQ and DR: phase now written (R417); 0 for SQ (12_host_interface.md) -/
def HST_DR_STATUS.PHASE (n : Nat) : Field := ⟨0x0E50C + 16 * n, 16, 1, .ro, none, 1⟩

/-- RO, reset 0. SQ and DR: HEAD; CQ: TAIL (R414) (12_host_interface.md) -/
def HST_DR_STATUS.INDEX (n : Nat) : Field := ⟨0x0E50C + 16 * n, 0, 16, .ro, none, 0⟩

/-- RW, reset 0. SQ and DR: tail; CQ: head (R414, R416) (12_host_interface.md) -/
def HST_SQ_DB.INDEX (n : Nat) : Field := ⟨0x0E800 + 4 * n, 0, 16, .rw, none, 0⟩

/-- RW, reset 0. SQ and DR: tail; CQ: head (R414, R416) (12_host_interface.md) -/
def HST_CQ_DB.INDEX (n : Nat) : Field := ⟨0x0E880 + 4 * n, 0, 16, .rw, none, 0⟩

/-- RW, reset 0. SQ and DR: tail; CQ: head (R414, R416) (12_host_interface.md) -/
def HST_DR_DB.INDEX (n : Nat) : Field := ⟨0x0E900 + 4 * n, 0, 16, .rw, none, 0⟩

/-- WO; WO/O for 4, reset 0. 1 STANDBY, 2 IDLE, 3 READY, 4 CAPTURE (R454, R455); 0, 5 to 7 no action (13_clocks_power.md) -/
def PWR_CMD.TARGET : Field := ⟨0x01000, 0, 3, .wo, none, 0⟩

/-- RO, reset 1. R454 (13_clocks_power.md) -/
def PWR_STATUS.STATE : Field := ⟨0x01004, 28, 4, .ro, none, 1⟩

/-- RO, reset 0. R456, R457 (13_clocks_power.md) -/
def PWR_STATUS.BUSY : Field := ⟨0x01004, 27, 1, .ro, none, 0⟩

/-- RO, reset 0. R455, last command (13_clocks_power.md) -/
def PWR_STATUS.RESULT : Field := ⟨0x01004, 24, 3, .ro, none, 0⟩

/-- RO, reset 0. Target held for a sweep start or a commit; 0 none (13_clocks_power.md) -/
def PWR_STATUS.PENDING : Field := ⟨0x01004, 16, 3, .ro, none, 0⟩

/-- RO, reset 0. R452 (13_clocks_power.md) -/
def PWR_RAIL.SEQ_VIOL : Field := ⟨0x01008, 31, 1, .ro, none, 0⟩

/-- W1C, reset 0. R453; bit order as GOOD (13_clocks_power.md) -/
def PWR_RAIL.FAULT : Field := ⟨0x01008, 16, 9, .w1c, none, 0⟩

/-- RO, reset 0. R451: [0] VDDIO, [1] VCORE, [2] VMID, [3] VANA, [4] VANAL, [5] VPIX, [6] VSER, [7] VSERH, [8] VPCIE (13_clocks_power.md) -/
def PWR_RAIL.GOOD : Field := ⟨0x01008, 0, 9, .ro, none, 0⟩

/-- RO, reset 0. CANARY running (13_clocks_power.md) -/
def PWR_CLK.CANARY_RUN : Field := ⟨0x0100C, 9, 1, .ro, none, 0⟩

/-- RO, reset 0. R442 (13_clocks_power.md) -/
def PWR_CLK.REF_PRESENT : Field := ⟨0x0100C, 8, 1, .ro, none, 0⟩

/-- RO, reset 0b111. [4] PLL-L, [5] PLL-T, [6] PLL-S outputs gated (13_clocks_power.md) -/
def PWR_CLK.GATED : Field := ⟨0x0100C, 4, 3, .ro, none, 7⟩

/-- RO, reset 0. [0] PLL-L, [1] PLL-T, [2] PLL-S (13_clocks_power.md) -/
def PWR_CLK.LOCKED : Field := ⟨0x0100C, 0, 3, .ro, none, 0⟩

/-- RWS/I, reset 1. R454 (13_clocks_power.md) -/
def PWR_WAKE.PERST_EN : Field := ⟨0x01010, 0, 1, .rws, some .installer, 1⟩

/-- RO, reset 0. R455; saturates (13_clocks_power.md) -/
def PWR_ERRCNT.REFUSED : Field := ⟨0x01014, 0, 16, .ro, none, 0⟩

/-- WO, reset 0. 1 clears PWR_ERRCNT (13_clocks_power.md) -/
def PWR_ERRCLR.CLEAR : Field := ⟨0x01018, 0, 1, .wo, none, 0⟩

/-- WO/M, reset 0. R440 (13_clocks_power.md) -/
def PLL_CFG.RELOCK (x : Nat) : Field := ⟨0x02000 + 16 * x, 31, 1, .wo, some .maker, 0⟩

/-- RW/M, reset 1 (L, S); 2 (T). R439, R440; 3 leaves it unchanged (13_clocks_power.md) -/
def PLL_CFG.REFMODE (x : Nat) : Field := ⟨0x02000 + 16 * x, 16, 2, .rw, some .maker, (if x = 1 then 2 else 1)⟩

/-- RW/M, reset Factory trim. Charge-pump current 50 µA × (CP_I + 1); takes effect at the next lock (13_clocks_power.md) -/
def PLL_CFG.CP_I (x : Nat) : Field := ⟨0x02000 + 16 * x, 8, 4, .rw, some .maker, 0⟩

/-- RW/M, reset Factory trim. Loop-filter code; takes effect at the next lock (13_clocks_power.md) -/
def PLL_CFG.LF (x : Nat) : Field := ⟨0x02000 + 16 * x, 0, 4, .rw, some .maker, 0⟩

/-- RO, reset 0. R441, R443 (13_clocks_power.md) -/
def PLL_STATUS.LOCKED (x : Nat) : Field := ⟨0x02004 + 16 * x, 31, 1, .ro, none, 0⟩

/-- RO, reset 1. R444 (13_clocks_power.md) -/
def PLL_STATUS.GATED (x : Nat) : Field := ⟨0x02004 + 16 * x, 30, 1, .ro, none, 1⟩

/-- RO, reset 0. E1 to E5 of R441 (13_clocks_power.md) -/
def PLL_STATUS.SEARCHING (x : Nat) : Field := ⟨0x02004 + 16 * x, 29, 1, .ro, none, 0⟩

/-- RO, reset 0. Cause of the last loss: 1 reference, 0 lock (13_clocks_power.md) -/
def PLL_STATUS.REF_LOSS (x : Nat) : Field := ⟨0x02004 + 16 * x, 28, 1, .ro, none, 0⟩

/-- RO, reset —. Feedback divider in force (13_clocks_power.md) -/
def PLL_STATUS.N (x : Nat) : Field := ⟨0x02004 + 16 * x, 16, 9, .ro, none, 0⟩

/-- RO, reset 0. Band chosen at the last search (13_clocks_power.md) -/
def PLL_STATUS.BAND (x : Nat) : Field := ⟨0x02004 + 16 * x, 8, 6, .ro, none, 0⟩

/-- RO, reset —. Reference mode in force (13_clocks_power.md) -/
def PLL_STATUS.REFMODE_ACT (x : Nat) : Field := ⟨0x02004 + 16 * x, 0, 2, .ro, none, 0⟩

/-- RO, reset 0. R443; saturates (13_clocks_power.md) -/
def PLL_CNT.LOSS_CNT (x : Nat) : Field := ⟨0x02008 + 16 * x, 16, 16, .ro, none, 0⟩

/-- RO, reset 0. Locks since power-on reset; saturates (13_clocks_power.md) -/
def PLL_CNT.LOCK_CNT (x : Nat) : Field := ⟨0x02008 + 16 * x, 0, 16, .ro, none, 0⟩

/-- RW/I, reset 0. R447, R449 (13_clocks_power.md) -/
def PLL_CLKOUT.EN (n : Nat) : Field := ⟨0x02040 + 4 * n, 31, 1, .rw, some .installer, 0⟩

/-- RO, reset 0. R447 (13_clocks_power.md) -/
def PLL_CLKOUT.RESULT (n : Nat) : Field := ⟨0x02040 + 4 * n, 28, 3, .ro, none, 0⟩

/-- RW/I, reset 0. R448 (13_clocks_power.md) -/
def PLL_CLKOUT.FORMAT (n : Nat) : Field := ⟨0x02040 + 4 * n, 24, 2, .rw, some .installer, 0⟩

/-- RW/I, reset 1. R448 (13_clocks_power.md) -/
def PLL_CLKOUT.LEVEL (n : Nat) : Field := ⟨0x02040 + 4 * n, 20, 2, .rw, some .installer, 1⟩

/-- RW/I, reset 0. R447 (13_clocks_power.md) -/
def PLL_CLKOUT.SRC (n : Nat) : Field := ⟨0x02040 + 4 * n, 16, 2, .rw, some .installer, 0⟩

/-- RW/I, reset 20. R447 (13_clocks_power.md) -/
def PLL_CLKOUT.DIV (n : Nat) : Field := ⟨0x02040 + 4 * n, 0, 10, .rw, some .installer, 20⟩

/-- RO, reset 0. Bit n: CLKOUTn toggling (13_clocks_power.md) -/
def PLL_CLKOUT_STATUS.RUNNING : Field := ⟨0x02048, 0, 2, .ro, none, 0⟩

/-- WO, reset 0. 1 clears LOSS_CNT of every PLL (13_clocks_power.md) -/
def PLL_ERRCLR.CLEAR : Field := ⟨0x0204C, 0, 1, .wo, none, 0⟩

/-- RWS/I, reset 1. R479 (14_safety.md) -/
def SAF_CTRL.L2_RELEASE : Field := ⟨0x03000, 0, 1, .rws, some .installer, 1⟩

/-- RO, reset 0. Recovery in progress: 0 none, 1 L1, 2 L2, 3 L3 (R478) (14_safety.md) -/
def SAF_STATUS.LEVEL : Field := ⟨0x03004, 30, 2, .ro, none, 0⟩

/-- RO, reset 0. R478 (14_safety.md) -/
def SAF_STATUS.DEFERRED : Field := ⟨0x03004, 29, 1, .ro, none, 0⟩

/-- RO, reset 1. R467 (14_safety.md) -/
def SAF_STATUS.SCREEN_FORCED : Field := ⟨0x03004, 28, 1, .ro, none, 1⟩

/-- RO, reset 1. R467, R469 (14_safety.md) -/
def SAF_STATUS.DATA_FORCED : Field := ⟨0x03004, 27, 1, .ro, none, 1⟩

/-- RO, reset 1. 1: asserted (R470) (14_safety.md) -/
def SAF_STATUS.FAULT_N : Field := ⟨0x03004, 26, 1, .ro, none, 1⟩

/-- RO, reset 0. R480 (14_safety.md) -/
def SAF_STATUS.CHAIN_HOLD : Field := ⟨0x03004, 25, 1, .ro, none, 0⟩

/-- RO, reset 0. The host's first set-up write seen (R44) (14_safety.md) -/
def SAF_STATUS.FIRST_WRITE : Field := ⟨0x03004, 24, 1, .ro, none, 0⟩

/-- RO, reset 0. Time in the recovery in progress; saturates (14_safety.md) -/
def SAF_STATUS.ELAPSED_MS : Field := ⟨0x03004, 0, 16, .ro, none, 0⟩

/-- RO, reset 0. Live bits, in the bit order of R461 (14_safety.md) -/
def SAF_TRIP.LIVE : Field := ⟨0x03008, 16, 11, .ro, none, 0⟩

/-- W1C, reset 0. Trips (R461, R471) (14_safety.md) -/
def SAF_TRIP.LATCHED : Field := ⟨0x03008, 0, 11, .w1c, none, 0⟩

/-- RW/M, reset 100. R461, 10 to 1 000; other values leave it unchanged (14_safety.md) -/
def SAF_HB.US : Field := ⟨0x0300C, 0, 16, .rw, some .maker, 100⟩

/-- RW/I, reset 100. R478, 10 to 1 000; other values leave it unchanged (14_safety.md) -/
def SAF_L1_DEFER.MS : Field := ⟨0x03010, 0, 16, .rw, some .installer, 100⟩

/-- WO/M, reset 0. 1: TEST trip (R461) (14_safety.md) -/
def SAF_CMD.TEST_TRIP : Field := ⟨0x03014, 1, 1, .wo, some .maker, 0⟩

/-- WO/O, reset 0. R480; tally 1 only; ignored elsewhere (14_safety.md) -/
def SAF_CMD.CHAIN_RESTART : Field := ⟨0x03014, 0, 1, .wo, some .operator, 0⟩

/-- RO, reset 0. Fault code; for F0 the first fault of the last recovery, for F1 the second fault of the last double fault (14_safety.md) -/
def SAF_F_CODE.CODE (k : Nat) : Field := ⟨0x03018 + 16 * k, 16, 16, .ro, none, 0⟩

/-- RO, reset 0. Level the fault called (14_safety.md) -/
def SAF_F_CODE.CALLED (k : Nat) : Field := ⟨0x03018 + 16 * k, 8, 2, .ro, none, 0⟩

/-- RO, reset 0. Level entered (14_safety.md) -/
def SAF_F_CODE.ENTERED (k : Nat) : Field := ⟨0x03018 + 16 * k, 0, 2, .ro, none, 0⟩

/-- RO, reset 0. Freewheel count of the fault, bits [31:0]; a read latches the higher words (14_safety.md) -/
def SAF_F_FWC0.FWC_LO (k : Nat) : Field := ⟨0x0301C + 16 * k, 0, 32, .ro, none, 0⟩

/-- RO, reset 0. Bits [63:32] (14_safety.md) -/
def SAF_F_FWC1.FWC_MID (k : Nat) : Field := ⟨0x03020 + 16 * k, 0, 32, .ro, none, 0⟩

/-- RO, reset 0. Bits [79:64] (14_safety.md) -/
def SAF_F_FWC2.FWC_HI (k : Nat) : Field := ⟨0x03024 + 16 * k, 0, 16, .ro, none, 0⟩

/-- RO, reset 0. Recoveries at L1; saturates (14_safety.md) -/
def SAF_CNT0.L1_CNT : Field := ⟨0x03038, 16, 16, .ro, none, 0⟩

/-- RO, reset 0. At L2; saturates (14_safety.md) -/
def SAF_CNT0.L2_CNT : Field := ⟨0x03038, 0, 16, .ro, none, 0⟩

/-- RO, reset 0. At L3; saturates (14_safety.md) -/
def SAF_CNT1.L3_CNT : Field := ⟨0x0303C, 24, 8, .ro, none, 0⟩

/-- RO, reset 0. R476; saturates (14_safety.md) -/
def SAF_CNT1.DOUBLE_CNT : Field := ⟨0x0303C, 16, 8, .ro, none, 0⟩

/-- RO, reset 0. R463; saturates (14_safety.md) -/
def SAF_CNT1.TRIP_CNT : Field := ⟨0x0303C, 0, 16, .ro, none, 0⟩

/-- WO, reset 0. 1 clears SAF_CNT0 and SAF_CNT1 (14_safety.md) -/
def SAF_ERRCLR.CLEAR : Field := ⟨0x03040, 0, 1, .wo, none, 0⟩

/-- RO, reset 0. Write operation in progress (15_startup_store_test.md) -/
def NVS_STATUS.BUSY : Field := ⟨0x0F000, 31, 1, .ro, none, 0⟩

/-- RO, reset 0. 0 none, 1 calibration commit, 2 image, 3 installer save, 4 goldens, 5 shift book, 6 header or rewrite (15_startup_store_test.md) -/
def NVS_STATUS.OP : Field := ⟨0x0F000, 28, 3, .ro, none, 0⟩

/-- RO, reset 0. R500 (15_startup_store_test.md) -/
def NVS_STATUS.LAST_RESULT : Field := ⟨0x0F000, 24, 4, .ro, none, 0⟩

/-- RO, reset Store. Spare blocks left, 0 to 16 (15_startup_store_test.md) -/
def NVS_STATUS.SPARES : Field := ⟨0x0F000, 16, 5, .ro, none, 0⟩

/-- RO, reset 0. R486 (15_startup_store_test.md) -/
def NVS_STATUS.INST_NONE : Field := ⟨0x0F000, 11, 1, .ro, none, 0⟩

/-- RO, reset Store. Bank in force (15_startup_store_test.md) -/
def NVS_STATUS.GOLD_BANK : Field := ⟨0x0F000, 10, 1, .ro, none, 0⟩

/-- RO, reset Store. Bank in force (15_startup_store_test.md) -/
def NVS_STATUS.INST_BANK : Field := ⟨0x0F000, 9, 1, .ro, none, 0⟩

/-- RO, reset Store. Bank in force (15_startup_store_test.md) -/
def NVS_STATUS.DEF_BANK : Field := ⟨0x0F000, 8, 1, .ro, none, 0⟩

/-- RO, reset Store. Bank in force (15_startup_store_test.md) -/
def NVS_STATUS.FW_BANK : Field := ⟨0x0F000, 1, 1, .ro, none, 0⟩

/-- RO, reset Store. Bank in force (15_startup_store_test.md) -/
def NVS_STATUS.CAL_BANK : Field := ⟨0x0F000, 0, 1, .ro, none, 0⟩

/-- RO, reset Store. SEQ in force (15_startup_store_test.md) -/
def NVS_SEQ0.FW_SEQ : Field := ⟨0x0F004, 16, 16, .ro, none, 0⟩

/-- RO, reset Store. As CAL_BASE_STATUS.SEQ (15_startup_store_test.md) -/
def NVS_SEQ0.CAL_SEQ : Field := ⟨0x0F004, 0, 16, .ro, none, 0⟩

/-- RO, reset Store. SEQ in force (15_startup_store_test.md) -/
def NVS_SEQ1.GOLD_SEQ : Field := ⟨0x0F008, 16, 16, .ro, none, 0⟩

/-- RO, reset Store. SEQ in force (15_startup_store_test.md) -/
def NVS_SEQ1.INST_SEQ : Field := ⟨0x0F008, 0, 16, .ro, none, 0⟩

/-- RO, reset Store. SEQ in force (15_startup_store_test.md) -/
def NVS_SEQ2.DEF_SEQ : Field := ⟨0x0F044, 0, 16, .ro, none, 0⟩

/-- WO/M, reset 0. R497 (15_startup_store_test.md) -/
def NVS_CMD.IMG_COMMIT : Field := ⟨0x0F00C, 3, 1, .wo, some .maker, 0⟩

/-- WO/M, reset 0. R497 (15_startup_store_test.md) -/
def NVS_CMD.IMG_OPEN : Field := ⟨0x0F00C, 2, 1, .wo, some .maker, 0⟩

/-- WO/I, reset 0. Commit of the installer record (R495) (15_startup_store_test.md) -/
def NVS_CMD.SAVE_INST : Field := ⟨0x0F00C, 1, 1, .wo, some .installer, 0⟩

/-- RW/M, reset 0. 0 firmware, 1 defect map; ignored while an image is open (15_startup_store_test.md) -/
def NVS_IMG_SEL.AREA : Field := ⟨0x0F010, 0, 1, .rw, some .maker, 0⟩

/-- RW/M, reset 0. Image byte offset; bits [1:0] written as 0 (15_startup_store_test.md) -/
def NVS_IMG_ADDR.ADDR : Field := ⟨0x0F014, 0, 21, .rw, some .maker, 0⟩

/-- WO/M, reset 0. R497 (15_startup_store_test.md) -/
def NVS_IMG_DATA.DATA : Field := ⟨0x0F018, 0, 32, .wo, some .maker, 0⟩

/-- RW/M, reset 0. R497 (15_startup_store_test.md) -/
def NVS_IMG_CRC.CRC : Field := ⟨0x0F01C, 0, 32, .rw, some .maker, 0⟩

/-- RW, reset 0. Logical word address; increments after a read of NVS_RD_DATA_HI (15_startup_store_test.md) -/
def NVS_RD_ADDR.WORD : Field := ⟨0x0F020, 3, 20, .rw, none, 0⟩

/-- RO, reset 0. Word bits [31:0]; a read latches HI and NVS_RD_STATUS (15_startup_store_test.md) -/
def NVS_RD_DATA_LO.DATA : Field := ⟨0x0F024, 0, 32, .ro, none, 0⟩

/-- RO, reset 0. Word bits [63:32] (15_startup_store_test.md) -/
def NVS_RD_DATA_HI.DATA : Field := ⟨0x0F028, 0, 32, .ro, none, 0⟩

/-- RO, reset 0. R499 (15_startup_store_test.md) -/
def NVS_RD_STATUS.KEY : Field := ⟨0x0F02C, 2, 1, .ro, none, 0⟩

/-- RO, reset 0. R499 (15_startup_store_test.md) -/
def NVS_RD_STATUS.CORR2 : Field := ⟨0x0F02C, 1, 1, .ro, none, 0⟩

/-- RO, reset 0. R499 (15_startup_store_test.md) -/
def NVS_RD_STATUS.UNCORR : Field := ⟨0x0F02C, 0, 1, .ro, none, 0⟩

/-- RW, reset 0. Logical block shown in NVS_BLK_INFO (15_startup_store_test.md) -/
def NVS_BLK_SEL.BLOCK : Field := ⟨0x0F030, 0, 8, .rw, none, 0⟩

/-- RO, reset 0. Block moved to a spare at least once (15_startup_store_test.md) -/
def NVS_BLK_INFO.RETIRED : Field := ⟨0x0F034, 31, 1, .ro, none, 0⟩

/-- RO, reset 0. R498 (15_startup_store_test.md) -/
def NVS_BLK_INFO.WORN : Field := ⟨0x0F034, 30, 1, .ro, none, 0⟩

/-- RO, reset Store. Physical block, 0 to 271 (15_startup_store_test.md) -/
def NVS_BLK_INFO.PHYS : Field := ⟨0x0F034, 16, 9, .ro, none, 0⟩

/-- RO, reset Store. Words corrected on write or read; saturates (15_startup_store_test.md) -/
def NVS_BLK_INFO.CORR_CNT : Field := ⟨0x0F034, 0, 16, .ro, none, 0⟩

/-- RO, reset 0. 2-bit corrections; saturates (15_startup_store_test.md) -/
def NVS_ERRCNT0.CORR2_CNT : Field := ⟨0x0F038, 16, 16, .ro, none, 0⟩

/-- RO, reset 0. R499; saturates (15_startup_store_test.md) -/
def NVS_ERRCNT0.UNCORR_CNT : Field := ⟨0x0F038, 0, 16, .ro, none, 0⟩

/-- RO, reset 0. R499; saturates (15_startup_store_test.md) -/
def NVS_ERRCNT1.CRC_FAIL_CNT : Field := ⟨0x0F03C, 16, 16, .ro, none, 0⟩

/-- RO, reset 0. R500; saturates (15_startup_store_test.md) -/
def NVS_ERRCNT1.SB_REFUSED : Field := ⟨0x0F03C, 0, 16, .ro, none, 0⟩

/-- WO, reset 0. 1 clears NVS_ERRCNT0 and NVS_ERRCNT1 (15_startup_store_test.md) -/
def NVS_ERRCLR.CLEAR : Field := ⟨0x0F040, 0, 1, .wo, none, 0⟩

/-- WO, reset 0. R501 (15_startup_store_test.md) -/
def BIST_CMD.GO : Field := ⟨0x12000, 31, 1, .wo, none, 0⟩

/-- WO, reset 0. 0 LBIST, 1 MBIST (15_startup_store_test.md) -/
def BIST_CMD.KIND : Field := ⟨0x12000, 24, 1, .wo, none, 0⟩

/-- WO, reset 0. R501; other codes refused with RESULT 3 (15_startup_store_test.md) -/
def BIST_CMD.TARGET : Field := ⟨0x12000, 0, 9, .wo, none, 0⟩

/-- RO, reset 0. Run in progress (15_startup_store_test.md) -/
def BIST_STATUS.BUSY : Field := ⟨0x12004, 31, 1, .ro, none, 0⟩

/-- RO, reset 0. 0 none, 1 pass, 2 fail, 3 refused, 4 no golden, 5 aborted (15_startup_store_test.md) -/
def BIST_STATUS.RESULT : Field := ⟨0x12004, 28, 3, .ro, none, 0⟩

/-- RO, reset 0. Of the last run (15_startup_store_test.md) -/
def BIST_STATUS.KIND : Field := ⟨0x12004, 24, 1, .ro, none, 0⟩

/-- RO, reset 0. Of the last run (15_startup_store_test.md) -/
def BIST_STATUS.TARGET : Field := ⟨0x12004, 0, 9, .ro, none, 0⟩

/-- RO, reset 0. MBIST failing words; saturates (15_startup_store_test.md) -/
def BIST_FAIL.FAIL_CNT : Field := ⟨0x12008, 16, 16, .ro, none, 0⟩

/-- RO, reset 0. First failing address, target-local (15_startup_store_test.md) -/
def BIST_FAIL_ADDR.ADDR : Field := ⟨0x1200C, 0, 32, .ro, none, 0⟩

/-- RO, reset 0. Last LBIST signature; a read of _LO latches _HI (15_startup_store_test.md) -/
def BIST_SIG_LO.SIG : Field := ⟨0x12010, 0, 32, .ro, none, 0⟩

/-- RO, reset 0. Last LBIST signature; a read of _LO latches _HI (15_startup_store_test.md) -/
def BIST_SIG_HI.SIG : Field := ⟨0x12014, 0, 32, .ro, none, 0⟩

/-- RO, reset Store. Golden of the target in BIST_STATUS; a read of _LO latches _HI (15_startup_store_test.md) -/
def BIST_GOLD_LO.GOLD : Field := ⟨0x12018, 0, 32, .ro, none, 0⟩

/-- RO, reset Store. Golden of the target in BIST_STATUS; a read of _LO latches _HI (15_startup_store_test.md) -/
def BIST_GOLD_HI.GOLD : Field := ⟨0x1201C, 0, 32, .ro, none, 0⟩

/-- RO, reset 0. Last lamp check was warm (R487) (15_startup_store_test.md) -/
def BIST_LAMP.WARM : Field := ⟨0x12020, 31, 1, .ro, none, 0⟩

/-- RO, reset 0. Duration of the last lamp check; saturates (15_startup_store_test.md) -/
def BIST_LAMP.TIME_MS : Field := ⟨0x12020, 16, 8, .ro, none, 0⟩

/-- RO, reset 0. Bit per item of R487 (15_startup_store_test.md) -/
def BIST_LAMP.FAIL : Field := ⟨0x12020, 0, 8, .ro, none, 0⟩

/-- WO/M, reset 0. R503 (15_startup_store_test.md) -/
def BIST_GOLD_CMD.COMMIT : Field := ⟨0x12024, 0, 1, .wo, some .maker, 0⟩

/-- RO, reset 0. Roles locked out on the reading path (R512): [8] O, [9] I, [10] M (16_roles_shift_book.md) -/
def ROL_STATUS.LOCKED : Field := ⟨0x10000, 8, 3, .ro, none, 0⟩

/-- RO, reset 0. Sessions open on I²C, same bit order (16_roles_shift_book.md) -/
def ROL_STATUS.I2C_OPEN : Field := ⟨0x10000, 4, 3, .ro, none, 0⟩

/-- RO, reset 0. Sessions open on BAR0 (16_roles_shift_book.md) -/
def ROL_STATUS.BAR0_OPEN : Field := ⟨0x10000, 0, 3, .ro, none, 0⟩

/-- RWS/I, reset 300. R512, 10 to 65 535; lower values leave it unchanged (16_roles_shift_book.md) -/
def ROL_CFG.IDLE_S : Field := ⟨0x10004, 0, 16, .rws, some .installer, 300⟩

/-- WO, reset 0. Issue a challenge (R509) (16_roles_shift_book.md) -/
def ROL_CHAL_CMD.GO (p : Nat) : Field := ⟨0x10008 + 0x100000 * p, 31, 1, .wo, none, 0⟩

/-- WO, reset 0. 1 O, 2 I, 3 M; 0 no action (16_roles_shift_book.md) -/
def ROL_CHAL_CMD.ROLE (p : Nat) : Field := ⟨0x10008 + 0x100000 * p, 0, 2, .wo, none, 0⟩

/-- RO, reset 0. Nonce bytes 4k to 4k + 3 (16_roles_shift_book.md) -/
def ROL_NONCE.N (p k : Nat) : Field := ⟨0x1000C + 0x100000 * p + 4 * k, 0, 32, .ro, none, 0⟩

/-- RO, reset 0. Counter of the last challenge; a read of _LO latches _HI (16_roles_shift_book.md) -/
def ROL_CTR_LO.C (p : Nat) : Field := ⟨0x1001C + 0x100000 * p, 0, 32, .ro, none, 0⟩

/-- RO, reset 0. Counter of the last challenge; a read of _LO latches _HI (16_roles_shift_book.md) -/
def ROL_CTR_HI.C (p : Nat) : Field := ⟨0x10020 + 0x100000 * p, 0, 32, .ro, none, 0⟩

/-- WO, reset 0. R510 (16_roles_shift_book.md) -/
def ROL_RESP.RESP (p k : Nat) : Field := ⟨0x10024 + 0x100000 * p + 4 * k, 0, 32, .wo, none, 0⟩

/-- WO, reset 0. Check ROL_RESP0–7 for ROLE (16_roles_shift_book.md) -/
def ROL_SESSION_CMD.OPEN (p : Nat) : Field := ⟨0x10044 + 0x100000 * p, 31, 1, .wo, none, 0⟩

/-- WO, reset 0. Close ROLE (16_roles_shift_book.md) -/
def ROL_SESSION_CMD.CLOSE (p : Nat) : Field := ⟨0x10044 + 0x100000 * p, 30, 1, .wo, none, 0⟩

/-- WO, reset 0. As ROL_CHAL_CMD (16_roles_shift_book.md) -/
def ROL_SESSION_CMD.ROLE (p : Nat) : Field := ⟨0x10044 + 0x100000 * p, 0, 2, .wo, none, 0⟩

/-- RO, reset 0. 0 done, 1 reserved role, 2 failed, 3 locked out (16_roles_shift_book.md) -/
def ROL_SESSION_STATUS.RESULT (p : Nat) : Field := ⟨0x10048 + 0x100000 * p, 0, 2, .ro, none, 0⟩

/-- WO, reset 0. R513 (16_roles_shift_book.md) -/
def ROL_KEY_W.W (p k : Nat) : Field := ⟨0x1004C + 0x100000 * p + 4 * k, 0, 32, .wo, none, 0⟩

/-- WO, reset 0. R513 (16_roles_shift_book.md) -/
def ROL_KEY_CHK.CHK (p : Nat) : Field := ⟨0x1006C + 0x100000 * p, 0, 32, .wo, none, 0⟩

/-- WO, reset 0. R513; the role needed follows R506 (16_roles_shift_book.md) -/
def ROL_KEY_CMD.GO (p : Nat) : Field := ⟨0x10070 + 0x100000 * p, 31, 1, .wo, none, 0⟩

/-- WO, reset 0. Role whose key is replaced (16_roles_shift_book.md) -/
def ROL_KEY_CMD.TARGET (p : Nat) : Field := ⟨0x10070 + 0x100000 * p, 0, 2, .wo, none, 0⟩

/-- RO, reset 0. Store result of R500 (16_roles_shift_book.md) -/
def ROL_KEY_STATUS.STORE (p : Nat) : Field := ⟨0x10074 + 0x100000 * p, 4, 4, .ro, none, 0⟩

/-- RO, reset 0. R513 (16_roles_shift_book.md) -/
def ROL_KEY_STATUS.RESULT (p : Nat) : Field := ⟨0x10074 + 0x100000 * p, 0, 3, .ro, none, 0⟩

/-- RO, reset Store. Number of the next entry (16_roles_shift_book.md) -/
def ROL_SB_HEAD.NEXT : Field := ⟨0x10078, 0, 32, .ro, none, 0⟩

/-- RW, reset 0. R519 (16_roles_shift_book.md) -/
def ROL_SB_SEL.ENTRY : Field := ⟨0x1007C, 0, 32, .rw, none, 0⟩

/-- RO, reset 0. R519 (16_roles_shift_book.md) -/
def ROL_SB_W.DATA (k : Nat) : Field := ⟨0x10080 + 4 * k, 0, 32, .ro, none, 0⟩

/-- RO, reset 0. R519 (16_roles_shift_book.md) -/
def ROL_SB_STATUS.VALID : Field := ⟨0x100C0, 0, 1, .ro, none, 0⟩

/-- RO, reset 0. R11 rejections; saturates (16_roles_shift_book.md) -/
def ROL_ERRCNT.REJECTED : Field := ⟨0x100C4, 16, 16, .ro, none, 0⟩

/-- RO, reset 0. Failed session attempts; saturates (16_roles_shift_book.md) -/
def ROL_ERRCNT.FAILED : Field := ⟨0x100C4, 0, 16, .ro, none, 0⟩

/-- WO, reset 0. 1 clears ROL_ERRCNT (16_roles_shift_book.md) -/
def ROL_ERRCLR.CLEAR : Field := ⟨0x100C8, 0, 1, .wo, none, 0⟩

/-- RW, reset 1. R524; takes effect at the next start condition (17_i2c_register_summary.md) -/
def I2C_CFG.FILT : Field := ⟨0x11000, 0, 3, .rw, none, 1⟩

/-- RO, reset 0. R528 (17_i2c_register_summary.md) -/
def I2C_SEL.FIXED : Field := ⟨0x11004, 24, 1, .ro, none, 0⟩

/-- RO, reset 0x01. R525; set by SELECT (17_i2c_register_summary.md) -/
def I2C_SEL.PAGE : Field := ⟨0x11004, 16, 8, .ro, none, 1⟩

/-- RO, reset 0. R525 (17_i2c_register_summary.md) -/
def I2C_SEL.WIN : Field := ⟨0x11004, 8, 2, .ro, none, 0⟩

/-- RO, reset 0. R525, R528 (17_i2c_register_summary.md) -/
def I2C_SEL.PTR : Field := ⟨0x11004, 0, 8, .ro, none, 0⟩

/-- RO, reset 0. A transfer to the target is in progress (17_i2c_register_summary.md) -/
def I2C_STATUS.BUSY : Field := ⟨0x11008, 8, 1, .ro, none, 0⟩

/-- RO, reset Pins. Address in use (R522) (17_i2c_register_summary.md) -/
def I2C_STATUS.ADDR : Field := ⟨0x11008, 0, 7, .ro, none, 0⟩

/-- RO, reset 0. R535; saturates (17_i2c_register_summary.md) -/
def I2C_ERRCNT0.SDA_REL : Field := ⟨0x1100C, 16, 16, .ro, none, 0⟩

/-- RO, reset 0. R535; saturates (17_i2c_register_summary.md) -/
def I2C_ERRCNT0.BUS_RST : Field := ⟨0x1100C, 0, 16, .ro, none, 0⟩

/-- RO, reset 0. R527; saturates (17_i2c_register_summary.md) -/
def I2C_ERRCNT1.PARTIAL : Field := ⟨0x11010, 16, 16, .ro, none, 0⟩

/-- RO, reset 0. R530; saturates (17_i2c_register_summary.md) -/
def I2C_ERRCNT1.LATE : Field := ⟨0x11010, 8, 8, .ro, none, 0⟩

/-- RO, reset 0. R526; saturates (17_i2c_register_summary.md) -/
def I2C_ERRCNT1.BADCMD : Field := ⟨0x11010, 0, 8, .ro, none, 0⟩

/-- WO, reset 0. 1 clears I2C_ERRCNT0 and I2C_ERRCNT1 (17_i2c_register_summary.md) -/
def I2C_ERRCLR.CLEAR : Field := ⟨0x11014, 0, 1, .wo, none, 0⟩

/-- A group of registers of one shape: base offset, stride, how many, and the fields of the n-th. -/
structure RegEntry where
  base : Nat
  stride : Nat
  count : Nat
  fields : Nat → List Field

/-- Registers of the map, part 1. -/
def regPart0 : List RegEntry := [
  ⟨0x06800, 4, 1, fun _ => [EXP_ARRAY_ID.MOSAIC, EXP_ARRAY_ID.STOPE_ROWS, EXP_ARRAY_ID.STOPE_COLS]⟩,
  ⟨0x06804, 4, 1, fun _ => [EXP_SKIM.THRESH]⟩,
  ⟨0x06808, 4, 1, fun _ => [EXP_ARRAY_STATUS.THRESH_ACTIVE, EXP_ARRAY_STATUS.RANGE_TRANS, EXP_ARRAY_STATUS.PENDING]⟩,
  ⟨0x0680C, 4, 1, fun _ => [EXP_OB_CTRL.BLACK_ROWS_EN, EXP_OB_CTRL.OBCOL_SUM_EN]⟩,
  ⟨0x06810, 0x4, 8, fun n => [EXP_STOPE_EN.EN n]⟩,
  ⟨0x06830, 0x4, 16, fun n => [EXP_BIN.BIN (16 * n + 0), EXP_BIN.BIN (16 * n + 1), EXP_BIN.BIN (16 * n + 2), EXP_BIN.BIN (16 * n + 3), EXP_BIN.BIN (16 * n + 4), EXP_BIN.BIN (16 * n + 5), EXP_BIN.BIN (16 * n + 6), EXP_BIN.BIN (16 * n + 7), EXP_BIN.BIN (16 * n + 8), EXP_BIN.BIN (16 * n + 9), EXP_BIN.BIN (16 * n + 10), EXP_BIN.BIN (16 * n + 11), EXP_BIN.BIN (16 * n + 12), EXP_BIN.BIN (16 * n + 13), EXP_BIN.BIN (16 * n + 14), EXP_BIN.BIN (16 * n + 15)]⟩,
  ⟨0x06870, 4, 1, fun _ => [EXP_BIN_ALLOW.ALLOW2, EXP_BIN_ALLOW.ALLOW1, EXP_BIN_ALLOW.ALLOW0]⟩,
  ⟨0x06874, 4, 1, fun _ => [EXP_QP_SEL.TAP, EXP_QP_SEL.GROUP]⟩,
  ⟨0x06878, 4, 1, fun _ => [EXP_QP_VAL.FACTORY, EXP_QP_VAL.QP]⟩,
  ⟨0x0687C, 4, 1, fun _ => [EXP_ARRAY_ERRCNT0.EXH_CNT, EXP_ARRAY_ERRCNT0.CLIP_CNT]⟩,
  ⟨0x06880, 4, 1, fun _ => [EXP_ARRAY_ERRCNT1.SHORT_CNT]⟩,
  ⟨0x06884, 4, 1, fun _ => [EXP_ARRAY_ERRCLR.CLEAR]⟩,
  ⟨0x05000, 4, 1, fun _ => [CAD_CTRL.LOCK_N, CAD_CTRL.MAINS_REQ]⟩,
  ⟨0x05004, 4, 1, fun _ => [CAD_SRC.MAINS_SRC, CAD_SRC.SCAN_SRC]⟩,
  ⟨0x05008, 4, 1, fun _ => [CAD_SCAN_CFG.LINES, CAD_SCAN_CFG.LINE_POL, CAD_SCAN_CFG.POL]⟩,
  ⟨0x0500C, 4, 1, fun _ => [CAD_MAINS_CFG.POL]⟩,
  ⟨0x05010, 4, 1, fun _ => [CAD_FREE_SCAN.PERIOD]⟩,
  ⟨0x05014, 4, 1, fun _ => [CAD_FREE_MAINS.PERIOD]⟩,
  ⟨0x05018, 4, 1, fun _ => [CAD_TRK.KI, CAD_TRK.KP]⟩,
  ⟨0x0501C, 4, 1, fun _ => [CAD_ACQ.MAINS_TOL, CAD_ACQ.SCAN_TOL]⟩,
  ⟨0x05020, 4, 1, fun _ => [CAD_COAST.COUNT]⟩,
  ⟨0x05024, 4, 1, fun _ => [CAD_TRIG_CFG.EN 0, CAD_TRIG_CFG.EN 1, CAD_TRIG_CFG.EN 2, CAD_TRIG_CFG.EN 3, CAD_TRIG_CFG.POL 0, CAD_TRIG_CFG.POL 1, CAD_TRIG_CFG.POL 2, CAD_TRIG_CFG.POL 3, CAD_TRIG_CFG.STD 0, CAD_TRIG_CFG.STD 1, CAD_TRIG_CFG.STD 2, CAD_TRIG_CFG.STD 3]⟩,
  ⟨0x05028, 0x4, 4, fun n => [CAD_TRIG_LEN.LEN n]⟩,
  ⟨0x05038, 0x4, 4, fun n => [CAD_TRIG_DLY.DLY n]⟩,
  ⟨0x05048, 0x4, 4, fun n => [CAD_MASK.MASK (2 * n + 1), CAD_MASK.MASK (2 * n)]⟩,
  ⟨0x05058, 4, 1, fun _ => [CAD_ENV.MEAS_LIMIT]⟩,
  ⟨0x0505C, 4, 1, fun _ => [CAD_SHD_ADDR.ADDR]⟩,
  ⟨0x05060, 4, 1, fun _ => [CAD_SHD_LO.LO]⟩,
  ⟨0x05064, 4, 1, fun _ => [CAD_SHD_HI.HI]⟩,
  ⟨0x05068, 4, 1, fun _ => [CAD_SWAP.REQ]⟩,
  ⟨0x0506C, 4, 1, fun _ => [CAD_TBL_STATUS.ERR_INDEX, CAD_TBL_STATUS.ERR, CAD_TBL_STATUS.PENDING, CAD_TBL_STATUS.SHD_NEW, CAD_TBL_STATUS.ACTIVE_LEN]⟩,
  ⟨0x05070, 4, 1, fun _ => [CAD_ACT_ADDR.ADDR]⟩,
  ⟨0x05074, 4, 1, fun _ => [CAD_ACT_LO.LO]⟩,
  ⟨0x05078, 4, 1, fun _ => [CAD_ACT_HI.HI]⟩,
  ⟨0x0507C, 4, 1, fun _ => [CAD_STATE.COAST_LEFT, CAD_STATE.AGREE, CAD_STATE.MAINS_ST, CAD_STATE.SCAN_ST, CAD_STATE.MEAS_OK, CAD_STATE.LS_FAULT, CAD_STATE.TABLE_RUN]⟩,
  ⟨0x05080, 4, 1, fun _ => [CAD_SCAN_PER_LO.PER_LO]⟩,
  ⟨0x0508C, 4, 1, fun _ => [CAD_MAINS_PER_LO.PER_LO]⟩,
  ⟨0x05084, 4, 1, fun _ => [CAD_SCAN_PER_HI.PER_HI]⟩,
  ⟨0x05090, 4, 1, fun _ => [CAD_MAINS_PER_HI.PER_HI]⟩,
  ⟨0x05088, 4, 1, fun _ => [CAD_SCAN_ERR.ERR]⟩]

/-- Registers of the map, part 2. -/
def regPart1 : List RegEntry := [
  ⟨0x05094, 4, 1, fun _ => [CAD_MAINS_ERR.ERR]⟩,
  ⟨0x05098, 4, 1, fun _ => [CAD_SWEEP.SWEEP]⟩,
  ⟨0x0509C, 4, 1, fun _ => [CAD_GATE_LAT.LAT]⟩,
  ⟨0x050A0, 4, 1, fun _ => [CAD_ERRCNT0.LATE_CNT, CAD_ERRCNT0.SUPPR_CNT]⟩,
  ⟨0x050A4, 4, 1, fun _ => [CAD_ERRCNT1.TRIG_IGN_CNT, CAD_ERRCNT1.GLITCH_CNT]⟩,
  ⟨0x050A8, 4, 1, fun _ => [CAD_ERRCLR.CLEAR]⟩,
  ⟨0x050AC, 4, 1, fun _ => [CAD_LS_FWC0.FWC_LO]⟩,
  ⟨0x050B0, 4, 1, fun _ => [CAD_LS_FWC1.FWC_MID]⟩,
  ⟨0x050B4, 4, 1, fun _ => [CAD_LS_FWC2.FWC_HI]⟩,
  ⟨0x050B8, 4, 1, fun _ => [CAD_LS_DIFF.GROUPS]⟩,
  ⟨0x06000, 4, 1, fun _ => [EXP_MODE.MODE_ACTIVE, EXP_MODE.MODE]⟩,
  ⟨0x06004, 4, 1, fun _ => [EXP_MODE_ALLOW.ALLOW]⟩,
  ⟨0x06008, 4, 1, fun _ => [EXP_MODE_STATUS.ERR, EXP_MODE_STATUS.VIDEO_RUN, EXP_MODE_STATUS.ERR_INDEX]⟩,
  ⟨0x0600C, 4, 1, fun _ => [EXP_DIFF.BAL_TOL]⟩,
  ⟨0x06010, 4, 1, fun _ => [EXP_INTEG.TOL, EXP_INTEG.HALVES, EXP_INTEG.FRAMES]⟩,
  ⟨0x06014, 4, 1, fun _ => [EXP_VIDEO_LEN.LEN]⟩,
  ⟨0x06018, 4, 1, fun _ => [EXP_VIDEO.GAIN]⟩,
  ⟨0x0601C, 4, 1, fun _ => [EXP_EXPO_CFG.MASK 0, EXP_EXPO_CFG.MASK 1, EXP_EXPO_CFG.MASK 2, EXP_EXPO_CFG.MASK 3, EXP_EXPO_CFG.SRC 0, EXP_EXPO_CFG.SRC 1, EXP_EXPO_CFG.SRC 2, EXP_EXPO_CFG.SRC 3]⟩,
  ⟨0x06020, 4, 1, fun _ => [EXP_EXPO_PW.PW]⟩,
  ⟨0x06024, 4, 1, fun _ => [EXP_EXPO_LAT.LAT]⟩,
  ⟨0x06028, 4, 1, fun _ => [EXP_MREQ_CTRL.LEAD, EXP_MREQ_CTRL.EN]⟩,
  ⟨0x0602C, 4, 1, fun _ => [EXP_MREQ_STATUS.STOP_CAUSE, EXP_MREQ_STATUS.LEAD_LEFT, EXP_MREQ_STATUS.REQUESTING]⟩,
  ⟨0x06030, 4, 1, fun _ => [EXP_MODE_ERRCNT.INTEG_MISMATCH_CNT, EXP_MODE_ERRCNT.NO_TRIGGER_CNT]⟩,
  ⟨0x06034, 4, 1, fun _ => [EXP_MODE_ERRCLR.CLEAR]⟩,
  ⟨0x07000, 4, 1, fun _ => [CNV_CTRL.FORCE_LCG, CNV_CTRL.BG_CAL_EN]⟩,
  ⟨0x07004, 4, 1, fun _ => [CNV_STATUS.DEGRADED_CNT, CNV_STATUS.GAIN_B, CNV_STATUS.GAIN_A]⟩,
  ⟨0x07008, 4, 1, fun _ => [CNV_COEF_SEL.GAIN, CNV_COEF_SEL.SLICE, CNV_COEF_SEL.BANK]⟩,
  ⟨0x0700C, 4, 1, fun _ => [CNV_COEF_OFS.OFS]⟩,
  ⟨0x07010, 4, 1, fun _ => [CNV_COEF_GAIN.GAIN]⟩,
  ⟨0x07014, 4, 1, fun _ => [CNV_COEF_SKEW.SKEW]⟩,
  ⟨0x07018, 4, 1, fun _ => [CNV_BANK_STATUS.OLDEST_AGE, CNV_BANK_STATUS.SPARE, CNV_BANK_STATUS.PARKED, CNV_BANK_STATUS.STRIKES, CNV_BANK_STATUS.FAILED, CNV_BANK_STATUS.DEGRADED, CNV_BANK_STATUS.RECAL_PENDING]⟩,
  ⟨0x08000, 4, 1, fun _ => [CAL_INT_SLICE.MS]⟩,
  ⟨0x08004, 4, 1, fun _ => [CAL_INT_PKT.MS]⟩,
  ⟨0x08008, 4, 1, fun _ => [CAL_LIMIT.MAX_AGE, CAL_LIMIT.STRIKES]⟩,
  ⟨0x0800C, 4, 1, fun _ => [CAL_PLAUS.OFS_STEP, CAL_PLAUS.GAIN_STEP, CAL_PLAUS.OFS_BASE, CAL_PLAUS.GAIN_BASE]⟩,
  ⟨0x08010, 4, 1, fun _ => [CAL_STATUS.INIT_DONE, CAL_STATUS.AGED, CAL_STATUS.RUN]⟩,
  ⟨0x08014, 0x8, 3, fun k => [CAL_LAST_LO.FWC_LO k]⟩,
  ⟨0x08018, 0x8, 3, fun k => [CAL_LAST_HI.FWC_HI k]⟩,
  ⟨0x0802C, 0x4, 3, fun k => [CAL_CNT.RUN_CNT k, CAL_CNT.REFUSED_CNT k]⟩,
  ⟨0x08038, 4, 1, fun _ => [CAL_DEFER.PKTB, CAL_DEFER.PKTA, CAL_DEFER.SLICE]⟩]

/-- Registers of the map, part 3. -/
def regPart2 : List RegEntry := [
  ⟨0x0803C, 4, 1, fun _ => [CAL_HOLD.HOLD_CNT]⟩,
  ⟨0x08040, 4, 1, fun _ => [CAL_ERRCLR.CLEAR]⟩,
  ⟨0x08044, 4, 1, fun _ => [CAL_BASE_SEL.KIND, CAL_BASE_SEL.GAIN, CAL_BASE_SEL.SLICE, CAL_BASE_SEL.TAP, CAL_BASE_SEL.INDEX]⟩,
  ⟨0x08048, 4, 1, fun _ => [CAL_BASE_VAL.VAL]⟩,
  ⟨0x0804C, 4, 1, fun _ => [CAL_BASE_CMD.CAPTURE, CAL_BASE_CMD.COMMIT]⟩,
  ⟨0x08050, 4, 1, fun _ => [CAL_BASE_STATUS.SEQ, CAL_BASE_STATUS.BUSY, CAL_BASE_STATUS.LAST_OK]⟩,
  ⟨0x09000, 4, 1, fun _ => [MON_CTRL.RUN, MON_CTRL.REF, MON_CTRL.LEN]⟩,
  ⟨0x09004, 4, 1, fun _ => [MON_STATUS.OVERRUN_CNT, MON_STATUS.REF_SETTLED, MON_STATUS.RUNNING, MON_STATUS.ENTRY]⟩,
  ⟨0x09008, 4, 1, fun _ => [MON_BUF_CFG.LOG2SIZE, MON_BUF_CFG.BASE]⟩,
  ⟨0x0900C, 4, 1, fun _ => [MON_BUF_WR.WRAPS, MON_BUF_WR.WR]⟩,
  ⟨0x09010, 4, 1, fun _ => [MON_BUF_RD.RD]⟩,
  ⟨0x09014, 4, 1, fun _ => [MON_LIMSTAT.EXCEEDED]⟩,
  ⟨0x09018, 4, 1, fun _ => [MON_ERRCLR.CLEAR]⟩,
  ⟨0x09040, 0x4, 16, fun n => [MON_SEQ.SAMP n, MON_SEQ.GAIN n, MON_SEQ.CHAN n]⟩,
  ⟨0x09080, 0x4, 16, fun n => [MON_LIM.EN n, MON_LIM.HI n, MON_LIM.LO n]⟩,
  ⟨0x090C0, 0x4, 24, fun c => [MON_LAST.VALID c, MON_LAST.REC c]⟩,
  ⟨0x09120, 0x4, 8, fun n => [MON_TEMP.DEGC n]⟩,
  ⟨0x09140, 4, 1, fun _ => [MON_TDIE.DEGC]⟩,
  ⟨0x0A000, 4, 1, fun _ => [ENG_CTRL.QEN, ENG_CTRL.SPARE_AUTO]⟩,
  ⟨0x0A004, 4, 1, fun _ => [ENG_STATUS.UNSERVED, ENG_STATUS.FREE, ENG_STATUS.QRUN]⟩,
  ⟨0x0A008, 4, 1, fun _ => [ENG_SEL.ENGINE]⟩,
  ⟨0x0A00C, 4, 1, fun _ => [ENG_CMD.CMD]⟩,
  ⟨0x0A010, 4, 1, fun _ => [ENG_STATE.MAPPED, ENG_STATE.STOPE, ENG_STATE.FAULT, ENG_STATE.STATE]⟩,
  ⟨0x0A014, 4, 1, fun _ => [ENG_PC.PC]⟩,
  ⟨0x0A018, 4, 1, fun _ => [ENG_MEM_ADDR.ADDR]⟩,
  ⟨0x0A01C, 4, 1, fun _ => [ENG_MEM_DATA.DATA]⟩,
  ⟨0x0A020, 4, 1, fun _ => [ENG_MEM_CRC.CRC]⟩,
  ⟨0x0A024, 4, 1, fun _ => [ENG_BCAST_CTRL.EN]⟩,
  ⟨0x0A028, 0x4, 9, fun w => [ENG_BCAST.MASK w]⟩,
  ⟨0x0A04C, 4, 1, fun _ => [ENG_WD.LIMIT_US]⟩,
  ⟨0x0A050, 4, 1, fun _ => [ENG_DEADLINE.STRIKES, ENG_DEADLINE.SWEEPS]⟩,
  ⟨0x0A054, 4, 1, fun _ => [ENG_POOL.MIB]⟩,
  ⟨0x0A058, 4, 1, fun _ => [ENG_REMAP.GO, ENG_REMAP.ENGINE, ENG_REMAP.STOPE]⟩,
  ⟨0x0A05C, 4, 1, fun _ => [ENG_REMAP_STATUS.BUSY, ENG_REMAP_STATUS.RESULT, ENG_REMAP_STATUS.ENGINE, ENG_REMAP_STATUS.STOPE]⟩,
  ⟨0x0A060, 4, 1, fun _ => [ENG_ECC.CORR_CNT, ENG_ECC.UNCORR_CNT]⟩,
  ⟨0x0A064, 4, 1, fun _ => [ENG_ERRCNT0.LOST_LINES, ENG_ERRCNT0.LATE_SWEEPS]⟩,
  ⟨0x0A068, 4, 1, fun _ => [ENG_ERRCNT1.HWIN_REJECT, ENG_ERRCNT1.FAULTS, ENG_ERRCNT1.PUSH_REFUSED]⟩,
  ⟨0x0A06C, 4, 1, fun _ => [ENG_ERRCLR.CLEAR]⟩,
  ⟨0x0A100, 0x4, 128, fun k => [ENG_MAP.ENG_ODD k, ENG_MAP.ENG_EVEN k]⟩,
  ⟨0x0C000, 0x400, 2, fun x => [LNK_CTRL.EN x, LNK_CTRL.SLEEP_EN x, LNK_CTRL.FE_ALLOW x, LNK_CTRL.RETRAIN x, LNK_CTRL.WIDTH_MAX x, LNK_CTRL.SLEEP_US x]⟩]

/-- Registers of the map, part 4. -/
def regPart3 : List RegEntry := [
  ⟨0x0C004, 0x400, 2, fun x => [LNK_STATE.STATE x, LNK_STATE.TX_SLEEP x, LNK_STATE.PEER_SLEEP x, LNK_STATE.WIDTH x, LNK_STATE.FAILED x, LNK_STATE.MAP x]⟩,
  ⟨0x0C008, 0x400, 2, fun x => [LNK_RETRY.LIMIT x, LNK_RETRY.TIMEOUT x]⟩,
  ⟨0x0C00C, 0x400, 2, fun x => [LNK_LOOP.RUN x, LNK_LOOP.MODE x, LNK_LOOP.PATTERN x, LNK_LOOP.LANES x]⟩,
  ⟨0x0C010, 0x400, 2, fun x => [LNK_LOOP_WORD.WORD x]⟩,
  ⟨0x0C014, 0x400, 2, fun x => [LNK_PEER_LO.SERIAL x]⟩,
  ⟨0x0C018, 0x400, 2, fun x => [LNK_PEER_HI.SERIAL x]⟩,
  ⟨0x0C020, 0x400, 2, fun x => [LNK_ERRCNT0.CRC_ERR x, LNK_ERRCNT0.NAK_RX x]⟩,
  ⟨0x0C024, 0x400, 2, fun x => [LNK_ERRCNT1.TIME_DROP x, LNK_ERRCNT1.REPLAYS x, LNK_ERRCNT1.HDR_ERR x]⟩,
  ⟨0x0C028, 0x400, 2, fun x => [LNK_ERRCNT2.RETRAINS x, LNK_ERRCNT2.LOCK_LOSS x, LNK_ERRCNT2.STUCK x, LNK_ERRCNT2.RUN_UNMET x]⟩,
  ⟨0x0C02C, 0x400, 2, fun x => [LNK_ERRCLR.CLEAR x]⟩,
  ⟨0x0C030, 0x400, 2, fun x => [LNK_LOCK.BLOCK_LOCK x]⟩,
  ⟨0x0C040, 0x4, 8, fun n => [LNK_PE.FIXED 0 n, LNK_PE.SWING 0 n, LNK_PE.PRESET 0 n, LNK_PE.C_PRE 0 n, LNK_PE.C_POST 0 n]⟩,
  ⟨0x0C440, 0x4, 8, fun n => [LNK_PE.FIXED 1 n, LNK_PE.SWING 1 n, LNK_PE.PRESET 1 n, LNK_PE.C_PRE 1 n, LNK_PE.C_POST 1 n]⟩,
  ⟨0x0C060, 0x4, 8, fun n => [LNK_EYE.H_MARGIN 0 n, LNK_EYE.V_MARGIN 0 n]⟩,
  ⟨0x0C460, 0x4, 8, fun n => [LNK_EYE.H_MARGIN 1 n, LNK_EYE.V_MARGIN 1 n]⟩,
  ⟨0x0C080, 0x4, 8, fun n => [LNK_PRBS_ERR.ERRORS 0 n]⟩,
  ⟨0x0C480, 0x4, 8, fun n => [LNK_PRBS_ERR.ERRORS 1 n]⟩,
  ⟨0x0C800, 4, 1, fun _ => [LNK_REF_STATUS.PLL_L_LOCK, LNK_REF_STATUS.REF_PRESENT]⟩,
  ⟨0x0C804, 4, 1, fun _ => [LNK_RES_UD.RES]⟩,
  ⟨0x0C808, 4, 1, fun _ => [LNK_RES_DU.RES]⟩,
  ⟨0x0B000, 4, 1, fun _ => [CHN_CTRL.FULL_CALL, CHN_CTRL.JOIN_CALL, CHN_CTRL.PRIORITY, CHN_CTRL.DEAD_THRESH, CHN_CTRL.ELECT_MS]⟩,
  ⟨0x0B004, 4, 1, fun _ => [CHN_CFG.JOIN_AUTO, CHN_CFG.WITNESS_EN, CHN_CFG.AUTO_SPARE]⟩,
  ⟨0x0B008, 4, 1, fun _ => [CHN_STATE.STATE, CHN_STATE.ROLE, CHN_STATE.BENCHED, CHN_STATE.INC, CHN_STATE.TALLY, CHN_STATE.BROKEN_D, CHN_STATE.BROKEN_U]⟩,
  ⟨0x0B00C, 4, 1, fun _ => [CHN_RING.HOPS_U, CHN_RING.HOPS_D, CHN_RING.WHOLE, CHN_RING.BREAK_AFTER, CHN_RING.UNITS]⟩,
  ⟨0x0B010, 4, 1, fun _ => [CHN_EPOCH.GEAR, CHN_EPOCH.ASSIGN]⟩,
  ⟨0x0B014, 4, 1, fun _ => [CHN_DRL_CMD.AHEAD, CHN_DRL_CMD.GO_ASSIGN, CHN_DRL_CMD.GO_GEAR]⟩,
  ⟨0x0B018, 4, 1, fun _ => [CHN_DRL_STATUS.NUMBER, CHN_DRL_STATUS.NACK_TALLY, CHN_DRL_STATUS.NACK_RESULT, CHN_DRL_STATUS.RESULT, CHN_DRL_STATUS.STATE]⟩,
  ⟨0x0B01C, 4, 1, fun _ => [CHN_DRL_SWEEP.K]⟩,
  ⟨0x0B020, 0x4, 2, fun n => [CHN_JOINED.MAP n]⟩,
  ⟨0x0B028, 0x4, 2, fun n => [CHN_ACKED.MAP n]⟩,
  ⟨0x0B030, 4, 1, fun _ => [CHN_ASG_SEL.BANK, CHN_ASG_SEL.TALLY, CHN_ASG_SEL.STOPE]⟩,
  ⟨0x0B034, 4, 1, fun _ => [CHN_ASG_BASE.SLOT_BASE]⟩,
  ⟨0x0B038, 4, 1, fun _ => [CHN_ASG_LO.OWN_LO]⟩,
  ⟨0x0B03C, 4, 1, fun _ => [CHN_ASG_HI.VALID, CHN_ASG_HI.OWN_HI]⟩,
  ⟨0x0B040, 4, 1, fun _ => [CHN_ASG_CMD.COPY, CHN_ASG_CMD.CLEAR]⟩,
  ⟨0x0B044, 4, 1, fun _ => [CHN_INTAKE.EGRESS_MIB, CHN_INTAKE.HWM_MIB]⟩,
  ⟨0x0B048, 4, 1, fun _ => [CHN_WRR.W_BULK, CHN_WRR.W_SPOT, CHN_WRR.W_REC]⟩,
  ⟨0x0B04C, 4, 1, fun _ => [CHN_PEER_SEL.TALLY]⟩,
  ⟨0x0B050, 4, 1, fun _ => [CHN_PEER_STATUS.JOINED, CHN_PEER_STATUS.DEAD, CHN_PEER_STATUS.QUARANTINED, CHN_PEER_STATUS.INC, CHN_PEER_STATUS.MISSED, CHN_PEER_STATUS.HOPS]⟩,
  ⟨0x0B054, 0x4, 2, fun n => [CHN_PEER_SERIAL.SERIAL n]⟩]

/-- Registers of the map, part 5. -/
def regPart4 : List RegEntry := [
  ⟨0x0B060, 4, 1, fun _ => [CHN_ERRCNT0.HDR_CRC, CHN_ERRCNT0.PAY_CRC]⟩,
  ⟨0x0B064, 4, 1, fun _ => [CHN_ERRCNT1.SUPERSEDED, CHN_ERRCNT1.TAG_DROP]⟩,
  ⟨0x0B068, 4, 1, fun _ => [CHN_ERRCNT2.GRACE_DROP, CHN_ERRCNT2.NOT_OWNED]⟩,
  ⟨0x0B06C, 4, 1, fun _ => [CHN_ERRCNT3.STALE_DELTA, CHN_ERRCNT3.INCOMPLETE]⟩,
  ⟨0x0B070, 4, 1, fun _ => [CHN_ERRCNT4.INTAKE_DROP, CHN_ERRCNT4.EGRESS_DROP, CHN_ERRCNT4.PORT_DROP]⟩,
  ⟨0x0B074, 4, 1, fun _ => [CHN_ERRCLR.CLEAR]⟩,
  ⟨0x0B080, 0x4, 16, fun w => [CHN_SPARE.SPARE (4 * w + 0), CHN_SPARE.SPARE (4 * w + 1), CHN_SPARE.SPARE (4 * w + 2), CHN_SPARE.SPARE (4 * w + 3)]⟩,
  ⟨0x06400, 4, 1, fun _ => [EXP_SPOT_CTRL.EN, EXP_SPOT_CTRL.METHOD, EXP_SPOT_CTRL.FMT, EXP_SPOT_CTRL.EVERY, EXP_SPOT_CTRL.TAPS]⟩,
  ⟨0x06404, 4, 1, fun _ => [EXP_SPOT_RATE.GBPS]⟩,
  ⟨0x06408, 4, 1, fun _ => [EXP_SPOT_STATUS.RUN, EXP_SPOT_STATUS.CLEARING, EXP_SPOT_STATUS.SENDING, EXP_SPOT_STATUS.FRAMES]⟩,
  ⟨0x0640C, 4, 1, fun _ => [EXP_SPOT_ERRCNT.LINE_DROP, EXP_SPOT_ERRCNT.SKIPPED]⟩,
  ⟨0x06410, 4, 1, fun _ => [EXP_SPOT_ERRCLR.CLEAR]⟩,
  ⟨0x06420, 0x4, 8, fun w => [EXP_SPOT_MASK.MASK w]⟩,
  ⟨0x0D000, 4, 1, fun _ => [PIPE_CTRL.EN, PIPE_CTRL.FRAME_MS]⟩,
  ⟨0x0D004, 4, 1, fun _ => [PIPE_MEM.SPOT_MIB, PIPE_MEM.TBL_MIB]⟩,
  ⟨0x0D008, 4, 1, fun _ => [PIPE_STATUS.LEVEL, PIPE_STATUS.RUN, PIPE_STATUS.CTX_ON]⟩,
  ⟨0x0D00C, 4, 1, fun _ => [PIPE_CTX_SEL.CTX]⟩,
  ⟨0x0D010, 4, 1, fun _ => [PIPE_CTX_CFG.SRC, PIPE_CTX_CFG.TAP, PIPE_CTX_CFG.RING, PIPE_CTX_CFG.FMT, PIPE_CTX_CFG.DEF_EN, PIPE_CTX_CFG.BLK_EN, PIPE_CTX_CFG.FLAT_EN]⟩,
  ⟨0x0D014, 4, 1, fun _ => [PIPE_CTX_OFS.OFS]⟩,
  ⟨0x0D018, 4, 1, fun _ => [PIPE_CTX_FLAT.BASE]⟩,
  ⟨0x0D01C, 4, 1, fun _ => [PIPE_CTX_DEF.BASE]⟩,
  ⟨0x0D020, 4, 1, fun _ => [PIPE_CTX_DEFN.COUNT]⟩,
  ⟨0x0D024, 4, 1, fun _ => [PIPE_CTX_STAT.ZY, PIPE_CTX_STAT.ZX, PIPE_CTX_STAT.FOCUS, PIPE_CTX_STAT.ZONES, PIPE_CTX_STAT.HIST]⟩,
  ⟨0x0D028, 0x4, 8, fun w => [PIPE_CTX_MASK.MASK w]⟩,
  ⟨0x0D048, 0x4, 9, fun i => [PIPE_CTX_MAT.M i]⟩,
  ⟨0x0D06C, 4, 1, fun _ => [PIPE_CTX_CMD.DISABLE, PIPE_CTX_CMD.COMMIT]⟩,
  ⟨0x0D070, 4, 1, fun _ => [PIPE_CTX_STATUS.ON, PIPE_CTX_STATUS.PENDING, PIPE_CTX_STATUS.RESULT, PIPE_CTX_STATUS.GEN]⟩,
  ⟨0x0D074, 4, 1, fun _ => [PIPE_ERRCNT0.NO_CTX, PIPE_ERRCNT0.SPOT_DROP]⟩,
  ⟨0x0D078, 4, 1, fun _ => [PIPE_ERRCNT1.INLINE_DROP, PIPE_ERRCNT1.OUT_DROP]⟩,
  ⟨0x0D07C, 4, 1, fun _ => [PIPE_ERRCNT2.INCOMPLETE, PIPE_ERRCNT2.ORDER_DROP]⟩,
  ⟨0x0D080, 4, 1, fun _ => [PIPE_ERRCLR.CLEAR]⟩,
  ⟨0x04000, 4, 1, fun _ => [TIM_CTRL.SERVO]⟩,
  ⟨0x04004, 4, 1, fun _ => [TIM_STATUS.STATE, TIM_STATUS.CHAIN_OK, TIM_STATUS.SLEWING, TIM_STATUS.STEP_REFUSED, TIM_STATUS.COARSE, TIM_STATUS.ORIGIN_HOLD, TIM_STATUS.DISC, TIM_STATUS.DLY_OK_D, TIM_STATUS.DLY_OK_U, TIM_STATUS.HOLD_S]⟩,
  ⟨0x04008, 4, 1, fun _ => [TIM_NOW0.FLAGS, TIM_NOW0.FRAC]⟩,
  ⟨0x0400C, 4, 1, fun _ => [TIM_NOW1.NS]⟩,
  ⟨0x04010, 4, 1, fun _ => [TIM_NOW2.SEC]⟩,
  ⟨0x04014, 4, 1, fun _ => [TIM_NOW3.SEC]⟩,
  ⟨0x04018, 4, 1, fun _ => [TIM_NOW4.FWC]⟩,
  ⟨0x0401C, 4, 1, fun _ => [TIM_NOW5.FWC]⟩,
  ⟨0x04020, 4, 1, fun _ => [TIM_NOW6.FWC]⟩]

/-- Registers of the map, part 6. -/
def regPart5 : List RegEntry := [
  ⟨0x04024, 4, 1, fun _ => [TIM_RATE.ADJ]⟩,
  ⟨0x04028, 4, 1, fun _ => [TIM_STEP0.FRAC]⟩,
  ⟨0x0402C, 4, 1, fun _ => [TIM_STEP1.NS]⟩,
  ⟨0x04030, 4, 1, fun _ => [TIM_STEP2.NS]⟩,
  ⟨0x04034, 4, 1, fun _ => [TIM_STEP_CMD.ACCEPT]⟩,
  ⟨0x04038, 4, 1, fun _ => [TIM_SLEW.PPM]⟩,
  ⟨0x0403C, 4, 1, fun _ => [TIM_SLEW_REM_LO.REM]⟩,
  ⟨0x04040, 4, 1, fun _ => [TIM_SLEW_REM_HI.REM]⟩,
  ⟨0x04044, 4, 1, fun _ => [TIM_JUMP.US]⟩,
  ⟨0x04048, 4, 1, fun _ => [TIM_HOLD.MAX_S, TIM_HOLD.HOST_S, TIM_HOLD.SYNC_LOSS]⟩,
  ⟨0x0404C, 4, 1, fun _ => [TIM_SERVO.LOCK_NS, TIM_SERVO.KI, TIM_SERVO.KP]⟩,
  ⟨0x04050, 4, 1, fun _ => [TIM_OFS_ERR.E]⟩,
  ⟨0x04054, 4, 1, fun _ => [TIM_SYNC.EN, TIM_SYNC.PTP_TS, TIM_SYNC.DOMAIN, TIM_SYNC.INTERVAL_MS]⟩,
  ⟨0x04058, 0x4, 2, fun x => [TIM_DELAY.DELAY x]⟩,
  ⟨0x04060, 4, 1, fun _ => [TIM_ASYM.ASYM_D, TIM_ASYM.ASYM_U]⟩,
  ⟨0x04064, 4, 1, fun _ => [TIM_PUB_CTRL.MAINS_FROM, TIM_PUB_CTRL.SCAN_FROM]⟩,
  ⟨0x04068, 4, 1, fun _ => [TIM_PUB_SEL.KIND]⟩,
  ⟨0x0406C, 4, 1, fun _ => [TIM_PUB_W0.EP_NS]⟩,
  ⟨0x04070, 4, 1, fun _ => [TIM_PUB_W1.EP_SEC_LO]⟩,
  ⟨0x04074, 4, 1, fun _ => [TIM_PUB_W2.EP_FRAC, TIM_PUB_W2.EP_SEC_HI]⟩,
  ⟨0x04078, 4, 1, fun _ => [TIM_PUB_W3.PER_LO]⟩,
  ⟨0x0407C, 4, 1, fun _ => [TIM_PUB_W4.PER_HI]⟩,
  ⟨0x04080, 4, 1, fun _ => [TIM_PUB_W5.FRAME]⟩,
  ⟨0x04084, 4, 1, fun _ => [TIM_ERRCNT0.SYNC_DROP]⟩,
  ⟨0x04088, 4, 1, fun _ => [TIM_ERRCNT1.HOST_IGN, TIM_ERRCNT1.DELAY_OUTLIER, TIM_ERRCNT1.TP_SKIP]⟩,
  ⟨0x0408C, 4, 1, fun _ => [TIM_ERRCLR.CLEAR]⟩,
  ⟨0x04090, 4, 1, fun _ => [TIM_TP_LAT.LAT]⟩,
  ⟨0x04100, 0x20, 4, fun n => [TIM_TP_CFG.EN n, TIM_TP_CFG.MODE n, TIM_TP_CFG.RESULT n]⟩,
  ⟨0x04104, 0x20, 4, fun n => [TIM_TP_START0.NS n]⟩,
  ⟨0x04108, 0x20, 4, fun n => [TIM_TP_START1.SEC n]⟩,
  ⟨0x0410C, 0x20, 4, fun n => [TIM_TP_START2.SEC n]⟩,
  ⟨0x04110, 0x20, 4, fun n => [TIM_TP_PERIOD.NS n]⟩,
  ⟨0x04114, 0x20, 4, fun n => [TIM_TP_WIDTH.NS n]⟩,
  ⟨0x0E000, 4, 1, fun _ => [HST_LINK.DL_UP, HST_LINK.FLIT, HST_LINK.SPEED, HST_LINK.WIDTH]⟩,
  ⟨0x0E004, 4, 1, fun _ => [HST_STATUS.REQ_OK, HST_STATUS.BME, HST_STATUS.D3HOT, HST_STATUS.ARMED, HST_STATUS.WDOG_EXP]⟩,
  ⟨0x0E008, 4, 1, fun _ => [HST_CTRL.REARM]⟩,
  ⟨0x0E00C, 4, 1, fun _ => [HST_GRACE.MS]⟩,
  ⟨0x0E010, 4, 1, fun _ => [HST_WDOG.MS, HST_WDOG.PET]⟩,
  ⟨0x0E014, 4, 1, fun _ => [HST_PROXY.MS]⟩,
  ⟨0x0E018, 4, 1, fun _ => [HST_BAR2.BASE]⟩]

/-- Registers of the map, part 7. -/
def regPart6 : List RegEntry := [
  ⟨0x0E01C, 4, 1, fun _ => [HST_ERRCNT0.CPL_DROP, HST_ERRCNT0.HOST_RD_ERR]⟩,
  ⟨0x0E020, 4, 1, fun _ => [HST_ERRCNT1.BAR0_PARTIAL, HST_ERRCNT1.BAR2_DENIED, HST_ERRCNT1.OVERSIZE]⟩,
  ⟨0x0E024, 4, 1, fun _ => [HST_ERRCNT2.EVENT_LOST, HST_ERRCNT2.PROXY_TIMEOUT]⟩,
  ⟨0x0E028, 4, 1, fun _ => [HST_ERRCLR.CLEAR]⟩,
  ⟨0x0E100, 0x10, 32, fun n => [HST_SQ_BASE_LO.BASE_LO n]⟩,
  ⟨0x0E300, 0x10, 32, fun n => [HST_CQ_BASE_LO.BASE_LO n]⟩,
  ⟨0x0E500, 0x10, 16, fun n => [HST_DR_BASE_LO.BASE_LO n]⟩,
  ⟨0x0E104, 0x10, 32, fun n => [HST_SQ_BASE_HI.BASE_HI n]⟩,
  ⟨0x0E304, 0x10, 32, fun n => [HST_CQ_BASE_HI.BASE_HI n]⟩,
  ⟨0x0E504, 0x10, 16, fun n => [HST_DR_BASE_HI.BASE_HI n]⟩,
  ⟨0x0E108, 0x10, 32, fun n => [HST_SQ_CFG.EN n, HST_SQ_CFG.RESUME n, HST_SQ_CFG.CQ n, HST_SQ_CFG.LOG2SIZE n]⟩,
  ⟨0x0E308, 0x10, 32, fun n => [HST_CQ_CFG.EN n, HST_CQ_CFG.RESUME n, HST_CQ_CFG.VECTOR n, HST_CQ_CFG.MOD_US n, HST_CQ_CFG.MOD_CNT n, HST_CQ_CFG.LOG2SIZE n]⟩,
  ⟨0x0E508, 0x10, 16, fun n => [HST_DR_CFG.EN n, HST_DR_CFG.RESUME n, HST_DR_CFG.VECTOR n, HST_DR_CFG.BUFSZ n, HST_DR_CFG.STREAM n, HST_DR_CFG.FLUSH n, HST_DR_CFG.LOG2SIZE n]⟩,
  ⟨0x0E10C, 0x10, 32, fun n => [HST_SQ_STATUS.HALTED n, HST_SQ_STATUS.CAUSE n, HST_SQ_STATUS.PHASE n, HST_SQ_STATUS.INDEX n]⟩,
  ⟨0x0E30C, 0x10, 32, fun n => [HST_CQ_STATUS.HALTED n, HST_CQ_STATUS.CAUSE n, HST_CQ_STATUS.PHASE n, HST_CQ_STATUS.INDEX n]⟩,
  ⟨0x0E50C, 0x10, 16, fun n => [HST_DR_STATUS.HALTED n, HST_DR_STATUS.CAUSE n, HST_DR_STATUS.PHASE n, HST_DR_STATUS.INDEX n]⟩,
  ⟨0x0E800, 0x4, 32, fun n => [HST_SQ_DB.INDEX n]⟩,
  ⟨0x0E880, 0x4, 32, fun n => [HST_CQ_DB.INDEX n]⟩,
  ⟨0x0E900, 0x4, 16, fun n => [HST_DR_DB.INDEX n]⟩,
  ⟨0x01000, 4, 1, fun _ => [PWR_CMD.TARGET]⟩,
  ⟨0x01004, 4, 1, fun _ => [PWR_STATUS.STATE, PWR_STATUS.BUSY, PWR_STATUS.RESULT, PWR_STATUS.PENDING]⟩,
  ⟨0x01008, 4, 1, fun _ => [PWR_RAIL.SEQ_VIOL, PWR_RAIL.FAULT, PWR_RAIL.GOOD]⟩,
  ⟨0x0100C, 4, 1, fun _ => [PWR_CLK.CANARY_RUN, PWR_CLK.REF_PRESENT, PWR_CLK.GATED, PWR_CLK.LOCKED]⟩,
  ⟨0x01010, 4, 1, fun _ => [PWR_WAKE.PERST_EN]⟩,
  ⟨0x01014, 4, 1, fun _ => [PWR_ERRCNT.REFUSED]⟩,
  ⟨0x01018, 4, 1, fun _ => [PWR_ERRCLR.CLEAR]⟩,
  ⟨0x02000, 0x10, 3, fun x => [PLL_CFG.RELOCK x, PLL_CFG.REFMODE x, PLL_CFG.CP_I x, PLL_CFG.LF x]⟩,
  ⟨0x02004, 0x10, 3, fun x => [PLL_STATUS.LOCKED x, PLL_STATUS.GATED x, PLL_STATUS.SEARCHING x, PLL_STATUS.REF_LOSS x, PLL_STATUS.N x, PLL_STATUS.BAND x, PLL_STATUS.REFMODE_ACT x]⟩,
  ⟨0x02008, 0x10, 3, fun x => [PLL_CNT.LOSS_CNT x, PLL_CNT.LOCK_CNT x]⟩,
  ⟨0x02040, 0x4, 2, fun n => [PLL_CLKOUT.EN n, PLL_CLKOUT.RESULT n, PLL_CLKOUT.FORMAT n, PLL_CLKOUT.LEVEL n, PLL_CLKOUT.SRC n, PLL_CLKOUT.DIV n]⟩,
  ⟨0x02048, 4, 1, fun _ => [PLL_CLKOUT_STATUS.RUNNING]⟩,
  ⟨0x0204C, 4, 1, fun _ => [PLL_ERRCLR.CLEAR]⟩,
  ⟨0x03000, 4, 1, fun _ => [SAF_CTRL.L2_RELEASE]⟩,
  ⟨0x03004, 4, 1, fun _ => [SAF_STATUS.LEVEL, SAF_STATUS.DEFERRED, SAF_STATUS.SCREEN_FORCED, SAF_STATUS.DATA_FORCED, SAF_STATUS.FAULT_N, SAF_STATUS.CHAIN_HOLD, SAF_STATUS.FIRST_WRITE, SAF_STATUS.ELAPSED_MS]⟩,
  ⟨0x03008, 4, 1, fun _ => [SAF_TRIP.LIVE, SAF_TRIP.LATCHED]⟩,
  ⟨0x0300C, 4, 1, fun _ => [SAF_HB.US]⟩,
  ⟨0x03010, 4, 1, fun _ => [SAF_L1_DEFER.MS]⟩,
  ⟨0x03014, 4, 1, fun _ => [SAF_CMD.TEST_TRIP, SAF_CMD.CHAIN_RESTART]⟩,
  ⟨0x03018, 0x10, 2, fun k => [SAF_F_CODE.CODE k, SAF_F_CODE.CALLED k, SAF_F_CODE.ENTERED k]⟩,
  ⟨0x0301C, 0x10, 2, fun k => [SAF_F_FWC0.FWC_LO k]⟩]

/-- Registers of the map, part 8. -/
def regPart7 : List RegEntry := [
  ⟨0x03020, 0x10, 2, fun k => [SAF_F_FWC1.FWC_MID k]⟩,
  ⟨0x03024, 0x10, 2, fun k => [SAF_F_FWC2.FWC_HI k]⟩,
  ⟨0x03038, 4, 1, fun _ => [SAF_CNT0.L1_CNT, SAF_CNT0.L2_CNT]⟩,
  ⟨0x0303C, 4, 1, fun _ => [SAF_CNT1.L3_CNT, SAF_CNT1.DOUBLE_CNT, SAF_CNT1.TRIP_CNT]⟩,
  ⟨0x03040, 4, 1, fun _ => [SAF_ERRCLR.CLEAR]⟩,
  ⟨0x0F000, 4, 1, fun _ => [NVS_STATUS.BUSY, NVS_STATUS.OP, NVS_STATUS.LAST_RESULT, NVS_STATUS.SPARES, NVS_STATUS.INST_NONE, NVS_STATUS.GOLD_BANK, NVS_STATUS.INST_BANK, NVS_STATUS.DEF_BANK, NVS_STATUS.FW_BANK, NVS_STATUS.CAL_BANK]⟩,
  ⟨0x0F004, 4, 1, fun _ => [NVS_SEQ0.FW_SEQ, NVS_SEQ0.CAL_SEQ]⟩,
  ⟨0x0F008, 4, 1, fun _ => [NVS_SEQ1.GOLD_SEQ, NVS_SEQ1.INST_SEQ]⟩,
  ⟨0x0F044, 4, 1, fun _ => [NVS_SEQ2.DEF_SEQ]⟩,
  ⟨0x0F00C, 4, 1, fun _ => [NVS_CMD.IMG_COMMIT, NVS_CMD.IMG_OPEN, NVS_CMD.SAVE_INST]⟩,
  ⟨0x0F010, 4, 1, fun _ => [NVS_IMG_SEL.AREA]⟩,
  ⟨0x0F014, 4, 1, fun _ => [NVS_IMG_ADDR.ADDR]⟩,
  ⟨0x0F018, 4, 1, fun _ => [NVS_IMG_DATA.DATA]⟩,
  ⟨0x0F01C, 4, 1, fun _ => [NVS_IMG_CRC.CRC]⟩,
  ⟨0x0F020, 4, 1, fun _ => [NVS_RD_ADDR.WORD]⟩,
  ⟨0x0F024, 4, 1, fun _ => [NVS_RD_DATA_LO.DATA]⟩,
  ⟨0x0F028, 4, 1, fun _ => [NVS_RD_DATA_HI.DATA]⟩,
  ⟨0x0F02C, 4, 1, fun _ => [NVS_RD_STATUS.KEY, NVS_RD_STATUS.CORR2, NVS_RD_STATUS.UNCORR]⟩,
  ⟨0x0F030, 4, 1, fun _ => [NVS_BLK_SEL.BLOCK]⟩,
  ⟨0x0F034, 4, 1, fun _ => [NVS_BLK_INFO.RETIRED, NVS_BLK_INFO.WORN, NVS_BLK_INFO.PHYS, NVS_BLK_INFO.CORR_CNT]⟩,
  ⟨0x0F038, 4, 1, fun _ => [NVS_ERRCNT0.CORR2_CNT, NVS_ERRCNT0.UNCORR_CNT]⟩,
  ⟨0x0F03C, 4, 1, fun _ => [NVS_ERRCNT1.CRC_FAIL_CNT, NVS_ERRCNT1.SB_REFUSED]⟩,
  ⟨0x0F040, 4, 1, fun _ => [NVS_ERRCLR.CLEAR]⟩,
  ⟨0x12000, 4, 1, fun _ => [BIST_CMD.GO, BIST_CMD.KIND, BIST_CMD.TARGET]⟩,
  ⟨0x12004, 4, 1, fun _ => [BIST_STATUS.BUSY, BIST_STATUS.RESULT, BIST_STATUS.KIND, BIST_STATUS.TARGET]⟩,
  ⟨0x12008, 4, 1, fun _ => [BIST_FAIL.FAIL_CNT]⟩,
  ⟨0x1200C, 4, 1, fun _ => [BIST_FAIL_ADDR.ADDR]⟩,
  ⟨0x12010, 4, 1, fun _ => [BIST_SIG_LO.SIG]⟩,
  ⟨0x12014, 4, 1, fun _ => [BIST_SIG_HI.SIG]⟩,
  ⟨0x12018, 4, 1, fun _ => [BIST_GOLD_LO.GOLD]⟩,
  ⟨0x1201C, 4, 1, fun _ => [BIST_GOLD_HI.GOLD]⟩,
  ⟨0x12020, 4, 1, fun _ => [BIST_LAMP.WARM, BIST_LAMP.TIME_MS, BIST_LAMP.FAIL]⟩,
  ⟨0x12024, 4, 1, fun _ => [BIST_GOLD_CMD.COMMIT]⟩,
  ⟨0x10000, 4, 1, fun _ => [ROL_STATUS.LOCKED, ROL_STATUS.I2C_OPEN, ROL_STATUS.BAR0_OPEN]⟩,
  ⟨0x10004, 4, 1, fun _ => [ROL_CFG.IDLE_S]⟩,
  ⟨0x10008, 0x100000, 2, fun p => [ROL_CHAL_CMD.GO p, ROL_CHAL_CMD.ROLE p]⟩,
  ⟨0x1000C, 0x4, 4, fun k => [ROL_NONCE.N 0 k]⟩,
  ⟨0x11000C, 0x4, 4, fun k => [ROL_NONCE.N 1 k]⟩,
  ⟨0x1001C, 0x100000, 2, fun p => [ROL_CTR_LO.C p]⟩,
  ⟨0x10020, 0x100000, 2, fun p => [ROL_CTR_HI.C p]⟩]

/-- Registers of the map, part 9. -/
def regPart8 : List RegEntry := [
  ⟨0x10024, 0x4, 8, fun k => [ROL_RESP.RESP 0 k]⟩,
  ⟨0x110024, 0x4, 8, fun k => [ROL_RESP.RESP 1 k]⟩,
  ⟨0x10044, 0x100000, 2, fun p => [ROL_SESSION_CMD.OPEN p, ROL_SESSION_CMD.CLOSE p, ROL_SESSION_CMD.ROLE p]⟩,
  ⟨0x10048, 0x100000, 2, fun p => [ROL_SESSION_STATUS.RESULT p]⟩,
  ⟨0x1004C, 0x4, 8, fun k => [ROL_KEY_W.W 0 k]⟩,
  ⟨0x11004C, 0x4, 8, fun k => [ROL_KEY_W.W 1 k]⟩,
  ⟨0x1006C, 0x100000, 2, fun p => [ROL_KEY_CHK.CHK p]⟩,
  ⟨0x10070, 0x100000, 2, fun p => [ROL_KEY_CMD.GO p, ROL_KEY_CMD.TARGET p]⟩,
  ⟨0x10074, 0x100000, 2, fun p => [ROL_KEY_STATUS.STORE p, ROL_KEY_STATUS.RESULT p]⟩,
  ⟨0x10078, 4, 1, fun _ => [ROL_SB_HEAD.NEXT]⟩,
  ⟨0x1007C, 4, 1, fun _ => [ROL_SB_SEL.ENTRY]⟩,
  ⟨0x10080, 0x4, 16, fun k => [ROL_SB_W.DATA k]⟩,
  ⟨0x100C0, 4, 1, fun _ => [ROL_SB_STATUS.VALID]⟩,
  ⟨0x100C4, 4, 1, fun _ => [ROL_ERRCNT.REJECTED, ROL_ERRCNT.FAILED]⟩,
  ⟨0x100C8, 4, 1, fun _ => [ROL_ERRCLR.CLEAR]⟩,
  ⟨0x11000, 4, 1, fun _ => [I2C_CFG.FILT]⟩,
  ⟨0x11004, 4, 1, fun _ => [I2C_SEL.FIXED, I2C_SEL.PAGE, I2C_SEL.WIN, I2C_SEL.PTR]⟩,
  ⟨0x11008, 4, 1, fun _ => [I2C_STATUS.BUSY, I2C_STATUS.ADDR]⟩,
  ⟨0x1100C, 4, 1, fun _ => [I2C_ERRCNT0.SDA_REL, I2C_ERRCNT0.BUS_RST]⟩,
  ⟨0x11010, 4, 1, fun _ => [I2C_ERRCNT1.PARTIAL, I2C_ERRCNT1.LATE, I2C_ERRCNT1.BADCMD]⟩,
  ⟨0x11014, 4, 1, fun _ => [I2C_ERRCLR.CLEAR]⟩]

/-- The whole register map (R35, ch. 17). -/
def regMap : List RegEntry :=
  regPart0 ++ regPart1 ++ regPart2 ++ regPart3 ++ regPart4 ++ regPart5 ++ regPart6 ++ regPart7 ++ regPart8

/-- The group an offset belongs to, and which register of it. -/
def regFind : List RegEntry → Nat → Option (RegEntry × Nat)
  | [], _ => none
  | e :: es, off =>
    if e.base ≤ off ∧ off < e.base + e.stride * e.count ∧ (off - e.base) % e.stride = 0 then
      some (e, (off - e.base) / e.stride)
    else regFind es off

/-- The fields of the register at an offset, none where no register occupies it (R15). -/
def fieldsAt (off : Nat) : List Field :=
  match regFind regMap off with
  | none => []
  | some (e, n) => e.fields n

end Sys2Proof.Machine
end

