-- ==== Sys2Proof/Machine/Ops.lean ====
section
/-!
DEFINITION. The named operations over registers, time, events, sessions and the shift book that every command uses.
-/
namespace Sys2Proof.Machine

/-- What a command answers. -/
abbrev Out := Host.Outcome State Fault Refusal

/-! ### Registers -/

/-- What a field holds. -/
def State.get (s : State) (f : Field) : Nat := Tbl.get f.reset s.regs f.key

/-- A field takes the low bits of a value. -/
def State.set (s : State) (f : Field) (v : Nat) : State :=
  { s with regs := Tbl.set f.reset s.regs f.key (v % 2 ^ f.width) }

/-- A one-bit field is 1. -/
def State.on (s : State) (f : Field) : Bool := decide (s.get f = 1)

/-- A one-bit field takes a truth value. -/
def State.put (s : State) (f : Field) (b : Bool) : State := s.set f (ofBool b)

/-- A counter that saturates advances by `n`. -/
def State.bump (s : State) (f : Field) (n : Nat) : State := s.set f (min (2 ^ f.width - 1) (s.get f + n))

/-- Bit `i` of a field. -/
def State.bitOf (s : State) (f : Field) (i : Nat) : Bool := bit (s.get f) i

/-- Bit `i` of a field takes a truth value. -/
def State.putBit (s : State) (f : Field) (i : Nat) (b : Bool) : State := s.set f (setBit (s.get f) i b)

/-- A field returns to its reset value. -/
def State.toReset (s : State) (f : Field) : State := s.set f f.reset

/-- Several fields return to their reset values. -/
def State.toResets (s : State) (fs : List Field) : State := fs.foldl State.toReset s

/-- Several fields become 0, as a write of an ERRCLR register makes them. -/
def State.zeros (s : State) (fs : List Field) : State := fs.foldl (fun t f => t.set f 0) s

/-- The bits a field takes from a written word. -/
def Field.of (f : Field) (w : Nat) : Nat := bits w f.lo f.width

/-- The word made of some fields' contents. -/
def State.word (s : State) : List Field → Nat
  | [] => 0
  | f :: fs => (s.get f) <<< f.lo ||| s.word fs

/-- A fresh free value: a value the manual does not state (notes/assumptions/1.md). -/
def State.free (s : State) : Nat × State := (Config.freeValue s.freeIx, { s with freeIx := s.freeIx + 1 })

/-- A condition on a state change: applied or not. -/
def State.when (s : State) (c : Bool) (f : State → State) : State := if c then f s else s

/-! ### Updates of one block's record -/

def State.onPwr (s : State) (f : Pwr → Pwr) : State := { s with pwr := f s.pwr }
def State.onSaf (s : State) (f : Saf → Saf) : State := { s with saf := f s.saf }
def State.onRol (s : State) (f : Rol → Rol) : State := { s with rol := f s.rol }
def State.onNvs (s : State) (f : Nvs → Nvs) : State := { s with nvs := f s.nvs }
def State.onHst (s : State) (f : Hst → Hst) : State := { s with hst := f s.hst }
def State.onI2c (s : State) (f : I2c → I2c) : State := { s with i2c := f s.i2c }
def State.onTim (s : State) (f : Tim → Tim) : State := { s with tim := f s.tim }
def State.onLnk (s : State) (f : Lnk → Lnk) : State := { s with lnk := f s.lnk }
def State.onChn (s : State) (f : Chn → Chn) : State := { s with chn := f s.chn }
def State.onCad (s : State) (f : Cad → Cad) : State := { s with cad := f s.cad }
def State.onArr (s : State) (f : Arr → Arr) : State := { s with arr := f s.arr }
def State.onCnv (s : State) (f : Cnv → Cnv) : State := { s with cnv := f s.cnv }
def State.onMon (s : State) (f : Mon → Mon) : State := { s with mon := f s.mon }
def State.onEng (s : State) (f : Engs → Engs) : State := { s with eng := f s.eng }
def State.onSpot (s : State) (f : Spot → Spot) : State := { s with spot := f s.spot }
def State.onPipe (s : State) (f : Pipe → Pipe) : State := { s with pipe := f s.pipe }

/-! ### Time -/

/-- Freewheel ticks in a microsecond, a millisecond and a second (one tick is 0.5 ns). -/
def usTicks : Nat := 2000
def msTicks : Nat := 2000000
def secTicks : Nat := 2000000000

/-- The freewheel counter moves on to an instant; it never steps back (R31). -/
def State.advance (s : State) (t : Nat) : State := { s with fwc := max s.fwc t % 2 ^ 80 }

/-- PLL-T drives the TIME domain; otherwise CANARY does (R31). -/
def State.pllTOn (s : State) : Bool := s.on (PLL_STATUS.LOCKED 1)

/-- What a slew has applied at an instant in ticks × 2⁻¹⁶ (R377), in 2⁻¹⁷ ns × 10⁻⁶: TIM_SLEW.PPM × 10⁻⁶ of the time since, with the
remainder's sign, never beyond it. -/
def State.slewAt (s : State) (p : Int) : Int :=
  match s.tim.slew with
  | none => 0
  | some (r, f0) =>
    let a : Int := max 0 (p - (f0 : Int) * 65536) * (s.get TIM_SLEW.PPM : Int)
    if r < 0 then max (r * 2000000) (-a) else min (r * 2000000) a

/-- The same at count `f` in 2⁻¹⁶ ns, truncated. -/
def State.slewPart (s : State) (f : Nat) : Int := (s.slewAt ((f : Int) * 65536)).tdiv 2000000

/-- Reported time at an instant in ticks × 2⁻¹⁶ (R373), in units of 2⁻¹⁶ ns: the exact sum, truncated once. -/
def State.timeAt16 (s : State) (p : Nat) : Int :=
  let d : Int := (p : Int) - (s.tim.anchorFwc : Int) * 65536
  s.tim.anchor + (d * (1099511627776 + signed 32 (s.get TIM_RATE.ADJ)) * 1000000 + 1099511627776 * s.slewAt p) / 2199023255552000000

/-- Reported time at count `f`. -/
def State.timeAt (s : State) (f : Nat) : Int := s.timeAt16 (f * 65536)

/-- Reported time now. -/
def State.timeNow (s : State) : Int := s.timeAt s.fwc

/-- Units of reported time in a nanosecond and in a second. -/
def nsUnits : Int := 65536
def secUnits : Int := 65536000000000

/-- The seconds, nanoseconds and fraction of a reported time (R373). -/
def timeSec (t : Int) : Nat := unsigned 64 (t / secUnits)
def timeNs (t : Int) : Nat := (t % secUnits / nsUnits).toNat
def timeFrac (t : Int) : Nat := (t % nsUnits).toNat

/-- The instant at which reported time reaches `t`, in ticks × 2⁻¹⁶: the inverse of R373, before, during and after the slew in progress. -/
def State.instant16 (s : State) (t : Int) : Int :=
  let rate : Int := 1099511627776 + signed 32 (s.get TIM_RATE.ADJ)
  let d := t - s.tim.anchor
  let fa : Int := (s.tim.anchorFwc : Int) * 65536
  let steady := fun (x : Int) => x * 2199023255552 / rate
  match s.tim.slew with
  | none => fa + steady d
  | some (r, f0) =>
    let q := (f0 : Int) * 65536 - fa
    let ppm : Int := s.get TIM_SLEW.PPM
    let c := (if r < 0 then -ppm else ppm) * 1099511627776
    let p := (d * 2199023255552000000 + q * c) / (rate * 1000000 + c)
    if steady d ≤ q then fa + steady d else if (p - q) * ppm ≤ (r.natAbs : Int) * 2000000 then fa + p else fa + steady (d - r)

/-- The first freewheel count at which reported time has reached `t`. -/
def State.countAt (s : State) (t : Int) : Int := -(-s.instant16 t / 65536)

/-! ### Power states and clocks -/

/-- PWR_STATUS.STATE of R454; 0 stands for OFF. -/
def State.power (s : State) : Nat := if s.pwr.vaon then s.get PWR_STATUS.STATE else 0

def stSTANDBY : Nat := 1
def stIDLE : Nat := 2
def stREADY : Nat := 3
def stCAPTURE : Nat := 4
def stHOLD : Nat := 5
def stSAFETALK : Nat := 6

/-- The unit is in a state above STANDBY, or on its way there (R456). -/
def State.above (s : State) : Bool := decide (stSTANDBY < s.power)

/-- SYS runs: PLL-S is locked with its gates open, and no rail holds the logic in reset (R453). -/
def State.sysRuns (s : State) : Bool :=
  s.pwr.vaon && s.on (PLL_STATUS.LOCKED 2) && !s.saf.railFatal

/-- Every register page answers: SYS runs and the foreman neither is held by SYSRST_N nor boots after it or under R561 (R38,
R485, R561). -/
def State.pagesUp (s : State) : Bool := s.sysRuns && !s.pwr.sysrst && decide (s.pwr.boot ≤ 1)

/-- The CADENCE domain runs: READY and CAPTURE, and HOLD entered from them while PLL-T is locked. -/
def State.cadenceRuns (s : State) : Bool :=
  !s.pwr.sysrst && s.pllTOn &&
    (decide (s.power = stREADY) || decide (s.power = stCAPTURE) ||
      (decide (s.power = stHOLD) && decide (stREADY ≤ s.saf.entryState)))

/-- The unit images: READY or CAPTURE with CADENCE running. -/
def State.imaging (s : State) : Bool := s.cadenceRuns && decide (s.power ≠ stHOLD)

/-! ### Chain identity -/

/-- The unit's tally and incarnation (R314). -/
def State.tally (s : State) : Nat := s.get CHN_STATE.TALLY
def State.inc (s : State) : Nat := s.get CHN_STATE.INC

/-- The unit holds tally 1 (R28). -/
def State.isPithead (s : State) : Bool := decide (s.tally = 1)

/-! ### Ports and packets -/

/-- A port's number: 0 U, 1 D. -/
def px (d : Bool) : Nat := if d then 1 else 0

/-- A port's record, and its update. -/
def State.port (s : State) (d : Bool) : Port := if d then s.lnk.d else s.lnk.u
def State.setPort (s : State) (d : Bool) (f : Port → Port) : State :=
  if d then { s with lnk := { s.lnk with d := f s.lnk.d } } else { s with lnk := { s.lnk with u := f s.lnk.u } }

/-- A port is ACTIVE (R274). -/
def State.portActive (s : State) (d : Bool) : Bool := decide (s.get (LNK_STATE.STATE (px d)) = 5)

/-- Hops to the pithead by a port, 63 by one marked broken (R294, R295). -/
def State.hopsBy (s : State) (d : Bool) : Nat :=
  if d then (if s.on CHN_STATE.BROKEN_D then 63 else s.get CHN_RING.HOPS_D)
  else (if s.on CHN_STATE.BROKEN_U then 63 else s.get CHN_RING.HOPS_U)

/-- What the pithead keeps of a tally. -/
def State.peer (s : State) (t : Nat) : Peer := Tbl.get {} s.chn.peers t
def State.setPeer (s : State) (t : Nat) (f : Peer → Peer) : State :=
  { s with chn := { s.chn with peers := Tbl.set {} s.chn.peers t (f (s.peer t)) } }

/-- The ports a packet of this unit leaves by (R295, R296): a crew unit's traffic for the pithead by the port with fewer hops, U when
equal; the pithead's for a tally by the port with fewer hops, D when equal; a broadcast out of port D of the pithead while the
ring is whole, else out of both ports. -/
def State.portsTo (s : State) (dst : Nat) : List Bool :=
  if dst = 63 then (if s.isPithead && s.on CHN_RING.WHOLE then [true] else [false, true])
  else if s.isPithead then [decide ((s.peer dst).hopsU ≤ (s.peer dst).hopsD)]
  else [decide (s.hopsBy true < s.hopsBy false)]

/-- A packet joins the queue of a port; one due to leave by a port that is not ACTIVE is discarded and counted (R298). -/
def State.sendOn (s : State) (d : Bool) (k : Packet) : State :=
  if s.portActive d then
    { s with chn := { s.chn with queue := Tbl.set [] s.chn.queue (px d) (Tbl.get [] s.chn.queue (px d) ++ [k]) } }
  else s.bump CHN_ERRCNT4.PORT_DROP 1

/-- A packet of this unit is sent. -/
def State.send (s : State) (k : Packet) : State := (s.portsTo k.dst).foldl (fun t d => t.sendOn d k) s

/-- A control packet of this unit with the tags in force; INC is 0 while the tally is 0 (R299). -/
def State.packet (s : State) (dt vc dst : Nat) (payload : List Nat) : Packet :=
  ⟨dt, vc, if s.tally = 0 then 0 else s.inc, s.tally, dst, s.get CAD_SWEEP.SWEEP, s.get CHN_EPOCH.GEAR, s.get CHN_EPOCH.ASSIGN,
    payload⟩

/-- A control packet is built and sent. -/
def State.sendCtl (s : State) (dt vc dst : Nat) (payload : List Nat) : State := s.send (s.packet dt vc dst payload)

/-- Zero bytes that fill a payload. -/
def zeroBytes (n : Nat) : List Nat := List.replicate n 0

/-- A crew unit that is joined (R314). -/
def State.isCrew (s : State) : Bool := decide (2 ≤ s.tally) && decide (s.get CHN_STATE.STATE = 2)

/-- A crew unit that holds its tally, in touch with the pithead or ORPHAN (R314). -/
def State.inCrew (s : State) : Bool := s.isCrew || (decide (2 ≤ s.tally) && decide (s.get CHN_STATE.STATE = 3))

/-- Something is written into the kibble store. -/
def State.usesKibble (s : State) : State := { s with pipe := { s.pipe with blank := false } }

/-! ### Events -/

/-- An event of the unit itself, now. -/
def State.mkEvent (s : State) (code : Nat) (data : List Nat) : Event := ⟨code, data, s.tally, s.inc, s.fwc, none⟩

/-- The number the items lost of a stream are kept under (R427): by ring, for the streams that have one ring only 16 + STREAM. -/
def lostKey (stream n : Nat) : Nat := if 3 ≤ stream then 16 + stream else n

/-- An item of a stream is lost to its ring (R427). -/
def State.loseItem (s : State) (stream n : Nat) : State :=
  let k := lostKey stream n
  { s with hst := { s.hst with drLost := Tbl.set 0 s.hst.drLost k (Tbl.get 0 s.hst.drLost k + 1) } }

/-- An event enters the foreman event queue of 1 024 records; when it is full the newest is dropped and counted, and EVENT_LOST
is raised once until the queue empties (R430). Its own record then takes the place of the newest. -/
def State.enqueueEvent (s : State) (e : Event) : State :=
  if s.events.length < 1024 then { s with events := s.events ++ [e] }
  else
    let t := (s.bump HST_ERRCNT2.EVENT_LOST 1).loseItem 4 0
    if t.hst.eventLost then t
    else { t with hst := { t.hst with eventLost := true }
                  events := t.events.dropLast ++ [t.mkEvent 0x0E0C [t.get HST_ERRCNT2.EVENT_LOST]] }

/-- The payload of an EVENT packet (R303): code, data, freewheel count bits [63:0]. How the data fill bytes 2 to 7 the manual does not
say. -/
def eventBytes (e : Event) : List Nat :=
  leBytes e.code 2 ++ leBytes (e.raw.getD (Config.eventData e.code e.data)) 6 ++ leBytes e.fwc 8

/-- The foreman takes an event: on a crew unit it goes to the pithead on VC5 (R302), elsewhere into the event queue. -/
def State.emit (s : State) (e : Event) : State :=
  if s.inCrew then s.sendCtl 0x18 5 1 (eventBytes e) else s.enqueueEvent e

/-- A block raises an event to the foreman. While SYS is stopped the power controller's, the PLLs' and the I²C target's events
wait in the always-on controller (R460, R536), those of the canary, and of the store and BIST before the firmware runs, in the
canary (R482, R505), up to 16 in each; so they do while the foreman stays in the ROM loader. For the events of other pages the
manual names no waiting queue: they are delivered at once, DESIGN CHOICE (notes/assumptions/47.md). -/
def State.raise (s : State) (code : Nat) (data : List Nat) : State :=
  let e := s.mkEvent code data
  let page := code / 256
  if s.pagesUp && decide (s.pwr.boot = 0) && !s.pwr.rom then s.emit e
  else if page = 0x01 ∨ page = 0x02 ∨ page = 0x11 then
    if s.heldAon.length < 16 then { s with heldAon := s.heldAon ++ [e] } else s
  else if page = 0x03 ∨ page = 0x0F ∨ page = 0x12 then
    if s.heldCanary.length < 16 then { s with heldCanary := s.heldCanary ++ [e] } else s
  else s.emit e

/-- SYS and the firmware run again: the queued events are delivered (R460, R482). In the ROM loader no firmware takes them. -/
def State.deliverHeld (s : State) : State :=
  if s.pwr.rom then s
  else (s.heldAon ++ s.heldCanary).foldl State.emit { s with heldAon := [], heldCanary := [] }

/-! ### Roles and sessions -/

/-- Roles by their number in the manual (R510): 1 operator, 2 installer, 3 maker. -/
def roleNo : Role → Nat
  | .operator => 1
  | .installer => 2
  | .maker => 3

/-- Paths by their number in a shift book entry (R517). -/
def pathNo : Path → Nat
  | .bar0 => 0
  | .i2c => 1
  | .proxy _ => 2
  | .foreman => 3

/-- The number a role on a path is kept under in the roles block. -/
def rolKey (path role : Nat) : Nat := 4 * path + role

/-- A session of a role is open on a path (R12); a role named in ROLES counts as one on the proxy path (R431); the foreman needs
none (R81). -/
def State.holds (s : State) (p : Path) (r : Role) : Bool :=
  match p with
  | .bar0 => (Tbl.get none s.rol.sess (rolKey 0 (roleNo r))).isSome
  | .i2c => (Tbl.get none s.rol.sess (rolKey 1 (roleNo r))).isSome
  | .proxy roles => bit roles (roleNo r - 1)
  | .foreman => true

/-- The path may write a field: no role gates it, or the role's session is open (R10, R12). -/
def State.mayWrite (s : State) (p : Path) (f : Field) : Bool :=
  match f.role with
  | none => true
  | some r => s.holds p r

/-- An accepted write that needed a role restarts its session's idle time (R512). -/
def State.touchSession (s : State) (p : Path) (r : Role) : State :=
  let k := rolKey (pathNo p) (roleNo r)
  if pathNo p ≤ 1 then
    match Tbl.get none s.rol.sess k with
    | none => s
    | some c => { s with rol := { s.rol with sess := Tbl.set none s.rol.sess k (some { c with used := s.fwc }) } }
  else s

/-! ### The shift book -/

/-- Room in the queue of 256 entries (R500). -/
def State.sbRoom (s : State) : Bool := decide (s.nvs.sbQueue.length < 256)

/-- An entry made now (R517), without its number. -/
def State.mkEntry (s : State) (role path cls result target value : Nat) (detail : List Nat) : SbEntry :=
  let t := s.timeNow
  { number := 0, role, path, cls, result, target, value
    sec := timeSec t, ns := timeNs t, frac := timeFrac t
    tstate := s.get TIM_STATUS.STATE
    tally := if path = 2 then 1 else 0
    fwc := s.fwc, detail }

/-- An entry takes the next number and joins the queue (R500, R517). An entry that finds no room is not made. -/
def State.sbQueueEntry (s : State) (e : SbEntry) : State :=
  if s.sbRoom then
    { (s.set ROL_SB_HEAD.NEXT (s.nvs.sbNext + 1)) with
        nvs := { s.nvs with sbQueue := s.nvs.sbQueue ++ [{ e with number := s.nvs.sbNext }]
                            sbNext := (s.nvs.sbNext + 1) % 2 ^ 32 } }
  else s

/-- The open coalescing entry closes and joins the queue (R516). -/
def State.sbClose (s : State) : State :=
  match s.nvs.sbOpen with
  | none => s
  | some (e, _) => ({ s with nvs := { s.nvs with sbOpen := none } }).sbQueueEntry e

/-- An entry of its own: whatever coalesces closes first, so that entries stand in the order of their events (R516). -/
def State.sbEnter (s : State) (role path cls result target value : Nat) (detail : List Nat) : State :=
  (s.sbClose).sbQueueEntry (s.mkEntry role path cls result target value detail)

/-- The DETAIL of a class 1 entry: writes coalesced and last value (R569). -/
def sbCount (n v : Nat) : List Nat := leBytes n 4 ++ leBytes v 4

/-- An accepted write to a role-gated field is entered (R515); it coalesces into the open entry when path, role and offset are
the same and 100 ms have not passed (R516). Foreman writes are not entered (R81). -/
def State.sbWrite (s : State) (p : Path) (r : Role) (off v : Nat) : State :=
  match p with
  | .foreman => s
  | _ =>
    let fresh := s.mkEntry (roleNo r) (pathNo p) 1 0 off v (sbCount 1 v)
    match s.nvs.sbOpen with
    | some (e, t0) =>
      if e.role = roleNo r ∧ e.path = pathNo p ∧ e.target = off ∧ s.fwc < t0 + 100 * msTicks then
        { s with nvs := { s.nvs with
            sbOpen := some ({ e with detail := sbCount (ofLeBytes (e.detail.take 4) + 1) v }, t0) } }
      else { s.sbClose with nvs := { s.sbClose.nvs with sbOpen := some (fresh, s.fwc) } }
    | none => { s with nvs := { s.nvs with sbOpen := some (fresh, s.fwc) } }

/-- A rejection under R11: entered with result REJECTED, counted and raised. -/
def State.sbReject (s : State) (p : Path) (r : Role) (off v : Nat) : State :=
  ((s.sbEnter (roleNo r) (pathNo p) 1 1 off v (sbCount 1 v)).bump ROL_ERRCNT.REJECTED 1).raise 0x1001 [off, pathNo p]

/-! ### Outputs -/

/-- Trip causes of R461 by bit. -/
def trCAD_LS : Nat := 0
def trFOREMAN_LS : Nat := 1
def trFOREMAN_HB : Nat := 2
def trPLL_T : Nat := 3
def trPLL_S : Nat := 4
def trRAIL : Nat := 5
def trMREQ : Nat := 6
def trTEMP : Nat := 7
def trOSC : Nat := 8
def trREQ : Nat := 9
def trTEST : Nat := 10

/-- The causes marked "Yes" under Forces data (R461). -/
def dataCauses : List Nat := [trFOREMAN_LS, trFOREMAN_HB, trPLL_S, trRAIL, trOSC, trTEST]

/-- VMID is good, so the canary can drive the forcing lines itself (R464). -/
def State.vmidGood (s : State) : Bool := s.bitOf PWR_RAIL.GOOD 2

/-- The conditions of R44 are met: they are noted from the first instant both hold. -/
def State.noteR44 (s : State) : State :=
  if s.on SAF_STATUS.FIRST_WRITE && decide (s.get SAF_TRIP.LATCHED = 0) then { s with saf := { s.saf with r44 := true } } else s

/-- A recovery level of L2 or L3 is in progress. -/
def State.deepRecovery (s : State) : Bool := decide (2 ≤ s.get SAF_STATUS.LEVEL)

/-- Screen forcing is asserted (R464, R465, R467, R472, R485). -/
def State.screenForced (s : State) : Bool :=
  !s.saf.r44 || s.pwr.sysrst || !s.vmidGood || s.saf.request ||
    decide (s.power = stHOLD) || decide (s.power = stSAFETALK) ||
    decide (s.get SAF_TRIP.LATCHED ≠ 0) || s.bitOf SAF_TRIP.LIVE trOSC

/-- A cause of data forcing other than SYSRST_N (R464, R467, R469, R472). -/
def State.dataCause (s : State) : Bool :=
  !s.saf.r44 || !s.vmidGood || decide (s.power = stSAFETALK) || dataCauses.any fun i => s.bitOf SAF_TRIP.LIVE i

/-- Data forcing is asserted (R467, R485). -/
def State.dataForced (s : State) : Bool := s.pwr.sysrst || s.dataCause

/-- FAULT_N is asserted: it is released only while every condition of R470 holds. -/
def State.faultN (s : State) : Bool :=
  !(s.saf.r44 && decide (s.get SAF_TRIP.LATCHED = 0) && decide (s.power ≠ stHOLD) && decide (s.power ≠ stSAFETALK) &&
      !s.deepRecovery && !s.pwr.sysrst && s.vmidGood)

/-- The level of an output that screen forcing takes low. -/
def State.screenLand (s : State) (commanded : Bool) : Bool := commanded && !s.screenForced

/-- An LVCMOS or LVDS output at its land: high impedance, `none`, while VDDIO is below 0.3 V (R545). -/
def State.atLand (s : State) (level : Bool) : Option Bool := if bit s.pwr.railLow 0 then none else some level

end Sys2Proof.Machine
end

