-- ==== Sys2Proof/Machine/PortOps.lean ====
section
/-!
DEFINITION. A Cegon port going down and starting to train (R273, R274, R297, R298), and what follows when the canary's forcing of ports
and of the host link begins or ends (R34, R468).
-/
namespace Sys2Proof.Machine

/-- LNK_x_STATE.STATE codes (R274). -/
def ptDISABLED : Nat := 0
def ptDETECT : Nat := 1
def ptLOCK : Nat := 2
def ptCONFIG : Nat := 3
def ptEQ : Nat := 4
def ptACTIVE : Nat := 5
def ptLOOP : Nat := 6

/-- Causes of LINK_DOWN, the model's own numbers (R292 names no codes). -/
def ldEN : Nat := 1
def ldFORCED : Nat := 2
def ldLANES : Nat := 3
def ldRETRAIN : Nat := 4
def ldLOOP : Nat := 5
def ldPLL : Nat := 6

def State.portState (s : State) (d : Bool) : Nat := s.get (LNK_STATE.STATE (px d))

/-- A port may run: EN is 1 and the canary does not force it, which it does until R44 holds (R274, R467). The data forcing of SYSRST_N holds the
lands silent and leaves a trained port trained (R291, R485). -/
def State.portMay (s : State) (d : Bool) : Bool :=
  s.pwr.vaon && s.on (LNK_CTRL.EN (px d)) && !s.dataCause && !s.saf.railFatal && decide (stIDLE ≤ s.power ∧ s.power ≤ stHOLD)

/-- A RING_NOTICE of this unit goes out of the port opposite `d`: port `d` has left ACTIVE or returned to it (R297). -/
def State.ringNotice (s : State) (d : Bool) (active : Bool) : State :=
  s.sendOn (!d) (s.packet 0x12 0 63 ([s.tally, px d + 2 * ofBool active] ++ zeroBytes 6))

/-- The pithead learns that the ring is broken after tally `b` (R297): tallies up to `b` are left with the way by their own port U, those
beyond with the way by their port D. -/
def State.breakAfter (s : State) (b : Nat) : State :=
  let t := (s.set CHN_RING.WHOLE 0).set CHN_RING.BREAK_AFTER b
  t.onChn fun c => { c with peers := c.peers.map fun e =>
    (e.1, if e.1 ≤ b then { e.2 with hopsD := 63 } else { e.2 with hopsU := 63 }) }

/-- The highest tally joined at the pithead. -/
def State.lastTally (s : State) : Nat :=
  ((List.range 63).filter fun t => bit (s.get (CHN_JOINED.MAP 0) + s.get (CHN_JOINED.MAP 1) * 2 ^ 32) t).foldl max 1

/-- A port of this unit has left ACTIVE or returned to it: a crew unit tells the ring, the pithead takes note (R297). -/
def State.portChanged (s : State) (d : Bool) (active : Bool) : State :=
  if s.isPithead then
    let t := s.raise 0x0B0F [1, px d, ofBool active]
    if active then t else t.breakAfter (if d then 1 else s.lastTally)
  else if 2 ≤ s.tally then s.ringNotice d active
  else s

/-- A port's delay is not valid until R385 is met again (R383). -/
def State.dropDelay (s : State) (d : Bool) : State :=
  let t := s.onTim fun t => { t with
    delay := Tbl.set {} t.delay (px d) { (Tbl.get {} t.delay (px d)) with last := [], count := 0, t1 := none, t4 := none } }
  t.set (if d then TIM_STATUS.DLY_OK_D else TIM_STATUS.DLY_OK_U) 0

/-- Packets that wait for a port that has gone down are discarded and counted (R298). -/
def State.dropQueued (s : State) (d : Bool) : State :=
  let n := (Tbl.get [] s.chn.queue (px d)).length + (Tbl.get [] s.chn.passed (px d)).length
  let t := if n = 0 then s else s.bump CHN_ERRCNT4.PORT_DROP n
  t.onChn fun c => { c with queue := Tbl.erase c.queue (px d), passed := Tbl.erase c.passed (px d) }

/-- A port leaves ACTIVE (R274): LINK_DOWN with a cause, and what R297, R298 and R383 say. -/
def State.linkDown (s : State) (d : Bool) (cause next : Nat) : State :=
  let was := s.portActive d
  let t := (s.set (LNK_STATE.STATE (px d)) next).dropDelay d
  if was then (((t.raise 0x0C02 [px d, cause, s.fwc]).dropQueued d).portChanged d false) else t

/-- The keystream seeds of a training are chosen at random (R272): free values, one for each lane. -/
def seedLanes : Nat → State → Tbl Lane → State × Tbl Lane
  | 0, s, l => (s, l)
  | n + 1, s, l =>
    let r := seedLanes n s l
    let f := r.1.free
    (f.2, Tbl.set {} r.2 n { txKey := f.1 % 2 ^ 58 })

/-- What a port keeps when it trains anew or goes idle: that it has trained, and its stored taps (R275). -/
def Port.idle (p : Port) : Port := { everTrained := p.everTrained, tapsPeer := p.tapsPeer, tapsMap := p.tapsMap, taps := p.taps }

/-- Training starts on a port, in DETECT or, after a retrain, in LOCK (R273, R274). -/
def State.startTraining (s : State) (d : Bool) (st : Nat) : State :=
  let x := px d
  let keep := if st = ptLOCK then s.get (LNK_STATE.MAP x) else 0
  let r := seedLanes 8 s []
  let t := (r.1.set (LNK_STATE.STATE x) st).zeros
    [LNK_STATE.TX_SLEEP x, LNK_STATE.PEER_SLEEP x, LNK_STATE.WIDTH x, LNK_STATE.MAP x, LNK_LOCK.BLOCK_LOCK x]
  t.setPort d fun p => { p.idle with
    signal := keep, lanes := r.2, detectAt := some s.fwc, widthMax := s.get (LNK_CTRL.WIDTH_MAX x) }

/-- A port goes down and trains again from DETECT or LOCK. -/
def State.retrain (s : State) (d : Bool) (cause st : Nat) : State := (s.linkDown d cause st).startTraining d st

/-- A loop ends and the port retrains (R274, R290). -/
def State.endLoop (s : State) (d : Bool) : State :=
  if s.portState d = ptLOOP then (s.set (LNK_LOOP.RUN (px d)) 0).startTraining d ptDETECT else s

/-- Resets and entry to HOLD end a loop in progress (R291). -/
def State.endLoops (s : State) : State := (s.endLoop false).endLoop true

/-- A port goes to electrical idle (R274, last row). -/
def State.disablePort (s : State) (d : Bool) (cause : Nat) : State :=
  let x := px d
  let t := (s.linkDown d cause ptDISABLED).zeros
    [LNK_STATE.TX_SLEEP x, LNK_STATE.PEER_SLEEP x, LNK_STATE.WIDTH x, LNK_STATE.MAP x, LNK_LOCK.BLOCK_LOCK x, LNK_LOOP.RUN x]
  t.setPort d Port.idle

/-- A port follows its EN and the canary's forcing (R274). -/
def State.reviewPort (s : State) (d : Bool) : State :=
  if s.portMay d then (if s.portState d = ptDISABLED then s.startTraining d ptDETECT else s)
  else if s.portState d = ptDISABLED then s
  else s.disablePort d (if s.on (LNK_CTRL.EN (px d)) then ldFORCED else ldEN)

/-- The forcing lines have changed: the ports follow, and host reads whose completions were dropped under R468 are issued again. -/
def State.reviewForcing (s : State) : State :=
  let t := (s.reviewPort false).reviewPort true
  if t.dataForced || t.hst.refetch.isEmpty then t
  else t.onHst fun h => { h with reads := h.reads ++ h.refetch, refetch := [] }

/-- A derailleur that is still ARMED is cancelled (R324): CANCEL broadcast, the announced epochs dropped. Causes are those of
CHN_DRL_STATUS.RESULT: 2 refused by a unit, 3 unit dead, 4 pithead recovery. -/
def State.cancelDerail (s : State) (cause tally : Nat) : State :=
  match s.chn.drl with
  | none => s
  | some d =>
    if s.get CHN_DRL_STATUS.STATE = 1 then
      let t := s.sendCtl 0x0D 0 63 ([s.get CHN_DRL_STATUS.NUMBER, 0, 0, 0] ++ leBytes d.k 4)
      let t := (t.set CHN_DRL_STATUS.STATE 0).set CHN_DRL_STATUS.RESULT cause
      (t.onChn fun c => { c with drl := none, armed := none, stopes := none }).raise 0x0B0A [cause, tally]
    else s

end Sys2Proof.Machine
end

