-- ==== Sys2Proof/Machine/Operands.lean ====
section
/-!
DEFINITION. Register accesses as operands: which pages answer on a path, which fields a written word may change, the value
ranges of the register tables, attempts and rejections (R11), the first set-up write (R491), and the plain write of a word.
-/
namespace Sys2Proof.Machine

/-- The register page of an offset (R6). -/
def pageOf (off : Nat) : Nat := off / 4096 % 256

/-- The MSI-X structures, reached only through BAR0 (R407). -/
def isMsix (off : Nat) : Bool := decide (0x0EB00 ≤ off ∧ off ≤ 0x0EB07) || decide (0x0EC00 ≤ off ∧ off ≤ 0x0EFFF)

/-- An offset answers on a path in the present state (R37, R38, R407, R485, R560); BAR0 answers while its link is trained (ch. 12). -/
def State.answers (s : State) (p : Path) (off : Nat) : Bool :=
  let page := pageOf off
  let aon := decide (page = 0x01 ∨ page = 0x11)
  if s.power = 0 then false
  else if s.power = stSTANDBY ∧ s.pwr.startup = 0 then
    aon && decide (p = .i2c)
  else if decide (p = .bar0) && !s.on HST_LINK.DL_UP then false
  else if s.pagesUp then (!isMsix off || decide (p = .bar0))
  else
    match p with
    | .bar0 => aon || decide (page = 0x03 ∨ page = 0x0E)
    | .i2c => aon || decide (page = 0x03)
    | _ => false

/-- Offsets of the ERRCLR registers. -/
def errclrOffsets : List Nat :=
  [0x01018, 0x0204C, 0x03040, 0x0408C, 0x050A8, 0x06034, 0x06410, 0x06884, 0x08040, 0x09018, 0x0A06C, 0x0B074, 0x0C02C, 0x0C42C,
   0x0D080, 0x0E028, 0x0F040, 0x100C8, 0x11014]

/-- Writes that take effect in SAFE-TALK (R490). -/
def safeTalkTakes (off : Nat) : Bool :=
  decide (pageOf off = 0x11) || errclrOffsets.contains off ||
    [0x0F020, 0x0F030, 0x12000, 0x0A008, 0x07008, 0x08044, 0x0D00C, 0x0B04C, 0x04068, 0x01000].contains off

/-- The challenge, session and key registers, held per path and closed to the chain proxy (R508). -/
def isPerPath (off : Nat) : Bool := decide (0x10008 ≤ off ∧ off ≤ 0x10074)

/-- The offset of a register's own copy for a path: the roles block keeps one set for BAR0 and one for I²C (R508). -/
def pathOffset (p : Path) (off : Nat) : Nat :=
  if isPerPath off ∧ p = .i2c then off + 0x100000 else off

/-- Fields whose register map names an effect of the write itself, whatever the value (R11). -/
def effectOffsets : List Nat :=
  [0x0A018, 0x0A01C, 0x0A058, 0x0F018, 0x05064, 0x0B03C, 0x04080, 0x0410C, 0x0412C, 0x0414C, 0x0416C]

/-- A write of word `w` is an attempt on a field its path may not write (R11). -/
def State.isAttempt (s : State) (p : Path) (w : Nat) (f : Field) : Bool :=
  !s.mayWrite p f &&
    match f.acc with
    | .ro => false
    | .rw => effectOffsets.contains f.off || decide (f.of w ≠ s.get f)
    | .rws => effectOffsets.contains f.off || decide (f.of w ≠ s.get f)
    | .w1c => decide (f.of w ≠ 0)
    | .wo => effectOffsets.contains f.off || decide (f.of w ≠ 0)

/-- The fields of a word on which a write is an attempt. -/
def State.attempts (s : State) (p : Path) (off w : Nat) : List Field :=
  (fieldsAt (pathOffset p off)).filter (s.isAttempt p w)

/-- The roles under which a write is accepted on some gated field of the word. -/
def State.rolesUsed (s : State) (p : Path) (off : Nat) : List Role :=
  [Role.operator, Role.installer, Role.maker].filter fun r =>
    (fieldsAt (pathOffset p off)).any (fun f => decide (f.role = some r)) && s.holds p r

/-- The host's first set-up write (R491): a write on any path, the foreman's apart, to a register of pages 0x02 to 0x12 after
start-up has reached IDLE. -/
def State.noteFirstWrite (s : State) (p : Path) (off : Nat) : State :=
  if p ≠ .foreman ∧ 0x02 ≤ pageOf off ∧ pageOf off ≤ 0x12 ∧ stIDLE ≤ s.power ∧ s.power ≤ stHOLD ∧ s.pwr.startup = 0 then
    (s.set SAF_STATUS.FIRST_WRITE 1).noteR44.reviewForcing
  else s

/-- The lowest and highest value a single field takes where its map or rule names a range; a value outside it leaves the field
unchanged. Fields not listed take every value. -/
def rangeTable : List (Field × Nat × Nat) := [
  (EXP_SKIM.THRESH, 0, 8), (CAD_CTRL.LOCK_N, 1, 15), (CAD_FREE_SCAN.PERIOD, 1000000, 134217727), (CAD_FREE_MAINS.PERIOD, 1000000, 134217727),
  (CAD_TRK.KI, 2, 12), (CAD_TRK.KP, 0, 8), (CAD_ACQ.MAINS_TOL, 1, 255), (CAD_ACQ.SCAN_TOL, 4, 65535), (CAD_COAST.COUNT, 1, 255),
  (EXP_INTEG.TOL, 1, 255), (EXP_INTEG.FRAMES, 0, 14), (EXP_VIDEO.GAIN, 1, 3), (EXP_EXPO_PW.PW, 20, 1048575),
  (EXP_MREQ_CTRL.LEAD, 1, 15), (CNV_COEF_SEL.SLICE, 0, 4), (CAL_INT_SLICE.MS, 10, 65535), (CAL_INT_PKT.MS, 10, 65535),
  (CAL_LIMIT.MAX_AGE, 1, 60), (CAL_LIMIT.STRIKES, 1, 15), (CAL_BASE_SEL.KIND, 0, 3), (MON_BUF_CFG.LOG2SIZE, 10, 16), (MON_CTRL.REF, 0, 2),
  (ENG_SEL.ENGINE, 0, 263), (ENG_WD.LIMIT_US, 10, 65535), (ENG_DEADLINE.STRIKES, 1, 15), (ENG_DEADLINE.SWEEPS, 1, 4),
  (ENG_POOL.MIB, 8, 64)] ++ [
  (CHN_CTRL.DEAD_THRESH, 4, 64), (CHN_CTRL.ELECT_MS, 10, 255), (CHN_DRL_CMD.AHEAD, 3, 15), (CHN_INTAKE.EGRESS_MIB, 4, 64),
  (CHN_INTAKE.HWM_MIB, 16, 88), (CHN_WRR.W_BULK, 1, 15), (CHN_WRR.W_SPOT, 1, 15), (CHN_WRR.W_REC, 1, 15),
  (EXP_SPOT_CTRL.FMT, 0, 1), (EXP_SPOT_CTRL.EVERY, 1, 15), (EXP_SPOT_RATE.GBPS, 1, 240), (PIPE_CTRL.FRAME_MS, 10, 255),
  (TIM_SLEW.PPM, 1, 100), (TIM_JUMP.US, 1, 1000000), (TIM_HOLD.HOST_S, 1, 255), (TIM_HOLD.SYNC_LOSS, 2, 255),
  (TIM_SERVO.LOCK_NS, 1, 65535), (TIM_SERVO.KI, 1, 12), (TIM_SERVO.KP, 0, 8), (TIM_SYNC.INTERVAL_MS, 1, 255),
  (TIM_PUB_CTRL.MAINS_FROM, 0, 2), (TIM_PUB_CTRL.SCAN_FROM, 0, 2), (HST_GRACE.MS, 1, 65535), (HST_PROXY.MS, 1, 255),
  (SAF_HB.US, 10, 1000), (SAF_L1_DEFER.MS, 10, 1000), (ROL_CFG.IDLE_S, 10, 65535)]

/-- The range of a field of an indexed register. -/
def indexedRange (f : Field) : Option (Nat × Nat) :=
  let o := f.off
  if 0x09040 ≤ o ∧ o ≤ 0x0907C then (if f.lo = 16 then some (6, 1023) else none)
  else if o = 0x0601C then (if f.lo % 8 = 0 then some (0, 7) else none)
  else if o = 0x0C000 ∨ o = 0x0C400 then (if f.lo = 20 then some (1, 8) else if f.lo = 0 then some (1, 65535) else none)
  else if o = 0x0C008 ∨ o = 0x0C408 then (if f.lo = 24 then some (1, 255) else if f.lo = 0 then some (2, 255) else none)
  else if 0x0E100 ≤ o ∧ o < 0x0E600 ∧ o % 16 = 8 then
    (if f.lo = 0 then some (6, 16)
     else if 0x0E500 ≤ o ∧ f.lo = 20 then some (0, 12) else if 0x0E500 ≤ o ∧ f.lo = 16 then some (0, 4) else none)
  else if (o = 0x02000 ∨ o = 0x02010 ∨ o = 0x02020) ∧ f.lo = 16 then some (0, 2)
  else if (o = 0x02040 ∨ o = 0x02044) ∧ f.lo = 24 then some (0, 2)
  else none

/-- The range of a field, if its map names one. -/
def fieldRange (f : Field) : Option (Nat × Nat) :=
  match rangeTable.find? fun e => decide (e.1 = f) with
  | some e => some e.2
  | none => indexedRange f

/-- Writes a field ignores in the present state, and values tied to another field of its register. -/
def State.blocked (s : State) (f : Field) (v : Nat) (w : Nat) : Bool :=
  let o := f.off
  -- the fields of a pulse output while its EN is 1 (R395)
  if 0x04100 ≤ o ∧ o < 0x04180 then s.on (TIM_TP_CFG.EN ((o - 0x04100) / 0x20)) && decide (f ≠ TIM_TP_CFG.EN ((o - 0x04100) / 0x20))
  -- a clock output while its EN is 1 (R447)
  else if o = 0x02040 ∨ o = 0x02044 then s.on (PLL_CLKOUT.EN ((o - 0x02040) / 4)) && decide (f.lo ≠ 31)
  -- a ring while its EN is 1 (R413)
  else if 0x0E100 ≤ o ∧ o < 0x0E600 then
    let cfg := o - o % 16 + 8
    decide (f.lo < 30 ∧ o % 16 ≤ 8) && decide (Tbl.get 0 s.regs (cfg * 32 + 31) = 1)
  -- the held-output pool (ENG_POOL) in CAPTURE or HOLD
  else if f = ENG_POOL.MIB then decide (s.power = stCAPTURE ∨ s.power = stHOLD)
  -- a delay of 1 to 15 ticks (R115)
  else if 0x05038 ≤ o ∧ o ≤ 0x05044 then decide (1 ≤ v ∧ v ≤ 15)
  -- a binning code that is reserved or not allowed (R77, R79)
  else if 0x06830 ≤ o ∧ o ≤ 0x0686C then decide (v = 3 ∨ (v = 1 ∧ !s.on EXP_BIN_ALLOW.ALLOW1) ∨ (v = 2 ∧ !s.on EXP_BIN_ALLOW.ALLOW2))
  -- the monitor buffer base must be aligned to its size (R178)
  else if f = MON_BUF_CFG.BASE then
    let lg := if 10 ≤ MON_BUF_CFG.LOG2SIZE.of w ∧ MON_BUF_CFG.LOG2SIZE.of w ≤ 16 then MON_BUF_CFG.LOG2SIZE.of w
      else s.get MON_BUF_CFG.LOG2SIZE
    decide (v % 2 ^ lg ≠ 0)
  -- the image area while an image is open (NVS_IMG_SEL)
  else if f = NVS_IMG_SEL.AREA then s.nvs.img.isSome
  else false

/-- The value a field stores of a value written: addresses whose low bits are fixed at 0. -/
def storedValue (f : Field) (v : Nat) : Nat :=
  if f = ENG_MEM_ADDR.ADDR ∨ f = NVS_IMG_ADDR.ADDR then v - v % 4 else v

/-- One field takes its part of a written word by its access code (R9), its range and the state. -/
def State.writeField (s : State) (f : Field) (w : Nat) : State :=
  let v := f.of w
  match f.acc with
  | .ro => s
  | .wo => s
  | .w1c => s.set f (s.get f - (s.get f &&& v))
  | .rw =>
    if s.blocked f v w then s
    else match fieldRange f with
      | some (lo, hi) => if lo ≤ v ∧ v ≤ hi then s.set f (storedValue f v) else s
      | none => s.set f (storedValue f v)
  | .rws =>
    match fieldRange f with
    | some (lo, hi) => if lo ≤ v ∧ v ≤ hi then s.set f v else s
    | none => s.set f v

/-- The fields of a register a path may write take their parts of the word. -/
def State.writeFields (s : State) (p : Path) (off w : Nat) : State :=
  ((fieldsAt (pathOffset p off)).filter (s.mayWrite p)).foldl (fun t f => t.writeField f w) s

/-- Each attempt on a field of the word is entered, counted and raised, from the lowest field up (R11). -/
def State.logAttempts (s : State) (p : Path) (off w : Nat) : State :=
  (s.attempts p off w).foldl (fun t f => t.sbReject p (f.role.getD .operator) off w) s

/-- A write that no role-gated field needs a session for, or whose session is open, does what `effect` says; attempts are
logged; the write counts as the first set-up write and in the shift book (R11, R491, R515). A gated write that finds the shift
book queue full is not carried out (R500). -/
def State.regWrite (s : State) (p : Path) (off w : Nat) (effect : State → State) : State :=
  if !s.answers p off || (fieldsAt off).isEmpty then s
  else if isPerPath off && decide (pathNo p ≥ 2) then s
  else if s.power = stSAFETALK && !safeTalkTakes off && decide (p ≠ .foreman) then s.logAttempts p off w
  else
    let s1 := s.logAttempts p off w
    let used := if p = .foreman then [] else s.rolesUsed p off
    if !used.isEmpty && !s1.sbRoom then s1.bump NVS_ERRCNT1.SB_REFUSED 1
    else
      let s2 := used.foldl (fun t r => (t.sbWrite p r off w).touchSession p r) s1
      let taken := (fieldsAt (pathOffset p off)).any fun f => decide (f.acc ≠ .ro) && s.mayWrite p f
      effect (s2.when taken fun t => t.noteFirstWrite p off)

/-- The plain write of a word: every writable field takes its part. -/
def State.plainWrite (s : State) (p : Path) (off w : Nat) : State := s.regWrite p off w fun t => t.writeFields p off w

end Sys2Proof.Machine
end

