-- ==== Sys2Proof/Machine/ConvertOps.lean ====
section
/-!
DEFINITION. Converter coefficients, ages and the calibration scheduler as shared operations (ch. 05). Kinds: 1 SLICE, 2 PKT_A, 3 PKT_B.
-/
namespace Sys2Proof.Machine

/-! ### Values in force -/

/-- The number of a slice's coefficient: kind 1 OFS, 2 GAIN, 3 SKEW. -/
def coefKey (kind bank slice gain : Nat) : Nat := kind * 2 ^ 20 + bank * 16 + slice * 2 + (if kind = 3 then 0 else gain)
/-- The number of a Q_P. -/
def qpKey (tap group : Nat) : Nat := tap * 1024 + group

/-- The number of a ramp level's trim (R158): side of the die, gain (0 HCG, 1 LCG), level. -/
def rampKey (side gain i : Nat) : Nat := 4 * 2 ^ 20 + side * 32 + gain * 16 + i

/-- A ramp level in e⁻/500 as R158 spaces them: 16 levels evenly from 2 % to 98 % of the gain's residue range (R153). -/
def rampNominal (gain i : Nat) : Nat := (if gain = 0 then 2243 else 20395) * (10 + 32 * i)

/-- The nominal value of a calibration number: Q_P 16 384 e⁻, OFS 16 DN, GAIN 1, SKEW 0, a ramp level its place in the range. -/
def coefNominal (k : Nat) : Nat :=
  if k < 2 ^ 20 then 0x400000 else if k < 2 * 2 ^ 20 then 0x100 else if k < 3 * 2 ^ 20 then 0x10000
  else if k < 4 * 2 ^ 20 then 0 else rampNominal (k / 16 % 2) (k % 16)

def State.coef (s : State) (k : Nat) : Nat := Tbl.get (coefNominal k) s.cnv.coef k
def State.baseCoef (s : State) (k : Nat) : Nat := Tbl.get (coefNominal k) s.cnv.base k
def State.setCoef (s : State) (k v : Nat) : State := s.onCnv fun c => { c with coef := Tbl.set (coefNominal k) c.coef k v }
def State.setWork (s : State) (k v : Nat) : State := s.onCnv fun c => { c with work := Tbl.set (coefNominal k) c.work k v }

/-- The 2048 banks (R149): top bank of group g is g, bottom bank 1024 + g. -/
def State.bank (s : State) (b : Nat) : Bank := Tbl.get {} s.cnv.banks b
def State.setBank (s : State) (b : Nat) (f : Bank → Bank) : State :=
  s.onCnv fun c => { c with banks := Tbl.set {} c.banks b (f (Tbl.get {} c.banks b)) }

/-- Coefficients and Q_P are loaded from the calibration set in force; their ages count from the load (R170). -/
def State.loadCoefs (s : State) (content : Tbl Nat) : State :=
  (s.onCnv fun c => { c with coef := content, base := content, work := content, accepted := [], stamp := [], loadAt := s.fwc, banks := [], step := none
                             recal := false, mark := none, ran := [], last := [], owed := [], wasAged := false }).onArr fun a => { a with qpNext := [] }

/-! ### Ages (R166) -/

/-- Count of the last acceptance of a slice's coefficients or of a Q_P. -/
def State.stampOf (s : State) (k : Nat) : Nat :=
  match Tbl.get 0 s.cnv.stamp k with
  | 0 => s.cnv.loadAt
  | n + 1 => n
def sliceStamp (bank slice : Nat) : Nat := 4096 + bank * 8 + slice
def State.setStamp (s : State) (k : Nat) : State := s.onCnv fun c => { c with stamp := Tbl.set 0 c.stamp k (s.fwc + 1) }

/-- Older than CAL_LIMIT.MAX_AGE. -/
def State.tooOld (s : State) (k : Nat) : Bool := decide (s.stampOf k + s.get CAL_LIMIT.MAX_AGE * secTicks < s.fwc)

/-- A stope has a bank with an aged active slice; a Q_P of a tap aged. -/
def State.agedSlices (s : State) (x : Nat) : Bool :=
  (List.range 64).any fun i =>
    let b := (if x < 128 then 0 else 1024) + 64 * (x % 16) + i
    (s.bank b).active.any fun sl => s.tooOld (sliceStamp b sl)
def State.agedQp (s : State) (tap x : Nat) : Bool := (List.range 64).any fun i => s.tooOld (qpKey tap (64 * (x % 16) + i))

/-- Coefficients or Q_P of a stope are older than MAX_AGE (R166). -/
def State.agedBanks (s : State) (x : Nat) : Bool := s.agedSlices x || s.agedQp 0 x || s.agedQp 1 x

/-- A stope is aged, or the unit captures before the initial steps are done (R166, R167). -/
def State.stopeAged (s : State) (x : Nat) : Bool := !s.on CAL_STATUS.INIT_DONE || s.agedBanks x

/-- CAL_STATUS.AGED as it stands: a kind ages some stope. -/
def State.agedKinds (s : State) : Nat :=
  ofBool ((List.range 256).any s.agedSlices) + 2 * ofBool ((List.range 16).any (s.agedQp 0)) + 4 * ofBool ((List.range 16).any (s.agedQp 1))

/-- Age in ms of the oldest active coefficients of a bank. -/
def State.oldestAge (s : State) (b : Nat) : Nat :=
  min 65535 ((s.bank b).active.foldl (fun n sl => max n ((s.fwc - s.stampOf (sliceStamp b sl)) / msTicks)) 0)

/-! ### The scheduler (R163 to R165) -/

def stepTicks (kind : Nat) : Nat := if kind = 1 then 192000 else 160000
def State.interval (s : State) (kind : Nat) : Nat := (if kind = 1 then s.get CAL_INT_SLICE.MS else s.get CAL_INT_PKT.MS) * msTicks
def State.lastStep (s : State) (kind : Nat) : Nat :=
  match Tbl.get 0 s.cnv.last kind with
  | 0 => s.cnv.loadAt
  | n + 1 => n
def State.kindAge (s : State) (kind : Nat) : Nat := s.fwc - s.lastStep kind

/-- A kind is due: its age has reached its interval, or entry to READY made it due (R163, R167). -/
def State.isDue (s : State) (kind : Nat) : Bool :=
  (decide (s.interval kind ≤ s.kindAge kind) || decide (0 < Tbl.get 0 s.cnv.owed kind)) && (decide (kind ≠ 1) || s.on CNV_CTRL.BG_CAL_EN)

/-- The kind chosen: the highest ratio of age to interval, ties in the order PKT_A, PKT_B, SLICE. -/
def State.choose (s : State) (left : Nat) : Option Nat :=
  let fit := [2, 3, 1].filter fun k => s.isDue k && !s.cnv.ran.contains k && decide (stepTicks k ≤ left)
  fit.foldl (fun best k =>
    match best with
    | none => some k
    | some j => if s.kindAge j * s.interval k < s.kindAge k * s.interval j then some k else some j) none

/-- A step starts. -/
def State.startStep (s : State) (kind left : Nat) : State :=
  (((s.set CAL_STATUS.RUN kind).set (CAL_LAST_LO.FWC_LO (kind - 1)) s.fwc).set (CAL_LAST_HI.FWC_HI (kind - 1)) (s.fwc / 2 ^ 32)).onCnv fun c => { c with
    step := some (kind, s.fwc), mark := some (left - stepTicks kind), ran := kind :: c.ran, last := Tbl.set 0 c.last kind (s.fwc + 1) }

/-- Kinds due for which no step started in the mark that ends are deferred (R165). -/
def State.countDeferred (s : State) : State :=
  [(1, CAL_DEFER.SLICE), (2, CAL_DEFER.PKTA), (3, CAL_DEFER.PKTB)].foldl
    (fun t e => if t.isDue e.1 && !t.cnv.ran.contains e.1 then t.bump e.2 1 else t) s

/-- The scheduler chooses the next step of the mark in progress, or has done with the mark (R164). -/
def State.schedule (s : State) : State :=
  match s.cnv.mark with
  | none => s
  | some left =>
    if s.cnv.step.isSome || s.cnv.recal then s
    else
      match s.choose left with
      | some k => s.startStep k left
      | none => (s.countDeferred).onCnv fun c => { c with mark := none, ran := [] }

/-- The gap mark in progress ends early: a step under way goes on (R118). -/
def State.endMark (s : State) : State :=
  match s.cnv.mark with
  | none => s
  | some _ => (s.countDeferred).onCnv fun c => { c with mark := none, ran := [] }

/-- Entry to READY: every kind is due, SLICE for five steps (R167). -/
def State.calReady (s : State) : State :=
  (s.set CAL_STATUS.INIT_DONE 0).onCnv fun c => { c with owed := [(1, 5), (2, 1), (3, 1)] }

/-- A step of a kind has run; the initial steps may be done (R167). -/
def State.stepRan (s : State) (kind : Nat) (refused : Bool) : State :=
  let t := (s.bump (CAL_CNT.RUN_CNT (kind - 1)) 1).when refused fun t => t.bump (CAL_CNT.REFUSED_CNT (kind - 1)) 1
  let t := (t.set CAL_STATUS.RUN 0).onCnv fun c => { c with step := none, owed := Tbl.set 0 c.owed kind (Tbl.get 0 c.owed kind - 1) }
  if t.on CAL_STATUS.INIT_DONE || !t.cnv.owed.isEmpty || s.cnv.owed.isEmpty then t
  else (t.set CAL_STATUS.INIT_DONE 1).raise 0x0801 [t.get CAD_SWEEP.SWEEP]

end Sys2Proof.Machine
end

