-- ==== Sys2Proof/Machine/EngineMem.lean ====
section
/-!
DEFINITION. The stope engines' memories, local registers and mailboxes, and the crossbar map, as shared operations (ch. 06).
-/
namespace Sys2Proof.Machine

/-! ### Bytes -/

/-- The canonical form of a memory: addresses rise strictly, and no listed byte is the 0 an unlisted one reads as. -/
def memWf (m : List Host.Cell) : Bool := Tbl.wf (0 : Byte) m

/-- A byte of a memory; unlisted bytes read 0. -/
def memByte (m : List Host.Cell) (a : Nat) : Nat := (Tbl.get (0 : Byte) m a).toNat

/-- `n` bytes from an address. -/
def memBytes (m : List Host.Cell) (a : Nat) : Nat → List Nat
  | 0 => []
  | n + 1 => memByte m a :: memBytes m (a + 1) n

/-- Bytes written from an address up. -/
def memWrite (m : List Host.Cell) (a : Nat) : List Nat → List Host.Cell
  | [] => m
  | b :: bs => memWrite (Tbl.set (0 : Byte) m a (BitVec.ofNat 8 b)) (a + 1) bs

/-- Bytes of a range set to 0. -/
def memClear (m : List Host.Cell) (a n : Nat) : List Host.Cell := m.filter fun c => decide (c.1 < a ∨ a + n ≤ c.1)

/-! ### Engines -/

/-- Engine e's record, and its update. -/
def State.engine (s : State) (e : Nat) : Eng := Tbl.get {} s.eng.engs e
def State.setEngine (s : State) (e : Nat) (f : Eng → Eng) : State :=
  s.onEng fun g => { g with engs := Tbl.set {} g.engs e (f (Tbl.get {} g.engs e)) }

/-- Base addresses of R189. -/
def dsram : Nat := 0x10000000
def inboxBase : Nat := 0x20000800
def outboxBase : Nat := 0x20000C00
def windowBase : Nat := 0x20010000

/-- The field of ENG_MAP that names the engine serving a stope (R185). -/
def mapField (stope : Nat) : Field := if stope % 2 = 0 then ENG_MAP.ENG_EVEN (stope / 2) else ENG_MAP.ENG_ODD (stope / 2)

/-- The engine serving a stope, none where the field reads 0x1FF. -/
def State.engineOf (s : State) (stope : Nat) : Option Nat :=
  if s.get (mapField stope) = 0x1FF then none else some (s.get (mapField stope))

/-- The stope an engine serves. -/
def State.stopeOf (s : State) (e : Nat) : Option Nat := (List.range 256).find? fun x => decide (s.engineOf x = some e)

/-- Quadrant of an engine (R184). -/
def quadrantOf (e : Nat) : Nat := if e < 256 then e / 64 else (e - 256) / 2

/-- Local registers by offset; LCL_IN_CFG resets to 2 slots as a power of two. -/
def Eng.l (g : Eng) (off : Nat) : Nat := Tbl.get (if off = 0x04 then 2 else 0) g.lcl off
def Eng.setL (g : Eng) (off v : Nat) : Eng := { g with lcl := Tbl.set (if off = 0x04 then 2 else 0) g.lcl off v }

/-- Offsets of the local registers used here. -/
def lclInBase : Nat := 0x00
def lclInCfg : Nat := 0x04
def lclInTag : Nat := 0x08
def lclInWr : Nat := 0x0C
def lclInRd : Nat := 0x10
def lclInLost : Nat := 0x14
def lclOutSweep : Nat := 0x18
def lclPushStatus : Nat := 0x20
def lclInboxWr : Nat := 0x28
def lclInboxRd : Nat := 0x2C
def lclOutboxWr : Nat := 0x30
def lclOutboxRd : Nat := 0x34
def lclWake : Nat := 0x38
def lclTimer : Nat := 0x3C
def lclHwinBase : Nat := 0x58
def lclHwinSize : Nat := 0x5C

/-- The scalar register file: s0 reads 0 (R186). -/
def Eng.sreg (g : Eng) (r : Nat) : Nat := if r = 0 then 0 else Tbl.get 0 g.s r
def Eng.setS (g : Eng) (r v : Nat) : Eng := if r = 0 ∨ 32 ≤ r then g else { g with s := Tbl.set 0 g.s r (v % 2 ^ 32) }

/-- The input ring: slots, slot size and where a slot and its tag stand (R193, R196). -/
def Eng.slots (g : Eng) : Nat := 2 ^ bits (g.l lclInCfg) 0 4
def Eng.slotAddr (g : Eng) (i : Nat) : Nat := dsram + bits (g.l lclInBase) 12 10 * 4096 + 4096 * (i % g.slots)
def Eng.tagAddr (g : Eng) (i : Nat) : Nat := dsram + bits (g.l lclInTag) 4 18 * 16 + 16 * (i % g.slots)

/-- Slots claimed or published and not released (R202). -/
def Eng.held (g : Eng) : Nat := (g.l lclInWr + 65536 - g.l lclInRd) % 65536 + g.claimed.length

/-- An engine in WAIT resumes when the source is selected (R188): 0 input item, 1 inbox, 2 timer. The watchdog has not counted since (R218). -/
def Eng.wake (g : Eng) (src fwc : Nat) : Eng :=
  if g.waiting ∧ bit (g.l lclWake) src then { g with waiting := false, pet := g.pet + (fwc - g.waitAt) } else g

/-- Execution begins at address 0 with every register at 0 (R215). -/
def Eng.start (g : Eng) (cause fwc : Nat) : Eng :=
  { g with st := 1, pc := 0, cause := cause, ran := false, waiting := false, s := [], v := [], a := [], loops := [], startAt := fwc, pet := fwc }

/-! ### Mailbox (R211, R212) -/

/-- A message of 64 bytes. -/
def message (type : Nat) (payload : List Nat) (sweep : Nat) : List Nat :=
  leBytes type 2 ++ leBytes payload.length 2 ++ leBytes sweep 4 ++ (payload ++ zeroBytes 56).take 56

/-- The inbox has a free slot: with 4-bit indices one slot of the 16 stays empty. -/
def Eng.inboxFree (g : Eng) : Bool := decide ((g.l lclInboxWr + 1) % 16 ≠ g.l lclInboxRd)

/-- Held messages go into the inbox, oldest first, as many as find a free slot (R211). -/
def Eng.flushAll (fwc : Nat) : Nat → Eng → Eng
  | 0, g => g
  | n + 1, g =>
    match g.inbox with
    | [] => g
    | m :: rest =>
      if g.inboxFree then
        Eng.flushAll fwc n ((({ g with inbox := rest, mem := memWrite g.mem (inboxBase + 64 * g.l lclInboxWr) m }).setL lclInboxWr
          ((g.l lclInboxWr + 1) % 16)).wake 1 fwc)
      else g

/-- The foreman puts a message into the inbox, or holds it while the inbox is full; any type is carried unchanged (R211, R212). -/
def Eng.post (g : Eng) (m : List Nat) (fwc : Nat) : Eng := Eng.flushAll fwc 16 { g with inbox := g.inbox ++ [m] }

/-- A foreman message to the engine of a stope; while the stope is being remapped the foreman holds it for the target (R211, R220). -/
def State.toStope (s : State) (stope : Nat) (m : List Nat) : State :=
  match s.engineOf stope with
  | some e =>
    let held := s.eng.remap.any fun r => decide (r.stope = stope)
    s.setEngine e fun g => if held then { g with inbox := g.inbox ++ [m] } else g.post m s.fwc
  | none => s

/-- KEY_REFRESH for a stope: the sweep named is the first whose OPEN item is published after the message (R212). -/
def State.keyRefresh (s : State) (stope : Nat) : State :=
  s.toStope stope (message 0x0001 [] ((s.get CAD_SWEEP.SWEEP + max 1 (Tbl.get CAD_CTRL.LOCK_N.reset s.cad.force CAD_CTRL.LOCK_N.key)) % 2 ^ 32))

/-! ### Counts of page 0x0A kept as the engines change -/

/-- The quadrant of an engine runs (R226). -/
def State.quadrantRuns (s : State) (e : Nat) : Bool := s.bitOf ENG_STATUS.QRUN (quadrantOf e)

/-- An engine that serves no stope and is not RETIRED (R185). -/
def State.freeEngine (s : State) (e : Nat) : Bool := decide ((s.engine e).st ≠ 3) && decide (s.stopeOf e = none)

/-- The stopes that some engine serves, once. -/
def State.servedBy (s : State) : List Nat := (List.range 256).filterMap s.engineOf

/-- ENG_STATUS.UNSERVED and FREE (R185, R222). Stopes count as unserved once a quadrant has been enabled. -/
def State.reviewEngines (s : State) : State :=
  let served := s.servedBy
  let free := ((List.range 264).filter fun e =>
    s.quadrantRuns e && decide ((s.engine e).st ≠ 3) && !served.contains e).length
  let un := ((List.range 256).filter fun x => bit (Tbl.get 0xFFFFFFFF s.cad.force (EXP_STOPE_EN.EN (x / 32)).key) (x % 32) &&
    (match s.engineOf x with
      | some e => decide ((s.engine e).st ≠ 1)
      | none => true)).length
  (s.set ENG_STATUS.UNSERVED (if s.eng.inited = 0 then 0 else min 255 un)).set ENG_STATUS.FREE free

end Sys2Proof.Machine
end

