-- ==== Sys2Proof/Machine/HostOps.lean ====
section
/-!
DEFINITION. The rings of the host interface (ch. 12) as shared operations: requests to host memory, interrupt vectors, ring halts,
data ring buffers, completions, and the condition REQ_OK.
-/
namespace Sys2Proof.Machine

/-- The function may issue requests: link up, Bus Master Enable set, in D0, not forced by the canary (R434, R411,
R467). -/
def State.canIssue (s : State) : Bool := s.on HST_LINK.DL_UP && s.on HST_STATUS.BME && !s.on HST_STATUS.D3HOT && !s.dataForced

/-- The function may issue one more read: at most 256 are outstanding (R403). -/
def State.canRead (s : State) : Bool := s.canIssue && decide (s.hst.reads.length < 256)

/-- A Memory Write to host memory. -/
def State.hostWrite (s : State) (addr : Nat) (bytes : List Nat) : State :=
  s.when s.canIssue fun t => { t with hst := { t.hst with writes := t.hst.writes ++ [⟨addr, bytes⟩] } }

/-- A word of the MSI-X table; a vector's control word resets to masked (R407). -/
def State.msixWord (s : State) (off : Nat) : Nat := Tbl.get (if off % 16 = 12 then 1 else 0) s.hst.msix off

/-- A vector fires: a masked one sets its pending bit, an unmasked one is sent as a Memory Write (R409). -/
def State.vector (s : State) (v : Nat) : State :=
  let e := 0x0EC00 + 16 * v
  if bit (s.msixWord (e + 12)) 0 then { s with hst := { s.hst with msixPending := setBit s.hst.msixPending v true } }
  else
    let t := s.hostWrite (s.msixWord e + s.msixWord (e + 4) * 2 ^ 32) (leBytes (s.msixWord (e + 8)) 4)
    t.when s.canIssue fun t => { t with hst := { t.hst with sent := t.hst.sent ++ [v] } }

/-! ### Rings. Kind 0 SQ, 1 CQ, 2 DR. -/

/-- The offset of ring n's BASE_LO by kind. -/
def ringOff (k n : Nat) : Nat := (if k = 0 then 0x0E100 else if k = 1 then 0x0E300 else 0x0E500) + 16 * n

def ringEn (k n : Nat) : Field := if k = 0 then HST_SQ_CFG.EN n else if k = 1 then HST_CQ_CFG.EN n else HST_DR_CFG.EN n
def ringHalted (k n : Nat) : Field :=
  if k = 0 then HST_SQ_STATUS.HALTED n else if k = 1 then HST_CQ_STATUS.HALTED n else HST_DR_STATUS.HALTED n
def ringCause (k n : Nat) : Field :=
  if k = 0 then HST_SQ_STATUS.CAUSE n else if k = 1 then HST_CQ_STATUS.CAUSE n else HST_DR_STATUS.CAUSE n
def ringIndex (k n : Nat) : Field :=
  if k = 0 then HST_SQ_STATUS.INDEX n else if k = 1 then HST_CQ_STATUS.INDEX n else HST_DR_STATUS.INDEX n
def ringPhase (k n : Nat) : Field :=
  if k = 0 then HST_SQ_STATUS.PHASE n else if k = 1 then HST_CQ_STATUS.PHASE n else HST_DR_STATUS.PHASE n
def ringDb (k n : Nat) : Field := if k = 0 then HST_SQ_DB.INDEX n else if k = 1 then HST_CQ_DB.INDEX n else HST_DR_DB.INDEX n
def ringLog (k n : Nat) : Field :=
  if k = 0 then HST_SQ_CFG.LOG2SIZE n else if k = 1 then HST_CQ_CFG.LOG2SIZE n else HST_DR_CFG.LOG2SIZE n
def ringLo (k n : Nat) : Field :=
  if k = 0 then HST_SQ_BASE_LO.BASE_LO n else if k = 1 then HST_CQ_BASE_LO.BASE_LO n else HST_DR_BASE_LO.BASE_LO n
def ringHi (k n : Nat) : Field :=
  if k = 0 then HST_SQ_BASE_HI.BASE_HI n else if k = 1 then HST_CQ_BASE_HI.BASE_HI n else HST_DR_BASE_HI.BASE_HI n

def State.ringSize (s : State) (k n : Nat) : Nat := 2 ^ s.get (ringLog k n)
/-- The host address of entry i of a ring: its base as committed (R16). -/
def State.ringAddr (s : State) (k n i : Nat) : Nat := Tbl.get 0 s.hst.base (64 * k + n) + 64 * i

/-- A ring runs: enabled, not halted, on tally 1. -/
def State.ringRuns (s : State) (k n : Nat) : Bool := s.on (ringEn k n) && !s.on (ringHalted k n) && s.isPithead

/-- Entries from the consumer index up to the producer index (R414). -/
def State.ringFill (s : State) (k n : Nat) : Nat :=
  let z := s.ringSize k n
  if k = 1 then (s.get (ringIndex k n) + z - s.get (ringDb k n)) % z else (s.get (ringDb k n) + z - s.get (ringIndex k n)) % z

/-- The vector a ring names; submission rings name none. -/
def State.ringVector (s : State) (k n : Nat) : Option Nat :=
  if k = 1 then some (s.get (HST_CQ_CFG.VECTOR n)) else if k = 2 then some (s.get (HST_DR_CFG.VECTOR n)) else none

/-- One ring halts with a cause: RING_HALTED, and its vector fires (R409, R438). Off tally 1 a ring has no effect (R36). -/
def State.haltRing (s : State) (k n cause : Nat) : State :=
  if s.on (ringHalted k n) || !s.isPithead then s
  else
    let t := ((s.set (ringHalted k n) 1).set (ringCause k n) cause).raise 0x0E01 [k, n, cause, s.get (ringIndex k n)]
    match t.ringVector k n with
    | some v => t.vector v
    | none => t

/-- A ring halts; a halted completion ring halts every submission ring bound to it with CAUSE 6 (R419). -/
def State.halt (s : State) (k n cause : Nat) : State :=
  let t := s.haltRing k n cause
  if k = 1 then
    (List.range 32).foldl (fun u m => if u.on (HST_SQ_CFG.EN m) ∧ u.get (HST_SQ_CFG.CQ m) = n then u.haltRing 0 m 6 else u) t
  else t

/-- The consumer or producer index of a ring the unit moves: one on, the phase of a CQ or DR toggling at the wrap (R417). -/
def State.stepIndex (s : State) (k n : Nat) : State :=
  let i := (s.get (ringIndex k n) + 1) % s.ringSize k n
  let t := s.set (ringIndex k n) i
  if i = 0 ∧ k ≠ 0 then t.set (ringPhase k n) (1 - s.get (ringPhase k n)) else t

/-! ### Data rings (R427 to R430) -/

/-- The rings that carry a stream (R428). -/
def State.ringsOf (s : State) (stream : Nat) : List Nat :=
  (List.range 16).filter fun n => s.on (HST_DR_CFG.EN n) && decide (s.get (HST_DR_CFG.STREAM n) = stream)

/-- The data ring an item goes to: a ledger block by its tally, a pipeline block by its named ring, monitor and event records to
the lowest-numbered ring of the stream. -/
def State.ringFor (s : State) (it : Item) : Option Nat :=
  let rs := s.ringsOf it.stream
  if it.stream = 1 then rs[it.ring % rs.length]?
  else if it.stream = 2 then rs.find? fun n => decide (n = it.ring)
  else rs.head?

/-- A descriptor of a posted buffer is read ahead when none is at hand (R421). -/
def State.fetchBuffer (s : State) (n : Nat) : State :=
  let ready := (Tbl.get [] s.hst.drReady n).length
  let opened := if (Tbl.get none s.hst.dr n).isSome then 1 else 0
  let asked := (s.hst.reads.filter fun r => decide (r.kind = 1 ∧ r.ring = n)).length
  if s.ringRuns 2 n && s.canRead && decide (ready = 0 ∧ asked = 0 ∧ opened < s.ringFill 2 n) then
    let i := (s.get (HST_DR_STATUS.INDEX n) + opened) % s.ringSize 2 n
    { s with hst := { s.hst with reads := s.hst.reads ++ [⟨1, n, i, s.ringAddr 2 n i, 64⟩] } }
  else s

/-- A buffer closes: descriptor write-back, HEAD moves on, the vector fires (R421, R427, R429). -/
def State.closeBuffer (s : State) (n : Nat) (flushed : Bool) : State :=
  match Tbl.get none s.hst.dr n with
  | none => s
  | some b =>
    let key := lostKey (s.get (HST_DR_CFG.STREAM n)) n
    let back := leBytes b.used 4 ++ leBytes b.count 4 ++ leBytes b.first 4 ++ leBytes b.last 4 ++ leBytes s.fwc 8 ++
      leBytes (Tbl.get 0 s.hst.drLost key) 4 ++ leBytes (s.get (HST_DR_CFG.STREAM n) + 256 * ofBool flushed) 4 ++ zeroBytes 15 ++
      [s.get (HST_DR_STATUS.PHASE n)]
    let t := s.hostWrite (s.ringAddr 2 n (s.get (HST_DR_STATUS.INDEX n)) + 16) back
    let t := { t with hst := { t.hst with dr := Tbl.erase t.hst.dr n, drLost := Tbl.erase t.hst.drLost key } }
    ((t.stepIndex 2 n).vector (s.get (HST_DR_CFG.VECTOR n))).fetchBuffer n

/-- Bytes padded to the next 8-byte boundary. -/
def pad8 (l : List Nat) : List Nat := l ++ zeroBytes ((8 - l.length % 8) % 8)

/-- A ring takes an item into its open buffer, into a new one, or not at all (R429, R430). -/
def State.takeItem (s : State) (n : Nat) (it : Item) : State × Bool :=
  let size := 2 ^ (12 + s.get (HST_DR_CFG.BUFSZ n))
  let bytes := pad8 it.bytes
  let sw := if it.stream = 3 ∨ it.stream = 4 then 0 else it.sweep
  if size < it.bytes.length then ((((s.bump HST_ERRCNT1.OVERSIZE 1).loseItem it.stream n).raise 0x0E07 [n, it.bytes.length]), true)
  else if !s.ringRuns 2 n || !s.canIssue then (s, false)
  else
    let s := match Tbl.get none s.hst.dr n with
      | some b => if size < b.used + it.bytes.length then s.closeBuffer n false else s
      | none => s
    match Tbl.get none s.hst.dr n with
    | some b =>
      let t := s.hostWrite (b.addr + b.used) bytes
      let b : DrBuf := { b with used := b.used + bytes.length, count := b.count + 1, last := sw }
      ({ t with hst := { t.hst with dr := Tbl.set none t.hst.dr n (some b) } }, true)
    | none =>
      match Tbl.get [] s.hst.drReady n with
      | (addr, cookie) :: rest =>
        let b : DrBuf := ⟨addr, cookie, bytes.length, 1, sw, sw, s.fwc⟩
        let t := s.hostWrite addr bytes
        (({ t with hst := { t.hst with dr := Tbl.set none t.hst.dr n (some b), drReady := Tbl.set [] t.hst.drReady n rest,
                                       drStarved := Tbl.erase t.hst.drStarved n } }).fetchBuffer n, true)
      | [] =>
        let t := s.fetchBuffer n
        if (Tbl.get false s.hst.drStarved n) ∨ 0 < s.ringFill 2 n then (t, false)
        else (({ t with hst := { t.hst with drStarved := Tbl.set false t.hst.drStarved n true } }).raise 0x0E06 [n], false)

/-- Items are offered in order; once an item of a ring waits, later ones of that ring wait behind it. -/
def State.offer (s : State) (it : Item) (blocked : List Nat) : State × List Nat × Bool :=
  match s.ringFor it with
  | none => (s, blocked, false)
  | some n =>
    if blocked.contains n then (s, blocked, false)
    else
      let r := s.takeItem n it
      if r.2 then (r.1, blocked, true) else (r.1, n :: blocked, false)

/-- The waiting items are offered; those not taken wait on. -/
def offerAll : List Item → State × List Nat × List Item → State × List Nat × List Item
  | [], r => r
  | it :: rest, (s, blocked, left) =>
    let o := s.offer it blocked
    offerAll rest (o.1, o.2.1, if o.2.2 then left else left ++ [it])

/-- The 32-byte record of an event (R428). -/
def eventRecord (e : Event) : List Nat :=
  leBytes e.code 2 ++ [e.tally, e.inc] ++ leBytes (e.raw.getD (Config.eventData e.code e.data)) 6 ++ zeroBytes 6 ++ leBytes e.fwc 8 ++ zeroBytes 8

/-- The event queue is drained into the EVENT ring. -/
def drainEvents : List Event → State → State
  | [], s => { s with hst := { s.hst with eventLost := false } }
  | e :: rest, s =>
    let o := s.offer (Item.mk 4 0 (eventRecord e) 0) []
    if o.2.2 then drainEvents rest o.1 else { o.1 with events := e :: (rest ++ o.1.events) }

/-- The bytes of the oldest unread monitor record (R178, R179). -/
def State.monRecord (s : State) : List Nat :=
  (List.range 8).map fun i => Tbl.get 0 s.mon.sram (s.get MON_BUF_CFG.BASE + (s.get MON_BUF_RD.RD + i) % 2 ^ s.get MON_BUF_CFG.LOG2SIZE)

/-- The foreman mirrors monitor records into the MONITOR ring and advances the read index (R179). -/
def drainMonitor : Nat → State → State
  | 0, s => s
  | fuel + 1, s =>
    if s.get MON_BUF_RD.RD = s.get MON_BUF_WR.WR && !s.mon.full then s
    else
      let o := s.offer (Item.mk 3 0 s.monRecord 0) []
      if o.2.2 then drainMonitor fuel ((o.1.set MON_BUF_RD.RD ((s.get MON_BUF_RD.RD + 8) % 2 ^ s.get MON_BUF_CFG.LOG2SIZE)).onMon fun m =>
        { m with full := false })
      else s

/-- Bytes of ledger blocks that wait in the kibble store (R338, R430). -/
def State.ledgerWaiting (s : State) : Nat :=
  (s.hst.waiting.filter fun it => decide (it.stream = 1)).foldl (fun n it => n + it.bytes.length) 0

/-- Bytes of stope sweeps being built at the pithead (R331). -/
def State.buildBytes (s : State) : Nat :=
  s.chn.build.foldl (fun n e => match e.2 with
    | none => n
    | some b => n + b.hdr.length + b.keys.length + b.deltas.length + b.stat.length + b.aux.length) 0

/-- The level that CHN_INTAKE.HWM_MIB marks. -/
def State.heldIntake (s : State) : Nat := s.ledgerWaiting + s.buildBytes

/-- A level below the mark lets INTAKE_HWM be raised again (R338). -/
def State.reviewIntake (s : State) : State :=
  if s.chn.hwmRaised ∧ s.heldIntake < s.get CHN_INTAKE.HWM_MIB * 2 ^ 20 then { s with chn := { s.chn with hwmRaised := false } } else s

/-- Bytes of pipeline blocks that wait for their ring in the spot buffer (R368, R430). -/
def State.pipeWaiting (s : State) : Nat :=
  (s.hst.waiting.filter fun it => decide (it.stream = 2)).foldl (fun n it => n + it.bytes.length) 0

/-- Bytes of the spot buffer in use, and its size (R353, R354). -/
def State.spotUsed (s : State) : Nat := s.pipe.level + s.pipeWaiting
def State.spotSize (s : State) : Nat := s.get PIPE_MEM.SPOT_MIB * 2 ^ 20

/-- The level has fallen below half: PIPE_SPOT_FULL may be raised again (R354). -/
def State.reviewSpotLevel (s : State) : State :=
  if s.pipe.full ∧ 2 * s.spotUsed < s.spotSize then { s with pipe := { s.pipe with full := false } } else s

/-- Whatever waits for a data ring is offered to it (R430). -/
def State.pump (s : State) : State :=
  if s.isPithead then
    let r := offerAll s.hst.waiting ({ s with hst := { s.hst with waiting := [] } }, [], [])
    let s := { r.1 with hst := { r.1.hst with waiting := r.2.2 ++ r.1.hst.waiting } }
    let s := if (s.ringsOf 4).isEmpty then s else drainEvents s.events { s with events := [] }
    let s := if (s.ringsOf 3).isEmpty then s else drainMonitor 8192 s
    (s.reviewIntake).reviewSpotLevel
  else s

/-- An item joins those that wait for a data ring. -/
def State.deliver (s : State) (stream ring : Nat) (bytes : List Nat) (sweep : Nat) : State :=
  ({ s.usesKibble with hst := { s.hst with waiting := s.hst.waiting ++ [Item.mk stream ring bytes sweep] } }).pump

/-! ### Completion rings (R417, R419 to R422, R426) -/

/-- A completion ring fires when its moderation lets it (R422). -/
def State.signalCq (s : State) (n : Nat) : State :=
  let c := Tbl.get 0 s.hst.unsignalled n
  let since := (Tbl.get none s.hst.firstUnsignalled n).getD s.fwc
  let us := s.get (HST_CQ_CFG.MOD_US n)
  if 0 < c ∧ (max 1 (s.get (HST_CQ_CFG.MOD_CNT n)) ≤ c ∨ (us ≠ 0 ∧ since + us * usTicks ≤ s.fwc)) then
    ({ s with hst := { s.hst with unsignalled := Tbl.erase s.hst.unsignalled n
                                  firstUnsignalled := Tbl.erase s.hst.firstUnsignalled n } }).vector (s.get (HST_CQ_CFG.VECTOR n))
  else s

/-- A completion of a command is written into the bound completion ring (R418, R421, R426). -/
def State.complete (s : State) (sq cid opc status : Nat) (result : List Nat) : State :=
  let n := s.get (HST_SQ_CFG.CQ sq)
  if !s.canIssue || !s.on (HST_CQ_CFG.EN n) || !s.isPithead then s
  else
    let body := leBytes cid 2 ++ [sq, opc] ++ leBytes status 2 ++ leBytes (s.get (HST_SQ_STATUS.INDEX sq)) 2 ++
      (result ++ zeroBytes 48).take 48 ++ leBytes (s.fwc / 64) 4 ++ zeroBytes 3 ++ [s.get (HST_CQ_STATUS.PHASE n)]
    let t := (s.hostWrite (s.ringAddr 1 n (s.get (HST_CQ_STATUS.INDEX n))) body).stepIndex 1 n
    let c := Tbl.get 0 t.hst.unsignalled n
    let t := { t with hst := { t.hst with
        unsignalled := Tbl.set 0 t.hst.unsignalled n (c + 1)
        firstUnsignalled := if c = 0 then Tbl.set none t.hst.firstUnsignalled n (some t.fwc) else t.hst.firstUnsignalled } }
    t.signalCq n

/-- Room in the bound completion ring for one more command (R419). -/
def State.cqRoom (s : State) (sq : Nat) : Bool :=
  let n := s.get (HST_SQ_CFG.CQ sq)
  let out := (s.hst.flight.filter fun f => decide (s.get (HST_SQ_CFG.CQ f.desc.sq) = n)).length +
    (s.hst.held.filter fun f => decide (s.get (HST_SQ_CFG.CQ f.2.sq) = n)).length
  let reads := (s.hst.reads.filter fun r => decide (r.kind = 0 ∧ s.get (HST_SQ_CFG.CQ r.ring) = n)).length
  s.on (HST_CQ_CFG.EN n) && !s.on (HST_CQ_STATUS.HALTED n) &&
    decide (s.ringFill 1 n + out + reads + 1 < s.ringSize 1 n)

/-- Submission entries are fetched: each ring asks for the next entry that its doorbell covers while its completion ring has room
(R419, R421), one entry at a time. -/
def State.fetchSq (s : State) (n : Nat) : State :=
  let ahead := Tbl.get 0 s.hst.sqFetched n
  if s.ringRuns 0 n && s.canRead && s.cqRoom n && decide (ahead = 0 ∧ 0 < s.ringFill 0 n) then
    let i := s.get (HST_SQ_STATUS.INDEX n)
    { s with hst := { s.hst with reads := s.hst.reads ++ [(HostRead.mk 0 n i (s.ringAddr 0 n i) 64)]
                                 sqFetched := Tbl.set 0 s.hst.sqFetched n (ahead + 1) } }
  else s

def State.fetchAll (s : State) : State := (List.range 32).foldl State.fetchSq s

/-- The rings that are set up start to run, as the unit takes tally 1 (R36): entries and buffers are fetched, and what waits is offered. -/
def State.startRings (s : State) : State := ((List.range 16).foldl State.fetchBuffer s.fetchAll).pump

/-! ### The request condition (R436) -/

/-- The rows of R436 as they hold now. -/
def State.reqOkNow (s : State) : Bool :=
  s.on HST_LINK.DL_UP && (s.on HST_STATUS.BME || (s.hst.bmeCleared.isSome && !s.hst.graceOver)) &&
    (!s.on HST_STATUS.D3HOT || !s.hst.graceOver) && s.on HST_STATUS.ARMED && !s.on HST_STATUS.WDOG_EXP

def State.reviewReq (s : State) : State := s.put HST_STATUS.REQ_OK s.reqOkNow

end Sys2Proof.Machine
end

