-- ==== Sys2Proof/Machine/Ledger.lean ====
section
/-!
DEFINITION. The pithead's ledger (R326 to R337): the checks on a stope sweep, ownership by bank, key and delta sweeps, and the
blocks written to the ledger rings.
-/
namespace Sys2Proof.Machine

/-- A whole stope sweep: its tags, the 32 bytes of its header, and the bytes of its four streams. -/
structure StopeSweep where
  src : Nat
  inc : Nat
  sweep : Nat
  gear : Nat
  assign : Nat
  hdr : List Nat
  keys : List Nat
  deltas : List Nat
  stat : List Nat
  aux : List Nat
  deriving DecidableEq, Repr

/-- A little-endian field of some bytes. -/
def bytesAt (l : List Nat) (off n : Nat) : Nat := ofLeBytes ((l.drop off).take n)

def StopeSweep.stope (x : StopeSweep) : Nat := bytesAt x.hdr 8 1
def StopeSweep.cond (x : StopeSweep) : Nat := bytesAt x.hdr 4 4
def StopeSweep.kind (x : StopeSweep) : Nat := bytesAt x.hdr 16 1

/-- The number of a tally's stope in the tables of the chain block. -/
def asgKey (tally stope : Nat) : Nat := 256 * tally + stope

/-- Sweep `n` lies before the commit sweep of the bank in force (R329), by serial comparison. -/
def State.beforeCommit (s : State) (n : Nat) : Bool :=
  match s.chn.since with
  | none => false
  | some k => serialLater 32 k n

/-- The bank, the gear epoch and the assignment epoch by which sweep `n` is judged (R329, R332). -/
def State.bankFor (s : State) (n : Nat) : Tbl Asg := if s.beforeCommit n then s.chn.prev else s.chn.bank
def State.gearFor (s : State) (n : Nat) : Nat := if s.beforeCommit n then s.chn.prevGear else s.get CHN_EPOCH.GEAR
def State.assignFor (s : State) (n : Nat) : Nat := if s.beforeCommit n then s.chn.prevAssign else s.get CHN_EPOCH.ASSIGN

/-- The previous assignment epoch is still accepted for sweep `n` (R329). -/
def State.graceOpen (s : State) (n : Nat) : Bool := !s.beforeCommit n || s.chn.graceEnd.isSome

/-- The active table of a gear holds a MEAS entry. -/
def tableHasMeas (t : Tbl Nat) : Bool := t.any fun e => bit e.2 52 && decide (e.2 / 2 ^ 60 = 1 ∨ e.2 / 2 ^ 60 = 2)

/-- The table of a sweep's gear holds a MEAS entry (R130, R260): as noted at the start of the sweep, by the active table where the unit took no such
sweep. -/
def State.sweepMeas (s : State) (n : Nat) : Bool :=
  match Tbl.get 0 s.cad.meas n with
  | 0 => tableHasMeas s.cad.act
  | m => decide (m = 2)

/-- A condition word carries a condition marked "None" in R260. -/
def noPhotometry (cond : Nat) (meas : Bool) : Bool := bit cond 0 || bit cond 1 || (bit cond 3 && meas) || bit cond 4

/-- The records of `size` bytes in a stream. -/
def recordsOf (size : Nat) (l : List Nat) : List (List Nat) :=
  (List.range (l.length / size)).map fun i => (l.drop (size * i)).take size

/-- The emitter number of a record, its local index within the stope (R236). -/
def recordEmitter (r : List Nat) : Nat := bytesAt r 0 3 % 65536

/-- A delta that cannot be referred to its key is replaced by a STALE record (R334). -/
def staleRecord (r : List Nat) : List Nat := r.take 3 ++ [1, 0, 0, 0, 0]

/-- The header of a ledger block (R336). -/
def ledgerHeader (x : StopeSweep) (kind : Nat) (a : Asg) (keyRef nKey nDelta status : Nat) : List Nat :=
  leBytes x.sweep 4 ++ leBytes x.gear 2 ++ leBytes x.assign 2 ++ [x.src, x.inc, x.stope, kind] ++ leBytes a.base 4 ++ leBytes a.lo 4 ++
    leBytes x.cond 4 ++ leBytes keyRef 4 ++ [bytesAt x.hdr 24 1, bytesAt x.hdr 25 1] ++ leBytes (bytesAt x.hdr 18 2) 2 ++
    leBytes nKey 4 ++ leBytes nDelta 4 ++ leBytes status 4 ++ zeroBytes 4

/-- Why a stope sweep fails a check of R332, none where it passes checks 1 to 5. -/
inductive LedgerFail where
  | superseded
  | quarantined
  | late
  | gear
  | assign
  | owner
  deriving DecidableEq, Repr

/-- R326: its source acknowledged the derailleur in force and sends a sweep from K on with an old epoch. -/
def State.oldEpoch (s : State) (x : StopeSweep) : Bool :=
  match s.chn.since with
  | none => false
  | some k =>
    bit s.chn.acked x.src && !serialLater 32 k x.sweep &&
      ((decide (x.gear = s.chn.prevGear) && decide (x.gear ≠ s.get CHN_EPOCH.GEAR)) ||
        (decide (x.assign = s.chn.prevAssign) && decide (x.assign ≠ s.get CHN_EPOCH.ASSIGN)))

/-- The first check of R332 that fails. -/
def State.ledgerCheck (s : State) (x : StopeSweep) : Option LedgerFail :=
  let own := decide (x.src = s.tally)
  if !own && (decide (x.inc ≠ (s.peer x.src).inc) || (s.peer x.src).dead) then some .superseded
  else if (s.peer x.src).quarantined then some .quarantined
  else if s.oldEpoch x then some .late
  else if x.gear ≠ s.gearFor x.sweep then some .gear
  else if x.assign ≠ s.assignFor x.sweep ∨ !s.graceOpen x.sweep then some .assign
  else if !(Tbl.get {} (s.bankFor x.sweep) (asgKey x.src x.stope)).valid then some .owner
  else none

/-- STALE_STOPE is raised and KEY_REFRESH_REQ sent to the source, at most once per stope and sweep (R334). A need on the pithead's own stope is met by
its own foreman (R335). -/
def State.askRefresh (s : State) (src stope sweep : Nat) : State :=
  let k := asgKey src stope
  if Tbl.get 0 s.chn.refreshAt k = sweep + 1 then s
  else
    let t := (s.onChn fun c => { c with refreshAt := Tbl.set 0 c.refreshAt k (sweep + 1) }).raise 0x0B0C [src, stope, sweep]
    if src = s.tally then t.keyRefresh stope else t.sendCtl 0x0E 0 src ([stope, 0, 0, 0] ++ leBytes sweep 4)

/-- A stope is marked STALE (R334). -/
def State.markStale (s : State) (src stope sweep : Nat) : State :=
  (s.onChn fun c => { c with stale := Tbl.set false c.stale (asgKey src stope) true }).askRefresh src stope sweep

/-- One ledger block goes to the ledger rings. -/
def State.writeBlock (s : State) (x : StopeSweep) (kind : Nat) (a : Asg) (recs : List Nat) (nKey nDelta status : Nat) : State :=
  let kr := (Tbl.get none s.chn.keyref (asgKey x.src x.stope)).getD 0
  s.deliver 1 x.src (ledgerHeader x kind a kr nKey nDelta status ++ recs) x.sweep

/-- The blocks of an accepted stope sweep (R333, R334, R336, R337); the STAT stream is taken in whole records (R229). -/
def State.writeSweep (s : State) (x : StopeSweep) : State :=
  let a := Tbl.get {} (s.bankFor x.sweep) (asgKey x.src x.stope)
  let k := asgKey x.src x.stope
  if noPhotometry x.cond (s.sweepMeas x.sweep) then s.writeBlock x 0 a [] 0 0 (4 + ofBool (Tbl.get false s.chn.stale k))
  else
    let isKey := bit x.kind 0 && bit x.kind 7
    let s := if isKey then
        s.onChn fun c => { c with keyref := Tbl.set none c.keyref k (some x.sweep), stale := Tbl.erase c.stale k }
      else s
    let keys := recordsOf 24 x.keys
    let deltas := recordsOf 8 x.deltas
    let good := isKey || (bit x.kind 7 && decide (Tbl.get none s.chn.keyref k = some (bytesAt x.hdr 20 4)))
    let s := if good ∨ deltas.isEmpty then s else (s.bump CHN_ERRCNT3.STALE_DELTA deltas.length).markStale x.src x.stope x.sweep
    let deltas := if good then deltas else deltas.map staleRecord
    let own := fun r => decide (a.lo ≤ recordEmitter r ∧ recordEmitter r < a.hi)
    let ko := keys.filter own
    let dl := deltas.filter own
    let kw := keys.filter fun r => !own r
    let dw := deltas.filter fun r => !own r
    let st := ofBool (Tbl.get false s.chn.stale k) + 2 * ofBool isKey
    let s := s.writeBlock x 0 a (ko.flatten ++ dl.flatten) ko.length dl.length st
    let s := if kw.isEmpty && dw.isEmpty then s
      else if s.on CHN_CFG.WITNESS_EN then s.writeBlock x 1 a (kw.flatten ++ dw.flatten) kw.length dw.length st
      else s.bump CHN_ERRCNT2.NOT_OWNED (kw.length + dw.length)
    let stat := x.stat.take (x.stat.length / 64 * 64)
    let s := if stat.isEmpty then s else s.writeBlock x 2 a stat 0 0 st
    if x.aux.isEmpty then s else s.writeBlock x 3 a x.aux 0 0 st

/-- A dropped packet or sweep of a superseded incarnation: counted, and a tally without a live grant is benched, at most once per
1 ms (R317). -/
def State.supersede (s : State) (src inc : Nat) : State :=
  let s := s.bump CHN_ERRCNT1.SUPERSEDED 1
  let last := Tbl.get none s.chn.benchAt src
  let again := match last with
    | none => true
    | some t => decide (t + msTicks ≤ s.fwc)
  if (s.peer src).dead && again then
    ((s.onChn fun c => { c with benchAt := Tbl.set none c.benchAt src (some s.fwc) }).sendCtl 0x07 0 src
      ([inc, 1] ++ zeroBytes 6)).raise 0x0B05 [src, inc]
  else s

/-- The intake mark of R338: while the stope sweeps held exceed it a newly arriving one is discarded whole, else `f` takes it in. -/
def State.intake (s : State) (f : State → State) : State :=
  let s := s.reviewIntake
  if s.get CHN_INTAKE.HWM_MIB * 2 ^ 20 < s.heldIntake then
    let t := s.bump CHN_ERRCNT4.INTAKE_DROP 1
    if t.chn.hwmRaised then t
    else (t.onChn fun c => { c with hwmRaised := true }).raise 0x0B0D [s.heldIntake / 2 ^ 20]
  else f s

/-- The pithead judges a whole stope sweep (R332). -/
def State.ledgerJudge (s : State) (x : StopeSweep) : State :=
  match s.ledgerCheck x with
  | none => s.writeSweep x
  | some .superseded => s.supersede x.src x.inc
  | some .quarantined => s
  | some .late =>
    ((s.sendCtl 0x08 0 x.src ([2, 1] ++ zeroBytes 6)).setPeer x.src fun p => { p with quarantined := true }).raise 0x0B0B
      [x.src, x.sweep]
  | some .gear => s.bump CHN_ERRCNT1.TAG_DROP 1
  | some .assign => s.bump CHN_ERRCNT2.GRACE_DROP 1
  | some .owner => s.bump CHN_ERRCNT2.NOT_OWNED 1

/-- An incomplete stope sweep is discarded and counted; its deltas are handled as ones without a key (R331, R334). -/
def State.ledgerIncomplete (s : State) (src stope sweep : Nat) : State :=
  (s.bump CHN_ERRCNT3.INCOMPLETE 1).markStale src stope sweep

end Sys2Proof.Machine
end

