-- ==== Sys2Proof/Machine/RecordPort.lean ====
section
/-!
DEFINITION. The record port (R206 to R210): held output, the stope sweep header, and the release of a sweep to the ledger or to
the chain.
-/
namespace Sys2Proof.Machine

/-- Bits of the condition word (R201). -/
def cdRANGE : Nat := 0
def cdSUPPR : Nat := 1
def cdCOAST : Nat := 2
def cdNOREQ : Nat := 3
def cdNOTRIG : Nat := 4
def cdINTEG : Nat := 5
def cdAGED : Nat := 6
def cdLOST : Nat := 7
def cdABANDON : Nat := 8
def cdREFUSED : Nat := 9

/-- A condition holds in a sweep, for every stope. -/
def State.flagSweep (s : State) (sweep i : Nat) : State :=
  s.onCad fun c => { c with conds := Tbl.set 0 c.conds sweep (setBit (Tbl.get 0 c.conds sweep) i true) }

/-- A stream's bytes in a held output. -/
def OutSweep.stream (o : OutSweep) (i : Nat) : List Nat := Tbl.get [] o.streams i

/-- Bytes an output holds. -/
def OutSweep.bytes (o : OutSweep) : Nat := o.streams.foldl (fun n e => n + e.2.length) 0

/-- Bytes held in the pool of ENG_POOL, and bytes left (LCL_OUT_FREE). -/
def State.heldBytes (s : State) : Nat := s.eng.out.foldl (fun n o => n + o.bytes) 0
def State.poolFree (s : State) : Nat := s.get ENG_POOL.MIB * 2 ^ 20 - s.heldBytes

/-- An output is one stope's of one sweep. -/
def OutSweep.is (o : OutSweep) (stope sweep : Nat) : Bool := decide (o.stope = stope ∧ o.sweep = sweep)

def State.findOut (s : State) (stope sweep : Nat) : Option OutSweep := s.eng.out.find? fun o => o.is stope sweep
def State.setOut (s : State) (stope sweep : Nat) (f : OutSweep → OutSweep) : State :=
  s.onEng fun g => { g with out := g.out.map fun o => if o.is stope sweep then f o else o }
def State.dropOut (s : State) (stope sweep : Nat) : State :=
  s.onEng fun g => { g with out := g.out.filter fun o => !o.is stope sweep }

/-- Items claimed for an engine and not yet published are discarded: the stope DMA writes none into an engine that stops or clears
LCL_IN_CFG.EN. A sweep whose OPEN item is among them does not open (R193). -/
def State.dropClaims (s : State) (e : Nat) : State :=
  let lost := ((s.engine e).claimed.filter fun it => decide (it.tag.headD 0 = 1)).map fun it => ofLeBytes ((it.tag.drop 8).take 4)
  let shut := fun (o : OutSweep) => if o.engine = e ∧ lost.contains o.sweep then { o with opened := false } else o
  (s.setEngine e fun g => { g with claimed := [] }).onEng fun q => { q with out := q.out.map shut }

/-- The 32-byte stope sweep header (R250): the port's bytes, then the header extension. -/
def OutSweep.header (o : OutSweep) (cond : Nat) : List Nat :=
  let ext := ((o.stream 3).take 16 ++ zeroBytes 16).take 16
  leBytes o.sweep 4 ++ leBytes cond 4 ++ [o.stope, 0] ++ leBytes ((o.stream 0).length / 24) 3 ++ leBytes ((o.stream 1).length / 8) 3 ++
    ext

/-- A stream cut into payloads of at most 16 384 bytes that hold whole records. -/
def cutStream (rec : Nat) (l : List Nat) : List (List Nat) :=
  let n := 16384 / rec * rec
  (List.range ((l.length + n - 1) / n)).map fun i => (l.drop (n * i)).take n

/-- The packets of a run (R304): SWEEP_HDR, KEY, DELTA, STAT, AUX. -/
def runPackets (x : StopeSweep) : List Packet :=
  let p := fun dt payload => Packet.mk dt 6 x.inc x.src 1 x.sweep x.gear x.assign payload
  p 0x20 (x.hdr ++ leBytes x.stat.length 4 ++ leBytes x.aux.length 4) ::
    ((cutStream 24 x.keys).map (p 0x21) ++ (cutStream 8 x.deltas).map (p 0x22) ++ (cutStream 64 x.stat).map (p 0x23) ++
      (cutStream 16384 x.aux).map (p 0x24))

/-- Bytes a packet takes on a link. -/
def Packet.size (k : Packet) : Nat := 16 + k.payload.length + (if k.payload.isEmpty then 0 else 4)

/-- Bytes in the local egress queue: the record packets that wait for a port (R339). -/
def State.egressBytes (s : State) : Nat :=
  s.chn.queue.foldl (fun n q => q.2.foldl (fun n k => if k.vc = 6 then n + k.size else n) n) 0

/-- A released stope sweep goes to the ledger on the pithead, to the egress queue on a crew unit, whole or not at all (R304, R339);
a unit that belongs to no chain has no one to send it to. -/
def State.sendSweep (s : State) (x : StopeSweep) : State :=
  if s.isPithead then s.intake fun t => t.ledgerJudge x
  else if s.inCrew then
    let ks := runPackets x
    let n := ks.foldl (fun a k => a + k.size) 0
    if s.egressBytes + n ≤ s.get CHN_INTAKE.EGRESS_MIB * 2 ^ 20 then
      ks.foldl State.send s.usesKibble
    else
      let t := (s.bump CHN_ERRCNT4.EGRESS_DROP 1).onChn fun c => { c with egressDropped := c.egressDropped + 1 }
      if t.chn.egressRaised.contains x.sweep then t
      else (t.onChn fun c => { c with egressRaised := x.sweep :: c.egressRaised }).raise 0x0B0E [bytesAt x.hdr 8 1, x.sweep]
  else s

/-- The request state of a sweep as the unit holds it (R208): some true where the sweep was requested throughout. -/
def State.requestOf (s : State) (sweep : Nat) : Option Bool :=
  match Tbl.get 0 s.eng.requests sweep with
  | 0 => none
  | n => some (decide (n = 1))

/-- A held sweep is released with its header: every condition learned so far is in its word (R208, R210). `discard` leaves out its
records. -/
def State.release (s : State) (o : OutSweep) (extra : Nat) (discard : Bool) : State :=
  let noReq := match s.requestOf o.sweep with
    | some true => 0
    | _ => 2 ^ cdNOREQ
  let cond := o.cond ||| Tbl.get 0 s.cad.conds o.sweep ||| extra ||| noReq
  let o := if discard then { o with streams := [] } else o
  (s.dropOut o.stope o.sweep).sendSweep
    ⟨s.tally, s.inc, o.sweep, o.gear, o.assign, o.header cond, o.stream 0, o.stream 1, o.stream 2, (o.stream 3).drop 16⟩

/-- Sealed sweeps whose request state is held are released (R208). -/
def State.releaseReady (s : State) : State :=
  (s.eng.out.filter fun o => o.sealed && (s.requestOf o.sweep).isSome && decide (o.copying = none)).foldl (fun t o => t.release o 0 false) s

/-- The request state of a sweep arrives or is formed (R208, R321). -/
def State.learnRequest (s : State) (sweep : Nat) (ok : Bool) : State :=
  (s.onEng fun g => { g with
    requests := Tbl.set 0 (g.requests.filter fun e => decide (serialDiff 32 sweep e.1 ≤ 64)) sweep (if ok then 1 else 2) }).releaseReady

/-- The port seals every sweep at once with ABANDONED, and releases those that waited (R195). -/
def State.sealAll (s : State) : State :=
  s.eng.out.foldl (fun t o => if o.sealed then t.release o 0 false else t.release o (2 ^ cdABANDON) true) s

end Sys2Proof.Machine
end

