-- ==== Sys2Proof/Machine/CadenceOps.lean ====
section
/-!
DEFINITION. The cadence unit's shared operations (ch. 03, 04): values in force, trackers and the wall-frame count, MEAS_OK, MREQ, gates,
gap marks and the stop of the table.
-/
namespace Sys2Proof.Machine

/-! ### Values of R80 in force -/

/-- A field of R80 as it is in force. -/
def State.inForce (s : State) (f : Field) : Nat := Tbl.get f.reset s.cad.force f.key

/-- The fields that take effect at the points of R80, the stope enables apart. -/
def gearFields : List Field :=
  [EXP_SKIM.THRESH, EXP_BIN_ALLOW.ALLOW1, EXP_BIN_ALLOW.ALLOW2, CAD_CTRL.LOCK_N, CAD_CTRL.MAINS_REQ, CNV_CTRL.FORCE_LCG] ++
    (List.range 256).map EXP_BIN.BIN ++ (List.range 8).map CAD_MASK.MASK ++ (List.range 4).map EXP_EXPO_CFG.SRC
def enableFields : List Field := (List.range 8).map EXP_STOPE_EN.EN
def pendingFields : List Field := gearFields ++ enableFields

/-- The stope columns a mask index selects, as in force; mask 0 is fixed at all 16 (R102). -/
def State.maskCols (s : State) (m : Nat) : Nat := if m = 0 then 0xFFFF else s.inForce (CAD_MASK.MASK m)

/-- Stope enables in force as one 256-bit number (R76). -/
def State.enables (s : State) : Nat := (List.range 8).foldl (fun n w => n + s.inForce (EXP_STOPE_EN.EN w) * 2 ^ (32 * w)) 0
def State.stopeOn (s : State) (x : Nat) : Bool := bit (s.inForce (EXP_STOPE_EN.EN (x / 32))) (x % 32)

/-! ### Trackers. Instants and periods are in ticks × 2⁻¹⁶. -/

def sub : Nat := 65536

/-- The tick nearest to an instant, a tie rounded up (R97, R102). -/
def tickOf (p : Nat) : Nat := (p + sub / 2) / sub

/-- A tracker by name: false the scan tracker, true the mains tracker. -/
def State.trk (s : State) (m : Bool) : Trk := if m then s.cad.mains else s.cad.scan
def trkState (m : Bool) : Field := if m then CAD_STATE.MAINS_ST else CAD_STATE.SCAN_ST
def State.trkSrc (s : State) (m : Bool) : Nat := if m then s.get CAD_SRC.MAINS_SRC else s.get CAD_SRC.SCAN_SRC

/-- A tracker's record changes; CAD_STATE and the period registers follow. -/
def State.setTrk (s : State) (m : Bool) (f : Trk → Trk) : State :=
  let k := f (s.trk m)
  let p := k.per.getD 0
  if m then
    (((s.onCad fun c => { c with mains := k }).set CAD_STATE.MAINS_ST k.st).set CAD_MAINS_PER_LO.PER_LO p).set CAD_MAINS_PER_HI.PER_HI
      (p / 2 ^ 32)
  else
    (((((s.onCad fun c => { c with scan := k }).set CAD_STATE.SCAN_ST k.st).set CAD_STATE.AGREE (min 8 k.agree)).set
      CAD_STATE.COAST_LEFT k.left).set CAD_SCAN_PER_LO.PER_LO p).set CAD_SCAN_PER_HI.PER_HI (p / 2 ^ 32)

/-- The tracked scan period, where the tracker holds one. -/
def State.scanPer (s : State) : Option Nat := s.cad.scan.per

/-! ### MREQ (R141 to R143) -/

/-- The first cause of R143 that applies: a condition of R141 fails. -/
def State.mreqFails (s : State) : Option Nat :=
  if !s.on SAF_STATUS.FIRST_WRITE || decide (s.get SAF_TRIP.LATCHED ≠ 0) || s.on CAD_STATE.LS_FAULT then some 4
  else if !s.isPithead then some 6
  else if !s.on HST_STATUS.REQ_OK then some 5
  else if s.power ≠ stCAPTURE then some 3
  else if s.get EXP_MODE.MODE_ACTIVE = 0 || !tableHasMeas s.cad.act then some 7
  else if !s.on EXP_MREQ_CTRL.EN then some 2
  else if !s.on CAD_STATE.MEAS_OK || !s.cad.measSince then some 1
  else none

/-- MREQ is driven low and stays low; the cause is stored and the sweep in progress carries NO_REQUEST (R143, R146). -/
def State.stopMreq (s : State) (cause : Nat) : State :=
  let t := ((s.set EXP_MREQ_STATUS.REQUESTING 0).set EXP_MREQ_STATUS.LEAD_LEFT 0).set EXP_MREQ_STATUS.STOP_CAUSE cause
  let t := t.onCad fun c => { c with mreq := false }
  let t := t.onSaf fun f => { f with mreqRise := none, mreqFall := if s.cad.mreq then some s.fwc else f.mreqFall }
  (t.flagSweep (s.get CAD_SWEEP.SWEEP) cdNOREQ).raise 0x0607 [cause, s.fwc]

/-- The conditions of R141 are looked at again while MREQ requests. -/
def State.reviewMreq (s : State) : State :=
  if s.on EXP_MREQ_STATUS.REQUESTING then
    match s.mreqFails with
    | some c => s.stopMreq c
    | none => s
  else s

/-! ### MEAS_OK (R94, R95) -/

/-- A tracker is LOCKED or COASTING. -/
def State.trkGood (s : State) (m : Bool) : Bool := decide ((s.trk m).st = 2 ∨ (s.trk m).st = 3)

def State.reviewMeas (s : State) : State :=
  let ok := s.trkGood false && (decide (s.inForce CAD_CTRL.MAINS_REQ = 0) || s.trkGood true)
  let t := s.put CAD_STATE.MEAS_OK ok
  (if ok then t else t.onCad fun c => { c with measSince := false }).reviewMreq

/-! ### Gates (R53) -/

/-- The gate record of a stope column. -/
def State.gate (s : State) (c : Nat) : Gate := Tbl.get {} s.cad.gates c

/-- Every column goes to DG. -/
def State.gatesDG (s : State) : State := s.onCad fun c => { c with gates := [] }

/-- A tap is open on some column of a set (R135). -/
def State.tapOpen (s : State) (tap cols : Nat) : Bool :=
  (List.range 16).any fun c => bit cols c && decide ((s.gate c).exit = tap + 1)

/-- The gap in progress ends: the converter sides get an end mark; a step under way goes on (R118). -/
def State.endGap (s : State) : State :=
  (s.onCad fun c => { c with gapEnd := none }).endMark

/-- The table stops running: gates to DG, triggers disarmed, end mark, no further entry (R100, R107, R118, R120). -/
def State.stopTable (s : State) : State :=
  let t := (((s.set CAD_STATE.TABLE_RUN 0).set EXP_MODE_STATUS.VIDEO_RUN 0).gatesDG).endGap
  (t.onCad fun c => { c with trg := [], pulse := none, plan := [], gains := [] }).onArr fun a =>
    { a with held := none }

/-- p of the scan tracker has moved by more than 100 ticks from the prediction: a gap in progress ends (R118). -/
def State.movedP (s : State) (m : Bool) (old new : Nat) : State :=
  if !m && decide (100 * sub < old - new ∨ 100 * sub < new - old) then s.endGap else s

/-- A tracker that gave up the prediction `old` holds p again (R118). -/
def State.regainedP (s : State) (m : Bool) (old : Option Nat) : State :=
  match old, (s.trk m).p with
  | some a, some b => (s.setTrk m fun k => { k with held := none }).movedP m a b
  | _, _ => s

/-! ### Source selection (R92, R93, R562, R563) -/

/-- A stretch of reported time (2⁻¹⁶ ns) in ticks × 2⁻¹⁶ at the rate in force (R373). -/
def State.ticks16 (s : State) (x : Int) : Int := x * 2 * 1099511627776 / (1099511627776 + signed 32 (s.get TIM_RATE.ADJ))

/-- The publication a tracker follows: 0 scan, 1 mains. -/
def State.pubOf (s : State) (m : Bool) : Option Pub := Tbl.get none s.tim.pubs (if m then 1 else 0)

/-- The number, counted from its epoch, of the published start nearest to an instant (R394). -/
def State.startNear (s : State) (b : Pub) (p : Nat) : Int := (s.timeAt16 p - b.epoch + (b.period : Int) / 2) / (b.period : Int)

/-- The instant of a published start (R394): epoch + n periods, mapped through the inverse of R373. -/
def State.pubStart (s : State) (b : Pub) (n : Int) : Nat := (s.instant16 (b.epoch + n * (b.period : Int))).toNat

/-- A tracker on NETSCAN or NETMAINS takes P from the latest publication and p as the next start computed from it (R563). -/
def State.netStart (s : State) (m : Bool) : State :=
  match s.pubOf m with
  | none => s
  | some b =>
    let per := s.ticks16 b.period
    if per ≤ 0 then s
    else
      let n := (s.timeNow - b.epoch) / (b.period : Int) + 1
      s.setTrk m fun k => { k with per := some per.toNat, p := some (s.pubStart b n), taken := false }

/-- A tracker passes through OFF and, with a source, leaves it to ACQUIRING (R92, R93). -/
def State.selectSrc (s : State) (m : Bool) : State :=
  let src := s.trkSrc m
  let old := (s.trk m).p.or (s.trk m).held
  let s := s.setTrk m fun _ => { held := old }
  let s := if m then s else s.onCad fun c => { c with lines := none }
  let s :=
    if src = 0 ∨ !s.cadenceRuns then s
    else if src = 5 then
      let per := (if m then s.get CAD_FREE_MAINS.PERIOD else s.get CAD_FREE_SCAN.PERIOD) * sub
      s.setTrk m fun k => { k with st := 1, per := some per, p := some (s.fwc * sub + per) }
    else
      let t := s.setTrk m fun k => { k with st := 1 }
      if src = 2 ∨ src = 4 then t.netStart m else t
  (s.regainedP m old).reviewMeas

/-- CADENCE starts to run: CAD_STATE, the trackers and CAD_SWEEP restart (R122); a unit never joined counts from 0 (R98), and so does one
whose chain start is still to come (R99). -/
def State.startCadence (s : State) : State :=
  let s := (s.set CAD_STATE.TABLE_RUN 0).set CAD_SWEEP.SWEEP 0
  let s := s.onChn fun c => { c with egressRaised := [] }
  let s := s.onCad fun c => { c with counting := c.everJoined && !c.zeroNext, sweepDue := false, opened := none, measSince := false, sweepAt := 0 }
  (s.selectSrc false).selectSrc true

/-- CADENCE stops: the trackers go OFF, the table stops, every gate stands at DG, MREQ stops (R92, R122). AGREE, COAST_LEFT and the periods
read as they stood (R39). -/
def State.haltCadence (s : State) : State :=
  let s := ((s.stopTable).onCad fun c => { c with scan := {}, mains := {} }).zeros [CAD_STATE.SCAN_ST, CAD_STATE.MAINS_ST]
  let s := s.onCad fun c => { c with sweepDue := false, lines := none, mreq := false }
  let s := s.onArr fun a => { a with pass := none }
  s.reviewMeas

/-! ### EXPO lines (R135, R136, R139) -/

/-- The commanded level of EXPO line `n`. -/
def State.expoLevel (s : State) (n : Nat) : Bool :=
  let src := s.inForce (EXP_EXPO_CFG.SRC n)
  let cols := s.maskCols (s.get (EXP_EXPO_CFG.MASK n))
  let video := decide (s.get EXP_MODE.MODE_ACTIVE = 0)
  decide (s.power = stCAPTURE) && !s.on CAD_STATE.LS_FAULT &&
    (match src with
      | 1 => !video && bit s.cad.expo n
      | 2 => s.tapOpen 0 cols
      | 3 => s.tapOpen 1 cols
      | 4 => !video && (List.range 16).any fun c => bit cols c && (s.gate c).meas && decide ((s.gate c).exit ≠ 0)
      | 5 => s.arr.pass.isSome
      | 6 => s.cad.gapEnd.isSome && decide (s.fwc < s.cad.gapEnd.getD 0)
      | 7 => s.cad.pulse.isSome
      | _ => false)

/-- EXPO lines and MREQ as their drivers hold them: screen forcing takes them low (R464, R465). -/
def State.expoLand (s : State) (n : Nat) : Bool := s.screenLand (s.expoLevel n)
def State.mreqLand (s : State) : Bool := s.screenLand s.cad.mreq

/-- EXPO lines and MREQ at their lands (R545). -/
def State.expoPin (s : State) (n : Nat) : Option Bool := s.atLand (s.expoLand n)
def State.mreqPin (s : State) : Option Bool := s.atLand s.mreqLand

/-! ### Entry to HOLD (R80, R84, R122, R147) -/

/-- The array's own fields of R80 (ch. 02). -/
def arrayFields : List Field :=
  [EXP_SKIM.THRESH, EXP_BIN_ALLOW.ALLOW1, EXP_BIN_ALLOW.ALLOW2] ++ (List.range 256).map EXP_BIN.BIN ++ enableFields

/-- Pending values of some fields are discarded: the registers return to the values in force; the mode returns to MODE_ACTIVE (R147) and a
pending swap goes (R122). -/
def State.discard (s : State) (fs : List Field) : State :=
  let t := fs.foldl (fun t f => t.set f (t.inForce f)) s
  let t := (t.set EXP_MODE.MODE (t.get EXP_MODE.MODE_ACTIVE)).set CAD_TBL_STATUS.PENDING 0
  t.onCad fun c => { c with waits := c.waits.filter fun k => !(fs.map Field.key).contains k }

/-- Entry to HOLD discards every pending value of R80. -/
def State.discardPending (s : State) : State := s.discard pendingFields

/-- SYSRST_N, PERST_N and Function Level Reset discard those of ch. 02 (R84); the registers of the other pages keep their values (R122, R147,
R182). -/
def State.discardArray (s : State) : State := s.discard arrayFields

/-- What entry to HOLD does to the cadence unit and the array. The trackers run on. -/
def State.cadHold (s : State) : State :=
  let t := (s.stopTable).discardPending
  let t := match t.cad.opened with
    | some n => t.flagSweep n cdABANDON
    | none => t
  t.onCad fun c => { c with opened := none, sweepDue := false }

end Sys2Proof.Machine
end

