-- ==== Sys2Proof/Machine/PipelineOps.lean ====
section
/-!
DEFINITION. The spotlight source and the pithead pipeline (ch. 10): S16 codes, items and packets, frames, stages, statistics and
output blocks. Corrected values are exact whole numbers of 2⁻²⁹ electrons until the output rounding (R362, R365).
-/
namespace Sys2Proof.Machine

/-! ### Value words and codes -/

/-- A value word's signed VALUE, and whether EXH, CLIP or SHORT is set (R69). -/
def wordValue (w : Nat) : Int := signed 29 w
def wordFlag (w : Nat) : Bool := decide (bits w 29 3 ≠ 0)

/-- The number of pixels summed by a binning code (R78). -/
def binCount (bin : Nat) : Nat := if bin = 0 then 1 else if bin = 1 then 4 else 16

/-- The code of R352 for a whole u and a flag; u above 67 108 863 saturates. -/
def code16 (u : Nat) (flag : Bool) : Nat :=
  if 67108863 < u then 0x8000 + 15 * 2048 + 2047
  else
    let e := if u < 2048 then 0 else Nat.log2 (u / 2048) + 1
    let m := if e = 0 then u else u / 2 ^ (e - 1) - 2048
    (if flag then 0x8000 else 0) + e * 2048 + m

/-- The S16 code of a value of `half` half-electrons (R352). -/
def s16 (half : Int) (flag : Bool) : Nat := code16 ((half + 129) / 2).toNat flag

/-- Half-electrons and flag that an S16 code decodes to (R352). -/
def s16Decode (c : Nat) : Int × Bool :=
  let e := bits c 11 4
  let m := bits c 0 11
  let twice : Nat := if e = 0 then 2 * m else if e = 1 then 2 * (2048 + m) else (2 * (2048 + m) + 1) * 2 ^ (e - 1)
  ((twice : Int) - 128, bit c 15)

/-- Values of a LINE body as half-electrons and flags: S16 codes, or S32 words of R69 summed over m pixels. -/
def lineValues (it : SpotItem) : List (Int × Bool) :=
  (List.range it.count).map fun i =>
    if it.fmt = 0 then s16Decode (ofLeBytes ((it.body.drop (2 * i)).take 2))
    else
      let w := ofLeBytes ((it.body.drop (4 * i)).take 4)
      (wordValue w * (binCount it.bin : Int), wordFlag w)

/-- The body of a LINE (R350). -/
def lineBody (fmt bin : Nat) (words : List Nat) : List Nat :=
  (words.map fun w => if fmt = 0 then leBytes (s16 (wordValue w * (binCount bin : Int)) (wordFlag w)) 2 else leBytes w 4).flatten

/-- Active coordinate, within the stope, of the first pixel summed into output coordinate `o` (R77). -/
def firstPixel (mosaic : Bool) (bin o : Nat) : Nat :=
  if bin = 0 then o
  else if mosaic then (if bin = 1 then 4 else 8) * (o / 2) + o % 2
  else (if bin = 1 then 2 else 4) * o

/-! ### The spotlight source (R343 to R349) -/

/-- A spotlight control value in force since the last sweep start (R344). -/
def State.spotNow (s : State) (f : Field) : Nat := Tbl.get f.reset s.spot.force f.key

def spotFields : List Field :=
  [EXP_SPOT_CTRL.EN, EXP_SPOT_CTRL.METHOD, EXP_SPOT_CTRL.FMT, EXP_SPOT_CTRL.EVERY, EXP_SPOT_CTRL.TAPS, EXP_SPOT_RATE.GBPS] ++
    (List.range 8).map EXP_SPOT_MASK.MASK

/-- The spot header of an item (R350). -/
def SpotItem.header (it : SpotItem) : List Nat :=
  [it.kind, it.fmt * 64 + it.bin * 16 + ofBool it.last * 8 + it.gains * 2 + it.tap, it.stope, it.pass] ++ leBytes it.row 2 ++
    leBytes it.count 2 ++ leBytes it.time 4 ++ zeroBytes 4

/-- The packet that carries an item (R350). -/
def SpotItem.packet (it : SpotItem) : Packet :=
  ⟨0x28, 7, it.inc, it.src, 1, it.sweep, it.gear, it.assign, it.header ++ it.body⟩

/-- The item a SPOT packet carries. -/
def spotOf (k : Packet) : SpotItem :=
  let b := fun i => bytesAt k.payload i 1
  { src := k.src, inc := k.inc, sweep := k.sweep, gear := k.gear, assign := k.assign, kind := b 0, fmt := bits (b 1) 6 2
    bin := bits (b 1) 4 2, last := bit (b 1) 3, gains := bits (b 1) 1 2, tap := bits (b 1) 0 1, stope := b 2, pass := b 3
    row := bytesAt k.payload 4 2, count := bytesAt k.payload 6 2, time := bytesAt k.payload 8 4, body := k.payload.drop 16 }

/-- EXP_SPOT_STATUS.RUN and SENDING. -/
def State.reviewSpot (s : State) : State :=
  let staged := match s.spot.frame with
    | some f => f.staged && f.complete
    | none => false
  (s.put EXP_SPOT_STATUS.RUN (s.spot.frame.isSome || !s.spot.queue.isEmpty)).put EXP_SPOT_STATUS.SENDING staged

/-- The in-line buffer holds this many values (R354). -/
def State.inlineCount (s : State) : Nat := s.pipe.inline.foldl (fun n it => n + it.count) 0

/-- A line of a frame is lost at the intake (R354, R356): one that is open, or one whose OPEN still stands in a buffer. -/
def State.loseLine (s : State) (src sweep : Nat) : State :=
  s.onPipe fun p =>
    if p.frames.any fun f => decide (f.src = src ∧ f.sweep = sweep) then
      { p with frames := p.frames.map fun f => if f.src = src ∧ f.sweep = sweep then { f with lost := f.lost + 1 } else f }
    else if (p.inline ++ p.spot).any fun it => decide (it.kind = 1 ∧ it.src = src ∧ it.sweep = sweep) then
      { p with early := (src, sweep) :: p.early }
    else p

/-- An item of the own source enters the in-line buffer, or is dropped for want of room (R354); with EN 0 the source sends nothing
(R355). -/
def State.toInline (s : State) (it : SpotItem) : State :=
  if !s.on PIPE_CTRL.EN then s
  else if 262144 < s.inlineCount + it.count then
    let t := (s.bump PIPE_ERRCNT1.INLINE_DROP 1).loseLine it.src it.sweep
    if t.pipe.inlineRaised = it.sweep + 1 then t
    else (t.onPipe fun p => { p with inlineRaised := it.sweep + 1 }).raise 0x0D04 [it.stope, it.sweep]
  else s.onPipe fun p => { p with inline := p.inline ++ [it] }

/-- An item joins the spot queue of 4 MiB; a LINE that finds no room is dropped (R345, R349). -/
def State.toSpotQueue (s : State) (it : SpotItem) : State :=
  let n := it.packet.size
  if it.kind = 3 ∧ 4 * 2 ^ 20 < s.spot.queued + n then
    let t := (s.bump EXP_SPOT_ERRCNT.LINE_DROP 1).onSpot fun p =>
      { p with frame := p.frame.map fun f => { f with dropped := f.dropped + 1, raised := true } }
    match s.spot.frame with
    | some f => if f.raised then t else t.raise 0x0610 [it.stope, it.sweep]
    | none => t
  else (s.usesKibble).onSpot fun p => { p with queue := p.queue ++ [it], queued := p.queued + n }

/-- An item leaves the source: straight into the pipeline on the pithead, through the spot queue on a crew unit. -/
def State.spotEmit (s : State) (it : SpotItem) : State := if s.isPithead then s.toInline it else s.toSpotQueue it

/-- The source takes an item of a sweep in progress: DIRECT passes it on at once, STAGED keeps it until the last pass has ended, a
line in the memory of the stope's engine (R345, R346). -/
def State.spotTake (s : State) (f : SpotFrame) (it : SpotItem) : State :=
  let f' := { f with lines := f.lines + (if it.kind = 3 then 1 else 0) }
  if f.staged then
    let s := s.onSpot fun p => { p with frame := some { f' with items := f'.items ++ [it] } }
    match s.engineOf it.stope with
    | some e =>
      let at_ :=
        if it.kind = 2 then some (dsram + (if it.tap = 0 then 0x3FF000 else 0x3FF200))
        else if it.kind = 3 then some (dsram + (if it.tap = 1 ∧ it.fmt = 0 then 0x180000 else 0) + it.row * it.body.length)
        else none
      match at_ with
      | some a => s.setEngine e fun g => { g with mem := memWrite g.mem a it.body, staged := true }
      | none => s
    | none => s
  else (s.onSpot fun p => { p with frame := some f' }).spotEmit it

/-- A stope DMA item is shown to the spotlight source (R343, R345). -/
def State.spotSee (s : State) (kind stope tap pass row bin gains time : Nat) (last : Bool) (words : List Nat) (sweep : Nat) : State :=
  match s.spot.frame with
  | none => s
  | some f =>
    if f.sweep = sweep ∧ !f.complete ∧ bit f.mask stope ∧ bit f.taps tap then
      let body := if kind = 3 then lineBody f.fmt bin words else (words.map fun w => leBytes w 4).flatten
      s.spotTake f { src := s.tally, inc := s.inc, sweep := f.sweep, gear := f.gear, assign := f.assign, kind, fmt := f.fmt, bin, last,
                     gains, tap, stope, pass, row, count := if kind = 3 then words.length else 0, time, body }
    else s

/-- A condition of some stopes holds in a sweep: the frame that shows one of them carries it (R201, R350). -/
def State.spotFlag (s : State) (i : Nat) (p : Nat → Bool) : State :=
  s.onSpot fun q => { q with frame := q.frame.map fun f => if (List.range 256).any fun x => bit f.mask x && p x then { f with cond := setBit f.cond i true } else f }

/-- The CLOSE of the frame in progress (R350, R351): the conditions of the sweep and of the frame's stopes. -/
def State.spotClose (s : State) (f : SpotFrame) : SpotItem :=
  let aged := (List.range 256).any fun x => bit f.mask x && s.stopeAged x
  { src := s.tally, inc := s.inc, sweep := f.sweep, gear := f.gear, assign := f.assign, kind := 4, fmt := f.fmt
    time := f.at_ / 64
    body := leBytes (Tbl.get 0 s.cad.conds f.sweep ||| f.cond ||| (if aged then 2 ^ cdAGED else 0)) 4 ++ leBytes (f.lines - f.dropped) 4 ++ leBytes f.dropped 4 ++ zeroBytes 4 }

/-- The last pass of the frame has ended: its CLOSE follows its last line; a STAGED frame begins to be sent (R345, R351). -/
def State.spotComplete (s : State) : State :=
  match s.spot.frame with
  | none => s
  | some f =>
    if f.complete then s
    else if f.staged then
      (s.onSpot fun p => { p with frame := some { f with complete := true, items := f.items ++ [s.spotClose f] } }).reviewSpot
    else
      let t := (s.onSpot fun p => { p with frame := none }).spotEmit (s.spotClose f)
      (if s.isPithead then t.set EXP_SPOT_STATUS.FRAMES (s.get EXP_SPOT_STATUS.FRAMES + 1) else t).reviewSpot

/-- STAGED stops: sending ends and the staging regions are to be cleared (R348). -/
def State.stopStaged (s : State) : State :=
  let s := match s.spot.frame with
    | some f => if f.staged then s.onSpot fun p => { p with frame := none } else s
    | none => s
  if s.eng.engs.any fun e => e.2.staged then (s.set EXP_SPOT_STATUS.CLEARING 1).reviewSpot else s.reviewSpot

/-! ### Pipeline: contexts and frames (R356 to R361) -/

def State.ctx (s : State) (c : Nat) : Ctx := Tbl.get {} s.pipe.ctx c
def State.setCtx (s : State) (c : Nat) (f : Ctx → Ctx) : State :=
  s.onPipe fun p => { p with ctx := Tbl.set {} p.ctx c (f (Tbl.get {} p.ctx c)) }

/-- A parameter in a set of context fields. -/
def par (t : Tbl Nat) (f : Field) : Nat := Tbl.get f.reset t f.key

/-- The fields of a context (offsets 0x0D010 to 0x0D068). -/
def ctxFields : List Field :=
  [PIPE_CTX_CFG.SRC, PIPE_CTX_CFG.TAP, PIPE_CTX_CFG.RING, PIPE_CTX_CFG.FMT, PIPE_CTX_CFG.DEF_EN, PIPE_CTX_CFG.BLK_EN,
   PIPE_CTX_CFG.FLAT_EN, PIPE_CTX_OFS.OFS, PIPE_CTX_FLAT.BASE, PIPE_CTX_DEF.BASE, PIPE_CTX_DEFN.COUNT, PIPE_CTX_STAT.ZY,
   PIPE_CTX_STAT.ZX, PIPE_CTX_STAT.FOCUS, PIPE_CTX_STAT.ZONES, PIPE_CTX_STAT.HIST] ++
    (List.range 8).map PIPE_CTX_MASK.MASK ++ (List.range 9).map PIPE_CTX_MAT.M

/-- A stope lies in a context's mask (R360). -/
def ctxTakes (t : Tbl Nat) (stope : Nat) : Bool := bit (par t (PIPE_CTX_MASK.MASK (stope / 32))) (stope % 32)

/-- The PIPE domain runs: in READY and CAPTURE, on the unit that holds tally 1. -/
def State.pipeRuns (s : State) : Bool := s.isPithead && s.sysRuns && (decide (s.power = stREADY) || decide (s.power = stCAPTURE))

/-- PIPE_STATUS; while PIPE is stopped it reads as it stood (R39). -/
def State.reviewPipe (s : State) : State :=
  if !s.pipeRuns then s else
  let on := ((List.range 64).filter fun c => (s.ctx c).on).length
  ((s.put PIPE_STATUS.RUN (s.on PIPE_CTRL.EN)).set PIPE_STATUS.CTX_ON on).set PIPE_STATUS.LEVEL
    (min 4095 ((s.spotUsed + 65535) / 65536))

/-! ### Stages (R362 to R366) -/

/-- A byte field of the table area. -/
def State.tableAt (s : State) (a n : Nat) : Nat := ofLeBytes (memBytes s.pipe.table a n)

/-- The listed defects that count: entries in increasing order of y and then x, up to the first out of order (R366). -/
def defectsFrom : Option Nat → List Nat → List Nat
  | _, [] => []
  | none, e :: es => e :: defectsFrom (some e) es
  | some p, e :: es => if p < e then e :: defectsFrom (some e) es else []

def State.defects (s : State) (t : Tbl Nat) : List Nat :=
  defectsFrom none ((List.range (par t PIPE_CTX_DEFN.COUNT)).map fun i => s.tableAt (64 * par t PIPE_CTX_DEF.BASE + 4 * i) 4 % 2 ^ 28)

/-- The defect stage on one value of an unbinned line: the mean of the usable neighbours, flagged and counted where there is none.
The last two are 1 for a value fixed and for one left. -/
def defectStage (mosaic : Bool) (defs : List Nat) (x0 y : Nat) (vals : List (Int × Bool)) (i : Nat) : (Int × Bool) × Nat × Nat :=
  let v := vals.getD i (0, false)
  let listed := fun x => defs.contains (y * 16384 + x)
  if !listed (x0 + i) then (v, 0, 0)
  else
    let d := if mosaic then 2 else 1
    let l := if d ≤ i ∧ !listed (x0 + i - d) then vals[i - d]? else none
    let r := if !listed (x0 + i + d) then vals[i + d]? else none
    match l, r with
    | some a, some b => ((roundHalfEven (a.1 + b.1) 2, a.2 || b.2), 1, 0)
    | some a, none => (a, 1, 0)
    | none, some b => (b, 1, 0)
    | none, none => ((v.1, true), 0, 1)

/-- The flat gain at active (x, y), × 2⁻²⁵ (R364). -/
def State.flatGain (s : State) (t : Tbl Nat) (x y : Nat) : Nat :=
  let k := 2 * (y % 2) + x % 2
  let node := fun i j => s.tableAt (64 * par t PIPE_CTX_FLAT.BASE + 8 * (j * 513 + i) + 2 * k) 2
  let fx := x % 32
  let fy := y % 32
  let i := x / 32
  let j := y / 32
  node i j * ((32 - fx) * (32 - fy)) + node (i + 1) j * (fx * (32 - fy)) + node i (j + 1) * ((32 - fx) * fy) + node (i + 1) (j + 1) * (fx * fy)

/-- The black and flat stages: from half-electrons to electrons × 2⁻²⁹. -/
def State.blackFlat (s : State) (t : Tbl Nat) (black : List Nat) (gains m x y : Nat) (half : Int) : Int :=
  let g := x / 16 % 64
  let w := black.getD (if bit gains 1 then 64 + g else g) 0
  let e16 := 8 * half - (if par t PIPE_CTX_CFG.BLK_EN = 1 then (m : Int) * signed 32 w + signed 32 (par t PIPE_CTX_OFS.OFS) else 0)
  e16 * (if par t PIPE_CTX_CFG.FLAT_EN = 1 then (s.flatGain t x y : Int) else 2 ^ 25)

/-- A value rounded and held in a signed field of `w` bits; the second says it saturated. -/
def fitSigned (w : Nat) (z : Int) : Int × Bool :=
  let lo : Int := -(2 ^ (w - 1) : Nat)
  let hi : Int := (2 ^ (w - 1) : Nat) - 1
  (clampInt lo hi z, decide (z < lo ∨ hi < z))

/-- CORR32 of a value in electrons × 2⁻²⁹ (R365). -/
def corr32 (e : Int) (flag : Bool) : Nat :=
  let r := fitSigned 31 (roundHalfEven e (2 ^ 26))
  unsigned 31 r.1 + 2 ^ 31 * ofBool (flag || r.2)

/-- CODE16 of a value in electrons × 2⁻²⁹ (R352, R365). -/
def codeOf (e : Int) (flag : Bool) : Nat := code16 ((2 * e + 129 * 2 ^ 29) / 2 ^ 30).toNat flag

/-- One colour cell from its 2 × 2 values in electrons × 2⁻²⁹: X, Y and Z × 2⁻⁵⁵, the OR of the flags (R363). -/
def colourCell (t : Tbl Nat) (mosaic : Bool) (a b c d : Int × Bool) : (Int × Int × Int) × Bool :=
  let m := fun i => signed 32 (par t (PIPE_CTX_MAT.M i))
  let f := a.2 || b.2 || c.2 || d.2
  if mosaic then
    let x := 4 * b.1
    let y := 2 * (a.1 + d.1)
    let z := 4 * c.1
    ((m 0 * x + m 1 * y + m 2 * z, m 3 * x + m 4 * y + m 5 * z, m 6 * x + m 7 * y + m 8 * z), f)
  else ((0, m 4 * (a.1 + b.1 + c.1 + d.1), 0), f)

/-- The output bytes of a colour cell (R365). Negative results are 0. -/
def cellBytes (fmt : Nat) (r : (Int × Int × Int) × Bool) : List Nat :=
  let z := fun (v : Int) => max 0 v
  if fmt = 2 then
    let fit := fun (v : Int) (cap : Nat) =>
      let q := (roundHalfEven (z v) (2 ^ 51)).toNat
      (min q cap, decide (cap < q))
    let x := fit r.1.1 (2 ^ 31 - 1)
    let y := fit r.1.2.1 (2 ^ 32 - 1)
    let w := fit r.1.2.2 (2 ^ 32 - 1)
    leBytes (x.1 + 2 ^ 31 * ofBool (r.2 || x.2 || y.2 || w.2)) 4 ++ leBytes y.1 4 ++ leBytes w.1 4
  else
    let c := fun (v : Int) => leBytes (code16 ((2 * z v + 129 * 2 ^ 55) / 2 ^ 56).toNat r.2) 2
    c r.1.1 ++ c r.1.2.1 ++ c r.1.2.2

/-! ### Output and statistics (R367 to R369) -/

/-- A frame open from a source. -/
def State.frameOf (s : State) (src sweep : Nat) : Option Frame := s.pipe.frames.find? fun f => decide (f.src = src ∧ f.sweep = sweep)
def State.setFrame (s : State) (f : Frame) : State :=
  s.onPipe fun p => { p with frames := p.frames.map fun g => if g.src = f.src ∧ g.sweep = f.sweep then f else g }

/-- An output block of `lines` lines, 0 for a STAT block, goes to the context's data ring; one that must wait and finds the spot buffer
full, or whose ring carries another stream, is dropped, and its frame is incomplete (R368, R428). -/
def State.outBlock (s : State) (src sweep ring lines : Nat) (bytes : List Nat) : State :=
  let lose := fun (t : State) => (t.bump PIPE_ERRCNT1.OUT_DROP 1).onPipe fun p => { p with frames := p.frames.map fun g =>
    if g.src = src ∧ g.sweep = sweep then { g with lost := g.lost + lines, cut := true } else g }
  if s.get (HST_DR_CFG.STREAM ring) ≠ 2 ∧ s.get (HST_DR_CFG.STREAM ring) ≠ 0 then lose s
  else
    let t := s.deliver 2 ring bytes sweep
    if t.spotSize < t.spotUsed ∧ s.pipeWaiting < t.pipeWaiting then (lose s).loseItem 2 ring else t

/-- The block header (R367). -/
def blockHeader (f : Frame) (ctx kind row col count fmt bin tap gen time : Nat) : List Nat :=
  leBytes f.sweep 4 ++ leBytes f.gear 2 ++ leBytes f.assign 2 ++ [f.src, f.inc, ctx, kind] ++ leBytes row 2 ++ leBytes col 2 ++
    leBytes count 2 ++ [fmt + 4 * bin + 16 * tap, 0] ++ leBytes gen 2 ++ zeroBytes 2 ++ leBytes time 4 ++ zeroBytes 4

/-- Channel of a value by position (R51, R369): 0 X̄, 1 Ȳ, 2 Z̄. -/
def channelAt (mosaic : Bool) (x y : Nat) : Nat :=
  if !mosaic then 1 else if y % 2 = 0 then (if x % 2 = 0 then 1 else 0) else (if x % 2 = 0 then 2 else 1)

/-- The bounding box of the stopes of a mask, in active pixels: x, y, width, height. -/
def ctxBox (t : Tbl Nat) : Nat × Nat × Nat × Nat :=
  let ss := (List.range 256).filter (ctxTakes t)
  let cs := ss.map fun x => x % 16
  let rs := ss.map fun x => x / 16
  let c0 := cs.foldl min 15
  let c1 := cs.foldl max 0
  let r0 := rs.foldl min 15
  let r1 := rs.foldl max 0
  (1024 * c0, 768 * r0, 1024 * (c1 + 1 - c0), 768 * (r1 + 1 - r0))

/-- The zone of a position: the box is divided evenly, what is left over goes to the last zone (R369). -/
def zoneAt (t : Tbl Nat) (x y : Nat) : Nat :=
  let b := ctxBox t
  let nx := par t PIPE_CTX_STAT.ZX + 1
  let ny := par t PIPE_CTX_STAT.ZY + 1
  min (nx - 1) ((x - b.1) / max 1 (b.2.2.1 / nx)) + nx * min (ny - 1) ((y - b.2.1) / max 1 (b.2.2.2 / ny))

/-- The histogram bin of a value in electrons × 2⁻²⁹ (R369). -/
def histBin (e : Int) : Nat := if e < 2 ^ 29 then 0 else min 255 (Nat.log2 (e.toNat ^ 8) - 232)

/-- One value enters the statistics. -/
def Stats.add (st : Stats) (t : Tbl Nat) (mosaic : Bool) (x y : Nat) (e : Int) (flag : Bool) : Stats :=
  let c := channelAt mosaic x y
  let q := roundHalfEven e (2 ^ 26)
  let z := 4 * zoneAt t x y + c
  let st := { st with
    flagged := st.flagged + ofBool flag
    lo := Tbl.set none st.lo c (some (match Tbl.get none st.lo c with
      | some v => min v q
      | none => q))
    hi := Tbl.set none st.hi c (some (match Tbl.get none st.hi c with
      | some v => max v q
      | none => q)) }
  let st := if c = 1 ∧ par t PIPE_CTX_STAT.HIST = 1 then
      { st with hist := Tbl.set 0 st.hist (histBin e) (Tbl.get 0 st.hist (histBin e) + 1) } else st
  if par t PIPE_CTX_STAT.ZONES = 1 then
    { st with sum := Tbl.set 0 st.sum z (Tbl.get 0 st.sum z + q), cnt := Tbl.set 0 st.cnt z (Tbl.get 0 st.cnt z + 1) } else st

/-- A pair of values of one channel enters the focus sum of its zone, in (electrons × 2⁻²⁹)². -/
def Stats.addFocus (st : Stats) (t : Tbl Nat) (zone : Nat) (a b : Int) : Stats :=
  if par t PIPE_CTX_STAT.FOCUS = 1 ∧ par t PIPE_CTX_STAT.ZONES = 1 then
    { st with focus := Tbl.set 0 st.focus zone (Tbl.get 0 st.focus zone + ((a - b) * (a - b)).toNat) } else st

/-- A minimum or maximum in its signed 32-bit field, where it saturates; `none` is what it reads of a channel without a value. -/
def extreme (none : Nat) (v : Option Int) : List Nat :=
  leBytes (match v with
    | some q => unsigned 32 (clampInt (-2147483648) 2147483647 q)
    | .none => none % 2 ^ 32) 4

/-- The STAT body (R369). What MINMAX reads of a channel without a value the manual does not say: `free` stands for it. -/
def statBody (st : Stats) (t : Tbl Nat) (lost cond : Nat) (closed incomplete : Bool) (free : Nat) : List Nat :=
  let zx := par t PIPE_CTX_STAT.ZX + 1
  let zy := par t PIPE_CTX_STAT.ZY + 1
  let mm := ((List.range 3).map fun c => extreme (bits free (64 * c) 32) (Tbl.get none st.lo c) ++
    extreme (bits free (64 * c + 32) 32) (Tbl.get none st.hi c)).flatten
  let zone := fun z => ((List.range 3).map fun c => leBytes (unsigned 64 (Tbl.get 0 st.sum (4 * z + c))) 8 ++
    leBytes (Tbl.get 0 st.cnt (4 * z + c)) 4).flatten ++
      leBytes (roundHalfEven ((Tbl.get 0 st.focus z : Nat) : Int) (2 ^ 66)).toNat 8 ++ zeroBytes 4
  leBytes st.lines 4 ++ leBytes lost 4 ++ leBytes st.fixed 4 ++ leBytes st.left 4 ++ leBytes st.flagged 4 ++ leBytes cond 4 ++ [zx, zy] ++
    [ofBool incomplete + 2 * ofBool (!closed) + 4 * ofBool (bit cond 0)] ++ zeroBytes 5 ++ mm ++ zeroBytes 8 ++
    ((List.range 256).map fun i => leBytes (Tbl.get 0 st.hist i) 4).flatten ++
    (if par t PIPE_CTX_STAT.ZONES = 1 then ((List.range (zx * zy)).map zone).flatten else [])

/-- A frame has lost a line or an output block, or its CLOSE reports `dropped` lines or never came (R356, R368). -/
def Frame.broken (f : Frame) (closed : Bool) (dropped : Nat) : Bool := !closed || f.cut || decide (f.lost + dropped ≠ 0)

/-- The STAT block of a context at the end of a frame (R367, R369). TIME is that of the CLOSE item; of a frame that ends without one the manual
names no item, and TIME is a free value (notes/assumptions/64.md). -/
def State.statBlock (s : State) (f : Frame) (closed : Bool) (cond dropped time : Nat) (c : Nat × Nat × Tbl Nat) : State :=
  let g := (s.frameOf f.src f.sweep).getD f
  let k := c.2.2
  let r := s.free
  let at_ := if closed then time else bits r.1 192 32
  r.2.outBlock f.src f.sweep (par k PIPE_CTX_CFG.RING) 0
    (blockHeader f c.1 1 0 0 0 (par k PIPE_CTX_CFG.FMT) 0 (par k PIPE_CTX_CFG.TAP) c.2.1 at_ ++
      statBody (Tbl.get {} f.stats c.1) k (g.lost + dropped) cond closed (g.broken closed dropped) r.1)

/-- A frame ends (R356): each context writes its STAT block, an incomplete frame is counted and raised. -/
def State.endFrame (s : State) (f : Frame) (closed : Bool) (cond dropped time : Nat) : State :=
  let s := f.ctxs.foldl (fun t c => t.statBlock f closed cond dropped time c) s
  let bad := ((s.frameOf f.src f.sweep).getD f).broken closed dropped
  let s := s.onPipe fun p => { p with frames := p.frames.filter fun g => decide (¬ (g.src = f.src ∧ g.sweep = f.sweep)) }
  if bad then (s.bump PIPE_ERRCNT2.INCOMPLETE 1).raise 0x0D02 [(f.ctxs.map Prod.fst).headD 0, f.src, f.sweep] else s

/-- Open frames end as incomplete, and so does the DIRECT frame that the source is taking: no CLOSE follows it (R371). -/
def State.endFrames (s : State) : State :=
  let t := s.onSpot fun p => { p with frame := p.frame.filter fun f => f.staged }
  ((t.pipe.frames.foldl (fun t f => t.endFrame f false 0 0 0) t).reviewSpot).reviewPipe

end Sys2Proof.Machine
end

