-- ==== Sys2Proof/Machine/Measure.lean ====
section
/-!
DEFINITION. The formats and the arithmetic of ch. 07 as functions of bytes and values: the emitter map, the patch, the channel sums, X, Y and Z,
quality, centroid, and the key, delta and STAT records (R234 to R261).
-/
namespace Sys2Proof.Machine

/-! ### The emitter map (R231, R234 to R239) -/

/-- Data SRAM offsets of the standard program's tables. -/
def mapEntries : Nat := 0x001000
def mapWeights : Nat := 0x081000
def mapFlat : Nat := 0x0C1000
def mapKeys : Nat := 0x241000
def mapSumsA : Nat := 0x301000
def mapWork : Nat := 0x3C1000

/-- The map header. -/
structure MapHeader where
  version : Nat
  format : Nat
  bin : Nat
  count : Nat
  patch : Nat
  keyLog : Nat
  wsets : Nat
  matrix : List Int
  dthresh : Nat
  shx : Nat
  shy : Nat
  shz : Nat
  crcs : List Nat
  deriving DecidableEq, Repr

/-- Map header bytes read as R234 lays them out. -/
def mapHeader (b : List Nat) : MapHeader :=
  { version := bytesAt b 0 2, format := bytesAt b 2 1, bin := bytesAt b 3 1, count := bytesAt b 4 4, patch := bytesAt b 8 1
    keyLog := bytesAt b 9 1, wsets := bytesAt b 10 2, matrix := (List.range 9).map fun i => signed 32 (bytesAt b (12 + 4 * i) 4)
    dthresh := bytesAt b 48 2, shx := bits (bytesAt b 50 1) 4 4, shy := bits (bytesAt b 50 1) 0 4, shz := bits (bytesAt b 51 1) 0 4
    crcs := (List.range 4).map fun i => bytesAt b (52 + 4 * i) 4 }

/-- Pixels of a map's grid by binning code. -/
def gridWidth (bin : Nat) : Nat := if bin = 0 then 1024 else if bin = 1 then 512 else 256
def gridPixels (bin : Nat) : Nat := gridWidth bin * (gridWidth bin / 4 * 3)

/-- Data SRAM bytes of the tables from an offset. -/
def tableBytes (m : List Host.Cell) (off n : Nat) : List Nat := memBytes m (dsram + off) n

/-- The table region of a memory (R232). -/
def tablesOf (m : List Host.Cell) : List Host.Cell := m.filter fun c => decide (dsram ≤ c.1 ∧ c.1 < dsram + mapKeys)

/-- All four CRCs match and FORMAT is 1 (R235). -/
def mapSound (m : List Host.Cell) : Bool :=
  let sram := tableBytes m
  let h := mapHeader (sram 0 68)
  decide (h.format = 1 ∧
    h.crcs = [crc32 (sram mapEntries (8 * h.count)), crc32 (sram mapWeights (128 * h.wsets)), crc32 (sram mapFlat (2 * gridPixels h.bin)), crc32 (sram 0 64)])

/-- An entry: centroid in pixels × 2⁻⁶, weight set, EDGE and EN (R236). -/
structure Emitter where
  cx : Nat
  cy : Nat
  wset : Nat
  edge : Bool
  enabled : Bool
  deriving DecidableEq, Repr

def mapEntry (b : List Nat) : Emitter := ⟨bytesAt b 0 2, bytesAt b 2 2, bytesAt b 4 2 % 2048, bit (bytesAt b 6 1) 1, bit (bytesAt b 6 1) 0⟩

/-- The local index of emitter n of a stope (R236). -/
def localIndex (stope n : Nat) : Nat := 65536 * stope + n

/-- The top-left patch pixel along one axis: ⌊C − P ÷ 2 + 0.5⌋ (R237). -/
def patchOrigin (c p : Nat) : Int := ((c : Int) - 32 * p + 32) / 64

/-! ### From tap values to X, Y and Z (R244 to R247) -/

/-- A patch pixel of one tap: its place in the grid, channel 0 X̄, 1 Ȳ, 2 Z̄; its word, BLACK average (electrons × 2⁻⁴), flat gain (× 2⁻¹⁵) and
weight (× 2⁻¹²). -/
structure PatchPixel where
  x : Nat
  y : Nat
  chan : Nat
  word : Nat
  black : Int
  gain : Nat
  weight : Nat
  deriving DecidableEq, Repr

/-- The places of the P × P patch that lie within the stope: place in the weight set, x and y (R237). -/
def patchSites (h : MapHeader) (em : Emitter) : List (Nat × Nat × Nat) :=
  let w := gridWidth h.bin
  (List.range (h.patch * h.patch)).filterMap fun k =>
    let x := patchOrigin em.cx h.patch + (k % h.patch : Nat)
    let y := patchOrigin em.cy h.patch + (k / h.patch : Nat)
    if 0 ≤ x ∧ x < w ∧ 0 ≤ y ∧ y < w / 4 * 3 then some (k, x.toNat, y.toNat) else none

/-- β of a pixel (R244): the LCG word of its column group when the pass converted LCG, the HCG word otherwise; 0 without a BLACK item. -/
def blackAt (w : StdSweep) (tap bin x : Nat) : Int :=
  match Tbl.get [] w.black tap with
  | [] => 0
  | l => signed 32 (l.getD ((if bit (Tbl.get 0 w.gains tap) 1 then 64 else 0) + 1024 / gridWidth bin * x / 16) 0)

/-- The line of a row of a tap as received, empty where it was lost. -/
def lineOf (w : StdSweep) (tap y : Nat) : List Nat := Tbl.get [] w.lines (65536 * tap + y)

/-- The patch of an emitter in one tap (R237 to R239): weights from its set, gains from the flat field, both row by row. A pixel whose line was lost
is left out. -/
def patchPixels (m : List Host.Cell) (h : MapHeader) (mono : Bool) (w : StdSweep) (tap : Nat) (em : Emitter) : List PatchPixel :=
  (patchSites h em).filterMap fun (k, x, y) =>
    if (lineOf w tap y).isEmpty then none
    else some ⟨x, y, channelAt (!mono) x y, (lineOf w tap y).getD x 0, blackAt w tap h.bin x,
      bytesAt (tableBytes m (mapFlat + 2 * (gridWidth h.bin * y + x)) 2) 0 2, bytesAt (tableBytes m (mapWeights + 128 * em.wset + 2 * k) 2) 0 2⟩

/-- v′ in electrons × 2⁻¹⁹ (R244). -/
def PatchPixel.value (p : PatchPixel) : Int := (8 * wordValue p.word - p.black) * p.gain

/-- S_c in electrons × 2⁻³¹ (R245). -/
def channelSum (ps : List PatchPixel) (c : Nat) : Int := (ps.filter fun p => decide (p.chan = c)).foldl (fun z p => z + p.weight * p.value) 0

/-- D_c and the background by mode and taps read (R246); `b` is none where one tap was read. VIDEO makes no records. -/
def netSum (mode : Nat) (a : List PatchPixel) (b : Option (List PatchPixel)) (c : Nat) : Int :=
  match b with
  | none => channelSum a c
  | some b => if mode = 3 then channelSum a c - channelSum b c else channelSum a c
def background (b : Option (List PatchPixel)) : Int :=
  match b with
  | none => 0
  | some b => channelSum b 1

/-- A field of electrons × 2⁻⁴ from a value with `k` fraction bits, and whether it overflowed or was negative (R247). -/
def recordField (z : Int) (k : Nat) : Nat × Bool × Bool :=
  let r := roundHalfEven z (2 ^ (k - 4))
  if r < 0 then (0, false, true) else if 0xFFFFFFFF < r then (0xFFFFFFFF, true, false) else (r.toNat, false, false)

/-- X, Y and Z in electrons × 2⁻⁵⁵ (R247). -/
def tristimulus (mono : Bool) (m : List Int) (d : List Int) : List Int :=
  let at_ := fun (l : List Int) i => l.getD i 0
  if mono then [0, at_ m 4 * at_ d 1, 0]
  else (List.range 3).map fun r => at_ m (3 * r) * at_ d 0 + at_ m (3 * r + 1) * at_ d 1 + at_ m (3 * r + 2) * at_ d 2

/-! ### Quality and centroid (R248, R249) -/

/-- σ² of R248, × 100 · 2⁴³. `lcg` says that the values are at LCG. -/
def noiseSum (lcg : Bool) (a : List PatchPixel) (b : Option (List PatchPixel)) : Nat :=
  let r2 := if lcg then 24200 else 722
  let ys := fun (l : List PatchPixel) => l.filter fun p => decide (p.chan = 1)
  let part := fun (p : PatchPixel) (q : Nat) => p.weight * p.weight * (100 * (p.value.natAbs + q) + r2 * 2 ^ 19)
  match b with
  | none => (ys a).foldl (fun n p => n + part p 0) 0
  | some b => (List.zipWith (fun p q => part p q.value.natAbs) (ys a) (ys b)).foldl (· + ·) 0

/-- Quality from D_Ȳ (electrons × 2⁻³¹) and σ². -/
def quality (d : Int) (noise : Nat) : Nat :=
  if d ≤ 0 then 0
  else ((List.range 8).filter fun k => decide (4 ^ (5 + k) * noise * 2 ^ 19 ≤ d.natAbs * d.natAbs * 100)).foldl max 0

/-- A centroid offset in pixels × 2⁻⁶, held at ±127, 0x80 where there is none. `net` lists net Ȳ values with their pixel coordinate. -/
def centroidByte (net : List (Int × Int)) (c : Nat) (nophot : Bool) : Nat :=
  let t := net.foldl (fun z e => z + e.1) 0
  if nophot ∨ t ≤ 0 then 0x80
  else unsigned 8 (clampInt (-127) 127 (roundHalfEven (net.foldl (fun z e => z + e.1 * (64 * e.2 + 32)) 0) t - c))

/-- PEAK of the largest VALUE of tap A in the patch. -/
def peakField (a : List PatchPixel) : Nat := min 65535 ((a.foldl (fun m p => max m (wordValue p.word)) 0) / 4096).toNat

/-! ### One emitter in one sweep (R244 to R249, R252, R253) -/

/-- What a sweep says of an emitter: X, Y, Z and background, quality, centroid offsets, PEAK and the flags. -/
structure Measured where
  x : Nat
  y : Nat
  z : Nat
  bg : Nat
  q : Nat
  dx : Nat
  dy : Nat
  peak : Nat
  nophot : Bool
  sat : Bool
  short : Bool
  edge : Bool
  deriving DecidableEq, Repr

/-- NOPHOT of R253. -/
def nophotOf (sat lost short : Bool) (mode : Nat) : Bool := sat || lost || (short && decide (mode = 3))

/-- An emitter measured from the taps read, `taps` (0 A, 1 B), in a mode. -/
def measure (m : List Host.Cell) (h : MapHeader) (mono : Bool) (mode : Nat) (taps : List Nat) (w : StdSweep) (em : Emitter) : Measured :=
  let px := fun tap => patchPixels m h mono w tap em
  let first := taps.headD 0
  let a := px first
  let b := if taps.length = 2 then some (px 1) else none
  let enters := if mode = 3 then b else none
  let d := netSum mode a b
  let xyz := (tristimulus mono h.matrix [d 0, d 1, d 2]).map fun z => recordField z 55
  let bg := recordField (background b) 31
  let all := bg :: xyz
  let words := taps.flatMap fun t => (px t).map fun p => p.word
  let sat := (words.any fun v => bit v 31 || bit v 30) || all.any fun r => r.2.1
  let short := words.any fun v => bit v 29
  let lost := taps.any fun t => (patchSites h em).any fun e => (lineOf w t e.2.2).isEmpty
  let nophot := nophotOf sat lost short mode
  let dy := d 1
  let q := if all.any fun r => r.2.2 then 0 else quality dy (noiseSum (bit (Tbl.get 0 w.gains first) 1) a enters)
  let ys := fun (l : List PatchPixel) => l.filter fun p => decide (p.chan = 1)
  let net : List (PatchPixel × Int) := match enters with
    | none => (ys a).map fun (p : PatchPixel) => (p, p.value)
    | some b => List.zipWith (fun (p r : PatchPixel) => (p, p.value - r.value)) (ys a) (ys b)
  let field := fun i => ((xyz[i]?).getD (0, false, false)).1
  { x := field 0, y := field 1, z := field 2, bg := bg.1, q
    dx := centroidByte (net.map fun e => (e.2, (e.1.x : Int))) em.cx nophot, dy := centroidByte (net.map fun e => (e.2, (e.1.y : Int))) em.cy nophot
    peak := if taps.contains 0 then peakField (px 0) else 0, nophot, sat, short, edge := em.edge }

/-! ### Records (R250 to R259, R261) -/

/-- The flag byte of R252. -/
def flagByte (q : Nat) (nophot sat short edge : Bool) : Nat := q * 32 + ofBool nophot * 16 + ofBool sat * 8 + ofBool short * 4 + ofBool edge * 2

/-- The flag byte of a measured emitter. -/
def Measured.flags (r : Measured) : Nat := flagByte r.q r.nophot r.sat r.short r.edge

/-- The key record of R254. -/
def keyRecord (index flags x y z bg dx dy peak : Nat) : List Nat :=
  leBytes index 3 ++ [flags] ++ leBytes x 4 ++ leBytes y 4 ++ leBytes z 4 ++ leBytes bg 4 ++ [dx, dy] ++ leBytes peak 2

/-- The key record of a measured emitter: without photometry X, Y, Z and background read 0 (R252). -/
def Measured.key (r : Measured) (index : Nat) : List Nat :=
  let v := fun n => if r.nophot then 0 else n
  keyRecord index r.flags (v r.x) (v r.y) (v r.z) (v r.bg) r.dx r.dy r.peak

/-- Δ_c of R255. -/
def deltaOf (f k sh : Nat) : Int := roundHalfEven ((f : Int) - k) (2 ^ sh)

/-- The delta record of R255, none where a Δ does not fit and a key record goes instead. -/
def deltaRecord (index flags : Nat) (dx dy dz : Int) : Option (List Nat) :=
  if within8 dx && within8 dz && decide (-32768 ≤ dy ∧ dy ≤ 32767) then
    some (leBytes index 3 ++ [flags] ++ leBytes (unsigned 16 dy) 2 ++ [unsigned 8 dx, unsigned 8 dz])
  else none
where
  /-- A Δ of one byte. -/
  within8 (d : Int) : Bool := decide (-128 ≤ d ∧ d ≤ 127)

/-- The pithead's reconstruction of a field (R255). -/
def deltaField (k : Nat) (d : Int) (sh : Nat) : Int := (k : Int) + d * 2 ^ sh

/-- A stope has a scheduled key sweep (R256). -/
def keySweepDue (sweep lockN stope keyLog : Nat) : Bool := decide ((sweep / lockN + stope) % 2 ^ keyLog = 0)

/-- An emitter gets a record outside a key sweep (R259). -/
def wantsRecord (now key : List Nat) (dthresh : Nat) (flags keyFlags : Nat) (before : Bool) : Bool :=
  (List.zipWith (fun (f k : Nat) => decide (k * dthresh < ((f : Int) - (k : Int)).natAbs * 65536)) now key).any id ||
    decide (bits flags 1 4 ≠ bits keyFlags 1 4) || before

/-- The header extension of R250. -/
def headerExtension (mapBad keySweep : Bool) (version keyRef shxy shz : Nat) : List Nat :=
  [128 + 2 * ofBool mapBad + ofBool keySweep, 0] ++ leBytes version 2 ++ leBytes keyRef 4 ++ [shxy, shz] ++ zeroBytes 6

/-- The STAT record of R261. -/
def statRecord (nMeas nNophot nSat nShort : Nat) (mdx mdy : Int) (sumY sumBg : Nat) (hist : List Nat) : List Nat :=
  leBytes nMeas 4 ++ leBytes nNophot 4 ++ leBytes nSat 4 ++ leBytes nShort 4 ++ leBytes (unsigned 32 mdx) 4 ++ leBytes (unsigned 32 mdy) 4 ++
    leBytes sumY 8 ++ leBytes sumBg 8 ++ ((List.range 8).map fun i => leBytes (min 65535 (hist.getD i 0)) 2).flatten ++ zeroBytes 8

/-- The STAT record of a sweep's measured emitters (R261). The mean offsets are taken over those with an offset, rounded half to even. -/
def statOf (l : List Measured) : List Nat :=
  let good := l.filter fun r => !r.nophot
  let has := good.filter fun r => decide (r.dx ≠ 0x80)
  let mean := fun (f : Measured → Nat) => if has.isEmpty then 0 else roundHalfEven (has.foldl (fun z r => z + 64 * signed 8 (f r)) 0) has.length
  statRecord good.length (l.filter fun r => r.nophot).length (l.filter fun r => r.sat).length (l.filter fun r => r.short).length
    (mean fun r => r.dx) (mean fun r => r.dy) (good.foldl (fun n r => n + r.y) 0) (good.foldl (fun n r => n + r.bg) 0)
    ((List.range 8).map fun q => (l.filter fun r => decide (r.q = q)).length)

/-- A survey blob record (R241). -/
def blobRecord (cx cy sum mxx myy : Nat) (mxy : Int) (sat edge merged : Bool) : List Nat :=
  leBytes cx 2 ++ leBytes cy 2 ++ leBytes sum 4 ++ leBytes mxx 2 ++ leBytes myy 2 ++ leBytes (unsigned 16 mxy) 2 ++
    leBytes (ofBool sat + 2 * ofBool edge + 4 * ofBool merged) 2 ++ zeroBytes 16

/-- A bright region as the survey program reports it (R241): centroid of the net values (electrons × 2⁻⁴) of its pixels, then SUM and the
moments over the 8 × 8 window about it. `net` gives a pixel's value and whether its words carry EXH or CLIP. DESIGN CHOICE
(notes/assumptions/54.md): the centroid is that of the region, the moments those of the window. -/
structure Blob where
  cx : Nat
  cy : Nat
  sum : Nat
  mxx : Nat
  myy : Nat
  mxy : Int
  sat : Bool
  edge : Bool
  deriving DecidableEq, Repr

def blobOf (net : Nat → Nat → Int × Bool) (width : Nat) (region : List (Nat × Nat)) : Blob :=
  let mass := region.foldl (fun z e => z + (net e.1 e.2).1) 0
  let mean := fun (f : Nat × Nat → Nat) =>
    (clampInt 0 65535 (roundHalfEven (region.foldl (fun z e => z + (net e.1 e.2).1 * (64 * f e + 32 : Nat)) 0) (max 1 mass))).toNat
  let cx := mean Prod.fst
  let cy := mean Prod.snd
  let site := fun (k : Nat) => (patchOrigin cx 8 + k % 8, patchOrigin cy 8 + k / 8)
  let inside := fun (e : Int × Int) => decide (0 ≤ e.1 ∧ e.1 < width ∧ 0 ≤ e.2 ∧ e.2 < width / 4 * 3)
  let sites := (List.range 64).map site
  let win := (sites.filter inside).map fun e => (e.1.toNat, e.2.toNat)
  let total := win.foldl (fun z e => z + (net e.1 e.2).1) 0
  let moment := fun (f g : Nat × Nat → Int) => roundHalfEven (win.foldl (fun z e => z + (net e.1 e.2).1 * f e * g e) 0) (16 * max 1 total)
  let ox := fun (e : Nat × Nat) => (64 * e.1 + 32 : Int) - cx
  let oy := fun (e : Nat × Nat) => (64 * e.2 + 32 : Int) - cy
  { cx, cy, sum := (clampInt 0 0xFFFFFFFF total).toNat, mxx := (clampInt 0 65535 (moment ox ox)).toNat, myy := (clampInt 0 65535 (moment oy oy)).toNat
    mxy := clampInt (-32768) 32767 (moment ox oy), sat := win.any fun e => (net e.1 e.2).2, edge := sites.any fun e => !inside e }

/-- The blob records of a picture's bright regions, MERGED where another lies within 3 pixels (R241). -/
def blobStream (net : Nat → Nat → Int × Bool) (width : Nat) (regions : List (List (Nat × Nat))) : List Nat :=
  let bs := regions.map (blobOf net width)
  let near := fun (a b : Blob) => decide (((a.cx : Int) - b.cx) ^ 2 + ((a.cy : Int) - b.cy) ^ 2 ≤ 192 ^ 2)
  (List.range bs.length).flatMap fun i =>
    match bs[i]? with
    | none => []
    | some b => blobRecord b.cx b.cy b.sum b.mxx b.myy b.mxy b.sat b.edge ((List.range bs.length).any fun j =>
        decide (j ≠ i) && (bs[j]?).any fun c => near b c)

/-- The bit a blob shows in a pattern: SUM exceeds (SUM_F + SUM_D) ÷ 2 (R242). -/
def blobBit (sum sumF sumD : Nat) : Bool := decide (sumF + sumD < 2 * sum)

end Sys2Proof.Machine
end

