-- ==== Sys2Proof/Machine/ProgramOps.lean ====
section
/-!
DEFINITION. The programs of the Kynko kit as they start on an engine: the tables, the rings and the host window (R230 to R235). What they do with
what they are given is in Program.lean. DESIGN CHOICE (notes/assumptions/53.md): an engine started with such a program's image in its
instruction memory does what ch. 07 says of that program as each item or message reaches it.
-/
namespace Sys2Proof.Machine

/-- The program in an engine's instruction memory: 1 standard, 2 survey, 0 another. -/
def Eng.kit (g : Eng) : Nat := Config.kitProgram (g.mem.filter fun c => decide (c.1 < 0x10000))

/-- The engine runs a program of the kit. -/
def Eng.runsKit (g : Eng) : Bool := decide (g.st = 1) && g.std.isSome

/-- A program event (R228): data engine and stope. -/
def State.programEvent (s : State) (e cause : Nat) : State := s.raise (0x0A80 + cause % 128) [e, (s.stopeOf e).getD 0]

/-- Program events of R263. -/
def evCRC : Nat := 0
def evBIN : Nat := 1
def evDEFERRED : Nat := 2
def evAPPLIED : Nat := 3

/-- The host window of the standard program (R232): offsets 0 to 0x240FFF in IDLE and READY, closed otherwise. -/
def Eng.kitWindow (g : Eng) (power : Nat) : Eng :=
  (g.setL lclHwinBase 0).setL lclHwinSize (if power = stIDLE ∨ power = stREADY then mapKeys else 0)

/-- Every engine that runs a program of the kit sets its host window for the power state. -/
def State.kitWindows (s : State) : State :=
  s.onEng fun g => { g with engs := g.engs.map fun e => if e.2.runsKit then (e.1, e.2.kitWindow s.power) else e }

/-- The rings, set up anew and empty, with EN 1 (R231, R217). -/
def Eng.kitRings (g : Eng) : Eng :=
  ((((g.setL lclInBase Config.kitRing.1).setL lclInTag Config.kitRing.2.1).setL lclInCfg (Config.kitRing.2.2 + 2 ^ 31)).setL lclInRd (g.l lclInWr))

/-- READY to the foreman as initialisation completes (R212); nothing where the outbox is full. -/
def Eng.sayReady (g : Eng) : Eng :=
  let w := g.l lclOutboxWr
  if (w + 1) % 16 = g.l lclOutboxRd then g
  else { g with mem := memWrite g.mem (outboxBase + 64 * w) (message 0x8001 [] 0) }.setL lclOutboxWr ((w + 1) % 16)

/-- What a kit program does first (R232, R235): it checks the CRCs of its map, sets its rings and its window, and owes a key sweep (R257). -/
def State.kitStart (s : State) (e : Nat) : State :=
  let k := (s.engine e).kit
  if k = 0 ∨ 2 < k then s.setEngine e fun g => { g with std := none }
  else
    let map := tablesOf (s.engine e).mem
    let ok := mapSound map
    let t := s.setEngine e fun g => { ((g.kitRings).kitWindow s.power).sayReady with std := some { survey := decide (k = 2), map, sound := ok } }
    t.when (decide (k = 1) && !ok) fun t => t.programEvent e evCRC

/-- An engine starts (R215), and its program with it. -/
def State.startWith (s : State) (e cause : Nat) : State := (s.setEngine e fun g => g.start cause s.fwc).kitStart e

end Sys2Proof.Machine
end

