-- ==== Sys2Proof/Machine/HoldRules.lean ====
section
/-!
DEFINITION. What entry to HOLD, leaving HOLD and a stop of the CADENCE domain do to each block, by the blocks' own rules.
-/
namespace Sys2Proof.Machine

/-- Every engine RUNNING goes to HALTED and is remembered (R216); items claimed are discarded (R193, R195). -/
def State.haltEngines (s : State) : State :=
  s.onEng fun g => { g with
    engs := g.engs.map fun e => if e.2.st = 1 then (e.1, { e.2 with st := 0, stopPc := e.2.pc, ran := true, again := 1, claimed := [] }) else e }

/-- Engines that ran at entry to HOLD start with CAUSE 1, a remap's target with CAUSE 2 (R216, R220), where their quadrant runs (R226). -/
def State.restartEngines (s : State) : State :=
  let due := (s.eng.engs.filter fun e => e.2.ran).map fun e => (e.1, e.2.again)
  let t := s.onEng fun g => { g with engs := g.engs.map fun e => (e.1, { e.2 with ran := false }) }
  due.foldl (fun t e => if t.quadrantRuns e.1 then t.startWith e.1 e.2 else t) t

/-- A run no longer is in progress; the quadrant that a run in SAFE-TALK enabled is disabled again (R501). -/
def State.endBist (s : State) : State :=
  let t := match s.nvs.bistQuad with
    | none => s
    | some q => s.putBit ENG_STATUS.QRUN q false
  (t.onNvs fun n => { n with bist := none, bistQuad := none }).set BIST_STATUS.BUSY 0

/-- A BIST run in progress ends as aborted (R502). -/
def State.abortBist (s : State) : State :=
  match s.nvs.bist with
  | none => s
  | some _ => (s.endBist).set BIST_STATUS.RESULT 5

/-- Every block's rule at entry to HOLD: the cadence unit (R122), the engines and the record port (R195, R216), the spotlight source and
the pipeline (R348, R371), the ports (R291), the self-test (R502). -/
def State.holdBlocks (s : State) : State := ((((((s.cadHold).haltEngines).sealAll).stopStaged).endFrames).endLoops).abortBist

/-- Every block's rule at leaving HOLD: LS_FAULT clears (R121), engines restart (R216). -/
def State.leaveBlocks (s : State) : State := (s.set CAD_STATE.LS_FAULT 0).restartEngines

/-- CADENCE, the converters and STROBE_IO stop (R92, R122, R32). -/
def State.stopCadence (s : State) : State := s.haltCadence

end Sys2Proof.Machine
end

