-- ==== Sys2Proof/Machine/Recovery.lean ====
section
/-!
DEFINITION. HOLD, trips and the recovery ladder (ch. 14) as shared operations: entering HOLD, latching a trip, a fault calling
a recovery level, the end of a recovery, and the transitions of R454 they bring.
-/
namespace Sys2Proof.Machine

/-! ### Entering and leaving HOLD -/

/-- A transition of R454 completes: STATE changes and PWR_STATE_CHANGED is raised with the old and new state. -/
def State.toPower (s : State) (n : Nat) : State :=
  let old := s.power
  ((((s.set PWR_STATUS.STATE n).set PWR_STATUS.BUSY 0).raise 0x0101 [old, n]).reviewMreq).reviewForcing

/-- Entry to HOLD (R454): from IDLE, READY and CAPTURE; a unit in HOLD, SAFE-TALK or STANDBY stays where it is. Outputs become
harmless through the forcing of HOLD, each block follows its own rule, and HOLD_ENTERED carries the cause and the level. A command to
STANDBY that waits for a commit goes on waiting (R457). -/
def State.enterHold (s : State) (cause : Nat) : State :=
  if stIDLE ≤ s.power ∧ s.power ≤ stCAPTURE ∧ s.pwr.startup = 0 ∧ s.pwr.sysrst = false then
    let old := s.power
    let t := { s with saf := { s.saf with entryState := old } }
    let keep := decide (s.get PWR_STATUS.PENDING = stSTANDBY)
    let t := (((t.holdBlocks).when (!keep) fun t => t.set PWR_STATUS.PENDING 0).toPower stHOLD).put PWR_STATUS.BUSY keep
    t.raise 0x0302 [cause, s.get SAF_STATUS.LEVEL]
  else s

/-! ### Fault classes (R475) -/

/-- Faults that come from one condition share a class: a canary trip and the block event of the same condition are one fault.
Classes 0 to 10 are the trip causes. -/
def faultClass (code arg : Nat) : Nat :=
  if code = 0x0301 then arg
  else if code = 0x0202 then (if arg = 1 then trPLL_T else if arg = 2 then trPLL_S else 0x0202)
  else if code = 0x0103 then trRAIL
  else if code = 0x050D then trCAD_LS
  else if code = 0x0309 then trFOREMAN_LS
  else code * 65536 + arg

/-- The converter bank re-calibration, the only L1 action that waits for a gap mark (R162, R478). -/
def isGapAction (code : Nat) : Bool := decide (code = 0x0703)

/-- The L1 actions that are port retrains (R473, R478). -/
def isPortAction (code : Nat) : Bool := decide (code = 0x0C03 ∨ code = 0x0C05 ∨ code = 0x0C02)

/-! ### The ladder (R473 to R478) -/

/-- A fault is logged in SAF_F0 (k = 0) or SAF_F1 (k = 1) with the level it called, the level entered and its count. -/
def State.logFault (s : State) (k code called entered : Nat) : State :=
  (((((s.set (SAF_F_CODE.CODE k) code).set (SAF_F_CODE.CALLED k) called).set (SAF_F_CODE.ENTERED k) entered).set
    (SAF_F_FWC0.FWC_LO k) s.fwc).set (SAF_F_FWC1.FWC_MID k) (s.fwc / 2 ^ 32)).set (SAF_F_FWC2.FWC_HI k) (s.fwc / 2 ^ 64)

/-- A canary cause latches (R461, R463): its live bit follows the condition, instants apart; the trip is counted and raised. A
cause whose live bit is 1 already latches nothing new. -/
def State.latchTrip (s : State) (i : Nat) : State :=
  let instant := i = trCAD_LS ∨ i = trMREQ ∨ i = trTEST
  if s.bitOf SAF_TRIP.LIVE i then s
  else
    let t := if instant then s else s.putBit SAF_TRIP.LIVE i true
    let t := (t.putBit SAF_TRIP.LATCHED i true).bump SAF_CNT1.TRIP_CNT 1
    let t := (t.raise 0x0301 [t.get SAF_TRIP.LATCHED, t.fwc]).reviewMreq
    -- the one CANARY cycle for which the live bit of TEST forces the data outputs
    let t := if i = trTEST then ((t.putBit SAF_TRIP.LIVE i true).reviewForcing).putBit SAF_TRIP.LIVE i false else t
    t.reviewForcing

/-- The foreman asserts the HOLD request line: cause REQ latches (R465). -/
def State.assertRequest (s : State) : State :=
  ({ s with saf := { s.saf with request := true } }).latchTrip trREQ

/-- The foreman releases the HOLD request and clears the REQ bit (R465). -/
def State.releaseRequest (s : State) : State :=
  ((({ s with saf := { s.saf with request := false } }).putBit SAF_TRIP.LIVE trREQ false).putBit SAF_TRIP.LATCHED trREQ
    false).noteR44.reviewForcing

/-- The L2 actions of R568 are complete once nothing is left to redo and no reboot is awaited: the L2's HOLD cause ends and the
request is released (R465, R471). -/
def State.settleL2 (s : State) : State :=
  if s.saf.acting && s.saf.redo.isEmpty && !s.saf.reboot then
    ({ s with saf := { s.saf with acting := false } }).releaseRequest
  else s

/-- A recovery begins at a level (R478): its fault is logged, the clock of its limit starts, and the counters count it. -/
def State.beginLevel (s : State) (level code arg called : Nat) : State :=
  let t := ((s.set SAF_STATUS.LEVEL level).set SAF_STATUS.ELAPSED_MS 0).logFault 0 code called level
  let t := { t with saf := { t.saf with since := t.fwc, timedOut := false, covered := [faultClass code arg] } }
  let t := (t.raise 0x0304 [level, code]).bump
    (if level = 1 then SAF_CNT0.L1_CNT else if level = 2 then SAF_CNT0.L2_CNT else SAF_CNT1.L3_CNT) 1
  -- a recovery of the pithead cancels its derailleur (R324)
  if t.isPithead then t.cancelDerail 4 1 else t

/-- L1: the block's own action starts (R478). -/
def State.startL1 (s : State) (code arg : Nat) : State :=
  let t := s.beginLevel 1 code arg 1
  { t with saf := { t.saf with l1 := some (code, arg) } }

/-- L2 entry (R478, R568): HOLD through the HOLD request, then the actions that apply. -/
def State.enterL2 (s : State) (code : Nat) (redo : List (Nat × Nat)) (reboot : Bool) : State :=
  let e := s.power
  let t := { s with saf := { s.saf with acting := true, redo := redo, reboot := reboot, l1 := none } }
  let t := if e = stHOLD then t else { t with saf := { t.saf with entryState := e } }
  ((t.assertRequest).enterHold code).settleL2

/-- L3 entry (R478, R480): the pithead enters HOLD through the HOLD request and sends level 3 in its BEAT; a crew unit in L3 holds
with the chain. -/
def State.enterL3 (s : State) (code : Nat) : State :=
  let e := s.power
  let t := { s with saf := { s.saf with l1 := none, restart := none, readyUnits := 0 } }
  let t := if e = stHOLD then t else { t with saf := { t.saf with entryState := e } }
  let t := (t.assertRequest).enterHold code
  if s.isPithead then t else t.set SAF_STATUS.CHAIN_HOLD 1

/-- The level a fault calls on this unit: on the unit holding tally 1 every L2 is an L3 (R477). -/
def State.levelHere (s : State) (lvl : Nat) : Nat := if lvl = 2 ∧ s.isPithead then 3 else lvl

/-- A fault calls a recovery level (R476 to R478). `waits` says that its L1 action waits for a gap mark; `reboot` that the
foreman must reboot (R568 step 2). A fault of a class the recovery in progress covers is a step of it (R475). -/
def State.callRecovery (s : State) (code arg lvl : Nat) (waits reboot : Bool) : State :=
  let b := s.levelHere lvl
  let a := s.get SAF_STATUS.LEVEL
  if s.power = stSTANDBY ∨ s.power = stSAFETALK ∨ s.power = 0 ∨ s.pwr.startup ≠ 0 then s
  else if a ≠ 0 ∧ s.saf.covered.contains (faultClass code arg) then
    if reboot then { s with saf := { s.saf with reboot := true } } else s
  else if a = 0 then
    if b = 1 ∧ waits then
      match s.saf.deferred with
      | some _ => s
      | none => { (s.set SAF_STATUS.DEFERRED 1) with saf := { s.saf with deferred := some (code, arg, s.fwc) } }
    else if b = 1 then s.startL1 code arg
    else if b = 2 then (s.beginLevel 2 code arg lvl).enterL2 code [] reboot
    else (s.beginLevel 3 code arg lvl).enterL3 code
  else if a = 3 then
    let t := ((s.logFault 1 code lvl 3).bump SAF_CNT1.DOUBLE_CNT 1).raise 0x0306 [s.get (SAF_F_CODE.CODE 0), code, 3]
    { t with saf := { t.saf with covered := faultClass code arg :: t.saf.covered } }
  else if waits ∧ s.saf.deferred.isSome ∧ isGapAction code then s
  else
    let n := s.levelHere (min 3 (max a b + 1))
    let f0 := s.get (SAF_F_CODE.CODE 0)
    let again := (match s.saf.l1 with
      | some (c, x) => if isGapAction c then [] else [(c, x)]
      | none => []) ++ s.saf.redo
    let t := ((s.logFault 1 code lvl n).bump SAF_CNT1.DOUBLE_CNT 1).raise 0x0306 [f0, code, n]
    let t := { (t.set SAF_STATUS.LEVEL n) with saf := { t.saf with covered := faultClass code arg :: t.saf.covered } }
    let t := t.bump (if n = 2 then SAF_CNT0.L2_CNT else SAF_CNT1.L3_CNT) 1
    if n = 2 then t.enterL2 code again (reboot || s.saf.reboot) else t.enterL3 code

/-- An L1 that fails or runs out of time, or whose deferral expires, becomes an L2 (R478); on the pithead an L3 (R477). -/
def State.escalate (s : State) (code : Nat) (redo : List (Nat × Nat)) : State :=
  let n := s.levelHere 2
  let t := (s.set SAF_STATUS.LEVEL n).bump (if n = 2 then SAF_CNT0.L2_CNT else SAF_CNT1.L3_CNT) 1
  let t := { t with saf := { t.saf with since := t.fwc, timedOut := false } }
  if n = 2 then t.enterL2 code redo false else t.enterL3 code

/-- A recovery ends (R478): its duration in µs goes with RECOVERY_DONE. -/
def State.endRecovery (s : State) : State :=
  let lvl := s.get SAF_STATUS.LEVEL
  let d := (s.fwc - s.saf.since) / usTicks
  let t := { (s.set SAF_STATUS.LEVEL 0) with
    saf := { s.saf with l1 := none, redo := [], acting := false, reboot := false, covered := [] } }
  t.raise 0x0305 [lvl, d]

/-- The action of an L1 is complete (R478), or an action carried out again among the L2 actions is (R568). -/
def State.actionDone (s : State) (code arg : Nat) : State :=
  if s.get SAF_STATUS.LEVEL = 1 ∧ s.saf.l1 = some (code, arg) then s.endRecovery
  else if s.saf.redo.contains (code, arg) then
    ({ s with saf := { s.saf with redo := s.saf.redo.filter fun x => decide (x ≠ (code, arg)) } }).settleL2
  else s

/-- A canary trip (R463): forcing follows the latched and live bits, any cause other than REQ calls L2 (R465, R477), and the unit
enters HOLD. -/
def State.trip (s : State) (i : Nat) : State :=
  if s.bitOf SAF_TRIP.LIVE i then s
  else
    let t := s.latchTrip i
    let t := if i = trREQ then t
      else t.callRecovery 0x0301 i 2 false (decide (i = trFOREMAN_HB ∨ i = trFOREMAN_LS))
    t.enterHold 0x0301

/-! ### HOLD causes (R471) -/

/-- Rails other than VDDIO, VCORE and VMID whose RAIL_FAULT still is a HOLD cause: not good, or their FAULT bit not cleared. -/
def State.railsHold (s : State) : Bool :=
  (List.range 9).any fun i => bit s.saf.railCause i && (!s.bitOf PWR_RAIL.GOOD i || s.bitOf PWR_RAIL.FAULT i)

/-- A PLL of the HOLD cause PLL_LOST is not LOCKED. -/
def State.pllsHold (s : State) : Bool :=
  (bit s.saf.pllCause 1 && !s.on (PLL_STATUS.LOCKED 1)) || (bit s.saf.pllCause 2 && !s.on (PLL_STATUS.LOCKED 2))

/-- A latched trip other than REQ. -/
def State.tripHold (s : State) : Bool := (List.range 11).any fun i => s.bitOf SAF_TRIP.LATCHED i && decide (i ≠ trREQ)

/-- A cause of R471 is in force against a command to a state. -/
def State.holdCause (s : State) (target : Nat) : Bool :=
  s.tripHold || s.saf.acting || s.on SAF_STATUS.CHAIN_HOLD || s.saf.railFatal || s.railsHold || s.pllsHold || s.saf.drift ||
    (s.saf.bankFailed && decide (target = stREADY))

/-- HOLD is left for a target: HOLD_LEFT, the causes that no longer hold are forgotten, engines restart under R216. -/
def State.leaveHold (s : State) (target : Nat) : State :=
  let t := { s with saf := { s.saf with railCause := 0, pllCause := 0 } }
  ((t.raise 0x0303 [target]).toPower target).leaveBlocks

end Sys2Proof.Machine
end

