-- ==== Sys2Proof/Machine/Clock.lean ====
section
/-!
DEFINITION. The state of reported time (R380 to R382) and the start and loss of a PLL's outputs (R441 to R445) as shared
operations.
-/
namespace Sys2Proof.Machine

/-- TIM_STATUS.STATE codes (R381). -/
def tmUNSET : Nat := 0
def tmVALID : Nat := 1
def tmHOLDOVER : Nat := 2
def tmINVALID : Nat := 3

/-- A host write of TIM_RATE or TIM_STEP2 lies within the last TIM_HOLD.HOST_S seconds (R380). -/
def State.hostDisciplines (s : State) : Bool :=
  match s.tim.lastHost with
  | none => false
  | some t => decide (s.fwc < t + s.get TIM_HOLD.HOST_S * secTicks)

/-- A discipline input is present (R380): the host's writes on the pithead or chain time on a crew unit, a scan tracker on SCAN
or a mains tracker on MAINS that is LOCKED or COASTING. -/
def State.discipline (s : State) : Bool :=
  (if s.isPithead then s.hostDisciplines else s.on TIM_STATUS.CHAIN_OK) ||
    (decide (s.get CAD_SRC.SCAN_SRC = 1) && decide (2 ≤ s.get CAD_STATE.SCAN_ST ∧ s.get CAD_STATE.SCAN_ST ≤ 3)) ||
    (decide (s.get CAD_SRC.MAINS_SRC = 3) && decide (2 ≤ s.get CAD_STATE.MAINS_ST ∧ s.get CAD_STATE.MAINS_ST ≤ 3))

/-- The freewheel counter advances on CANARY (R31, R382). -/
def State.coarse (s : State) : Bool := s.on PWR_CLK.CANARY_RUN && !s.pllTOn

/-- With no command waiting one cycle passes (R31): the freewheel counter advances by a tick of PLL-T, by 80 ticks for a CANARY cycle while
PLL-T is gated, and stands while neither runs. -/
def State.idle (s : State) : State :=
  if s.pllTOn then s.advance (s.fwc + 1) else if s.on PWR_CLK.CANARY_RUN then s.advance (s.fwc + 80) else s

/-- Seconds in the present holdover; saturates (TIM_STATUS.HOLD_S). -/
def State.holdSeconds (s : State) : Nat :=
  match s.tim.holdAt with
  | none => 0
  | some t => min 65535 ((s.fwc - t) / secTicks)

/-- Every high phase in progress ends at once (R399). -/
def State.endPulses (s : State) : State :=
  { s with tim := { s.tim with tp := Tbl.setAll {} (fun n => { Tbl.get {} s.tim.tp n with high := false }) [0, 1, 2, 3] s.tim.tp } }

/-- The inputs of R380 to R382 are looked at again and the state table of R381 is followed. -/
def State.reviewTime (s : State) : State :=
  let d := s.discipline
  let c := s.coarse
  let t := (s.put TIM_STATUS.DISC d).put TIM_STATUS.COARSE c
  let st := s.get TIM_STATUS.STATE
  let t :=
    if st = tmVALID ∧ (d = false ∨ c = true) then
      (({ t with tim := { t.tim with holdAt := some t.fwc } }).set TIM_STATUS.STATE tmHOLDOVER).raise 0x0406 [ofBool d]
    else if st = tmHOLDOVER ∧ d = true ∧ c = false ∧ s.on TIM_STATUS.SLEWING = false then
      (({ t with tim := { t.tim with holdAt := none } }).set TIM_STATUS.STATE tmVALID).raise 0x0407 [s.holdSeconds]
    else t
  if t.isPithead then
    t.put TIM_STATUS.CHAIN_OK (decide (t.get TIM_STATUS.STATE = tmVALID ∨ t.get TIM_STATUS.STATE = tmHOLDOVER))
  else t

/-! ### PLLs. x is 0 for PLL-L, 1 for PLL-T, 2 for PLL-S. -/

/-- The feedback divider N by PLL and reference mode (R439). -/
def pllN (x mode : Nat) : Nat := (if x = 0 then 200 else if x = 1 then 128 else 256) / 2 ^ mode

/-- The stage of a PLL (R441). -/
def State.pllStage (s : State) (x : Nat) : Nat := Tbl.get 0 s.pwr.pllStage x
def State.setStage (s : State) (x n : Nat) : State :=
  { s with pwr := { s.pwr with pllStage := Tbl.set 0 s.pwr.pllStage x n } }

/-- The lock and gate flags of a PLL on page 0x02 and their copy on page 0x01. -/
def State.pllFlags (s : State) (x : Nat) (locked : Bool) : State :=
  (((s.put (PLL_STATUS.LOCKED x) locked).put (PLL_STATUS.GATED x) (!locked)).putBit PWR_CLK.LOCKED x locked).putBit PWR_CLK.GATED x
    (!locked)

/-- REF_PRESENT where it is shown (R442, R292). -/
def State.putRef (s : State) (b : Bool) : State := (s.put PWR_CLK.REF_PRESENT b).put LNK_REF_STATUS.REF_PRESENT b

/-- E1 of R441: a lock starts; outputs gated, the reference mode and divider taken. -/
def State.startLock (s : State) (x : Nat) : State :=
  let m := s.get (PLL_CFG.REFMODE x)
  ((((s.pllFlags x false).setStage x 2).set (PLL_STATUS.SEARCHING x) 1).set (PLL_STATUS.REFMODE_ACT x) m).set (PLL_STATUS.N x)
    (pllN x m)

/-- A PLL with LOCKED 1 declares a loss (R443): cause 1 reference, 0 lock. -/
def State.losePll (s : State) (x cause : Nat) : State :=
  let t := (((s.pllFlags x false).setStage x 1).set (PLL_STATUS.REF_LOSS x) cause).bump (PLL_CNT.LOSS_CNT x) 1
  t.raise 0x0202 [x, cause, t.fwc]

/-- A PLL that is locking abandons the lock for want of its reference (R443). -/
def State.abandonLock (s : State) (x : Nat) : State :=
  ((s.setStage x 1).set (PLL_STATUS.SEARCHING x) 0).set (PLL_STATUS.REF_LOSS x) 1

/-- PLL-T's outputs stop: CADENCE and what hangs on it stop, and the freewheel counter goes on with CANARY (R31, R32). With an OSC trip
live the output pulses end too (R467). -/
def State.afterLossT (s : State) : State :=
  let t := (s.stopCadence).reviewTime
  if t.bitOf SAF_TRIP.LIVE trOSC then t.endPulses else t

end Sys2Proof.Machine
end

