-- ==== Sys2Proof/Machine/EngineOps.lean ====
section
/-!
DEFINITION. Engine faults, the stope DMA and the items it writes, and the record port's deadline as shared operations (R193 to R209, R216 to
R222).
-/
namespace Sys2Proof.Machine

/-- Fault codes of R218. -/
def fWATCHDOG : Nat := 1
def fECC_DATA : Nat := 2
def fECC_INSTR : Nat := 3
def fBUS_ERR : Nat := 4
def fILLEGAL : Nat := 5
def fRING_PROTO : Nat := 6
def fINPUT_JAM : Nat := 7
def fTRAP : Nat := 8
def fLATE : Nat := 9

/-- A sweep still open at its deadline is sealed by the port (R209): its held output is discarded and a header with
ABANDONED released. -/
def State.sealLate (s : State) (o : OutSweep) : State :=
  ((s.bump ENG_ERRCNT0.LATE_SWEEPS 1).release o (2 ^ cdABANDON) true).raise 0x0A06 [o.stope, o.sweep]

/-- An engine fault is a second one inside a recovery: a fault-driven remap is under way or awaited, or the engine is the target of one and has
not been served its first OPEN item (R225). -/
def State.secondFault (s : State) (e : Nat) : Bool :=
  (s.eng.remap.any fun r => r.fault) || !s.eng.faulted.isEmpty || s.eng.fresh.contains e

/-- A RUNNING engine faults (R216, R218): it stops, items claimed for it are discarded (R220 E2), and with SPARE_AUTO 1 the foreman remaps the
stope it serves at L1 (R219). Its sweeps still open are sealed at their deadline (R209, R220). A second fault calls the two-fault rule, whichever
engine it is (R225). -/
def State.engFault (s : State) (e code : Nat) : State :=
  let g := s.engine e
  if g.st ≠ 1 then s
  else
    let t := ((s.dropClaims e).setEngine e fun g => { g with st := 2, fault := code, stopPc := g.pc, waiting := false }).bump ENG_ERRCNT1.FAULTS 1
    let t := t.raise 0x0A01 [e, code, g.pc, s.fwc]
    let u := if (s.stopeOf e).isSome && t.on ENG_CTRL.SPARE_AUTO then t.onEng fun q => { q with faulted := q.faulted ++ [e] } else t
    if s.secondFault e then
      (if t.get SAF_STATUS.LEVEL = 0 then u.set SAF_STATUS.LEVEL 1 else u).callRecovery 0x0A01 e 1 false false
    else if (s.stopeOf e).isSome && t.on ENG_CTRL.SPARE_AUTO then u.callRecovery 0x0A01 e 1 false false
    else t

/-! ### The stope DMA -/

/-- The stope DMA writes into an engine only while it is RUNNING with LCL_IN_CFG.EN 1 (R193). -/
def Eng.takes (g : Eng) : Bool := decide (g.st = 1) && bit (g.l lclInCfg) 31

/-- The engine that takes a stope's items. -/
def State.dmaTo (s : State) (x : Nat) : Option Nat :=
  match s.engineOf x with
  | some e => if (s.engine e).takes then some e else none
  | none => none

/-- A slot is claimed for an item; it is written and published by ITEM_PUBLISH (R202). -/
def Eng.claim (g : Eng) (words : List Nat) (tag : List Nat) : Eng :=
  { g with claimed := g.claimed ++ [⟨words, tag⟩] }

/-- Slots free to claim. -/
def Eng.slotsFree (g : Eng) : Nat := g.slots - g.held

/-- The 16-byte tag of an item (R196). -/
def itemTag (type bin : Nat) (last : Bool) (gains tap row words sweep time : Nat) : List Nat :=
  [type, bin * 16 + ofBool last * 8 + gains * 2 + tap] ++ leBytes row 2 ++ leBytes words 2 ++ zeroBytes 2 ++ leBytes sweep 4 ++ leBytes time 4

/-- The binning code of a stope in force. -/
def State.binOf (s : State) (x : Nat) : Nat := s.inForce (EXP_BIN.BIN x)

/-- An OPEN, BLACK or CLOSE item for a stope: claimed when a slot is free, otherwise INPUT_JAM (R203). The flag says it was claimed. -/
def State.giveItem (s : State) (x : Nat) (words tag : List Nat) : State × Bool :=
  match s.dmaTo x with
  | none => (s, false)
  | some e =>
    if 0 < (s.engine e).slotsFree then (s.setEngine e fun g => g.claim words tag, true)
    else (s.engFault e fINPUT_JAM, false)

/-- The words of a byte string. -/
def toWords (l : List Nat) : List Nat := (List.range (l.length / 4)).map fun i => ofLeBytes ((l.drop (4 * i)).take 4)

/-- The OPEN payload (R199). -/
def State.openBytes (s : State) (x : Nat) : List Nat :=
  let ps := s.cad.plan.map fun p => p.1 + 2 * p.2
  leBytes (s.get CAD_SWEEP.SWEEP) 4 ++ leBytes (s.get CHN_EPOCH.GEAR) 2 ++ leBytes (s.get CHN_EPOCH.ASSIGN) 2 ++
    [x, s.inForce CAD_CTRL.LOCK_N, s.get EXP_MODE.MODE_ACTIVE, s.binOf x, s.get EXP_ARRAY_STATUS.THRESH_ACTIVE, min 15 ps.length, 0, 0] ++
    (ps ++ zeroBytes 4).take 4 ++ zeroBytes 12 ++ leBytes s.fwc 10 ++ zeroBytes 22

/-- The OPEN item of a stope at a sweep start: the sweep opens for output where the item is delivered; where it is discarded, the port seals
the sweep at its deadline (R193, R209). -/
def State.openStope (s : State) (x : Nat) : State :=
  let n := s.get CAD_SWEEP.SWEEP
  let r := s.giveItem x (toWords (s.openBytes x)) (itemTag 1 (s.binOf x) false 0 0 0 16 n (s.fwc / 64))
  let o : OutSweep :=
    { stope := x, sweep := n, engine := (s.engineOf x).getD 0x1FF, gear := s.get CHN_EPOCH.GEAR, assign := s.get CHN_EPOCH.ASSIGN, opened := r.2
      cond := if s.stopeAged x then 2 ^ cdAGED else 0, at_ := s.fwc }
  r.1.onEng fun g => { g with out := g.out ++ [o] }

/-- The CLOSE payload (R200). -/
def State.closeBytes (s : State) (o : OutSweep) (cond : Nat) : List Nat :=
  leBytes o.sweep 4 ++ leBytes cond 4 ++ leBytes o.linesA 2 ++ leBytes o.linesB 2 ++ leBytes o.lost 2 ++ zeroBytes 2 ++ leBytes s.fwc 10 ++ zeroBytes 38

/-- The CLOSE item of a stope's sweep, with its condition word (R200, R201). -/
def State.closeStope (s : State) (o : OutSweep) : State :=
  let cond := (o.cond ||| Tbl.get 0 s.cad.conds o.sweep ||| (if s.stopeAged o.stope then 2 ^ cdAGED else 0)) % 2 ^ cdREFUSED
  let s := s.setOut o.stope o.sweep fun q => { q with cond := q.cond ||| cond }
  if o.opened && decide (s.engineOf o.stope = some o.engine) then
    (s.giveItem o.stope (toWords (s.closeBytes o cond)) (itemTag 4 (s.binOf o.stope) false 0 0 0 16 o.sweep (s.fwc / 64))).1
  else s

/-- A BLACK item (R198) for a stope: the 128 words. -/
def State.blackStope (s : State) (x tap gains : Nat) (words : List Nat) (pass sweep : Nat) : State :=
  let r := s.giveItem x words (itemTag 2 (s.binOf x) false gains tap 0 128 sweep (s.fwc / 64))
  r.1.spotSee 2 x tap pass 0 (s.binOf x) gains (s.fwc / 64) false words sweep

/-- A LINE item (R197, R203): claimed with at least 3 slots free, otherwise dropped and counted. -/
def State.lineStope (s : State) (x tap gains row : Nat) (last : Bool) (words : List Nat) (pass sweep : Nat) : State :=
  let tag := itemTag 3 (s.binOf x) last gains tap row words.length sweep (s.fwc / 64)
  let s := s.spotSee 3 x tap pass row (s.binOf x) gains (s.fwc / 64) last words sweep
  match s.dmaTo x with
  | none => s
  | some e =>
    if 3 ≤ (s.engine e).slotsFree then
      (s.setEngine e fun g => g.claim words tag).setOut x sweep fun o =>
        if tap = 0 then { o with linesA := o.linesA + 1 } else { o with linesB := o.linesB + 1 }
    else
      let t := (s.setEngine e fun g => g.setL lclInLost (min 65535 (g.l lclInLost + 1))).bump ENG_ERRCNT0.LOST_LINES 1
      let t := t.setOut x sweep fun o => { o with lost := o.lost + 1, cond := o.cond ||| 2 ^ cdLOST }
      let t := match s.spot.frame with
        | some f => if f.sweep = sweep then t.spotFlag cdLOST fun y => decide (y = x) else t
        | none => t
      let raised := match s.findOut x sweep with
        | some o => decide (o.lost ≠ 0)
        | none => s.eng.lostRaised
      if raised then t else (t.onEng fun g => { g with lostRaised := true }).raise 0x0A05 [x, sweep]

/-- The item claimed first for an engine is written into the next slot and published; a WAIT on input items ends (R202, R188). -/
def Eng.publish (g : Eng) (fwc : Nat) : Eng :=
  match g.claimed with
  | [] => g
  | it :: rest =>
    let m := memWrite g.mem (g.slotAddr (g.l lclInWr)) ((it.words.map fun w => leBytes w 4).flatten)
    (({ g with claimed := rest, mem := memWrite m (g.tagAddr (g.l lclInWr)) it.tag }).setL lclInWr ((g.l lclInWr + 1) % 65536)).wake 0 fwc

end Sys2Proof.Machine
end

