-- ==== Sys2Proof/Machine/ArrayOps.lean ====
section
/-!
DEFINITION. Passes, reconstruction of tap values, binning and black averages as shared operations (ch. 02).
-/
namespace Sys2Proof.Machine

/-! ### Geometry (R47, R49, R60, R75) -/

/-- The number of a node: tap, physical row, physical column. -/
def nodeKey (tap row col : Nat) : Nat := tap * 2 ^ 29 + row * 2 ^ 15 + col

/-- Stope rows of a side (0 top, 1 bottom) with at least one stope enabled (R66). -/
def stopeRows (enables side : Nat) : List Nat := (List.range 8).filterMap fun i =>
  let r := 8 * side + i
  if bits enables (16 * r) 16 ≠ 0 then some r else none

/-- Black rows read at the start of a pass. -/
def Pass.blackRows (p : Pass) : Nat := if p.black then 16 else 0

/-- Rows a pass reads on a side, and over both sides. -/
def Pass.sideRows (p : Pass) (side : Nat) : Nat := p.blackRows + 768 * (stopeRows p.enables side).length
def Pass.rows (p : Pass) : Nat := max (p.sideRows 0) (p.sideRows 1)

/-- The physical row that the k-th row of a pass is on a side. -/
def Pass.physRow (p : Pass) (side k : Nat) : Option Nat :=
  if k < p.blackRows then some ((if side = 0 then 32 else 12336) + k)
  else
    let i := k - p.blackRows
    ((stopeRows p.enables side)[i / 768]?).map fun r => 48 + 768 * r + i % 768

/-- Number of gains of a gain set; ticks of a row (R61). -/
def gainCount (g : Nat) : Nat := if g = 3 then 2 else 1
def Pass.rowTicks (p : Pass) : Nat := gainCount p.gains * 2000

/-- Pass length L of R66 in ticks, from stope enables, black rows and gain set. -/
def passTicks (enables : Nat) (black : Bool) (gains : Nat) : Nat :=
  ((if black then 16 else 0) + 768 * max (stopeRows enables 0).length (stopeRows enables 1).length) * gainCount gains * 2000 + 80

/-! ### Reconstruction (R68, R69, R151 to R153). Electrons are counted in 1/1280. -/

/-- A raw code corrected: DN × 2⁻⁴, ties to even (R151). -/
def corrected (code ofs gain : Nat) : Int := roundHalfEven (((code : Int) * 16 - signed 16 ofs) * gain) 65536

/-- The residue of a code at a gain (0 HCG, 1 LCG) in 1/1280 electron. -/
def residue (g code ofs gain : Nat) : Int := corrected code ofs gain * (if g = 0 then 44 else 400)

/-- The slice that converts active column x on a side: interleave position by column within the group (R150). -/
def State.sliceAt (s : State) (side x : Nat) : Nat × Nat :=
  let b := 1024 * side + x / 16
  (b, ((s.bank b).active[x % 4]?).getD 0)

/-- The residue of column x on a side at a gain. -/
def State.residueAt (s : State) (side x g code : Nat) : Int :=
  let z := s.sliceAt side x
  residue g code (s.coef (coefKey 1 z.1 z.2 g)) (s.coef (coefKey 2 z.1 z.2 g))

/-- The gain whose residue is used (R68): 0 HCG, 1 LCG. -/
def gainUsed (gains count hcg : Nat) (hres : Int) : Nat :=
  if gains = 2 then 1 else if gains = 1 then 0
  else if count = 0 ∧ hcg < 4095 ∧ hres ≤ 2048 * 1280 then 0 else 1

/-- One tap value word (R68, R69). `c` is the latched count with the exhausted flag × 4096. -/
def State.tapWord (s : State) (tap side x gains : Nat) (short : Bool) (c hcg lcg : Nat) : Nat :=
  let count := c % 4096
  let g := gainUsed gains count hcg (s.residueAt side x 0 hcg)
  let code := if g = 0 then hcg else lcg
  let v := (count : Int) * s.coef (qpKey tap (x / 16)) * 5 + s.residueAt side x g code
  unsigned 29 (roundHalfEven v 640) + 2 ^ 29 * ofBool short + 2 ^ 30 * ofBool (decide (4095 ≤ code)) + 2 ^ 31 * ofBool (decide (4096 ≤ c))

/-! ### Binning (R77, R78) -/

/-- The sum of some words as one binned word of m values: flags ORed, VALUE in units of 0.5 × m electrons. -/
def sumWords (ws : List Nat) : Nat :=
  let m := ws.length
  let v := ws.foldl (fun z w => z + wordValue w) 0
  let f := ws.foldl (fun n w => n ||| bits w 29 3) 0
  unsigned 29 (roundHalfEven v (max 1 m)) + f * 2 ^ 29

/-- Input rows of a block by binning code. -/
def blockRows (bin : Nat) : Nat := if bin = 1 then 4 else 8

/-- Output row r (0 or 1) of a block of input rows. -/
def binRow (mosaic : Bool) (bin : Nat) (rows : List (List Nat)) (r : Nat) : List Nat :=
  let n := if bin = 1 then 2 else 4
  let width := if bin = 1 then 512 else 256
  (List.range width).map fun o =>
    let xs := if mosaic then (List.range n).map fun i => 2 * n * (o / 2) + o % 2 + 2 * i else (List.range n).map fun i => n * o + i
    let ys := if mosaic then (List.range n).map fun j => r + 2 * j else (List.range n).map fun j => n * r + j
    sumWords ((ys.map fun y => xs.map fun x => (rows.getD y []).getD x 0).flatten)

/-! ### The start and end of a pass -/

/-- Q_P values accepted since take effect at the first latch of a pass of their tap (R71). -/
def State.applyQp (s : State) (tap : Nat) : State :=
  let mine := s.arr.qpNext.filter fun e => decide (e.1 / 1024 = tap)
  let t := mine.foldl (fun t e => (t.setCoef e.1 (e.2 - 1)).onCnv fun c => { c with accepted := Tbl.set false c.accepted e.1 true }) s
  t.onArr fun a => { a with qpNext := a.qpNext.filter fun e => decide (e.1 / 1024 ≠ tap) }

/-- Rows of a tap are reset: nodes empty, counters 0, exhausted flags clear (R54, R57). -/
def State.resetRows (s : State) (tap : Nat) (p : Nat → Bool) : State :=
  let stays := fun k => !(decide (k / 2 ^ 29 = tap) && p (k / 2 ^ 15 % 2 ^ 14))
  s.onArr fun a => { a with counts := Tbl.keep stays a.counts, charge := Tbl.keep stays a.charge }

/-- The gain set in force of a pass named with gains g (R155). -/
def State.gainSet (s : State) (g : Nat) : Nat := if s.inForce CNV_CTRL.FORCE_LCG = 1 then 2 else g

/-- SHORT of the pass in progress, and SHORT carried to the next, by tap (R65). -/
def State.shortOf (s : State) (tap : Nat) : Nat := Tbl.get 0 s.arr.short tap
def State.setShort (s : State) (tap v : Nat) : State := s.onArr fun a => { a with short := Tbl.set 0 a.short tap v }

/-- A pass starts (R60 to R66). -/
def State.startPass (s : State) (tap g : Nat) : State :=
  let gains := s.gainSet g
  let en := s.enables
  let black := s.on EXP_OB_CTRL.BLACK_ROWS_EN
  let ix := s.cad.passIx
  let t := s.applyQp tap
  let t := t.setShort tap (t.shortOf tap / 2 % 2)
  let t := if black then t else t.resetRows tap fun r => decide (32 ≤ r ∧ r ≤ 47 ∨ 12336 ≤ r ∧ r ≤ 12351)
  let t := t.resetRows tap fun r => decide (48 ≤ r ∧ r ≤ 12335) && decide (bits en (16 * ((r - 48) / 768)) 16 = 0)
  let t := if tap = 0 then t.set CNV_STATUS.GAIN_A gains else t.set CNV_STATUS.GAIN_B gains
  (t.onArr fun a => { a with
    pass := some { tap, gains, sweep := s.get CAD_SWEEP.SWEEP, began := s.fwc, black, enables := en, index := ix }, black := [], block := [], held := none
  }).onCad fun c => { c with passIx := c.passIx + 1 }

/-- A READ begins its pass, or waits for a calibration step to finish (R118, R168). While a pass runs it starts nothing. -/
def State.read (s : State) (tap g : Nat) : State :=
  if s.arr.pass.isSome then s
  else if s.cnv.step.isSome || s.cnv.recal then s.onArr fun a => { a with held := some (tap, g, s.fwc) }
  else s.startPass tap g

/-- The pass ends (R64); with the last one scheduled in its sweep the spotlight frame is complete. -/
def State.endPass (s : State) (p : Pass) : State :=
  let t := s.onArr fun a => { a with pass := none, block := [], lastEnd := s.fwc }
  if s.cad.plan.length ≤ p.index + 1 then t.spotComplete else t

/-! ### Refused transfers (R64, R65) -/

/-- The tap is in its pass. -/
def State.tapBusy (s : State) (tap : Nat) : Bool := (s.arr.pass.map fun p => decide (p.tap = tap)).getD false

/-- A refused opening: counted, raised, SHORT in this pass and the next. -/
def State.refuseTap (s : State) (tap : Nat) : State := ((s.bump EXP_ARRAY_ERRCNT1.SHORT_CNT 1).setShort tap 3).raise 0x0640 [tap, s.fwc]

end Sys2Proof.Machine
end

