-- ==== Sys2Proof/Machine/Array.lean ====
section
/-!
DEFINITION. Commands of the pixel array: a skim, the latch and the reset of a row, the start of a held pass (ch. 02, R168). The charge a node
gathers and the codes the converters give are analogue and come with the commands.
-/
namespace Sys2Proof.Machine

/-! ### Skim (R55 to R58) -/

/-- The k-th row of a pass lies at a physical row. -/
def Pass.rowIs (p : Pass) (k row : Nat) : Bool := decide (p.physRow 0 k = some row) || decide (p.physRow 1 k = some row)

/-- The comparators of a physical row of a tap do not act: between its latch and its reset (R63), or on a calibration row while a packet
calibration of the tap runs (R71). -/
def State.disarmed (s : State) (tap row : Nat) : Bool :=
  (match s.arr.pass with
    | some p => decide (p.tap = tap) && (List.range (p.row - p.reset)).any fun i => p.rowIs (p.reset + i) row
    | none => false) ||
  (match s.cnv.step with
    | some (kind, _) => decide (kind = tap + 2 ∧ (row < 32 ∨ 12352 ≤ row))
    | none => false)

/-- The column group whose Q_P serves a physical column; the black columns beside the active ones take that of the nearest group. -/
def groupOf (col : Nat) : Nat := min 1023 ((col - 64) / 16)

/-- A skim (R55 to R57): Q_P leaves the node and the counter goes on; at 4095 nothing leaves it and the exhausted flag is set. -/
def State.skimNode (s : State) (tap col k : Nat) : State :=
  let c := Tbl.get 0 s.arr.counts k
  if c % 4096 < 4095 then
    s.onArr fun a => { a with counts := Tbl.set 0 a.counts k (c + 1)
                              charge := Tbl.set 0 a.charge k (Tbl.get 0 a.charge k - s.coef (qpKey tap (groupOf col))) }
  else s.onArr fun a => { a with counts := Tbl.set 0 a.counts k (4096 + 4095) }

/-- The end of a skim cycle at a node that gathered `charge` (2⁻⁸ electrons, what spilled at full well not counted) in that cycle: the node
keeps it (R54), and skims where its comparator is armed and it stands at or above the threshold. -/
def execSkim (tap row col charge : Nat) (s : State) : Out :=
  if s.cadenceRuns && decide (tap < 2 ∧ row < 12384 ∧ col < 16512) then
    let k := nodeKey tap row col
    let t := s.onArr fun a => { a with charge := Tbl.set 0 a.charge k (Tbl.get 0 a.charge k + charge) }
    let high := decide ((18000 + 250 * s.get EXP_ARRAY_STATUS.THRESH_ACTIVE) * 256 ≤ Tbl.get 0 t.arr.charge k)
    .next (t.when (high && !s.disarmed tap row) fun t => t.skimNode tap col k)
  else .next s

/-! ### The latch of a row (R61, R67 to R69, R75 to R78, R197, R198) -/

/-- What the converters gave for a column: its own entry, else `dark` at both gains. -/
def codeAt (codes : List RowCode) (dark side x : Nat) : Nat × Nat :=
  match codes.find? fun c => decide (c.side = side ∧ c.x = x) with
  | some c => (c.hcg % 4096, c.lcg % 4096)
  | none => (dark % 4096, dark % 4096)

/-- Physical column of an active column (R47). -/
def physCol (x : Nat) : Nat := x + 64

/-- The tap value words of stope x of a row. -/
def State.stopeWords (s : State) (p : Pass) (x row dark : Nat) (codes : List RowCode) : List Nat :=
  let side := if x < 128 then 0 else 1
  let short := bit (s.shortOf p.tap) 0
  (List.range 1024).map fun i =>
    let c := 1024 * (x % 16) + i
    let z := codeAt codes dark side c
    s.tapWord p.tap side c p.gains short (Tbl.get 0 s.arr.counts (nodeKey p.tap row (physCol c))) z.1 z.2

/-- A black row of a side enters the sums of its column groups. -/
def State.blackRow (s : State) (p : Pass) (side row dark : Nat) (codes : List RowCode) : State :=
  let add := fun (b : Tbl Int) (x : Nat) =>
    let z := codeAt codes dark side x
    let packets : Int := ((Tbl.get 0 s.arr.counts (nodeKey p.tap row (physCol x)) % 4096 : Nat) : Int) * s.coef (qpKey p.tap (x / 16)) * 5
    let one := fun (b : Tbl Int) (g code : Nat) =>
      let k := side * 4096 + x / 16 * 2 + g
      Tbl.set 0 b k (Tbl.get 0 b k + packets + s.residueAt side x g code)
    let b := if p.gains = 2 then b else one b 0 z.1
    if p.gains = 1 then b else one b 1 z.2
  s.onArr fun a => { a with black := (List.range 16384).foldl add a.black }

/-- The 128 words of a BLACK item (R198). -/
def State.blackWords (s : State) (p : Pass) (x : Nat) : List Nat :=
  let side := if x < 128 then 0 else 1
  let w := fun (g i : Nat) => unsigned 32 (roundHalfEven (Tbl.get 0 s.arr.black (side * 4096 + (64 * (x % 16) + i) * 2 + g)) 20480)
  ((List.range 64).map fun i => if p.gains = 2 then 0x80000000 else w 0 i) ++
    (List.range 64).map fun i => if p.gains = 1 then 0x80000000 else w 1 i

/-- The values of a line are delivered: flags counted, each event once per pass, the LINE item (R85, R197). -/
def State.deliverLine (s : State) (p : Pass) (x row : Nat) (last : Bool) (words : List Nat) : State :=
  let n := (words.filter fun w => bit w 31).length
  let c := (words.filter fun w => bit w 30).length
  let t := (s.bump EXP_ARRAY_ERRCNT0.EXH_CNT n).bump EXP_ARRAY_ERRCNT0.CLIP_CNT c
  let was := t.arr.pass.getD p
  let t := if n ≠ 0 ∧ was.exh = false then t.raise 0x0641 [p.tap, x] else t
  let t := if c ≠ 0 ∧ was.clip = false then t.raise 0x0642 [p.tap, x] else t
  let t := t.onArr fun a => { a with pass := a.pass.map fun q => { q with exh := q.exh || decide (n ≠ 0), clip := q.clip || decide (c ≠ 0) } }
  t.lineStope x p.tap p.gains row last words p.index p.sweep

/-- Row i of stope x: delivered as it is, or with its binning block once that is complete (R77). -/
def State.stopeRow (s : State) (p : Pass) (x i : Nat) (words : List Nat) : State :=
  let bin := s.binOf x
  if bin = 0 then s.deliverLine p x i (decide (i = 767)) words
  else
    let rows := Tbl.get [] s.arr.block x ++ [words]
    if rows.length < blockRows bin then s.onArr fun a => { a with block := Tbl.set [] a.block x rows }
    else
      let t := s.onArr fun a => { a with block := Tbl.erase a.block x }
      let b := i / blockRows bin
      let out := fun r => binRow (!s.mono) bin rows r
      (t.deliverLine p x (2 * b) false (out 0)).deliverLine p x (2 * b + 1) (decide (i = 767)) (out 1)

/-- One side's part of the latch of row k of a pass. -/
def State.latchSide (s : State) (p : Pass) (side k dark : Nat) (codes : List RowCode) : State :=
  match p.physRow side k with
  | none => s
  | some row =>
    if k < p.blackRows then
      let t := s.blackRow p side row dark codes
      if k = 15 then
        ((List.range 128).filter fun i => bit p.enables (128 * side + i)).foldl
          (fun t i => t.blackStope (128 * side + i) p.tap p.gains (t.blackWords p (128 * side + i)) p.index p.sweep) t
      else t
    else
      let r := (row - 48) / 768
      ((List.range 16).filter fun c => bit p.enables (16 * r + c)).foldl
        (fun t c => t.stopeRow p (16 * r + c) ((row - 48) % 768) (t.stopeWords p (16 * r + c) row dark codes)) s

/-- E1 of a row (R61): both sides latch; the residues are converted and the values rebuilt. -/
def execRowLatch (dark : Nat) (codes : List RowCode) (s : State) : Out :=
  match s.arr.pass with
  | none => .next s
  | some p =>
    if p.rows ≤ p.row then .next s
    else
      let s := (s.advance (p.began + p.row * p.rowTicks)).onArr fun a => { a with pass := a.pass.map fun q => { q with row := q.row + 1 } }
      .next ((s.latchSide p 0 p.row dark codes).latchSide p 1 p.row dark codes)

/-- E5 of a row (R61): its nodes and counters are reset; after the last one the pass ends (R64). A pass over no row ends with its
first 40 ns (R66). -/
def execRowResetDone (s : State) : Out :=
  match s.arr.pass with
  | none => .next s
  | some p =>
    if p.rows = 0 then .next ((s.advance (p.began + 80)).endPass p)
    else if p.row ≤ p.reset then .next s
    else
      let t := (s.advance (p.began + (p.reset + 1) * p.rowTicks + 80)).resetRows p.tap fun r => p.rowIs p.reset r
      let t := t.onArr fun a => { a with pass := a.pass.map fun q => { q with reset := q.reset + 1 } }
      .next (if p.reset + 1 = p.rows then t.endPass p else t)

/-! ### A held pass (R168) -/

def execHeldPassStart (s : State) : Out :=
  match s.arr.held with
  | none => .next s
  | some (tap, g, t0) =>
    if s.cnv.step.isSome || s.cnv.recal || s.arr.pass.isSome then .next s
    else .next ((((s.bump CAL_HOLD.HOLD_CNT 1).raise 0x0803 [tap, s.fwc - t0])).startPass tap g)

end Sys2Proof.Machine
end

