-- ==== Sys2Proof/Machine/StoreOps.lean ====
section
/-!
DEFINITION. The non-volatile store as shared operations (ch. 15): banks in force, shift book entries in their slots, commits, retirement
and word reads. Areas: 1 firmware, 2 calibration set, 3 installer record, 4 role keys, 5 goldens, 6 shift book, 7 defect map.
-/
namespace Sys2Proof.Machine

/-! ### Banks (R494) -/

/-- SEQ + 1 of a bank, 0 for an invalid one. -/
def State.bankSeq (s : State) (area bank : Nat) : Nat := Tbl.get 0 s.nvs.banks (2 * area + bank)

/-- The bank in force of an area, with its SEQ. -/
def State.inBank (s : State) (area : Nat) : Option (Nat × Nat) :=
  match s.bankSeq area 0, s.bankSeq area 1 with
  | 0, 0 => none
  | a + 1, 0 => some (0, a)
  | 0, b + 1 => some (1, b)
  | a + 1, b + 1 => if serialLater 16 b a then some (1, b) else some (0, a)

/-- The bank a commit writes and its SEQ: the bank not in force with the next SEQ, bank 0 with SEQ 1 where the area is empty (R495). -/
def State.nextBank (s : State) (area : Nat) : Nat × Nat :=
  match s.inBank area with
  | none => (0, 1)
  | some (b, q) => (1 - b, (q + 1) % 65536)

/-- What the bank in force of an area holds. -/
def State.bankContent (s : State) (area : Nat) : Tbl Nat :=
  match s.inBank area with
  | none => []
  | some (b, _) => Tbl.get [] s.nvs.content (2 * area + b)

/-- First block and number of blocks of a bank of a banked area (R493); an area that is not banked has none here. -/
def areaBlocks (area bank : Nat) : Nat × Nat :=
  if area = 1 then (2 + 48 * bank, 48) else if area = 2 then (98 + 24 * bank, 24) else if area = 3 then (146 + 4 * bank, 4)
  else if area = 5 then (156 + 8 * bank, 8) else if area = 7 then (176 + 10 * bank, 10) else (0, 0)

/-- The store's fields of page 0x0F follow the banks, and the number of the next shift book entry. `running` is the firmware bank in force since the last boot (R496). -/
def State.showBanks (s : State) : State :=
  let b := fun a => ((s.inBank a).getD (0, 0)).1
  let q := fun a => ((s.inBank a).getD (0, 0)).2
  (((((((((s.set ROL_SB_HEAD.NEXT s.nvs.sbNext).set NVS_STATUS.SPARES s.nvs.spares).set NVS_STATUS.GOLD_BANK (b 5)).set NVS_STATUS.INST_BANK (b 3)).set NVS_STATUS.CAL_BANK
    (b 2)).set NVS_SEQ0.CAL_SEQ (q 2)).set NVS_SEQ1.GOLD_SEQ (q 5)).set NVS_SEQ1.INST_SEQ (q 3)).set NVS_STATUS.DEF_BANK (b 7)).set
    NVS_SEQ2.DEF_SEQ (q 7)

/-- The firmware bank in force is shown (R496: new firmware from the next start-up or SYSRST_N). -/
def State.showFirmware (s : State) : State :=
  let r := (s.inBank 1).getD (0, 0)
  (s.set NVS_STATUS.FW_BANK r.1).set NVS_SEQ0.FW_SEQ r.2

/-! ### The shift book (R517, R518) -/

/-- The 64 bytes of an entry. -/
def SbEntry.bytes (e : SbEntry) : List Nat :=
  let body := leBytes e.number 4 ++ [e.role, e.path, e.cls, e.result] ++ leBytes e.target 4 ++ leBytes e.value 4 ++ leBytes e.sec 8 ++
    leBytes e.ns 4 ++ leBytes e.frac 2 ++ [e.tstate, e.tally] ++ leBytes e.fwc 10 ++ zeroBytes 6 ++ (e.detail ++ zeroBytes 8).take 8 ++
    zeroBytes 4
  body ++ leBytes (crc32 body) 4

/-- The oldest queued entry is written to its slot; SHIFT_BOOK_WRAPPED as the oldest entries begin to be overwritten. A block marked WORN
refuses the write (R498). -/
def State.writeEntry (s : State) : State :=
  match s.nvs.sbQueue with
  | [] => s
  | e :: rest =>
    if Tbl.get false s.nvs.worn (172 + e.number % 2048 / 512) then (s.onNvs fun n => { n with sbQueue := rest }).set NVS_STATUS.LAST_RESULT 2
    else
    let t := s.onNvs fun n => { n with sbQueue := rest, sbSlots := Tbl.set none n.sbSlots (e.number % 2048) (some e) }
    if e.number % 2048 = 0 ∧ 0 < e.number then t.raise 0x1006 [e.number] else t

/-- The entry a number selects, where it is retained (R519). -/
def State.entryOf (s : State) (n : Nat) : Option SbEntry :=
  match Tbl.get none s.nvs.sbSlots (n % 2048) with
  | none => none
  | some e => if e.number = n then some e else none

/-! ### Operations (R495 to R500) -/

/-- TARGET of a class 4 entry: area, bank and SEQ. -/
def commitTarget (area bank seq : Nat) : Nat := area * 2 ^ 24 + bank * 2 ^ 16 + seq

/-- Why an operation cannot start: 1 BUSY, 6 before IDLE or in SAFE-TALK. -/
def State.storeRefuses (s : State) : Option Nat :=
  if s.on NVS_STATUS.BUSY then some 1
  else if s.pwr.startup ≠ 0 ∨ s.power < stIDLE ∨ s.power = stSAFETALK then some 6
  else none

/-- The shift book entry of a path for class 4; the foreman's own commands carry role 4 on path 3. -/
def State.commitEntry (s : State) (o : NvsOp) (result code : Nat) : State :=
  s.sbEnter o.role o.path 4 result (commitTarget o.area o.bank o.seq) 0 [code]

/-- An operation ends with a result of R500: its closing entry, and for a calibration set the registers and event of R171. -/
def State.endOp (s : State) (code : Nat) : State :=
  match s.nvs.op with
  | none => s
  | some o =>
    let t := ((s.set NVS_STATUS.BUSY 0).set NVS_STATUS.OP 0).set NVS_STATUS.LAST_RESULT code
    let t := (t.commitEntry o (if code = 0 then 0 else 4) code).onNvs fun n => { n with op := none, staged := [], img := none, unclosed := none }
    if o.area = 2 then
      let t := (t.set CAL_BASE_STATUS.BUSY 0).put CAL_BASE_STATUS.LAST_OK (decide (code = 0))
      let t := t.onCnv fun c => { c with commit := false }
      if code = 0 then
        ((t.set CAL_BASE_STATUS.SEQ o.seq).onCnv fun c => { c with base := t.bankContent 2 }).raise 0x0804 [o.seq]
      else t.raise 0x0805 [code]
    else t

/-- E1 and E2 of R495: BUSY, the entry STARTED, and the target bank made invalid. A worn index block refuses E2 (R498). -/
def State.startOp (s : State) (code area path role : Nat) (content : Tbl Nat) : State :=
  let b := s.nextBank area
  let o : NvsOp := ⟨code, area, b.1, b.2, 0, false, path, role⟩
  let t := ((s.set NVS_STATUS.BUSY 1).set NVS_STATUS.OP code).commitEntry o 2 0
  if Tbl.get false s.nvs.worn (areaBlocks area b.1).1 then (t.onNvs fun n => { n with op := some o }).endOp 2
  else t.onNvs fun n => { n with
    op := some o, staged := content, unclosed := some (area, b.1, b.2)
    banks := Tbl.set 0 n.banks (2 * area + b.1) 0, content := Tbl.erase n.content (2 * area + b.1) }

/-- E4 and E5 of R495: the index block is written and the new bank is in force. -/
def State.finishOp (s : State) : State :=
  match s.nvs.op with
  | none => s
  | some o =>
    let t := s.onNvs fun n => { n with
      banks := Tbl.set 0 n.banks (2 * o.area + o.bank) (o.seq + 1)
      content := Tbl.set [] n.content (2 * o.area + o.bank) n.staged }
    (t.endOp 0).showBanks

/-- A block of the bank that the operation in progress writes is marked WORN (R498). -/
def State.opWorn (s : State) : Bool :=
  match s.nvs.op with
  | none => false
  | some o => (List.range (areaBlocks o.area o.bank).2).any fun i => Tbl.get false s.nvs.worn ((areaBlocks o.area o.bank).1 + i)

/-- The operation in progress ends: EXHAUSTED where a block it writes is worn, else with its bank in force. -/
def State.closeOp (s : State) : State := if s.opWorn then s.endOp 2 else s.finishOp

/-- The operation in progress takes its data from a working copy or the goldens in foreman SRAM (R495, R503). -/
def State.copiesOut (s : State) : Bool :=
  match s.nvs.op with
  | none => false
  | some o => decide (o.area = 2 ∨ o.area = 5)

/-- A block's correction counter advances; it saturates. -/
def State.countCorr (s : State) (block : Nat) : State :=
  s.onNvs fun n => { n with corr := Tbl.set 0 n.corr block (min 65535 (Tbl.get 0 n.corr block + 1)) }

/-- What a verify finds (R498): 0 no error, 1 one bit, 2 two bits or uncorrectable, in a word of logical block `b`. A second retirement
needs a spare as the first does, so without one left the block is WORN. -/
def State.verify (s : State) (b err : Nat) : State :=
  if Tbl.get false s.nvs.worn b then s.endOp 2
  else if err = 0 then s
  else if err = 1 then s.countCorr b
  else if s.nvs.spares = 0 then
    ((s.onNvs fun n => { n with worn := Tbl.set false n.worn b true }).endOp 2).raise 0x0F02 [b, (s.nvs.op.map NvsOp.op).getD 6]
  else if (s.nvs.op.map NvsOp.retired).getD false then s.endOp 3
  else
    let phys := 272 - s.nvs.spares
    let t := s.onNvs fun n => { n with
      spares := n.spares - 1, phys := Tbl.set 0 n.phys b (phys + 1), moved := Tbl.set false n.moved b true, headerSeq := (n.headerSeq + 1) % 65536
      op := n.op.map fun o => { o with retired := true } }
    (t.set NVS_STATUS.SPARES t.nvs.spares).raise 0x0F01 [b, phys, t.nvs.spares]

/-! ### Reads (R499) -/

/-- The logical block of a word address. -/
def blockOf (word : Nat) : Nat := word / 4096

/-- First block of a bank of an image area, and how many an area's bank has. -/
def imgBlock (area bank : Nat) : Nat := (areaBlocks area bank).1
def imgBlocks (area : Nat) : Nat := (areaBlocks area 0).2

/-- A word of an image area: as written since, else what the factory left there, which the manual does not state. -/
def State.imageWord (s : State) (word : Nat) : Nat :=
  match Tbl.get 0 s.nvs.words word with
  | 0 => Config.storeWord word 0 % 2 ^ 64
  | v + 1 => v
def State.putImageWord (s : State) (word v : Nat) : State :=
  s.onNvs fun n => { n with words := Tbl.set 0 n.words word (v % 2 ^ 64 + 1) }

/-- Content of a word of the store: the words of an image as written, the entries of the shift book in their slots, nothing over the
keys; the body of another record is not laid out by the manual (notes/assumptions/30.md). -/
def State.storeWord (s : State) (word : Nat) : Nat :=
  let b := blockOf word
  if 154 ≤ b ∧ b ≤ 155 then 0
  else if 172 ≤ b ∧ b ≤ 175 then
    match Tbl.get none s.nvs.sbSlots ((word - 172 * 4096) / 8) with
    | none => 0
    | some e => ofLeBytes ((e.bytes.drop (8 * (word % 8))).take 8)
  else if (2 ≤ b ∧ b ≤ 97) ∨ (176 ≤ b ∧ b ≤ 195) then s.imageWord word
  else Config.storeWord word s.nvs.headerSeq % 2 ^ 64

/-- VERSION of the firmware bank in force: bytes 8 to 11 of its index block's body (R494); 0 where there is none. -/
def State.fwVersion (s : State) : Nat :=
  match s.inBank 1 with
  | none => 0
  | some (b, _) => s.imageWord (imgBlock 1 b * 4096 + 2) / 2 ^ 32

/-- A word is read at NVS_RD_ADDR: HI and NVS_RD_STATUS latch. `err` is the number of wrong bits found: 1 and 2 corrected, 3
uncorrectable. -/
def State.readStore (s : State) (err : Nat) : State × Nat :=
  let a := s.get NVS_RD_ADDR.WORD
  let b := blockOf a
  let key := decide (b = 154 ∨ b = 155)
  let v := if 3 ≤ err then 0 else s.storeWord a
  let t := ((s.put NVS_RD_STATUS.KEY key).put NVS_RD_STATUS.CORR2 (decide (err = 2))).put NVS_RD_STATUS.UNCORR (decide (3 ≤ err))
  let t := t.onNvs fun n => { n with rdHi := v / 2 ^ 32 }
  let t :=
    if err = 0 then t
    else if err = 1 then t.countCorr b
    else if err = 2 then
      ((t.countCorr b).bump NVS_ERRCNT0.CORR2_CNT 1).onNvs fun n =>
        { n with rewrite := if n.rewrite.contains b then n.rewrite else n.rewrite ++ [b] }
    else (t.bump NVS_ERRCNT0.UNCORR_CNT 1).raise 0x0F03 [b, a % 4096]
  (t, v % 2 ^ 32)

/-- A record fails its CRC (R499). -/
def State.recordFails (s : State) (area bank block : Nat) : State := (s.bump NVS_ERRCNT1.CRC_FAIL_CNT 1).raise 0x0F05 [area, bank, block]

/-- Area, bank and index of the record a logical block holds (R493, R494). -/
def recordOf (b : Nat) : Nat × Nat × Nat :=
  if b < 2 then (0, b, 0) else if b < 98 then (1, (b - 2) / 48, (b - 2) % 48) else if b < 146 then (2, (b - 98) / 24, (b - 98) % 24)
  else if b < 154 then (3, (b - 146) / 4, (b - 146) % 4) else if b < 156 then (4, b - 154, 0)
  else if b < 172 then (5, (b - 156) / 8, (b - 156) % 8) else if b < 176 then (6, 0, b - 172) else (7, (b - 176) / 10, (b - 176) % 10)

/-- A record that fails its CRC or holds an uncorrectable word is never used: its bank is not valid (R494, R499). -/
def State.spoilBank (s : State) (b : Nat) : State :=
  let r := recordOf b
  if [1, 2, 3, 5, 7].contains r.1 then s.onNvs fun n => { n with banks := Tbl.set 0 n.banks (2 * r.1 + r.2.1) 0 } else s

/-- Reading a record, the logical block `b`, the boot finds its CRC wrong (R499). -/
def State.spoilRecord (s : State) (b : Nat) : State :=
  let r := recordOf b
  (s.spoilBank b).recordFails r.1 r.2.1 r.2.2

/-- Reading a record the boot finds an uncorrectable word (R499). -/
def State.spoilWord (s : State) (w : Nat) : State :=
  (((s.spoilBank (blockOf w)).bump NVS_ERRCNT0.UNCORR_CNT 1)).raise 0x0F03 [blockOf w, w % 4096]

/-- What the boot finds as it reads the store: blocks whose record fails its CRC, and words that are uncorrectable. With both copies of the
key record spoilt no role keys are valid. -/
def State.bootReads (s : State) (crc unc : List Nat) : State :=
  let t := unc.foldl State.spoilWord (crc.foldl State.spoilRecord s)
  let lost := fun b => crc.contains b || unc.any fun w => decide (blockOf w = b)
  t.when (lost 154 && lost 155) fun t => t.onRol fun r => { r with keys := [] }

/-- The SEQ of the bank an unclosed STARTED entry names is reviewed at boot (R496). -/
def State.reviewBook (s : State) : State :=
  match s.nvs.unclosed with
  | none => s
  | some (area, bank, seq) =>
    if s.nvs.op.isSome then s
    else
      let t := s.onNvs fun n => { n with unclosed := none }
      if s.bankSeq area bank = seq + 1 then t.sbEnter 4 3 4 0 (commitTarget area bank seq) 0 [0]
      else
        let t := (t.sbEnter 4 3 4 3 (commitTarget area bank seq) 0 [0]).raise 0x0F04 [area, bank, seq]
        if area = 2 then t.set CAL_BASE_STATUS.LAST_OK 0 else t

end Sys2Proof.Machine
end

