-- ==== Sys2Proof/Machine/Convert.lean ====
section
/-!
DEFINITION. Commands of conversion and background calibration (ch. 05, R155 to R171).
-/
namespace Sys2Proof.Machine

/-! ### Fit (R158, R159) -/

/-- Sum of a list of integers. -/
def total (xs : List Int) : Int := xs.foldl (fun n x => n + x) 0

/-- The straight line of the ramp level in DN against the raw code by least squares over all conversions, codes paired with levels:
OFS, GAIN in the form of their registers, and the largest residual of a level's mean in DN × 2⁻⁴, rounded up (R151, R159, R161). `q` is the
unit of the levels: q of them are 1 DN. DEDUCED (notes/assumptions/48.md): the levels are fitted on the codes; OFS and GAIN are rounded half to
even; a sample without spread fits nothing and gives GAIN 0. -/
def fitLine (codes levels : List Nat) (q : Nat) : Nat × Nat × Nat :=
  let pts := (codes.zip levels).map fun e => ((e.1 : Int), (e.2 : Int))
  let n : Int := pts.length
  let sx := total (pts.map fun e => e.1)
  let sy := total (pts.map fun e => e.2)
  let num := n * total (pts.map fun e => e.1 * e.2) - sx * sy
  let den := n * total (pts.map fun e => e.1 * e.1) - sx * sx
  if num ≤ 0 ∨ den ≤ 0 then (0, 0, 0)
  else
    let off := max (-32768) (min 32767 (roundHalfEven (16 * (sx * num - sy * den)) (n * num).toNat))
    let gain := min (2 ^ 18 - 1) (roundHalfEven (65536 * num) (den * q).toNat).toNat
    -- a level's 8 conversions lie in a row; residuals in 1/(8 n den q) DN
    let rest := (List.range (pts.length / 8)).map fun i =>
      let g := (pts.drop (8 * i)).take 8
      (n * num * total (g.map fun e => e.1) + 8 * (sy * den - num * sx) - n * den * total (g.map fun e => e.2)).natAbs
    let worst := rest.foldl max 0
    (unsigned 16 off, gain, (16 * worst + 8 * (n * den).toNat * q - 1) / (8 * (n * den).toNat * q))

/-- The ramp levels in force, each for its 8 conversions. -/
def State.rampLevels (s : State) (side gain : Nat) : List Nat :=
  (List.range 16).flatMap fun i => List.replicate 8 (s.coef (rampKey side gain i))

/-- Stages 2 and 3 for one slice (R159): 275 and 2500 units of a level make 1 DN (R153). -/
def State.fitSample (s : State) (m : SliceSample) : SliceResult :=
  let h := fitLine m.hcg (s.rampLevels (m.bank / 1024) 0) 275
  let l := fitLine m.lcg (s.rampLevels (m.bank / 1024) 1) 2500
  ⟨m.bank, m.slice, h.1, h.2.1, l.1, l.2.1, Config.skewFrom (8 * m.bank + m.slice) m.edge % 64, max h.2.2 l.2.2⟩

/-! ### Plausibility (R161) -/

/-- A value lies within `d` of another. -/
def within (a b d : Int) : Bool := decide (b - d ≤ a ∧ a ≤ b + d)

/-- A slice's coefficients in force, in the shape of a result. -/
def State.sliceNow (s : State) (b sl : Nat) : SliceResult :=
  ⟨b, sl, s.coef (coefKey 1 b sl 0), s.coef (coefKey 2 b sl 0), s.coef (coefKey 1 b sl 1), s.coef (coefKey 2 b sl 1), s.coef (coefKey 3 b sl 0), 0⟩

/-- OFS, GAIN and SKEW of a result lie within the baseline limits. -/
def State.nearBase (s : State) (r : SliceResult) : Bool :=
  let b := fun kind g => s.baseCoef (coefKey kind r.bank r.slice g)
  let ofs := fun v g => within (signed 16 v) (signed 16 (b 1 g)) (s.get CAL_PLAUS.OFS_BASE * 16)
  let gain := fun (v g : Nat) => within ((v : Int) * 1000) ((b 2 g : Int) * 1000) (s.get CAL_PLAUS.GAIN_BASE * b 2 g)
  ofs r.ofs0 0 && ofs r.ofs1 1 && gain r.gain0 0 && gain r.gain1 1 && within (signed 6 r.skew) (signed 6 (b 3 0)) 16

/-- The first quantity of R161 that fails: 1 OFS, 2 GAIN, 3 SKEW, 4 the fit residual (beyond 1.5 DN); none for a plausible result. -/
def State.implausible (s : State) (r : SliceResult) : Option Nat :=
  let c := fun kind g => s.coef (coefKey kind r.bank r.slice g)
  let b := fun kind g => s.baseCoef (coefKey kind r.bank r.slice g)
  let ofs := fun (v g : Nat) => within (signed 16 v) (signed 16 (c 1 g)) (s.get CAL_PLAUS.OFS_STEP) &&
    within (signed 16 v) (signed 16 (b 1 g)) (s.get CAL_PLAUS.OFS_BASE * 16)
  let gain := fun (v g : Nat) => within ((v : Int) * 10000) ((c 2 g : Int) * 10000) (s.get CAL_PLAUS.GAIN_STEP * c 2 g) &&
    within ((v : Int) * 1000) ((b 2 g : Int) * 1000) (s.get CAL_PLAUS.GAIN_BASE * b 2 g)
  let skew := within (signed 6 r.skew) (signed 6 (c 3 0)) 2 && within (signed 6 r.skew) (signed 6 (b 3 0)) 16
  if !(ofs r.ofs0 0 && ofs r.ofs1 1) then some 1
  else if !(gain r.gain0 0 && gain r.gain1 1) then some 2
  else if !skew then some 3
  else if 24 < r.fit then some 4
  else none

/-- A slice takes the coefficients of a result; their age restarts. -/
def State.takeSlice (s : State) (r : SliceResult) : State :=
  let set := fun (t : State) kind g v => t.setCoef (coefKey kind r.bank r.slice g) v
  (set (set (set (set (set s 1 0 (r.ofs0 % 65536)) 2 0 (r.gain0 % 2 ^ 18)) 1 1 (r.ofs1 % 65536)) 2 1 (r.gain1 % 2 ^ 18)) 3 0
    (r.skew % 64)).setStamp (sliceStamp r.bank r.slice)

/-- The active slice whose coefficients are oldest (R160). DESIGN CHOICE (notes/assumptions/49.md): of slices equally old, the one in the lowest
position. -/
def State.oldestActive (s : State) (b : Nat) : Nat :=
  match (s.bank b).active with
  | [] => 0
  | a :: as => as.foldl (fun o x => if s.stampOf (sliceStamp b x) < s.stampOf (sliceStamp b o) then x else o) a

/-- The spare takes the place of the oldest active slice, which becomes the spare (R160). -/
def State.rotate (s : State) (b : Nat) : State :=
  let o := s.oldestActive b
  s.setBank b fun k => { k with active := k.active.map fun x => if x = o then k.spare else x, spare := o, strikes := 0 }

/-- The set of aged stopes is looked at (R166): CAL_STATUS.AGED follows, the open sweeps of aged stopes are flagged (R201), and CAL_AGED is
raised as the set grows from empty. -/
def State.reviewAged (s : State) : State :=
  let a := s.agedKinds
  let flag := fun (o : OutSweep) => if s.agedBanks o.stope then { o with cond := o.cond ||| 2 ^ cdAGED } else o
  let t := (s.set CAL_STATUS.AGED a).onEng fun g => { g with out := g.out.map flag }
  let t := t.spotFlag cdAGED s.agedBanks
  let u := t.onCnv fun c => { c with wasAged := decide (a ≠ 0) }
  if a = 0 ∨ s.cnv.wasAged then u else u.raise 0x0802 [a, t.fwc]

/-! ### Steps -/

/-- A bank's part of a slice step's end (R160 to R162). The flag says whether any bank was refused. -/
def State.sliceBank (s : State) (b : Nat) (r : SliceResult) : State × Bool :=
  match s.implausible r with
  | none => ((s.takeSlice r).rotate b, false)
  | some q =>
    let k := s.bank b
    let t := s.setBank b fun k => { k with strikes := k.strikes + 1 }
    let t := t.raise 0x0702 [b, k.spare, q]
    if k.strikes + 1 < s.get CAL_LIMIT.STRIKES then (t, true)
    else
      let t := (t.setBank b fun k => { k with parked := k.spare, recal := true }).raise 0x0703 [b, k.spare]
      (t.callRecovery 0x0703 b 1 true false, true)

/-- The banks a slice step calibrates: those that rotate (R162). -/
def Bank.rotates (k : Bank) : Bool := decide (k.parked = 7) && !k.failed && !k.degraded

/-- A slice step ends (R159 to R162). `res` lists the codes of the spares; a bank that is not listed finds its spare's coefficients
unchanged. -/
def execSliceStepDone (res : List SliceSample) (s : State) : Out :=
  match s.cnv.step with
  | some (1, t0) =>
    let s := (s.advance (t0 + stepTicks 1)).reviewAged
    let r := (List.range 2048).foldl (fun (a : State × Bool) b =>
      if (a.1.bank b).rotates then
        let sp := (a.1.bank b).spare
        let x := match res.find? fun r => decide (r.bank = b) with
          | some m => a.1.fitSample { m with slice := sp }
          | none => a.1.sliceNow b sp
        let u := a.1.sliceBank b x
        (u.1, a.2 || u.2)
      else a) (s, false)
    .next (((r.1.stepRan 1 r.2).reviewAged).schedule)
  | _ => .next s

/-- The calibration rows of a tap are reset (R72). -/
def State.resetCalRows (s : State) (tap : Nat) : State :=
  let stays := fun k => !(decide (k / 2 ^ 29 = tap) && decide (k / 2 ^ 15 % 2 ^ 14 < 32 ∨ 12352 ≤ k / 2 ^ 15 % 2 ^ 14))
  s.onArr fun a => { a with counts := Tbl.keep stays a.counts, charge := Tbl.keep stays a.charge }

/-- One group's part of a packet calibration's end (R71, R73). -/
def State.qpGroup (s : State) (tap g q : Nat) : State × Bool :=
  let k := qpKey tap g
  let now := s.coef k
  let base := s.baseCoef k
  if within ((q : Int) * 400) ((now : Int) * 400) now && within ((q : Int) * 50) ((base : Int) * 50) base then
    ((s.onArr fun a => { a with qpNext := Tbl.set 0 a.qpNext k (q + 1) }).setStamp k, false)
  else (s.raise 0x0645 [g, tap, q], true)

/-- A packet calibration step ends (R71 to R73). `res` lists the Q_P measured, by column group; a group not listed finds its value in
force. -/
def execPktCalStepDone (res : List (Nat × Nat)) (s : State) : Out :=
  match s.cnv.step with
  | none => .next s
  | some (kind, t0) =>
    if kind = 1 then .next s
    else
      let tap := kind - 2
      let s := (s.advance (t0 + stepTicks kind)).reviewAged
      let r := (List.range 1024).foldl (fun (a : State × Bool) g =>
        let q := match res.find? fun r => decide (r.1 = g) with
          | some r => r.2 % 2 ^ 24
          | none => a.1.coef (qpKey tap g)
        let u := a.1.qpGroup tap g q
        (u.1, a.2 || u.2)) (s, false)
      .next ((((r.1.resetCalRows tap).stepRan kind r.2).reviewAged).schedule)

/-- A kind's age reaches its interval (R163). -/
def execCalKindDue (kind : Nat) (s : State) : Out :=
  .next (if kind = 1 ∨ kind = 2 ∨ kind = 3 then s.advance (s.lastStep kind + s.interval kind) else s)

/-! ### Gap marks and the bank re-calibration (R162, R164) -/

/-- Ticks of a bank re-calibration: stages 1 to 4 on five slices. -/
def recalTicks : Nat := 960000

/-- The re-calibration covers every bank that has a parked slice (R162, R478), and a FAILED one (R471). -/
def Bank.wants (k : Bank) : Bool := decide (k.parked ≠ 7) || k.failed

/-- A gap mark reaches the converter sides (R117): a deferred bank re-calibration starts in the first one that is long enough; in READY it
runs again for a FAILED bank (R471); then the scheduler. -/
def State.gapMark (s : State) (len : Nat) : State :=
  let t := s.onCnv fun c => { c with mark := some len, ran := [] }
  let again := decide (s.power = stREADY) && (s.cnv.banks.any fun (e : Nat × Bank) => e.2.failed)
  if decide (recalTicks ≤ len) && decide (s.get SAF_STATUS.LEVEL = 0) && (s.saf.deferred.isSome || again) && s.cnv.step.isNone then
    let f := match s.saf.deferred with
      | some (code, arg, _) => (code, arg)
      | none => (0x0703, ((s.cnv.banks.find? fun (e : Nat × Bank) => e.2.failed).map Prod.fst).getD 0)
    let t := (t.set SAF_STATUS.DEFERRED 0).onSaf fun x => { x with deferred := none }
    (t.startL1 f.1 f.2).onCnv fun c => { c with recal := true, mark := some (len - recalTicks)
                                                banks := c.banks.map fun e => (e.1, { e.2 with recal := false }) }
  else t.schedule

/-- The outcome of the re-calibration for one bank. The flag says that it failed. DESIGN CHOICE (notes/assumptions/51.md): the slices within
limits of a bank that fails take their new coefficients too. -/
def State.recalBank (s : State) (b : Nat) (res : List SliceSample) : State × Bool :=
  let r := fun sl => match res.find? fun r => decide (r.bank = b ∧ r.slice = sl) with
    | some m => s.fitSample m
    | none => s.sliceNow b sl
  let good := [0, 1, 2, 3, 4].filter fun sl => s.nearBase (r sl)
  let t := good.foldl (fun t sl => t.takeSlice (r sl)) s
  if good.length = 5 then
    ((t.setBank b fun k => { k with parked := 7, strikes := 0, failed := false, degraded := false, recal := false }).raise 0x0705 [b], false)
  else if good.length = 4 then
    let bad := ([0, 1, 2, 3, 4].find? fun sl => !good.contains sl).getD 7
    ((t.setBank b fun k => { k with active := k.active.map (fun x => if x = bad then k.spare else x), spare := bad, parked := bad, degraded := true
                                    failed := false, recal := false, strikes := 0 }).raise 0x0704 [b], false)
  else ((t.setBank b fun k => { k with failed := true, degraded := false, recal := false }).raise 0x0706 [b, good.length], true)

/-- The bank re-calibration ends (R162): every bank with a parked slice is restored, degraded or FAILED; a FAILED bank escalates to L2. -/
def execBankRecalDone (res : List SliceSample) (s : State) : Out :=
  if !s.cnv.recal then .next s
  else
    let s := (s.advance (s.saf.since + recalTicks)).reviewAged
    let r := (s.cnv.banks.filter fun e => e.2.wants).foldl (fun (a : State × Bool) e =>
      let u := a.1.recalBank e.1 res
      (u.1, a.2 || u.2)) (s, false)
    let t := r.1.onCnv fun c => { c with recal := false }
    let t := t.set CNV_STATUS.DEGRADED_CNT ((t.cnv.banks.filter fun e => e.2.degraded).length)
    let t := t.onSaf fun f => { f with bankFailed := t.cnv.banks.any fun e => e.2.failed }
    let own := match t.saf.l1 with
      | some (code, arg) => if isGapAction code then some (code, arg) else none
      | none => none
    match own with
    | none => .next (t.reviewAged).schedule
    | some (code, arg) => .next (if r.2 then t.escalate 0x0706 [] else ((t.actionDone code arg).reviewAged).schedule)

/-- The first instant at which a coefficient or Q_P passes MAX_AGE. -/
def State.firstAging (s : State) : Nat :=
  let ks := ((List.range 2048).map fun b => (s.bank b).active.map (sliceStamp b)).flatten ++ List.range 2048
  ks.foldl (fun n k => min n (s.stampOf k)) s.fwc + s.get CAL_LIMIT.MAX_AGE * secTicks + 1

/-- Coefficients or Q_P of some stope pass MAX_AGE (R166). -/
def execCalAged (s : State) : Out := .next (s.advance s.firstAging).reviewAged

/-- A write of CAL_LIMIT: the age limit it leaves decides what is aged (R166). -/
def State.effCalLimit (s : State) (p : Path) (w : Nat) : State := (s.writeFields p 0x08008 w).reviewAged

/-! ### The maker's baseline (R171) -/

/-- The calibration number CAL_BASE_SEL selects. -/
def State.baseSel (s : State) : Nat :=
  let k := s.get CAL_BASE_SEL.KIND
  let i := s.get CAL_BASE_SEL.INDEX
  if k = 0 then qpKey (s.get CAL_BASE_SEL.TAP) (i % 1024) else coefKey k i (s.get CAL_BASE_SEL.SLICE) (s.get CAL_BASE_SEL.GAIN)

/-- CAL_BASE_VAL shows the working copy at the selection. -/
def State.showBase (s : State) : State := s.set CAL_BASE_VAL.VAL (Tbl.get (coefNominal s.baseSel) s.cnv.work s.baseSel)

/-- The width of a calibration value: Q_P 24 bits, OFS 16, GAIN 18, SKEW 6. -/
def coefWidth (k : Nat) : Nat := if k < 2 ^ 20 then 24 else if k < 2 * 2 ^ 20 then 16 else if k < 3 * 2 ^ 20 then 18 else 6

/-- CAPTURE: every coefficient and Q_P in force goes into the working copy. -/
def State.baseCapture (s : State) : State := s.onCnv fun c => { c with work := c.coef }

/-- COMMIT: a calibration set commit of the working copy; a refusal is reported as R500 has it. -/
def State.baseCommit (s : State) (p : Path) : State :=
  match s.storeRefuses with
  | some c => ((s.set NVS_STATUS.LAST_RESULT c).set CAL_BASE_STATUS.LAST_OK 0).raise 0x0805 [c]
  | none =>
    let t := s.startOp 1 2 (pathNo p) 3 s.cnv.work
    if t.nvs.op.isNone then t else (t.set CAL_BASE_STATUS.BUSY 1).onCnv fun c => { c with commit := true }

/-- A write of CAL_BASE_CMD, ignored while BUSY. -/
def State.effBaseCmd (s : State) (p : Path) (w : Nat) : State :=
  if s.on CAL_BASE_STATUS.BUSY || !s.mayWrite p CAL_BASE_CMD.COMMIT then s
  else
    let t := if CAL_BASE_CMD.CAPTURE.of w = 1 then s.baseCapture else s
    if CAL_BASE_CMD.COMMIT.of w = 1 then t.baseCommit p else t

/-- A write of CAL_BASE_VAL, ignored while BUSY. -/
def State.effBaseVal (s : State) (p : Path) (w : Nat) : State :=
  if s.on CAL_BASE_STATUS.BUSY || !s.mayWrite p CAL_BASE_VAL.VAL then s else s.setWork s.baseSel (w % 2 ^ coefWidth s.baseSel)

def execCalBaseCapture (p : Path) (s : State) : Out := .next (s.regWrite p 0x0804C 2 fun t => t.effBaseCmd p 2)
def execCalBaseValWrite (p : Path) (w : Word) (s : State) : Out := .next (s.showBase.regWrite p 0x08048 w.toNat fun t => t.effBaseVal p w.toNat)
def execCalBaseCommit (p : Path) (s : State) : Out := .next (s.regWrite p 0x0804C 1 fun t => t.effBaseCmd p 1)

end Sys2Proof.Machine
end

