-- ==== Sys2Proof/Machine/Trackers.lean ====
section
/-!
DEFINITION. The two trackers and their edges (R86 to R99, R562, R563). Edge times come in ticks × 2⁻³ (R86); instants are in ticks × 2⁻¹⁶.
-/
namespace Sys2Proof.Machine

/-! ### Wall frames (R97 to R99) -/

/-- The wall frame number comes from publications: on a joined crew unit, and on tally 1 with NETSCAN (R98). -/
def State.framesPublished (s : State) : Bool :=
  (s.isCrew || (s.isPithead && decide (s.get CAD_SRC.SCAN_SRC = 2))) && s.cad.published

/-- The number of the wall frame that starts at instant `p`. -/
def State.frameNumber (s : State) (p : Nat) : Nat :=
  let own := if s.cad.counting then (s.cad.wall + 1) % 2 ^ 32 else 0
  if s.framesPublished then
    match s.pubOf false with
    | none => own
    | some b =>
      if b.period = 0 then own else unsigned 32 (b.frame + s.startNear b p)
  else own

/-- Wall frames per sweep, in force. -/
def State.lockN (s : State) : Nat := max 1 (s.inForce CAD_CTRL.LOCK_N)

/-- The tracked frame start at instant `p` is counted; with a multiple of LOCK_N a sweep start is due on the tick nearest (R97). -/
def State.takeFrame (s : State) (p : Nat) : State :=
  let n := s.frameNumber p
  let i := n % s.lockN
  s.onCad fun c => { c with
    wall := n, counting := true, zeroNext := false, frameAt := tickOf p, startAt := p, frameIx := i
    sweepDue := c.sweepDue || decide (i = 0), dueAt := if i = 0 then tickOf p else c.dueAt }

/-- The scan tracker's start at p is counted unless it has been. -/
def State.takeStart (s : State) : State :=
  match s.cad.scan.p with
  | none => s
  | some p => if s.cad.scan.taken then s else (s.takeFrame p).onCad fun c => { c with scan := { c.scan with taken := true } }

/-! ### The state table of R92 -/

/-- TOL in ticks × 2⁻¹⁶ (R91). -/
def State.tol (s : State) (m : Bool) : Nat := (if m then s.get CAD_ACQ.MAINS_TOL * 2000 else s.get CAD_ACQ.SCAN_TOL) * sub

/-- The codes of COAST, LOST and LOCKED by tracker (R123). -/
def trkEvent (m : Bool) (k : Nat) : Nat := (if m then 0x0503 else 0x0500) + k

/-- The last e, in ticks × 2⁻³, held at the limits. -/
def State.storeErr (s : State) (m : Bool) (e : Int) : State :=
  s.set (if m then CAD_MAINS_ERR.ERR else CAD_SCAN_ERR.ERR) (unsigned 32 (clampInt (-(2 ^ 31)) (2 ^ 31 - 1) (e / 8192)))

/-- Everything that hangs on the trackers is looked at again. -/
def State.reviewTrackers (s : State) : State := (s.reviewMeas).reviewTime

/-- An edge in tolerance at phase error `e` (R91, R92). -/
def State.edgeGood (s : State) (m : Bool) (p per : Nat) (e : Int) : State :=
  let per' := ((per : Int) + e / 2 ^ s.get CAD_TRK.KI).toNat
  let p' := ((p : Int) + per' + e / 2 ^ s.get CAD_TRK.KP).toNat
  let st := (s.trk m).st
  let agree := if st = 1 then min 8 ((s.trk m).agree + 1) else (s.trk m).agree
  let lock := st = 3 ∨ (st = 1 ∧ agree = 8)
  let t := s.setTrk m fun k => { k with p := some p', last := some p, per := some per', agree, miss := 0, taken := false, st := if lock then 2 else k.st }
  let t := if lock then t.raise (trkEvent m 3) [s.trkSrc m, per'] else t
  t.movedP m (p + per) p'

/-- The edge for p is missing (R92, R563). R98 says of a missing edge that it counts as one wall frame "while the scan tracker coasts"; R99
adds "each missing edge counted under R98". A missing edge in ACQUIRING counts here too: DESIGN CHOICE (notes/assumptions/40.md). -/
def State.edgeMissing (s : State) (m : Bool) : State :=
  let k := s.trk m
  match k.p, k.per with
  | some p, some per =>
    let s := (if m then s else s.takeStart).setTrk m fun k => { k with p := some (p + per), last := some p, taken := false }
    let src := s.trkSrc m
    let t :=
      if k.st = 1 then
        if k.miss + 1 = 4 ∧ (src = 1 ∨ src = 3) then
          s.setTrk m fun k => { k with agree := 0, miss := 0, p := none, per := none, first := none, held := some (p + per) }
        else s.setTrk m fun k => { k with agree := 0, miss := k.miss + 1 }
      else if k.st = 2 then
        (s.setTrk m fun k => { k with st := 3, left := s.get CAD_COAST.COUNT - 1 }).raise (trkEvent m 1) [src, s.fwc]
      else if k.st = 3 then
        if 0 < k.left then s.setTrk m fun k => { k with left := k.left - 1 }
        else
          let t := (s.setTrk m fun k => { k with st := 4, p := none, held := some (p + per) }).raise (trkEvent m 2) [src, s.fwc]
          if m then t else t.onCad fun c => { c with lines := none }
      else s
    t.reviewTrackers
  | _, _ => s

/-- An edge in ACQUIRING beyond TOL: the tracker is re-phased (R92). -/
def State.edgeRephase (s : State) (m : Bool) (p per t : Nat) : State :=
  let s := if m || s.cad.scan.taken then s else s.takeFrame t
  (s.setTrk m fun k => { k with p := some (t + per), agree := 0, miss := 0, taken := false }).movedP m (p + per) (t + per)

/-- An edge at `t` for p (R91, R92). -/
def State.edgeFor (s : State) (m : Bool) (p per t : Nat) : State :=
  let e : Int := (t : Int) - p
  let s := s.storeErr m e
  if e.natAbs ≤ s.tol m then (((if m then s else s.takeStart).edgeGood m p per e).reviewTrackers)
  else if (s.trk m).st = 1 then (s.edgeRephase m p per t).reviewTrackers
  else s.edgeMissing m

/-- An edge that leaves LOST: p := t, AGREE := 1 (R92). -/
def State.edgeAfterLost (s : State) (m : Bool) (t : Nat) : State :=
  let s := if m then s else s.takeFrame t
  let old := (s.trk m).held
  ((s.setTrk m fun k => { k with st := 1, agree := 1, miss := 0, p := some (t + k.per.getD 0), taken := false }).regainedP m old).reviewTrackers

/-- An edge that measures the period (R563). -/
def State.edgeMeasure (s : State) (m : Bool) (t : Nat) : State :=
  let s := if m then s else s.takeFrame t
  match (s.trk m).first with
  | none => s.setTrk m fun k => { k with first := some t }
  | some t1 =>
    let old := (s.trk m).held
    (s.setTrk m fun k => { k with first := none, per := some (t - t1), p := some (t + (t - t1)), agree := 0, miss := 0, taken := false }).regainedP m old

/-- An active edge of SCAN_FRM or MAINS_ZX at `t` (ticks × 2⁻¹⁶). `bad` says that the SCAN_LINE check of R89 failed. -/
def State.inputEdge (s : State) (m : Bool) (t : Nat) (bad : Bool) : State :=
  let k := s.trk m
  if k.st = 4 then (if bad then s else s.edgeAfterLost m t)
  else
    match k.p, k.per with
    | some p, some per =>
      if per < 64 * ((t : Int) - p).natAbs then s.bump CAD_ERRCNT1.GLITCH_CNT 1
      else if bad then s.edgeMissing m else s.edgeFor m p per t
    | _, _ => if bad then s else s.edgeMeasure m t

/-- The instant of a timestamp, in ticks × 2⁻¹⁶. -/
def stampInstant (t : Nat) : Nat := t * 8192

/-- SCAN_FRM edge (R86, R88, R89, R91). -/
def execScanFrmEdge (t : Nat) (rising : Bool) (s : State) : Out :=
  let s := s.advance (t / 8)
  if s.cadenceRuns && decide (s.get CAD_SRC.SCAN_SRC = 1) && decide (rising = !s.on CAD_SCAN_CFG.POL) && decide (s.cad.scan.st ≠ 0) then
    let n := s.get CAD_SCAN_CFG.LINES
    let bad := match s.cad.lines with
      | none => false
      | some k => decide (n ≠ 0 ∧ k ≠ n)
    let s := if bad then s.raise 0x050C [s.cad.lines.getD 0] else s
    .next ((s.onCad fun c => { c with lines := some 0 }).inputEdge false (stampInstant t) bad)
  else .next s

/-- SCAN_LINE edge: counted from the last SCAN_FRM edge (R89). -/
def execScanLineEdge (t : Nat) (rising : Bool) (s : State) : Out :=
  let s := s.advance (t / 8)
  if s.cadenceRuns && decide (s.get CAD_SRC.SCAN_SRC = 1) && decide (rising = !s.on CAD_SCAN_CFG.LINE_POL) then
    .next (s.onCad fun c => { c with lines := c.lines.map (· + 1) })
  else .next s

/-- MAINS_ZX edge (R86, R88, R91). -/
def execMainsZxEdge (t : Nat) (rising : Bool) (s : State) : Out :=
  let s := s.advance (t / 8)
  if s.cadenceRuns && decide (s.get CAD_SRC.MAINS_SRC = 3) && decide (rising = !s.on CAD_MAINS_CFG.POL) && decide (s.cad.mains.st ≠ 0) then
    .next (s.inputEdge true (stampInstant t) false)
  else .next s

/-- A tracker follows publications. -/
def State.onNet (s : State) (m : Bool) : Bool := decide (s.trkSrc m = if m then 4 else 2)

/-- The edge for p is missing under R90: chain time is not valid, or no publication arrived within the last 4 periods. -/
def State.netMissing (s : State) (m : Bool) : Bool :=
  !s.on TIM_STATUS.CHAIN_OK ||
    match s.pubOf m with
    | none => true
    | some b => decide (b.arrived + 4 * (s.ticks16 b.period).toNat / sub < s.fwc)

/-- The computed start nearest to p serves as the edge for p (R90). -/
def State.netEdge (s : State) (m : Bool) : State :=
  let k := s.trk m
  match s.pubOf m with
  | none => s
  | some b =>
    let near := fun (p : Nat) => if b.period = 0 then p else s.pubStart b (s.startNear b p)
    if k.st = 4 then (if s.netMissing m then s else s.edgeAfterLost m (near (s.fwc * sub)))
    else
      match k.p, k.per with
      | some p, some per =>
        let s := s.advance (tickOf p)
        if s.netMissing m then s.edgeMissing m else s.edgeFor m p per (near p)
      | _, _ => (s.netStart m).regainedP m k.held

/-- A start computed from NETSCAN (m false) or NETMAINS (m true) publications (R90). -/
def execNetComputedStart (m : Bool) (s : State) : Out :=
  if s.cadenceRuns && s.onNet m && decide ((s.trk m).st ≠ 0) then .next (s.netEdge m) else .next s

/-- A FREE tracker's reference instant: on p exactly; P is the period register from here (R562). -/
def execFreeReferenceInstant (m : Bool) (s : State) : Out :=
  if s.cadenceRuns && decide (s.trkSrc m = 5) then
    match (s.trk m).p with
    | none => .next s
    | some p =>
      let s := (s.advance (tickOf p)).storeErr m 0
      let s := if m then s else s.takeStart
      let per := (if m then s.get CAD_FREE_MAINS.PERIOD else s.get CAD_FREE_SCAN.PERIOD) * sub
      let agree := min 8 ((s.trk m).agree + 1)
      let lock := (s.trk m).st = 1 ∧ agree = 8
      let t := s.setTrk m fun k => { k with p := some (p + per), per := some per, agree, taken := false, st := if lock then 2 else k.st }
      .next ((if lock then t.raise (trkEvent m 3) [5, per] else t).reviewTrackers)
  else .next s

/-- A tracker's window closes with no edge in it (R88, R92). A FREE tracker never misses; one that follows publications misses under R90
alone. -/
def execTrackerWindowClose (m : Bool) (s : State) : Out :=
  if s.cadenceRuns && decide ((s.trk m).st ≠ 0) && decide (s.trkSrc m ≠ 5) then
    match (s.trk m).p, (s.trk m).per with
    | some p, some per =>
      let s := s.advance ((p + per / 64) / sub)
      .next (if s.onNet m && !s.netMissing m then s else s.edgeMissing m)
    | _, _ => .next s
  else .next s

/-- A write of CAD_SRC (R87, R93): a code the field does not accept leaves it unchanged; a change passes the tracker through OFF. -/
def State.effCadSrc (s : State) (p : Path) (w : Nat) : State :=
  if !s.mayWrite p CAD_SRC.SCAN_SRC then s
  else
    let a := CAD_SRC.SCAN_SRC.of w
    let b := CAD_SRC.MAINS_SRC.of w
    let put := fun (t : State) (f : Field) (v : Nat) (ok : Bool) (m : Bool) =>
      if ok ∧ v ≠ t.get f then ((t.set f v).selectSrc m).reviewTime else t
    put (put s CAD_SRC.SCAN_SRC a (a = 0 ∨ a = 1 ∨ a = 2 ∨ a = 5) false) CAD_SRC.MAINS_SRC b (b = 0 ∨ b = 3 ∨ b = 4 ∨ b = 5) true

def execCadSrcWrite (p : Path) (w : Word) (s : State) : Out := .next (s.regWrite p 0x05004 w.toNat fun t => t.effCadSrc p w.toNat)

end Sys2Proof.Machine
end

