-- ==== Sys2Proof/Machine/Validate.lean ====
section
/-!
DEFINITION. Cadence table entries (R101, R102) and their validation: the table checks of R108 with R565 and the mode checks of R127. The checks
run on a state whose registers hold the values that will be in force after the swap (`State.afterSwap`).
-/
namespace Sys2Proof.Machine

/-! ### Entries -/

/-- A table entry with its index and its tick from the sweep start. -/
structure Row where
  ix : Nat
  action : Nat
  frame : Nat
  cols : Nat
  mask : Nat
  meas : Bool
  offset : Nat
  arg : Nat
  tick : Nat
  deriving DecidableEq, Repr

def entryAction (e : Nat) : Nat := bits e 60 4
def entryFrame (e : Nat) : Nat := bits e 56 4
def entryMask (e : Nat) : Nat := bits e 53 3
def entryMeas (e : Nat) : Bool := bit e 52
def entryOffset (e : Nat) : Nat := bits e 25 27
def entryArg (e : Nat) : Nat := bits e 0 25

/-- The index of the first SWEEP_END from index `i` on; 4096 where there is none. -/
def sweepEndFrom (t : Tbl Nat) : Nat → Nat → Nat
  | 0, _ => 4096
  | n + 1, i => if entryAction (Tbl.get 0 t i) = 15 then i else sweepEndFrom t n (i + 1)

/-- Index of the first SWEEP_END, 4096 for none. -/
def sweepEnd (t : Tbl Nat) : Nat := sweepEndFrom t 4096 0

/-- Entries run per sweep, SWEEP_END included (CAD_TBL_STATUS.ACTIVE_LEN). -/
def activeLen (t : Tbl Nat) : Nat := min 4096 (sweepEnd t + 1)

/-! ### What a check uses -/

/-- The scan period in ticks × 2⁻¹⁶; CAD_FREE_SCAN stands in where the tracker holds none (R108). -/
def State.checkPer (s : State) : Nat := s.scanPer.getD (s.get CAD_FREE_SCAN.PERIOD * sub)

/-- Columns of a mask index as the registers hold it. -/
def State.regCols (s : State) (m : Nat) : Nat := if m = 0 then 0xFFFF else s.get (CAD_MASK.MASK m)

/-- Stope enables and pass length as the registers hold them. -/
def State.regEnables (s : State) : Nat := (List.range 8).foldl (fun n w => n + s.get (EXP_STOPE_EN.EN w) * 2 ^ (32 * w)) 0
def State.regPass (s : State) (gains : Nat) : Nat := passTicks s.regEnables (s.on EXP_OB_CTRL.BLACK_ROWS_EN) gains

/-- LOCK_N as the register holds it. -/
def State.regLockN (s : State) : Nat := s.get CAD_CTRL.LOCK_N

/-- The sweep's length in ticks × 2⁻¹⁶. -/
def State.sweepPer (s : State) : Nat := s.regLockN * s.checkPer

/-- An entry as a row. -/
def State.row (s : State) (i e : Nat) : Row :=
  ⟨i, entryAction e, entryFrame e, s.regCols (entryMask e), entryMask e, entryMeas e, entryOffset e, entryArg e,
    tickOf (entryFrame e * s.checkPer + entryOffset e * sub)⟩

/-- The rows a check covers. -/
def State.rows (s : State) (t : Tbl Nat) : List Row := (List.range (sweepEnd t)).map fun i => s.row i (Tbl.get 0 t i)

def Row.isOpen (r : Row) : Bool := decide (r.action = 1 ∨ r.action = 2)
def Row.isGate (r : Row) : Bool := decide (1 ≤ r.action ∧ r.action ≤ 3)
def Row.isArm (r : Row) : Bool := decide (r.action = 7)
def Row.isRead (r : Row) : Bool := decide (r.action = 4)
def Row.isGap (r : Row) : Bool := decide (r.action = 5)

/-- The tap an OPEN, READ or ARM entry names. -/
def Row.tap (r : Row) : Nat := if r.isOpen then r.action - 1 else if r.isArm then r.arg / 4 % 2 else r.arg % 2
def Row.gains (r : Row) : Nat := r.arg / 2 % 4
def Row.trig (r : Row) : Nat := r.arg % 4

/-! ### Checks by entry: ERR 0x1 to 0x4 -/

/-- A reserved action, an ill-formed ARG, or MEAS on an action other than an opening. -/
def State.illFormed (s : State) (r : Row) : Bool :=
  (r.meas && !r.isOpen) ||
    match r.action with
    | 0 => false
    | 1 => false
    | 2 => false
    | 3 => decide (r.arg ≠ 0)
    | 4 => decide (8 ≤ r.arg ∨ r.gains = 0)
    | 5 => false
    | 6 => decide (256 ≤ r.arg)
    | 7 => decide (8 ≤ r.arg) || !s.on (CAD_TRIG_CFG.EN r.trig)
    | 8 => decide (4 ≤ r.arg)
    | _ => true

def State.tooShort (s : State) (r : Row) : Bool :=
  (r.isOpen && decide (1 ≤ r.arg ∧ r.arg ≤ 99)) || (r.isGap && decide (r.arg < 2000)) || (r.isArm && decide (s.get (CAD_TRIG_LEN.LEN r.trig) < 100))

def State.outOfFrame (s : State) (r : Row) : Bool := decide (s.regLockN ≤ r.frame ∨ s.checkPer ≤ r.offset * sub)

/-- The first failure by entry; `prev` is (FRAME, OFFSET) of the entry before. -/
def State.entryErr (s : State) : Nat × Nat → List Row → Option (Nat × Nat)
  | _, [] => none
  | prev, r :: rs =>
    if r.frame < prev.1 ∨ (r.frame = prev.1 ∧ r.offset < prev.2) then some (1, r.ix)
    else if s.illFormed r then some (2, r.ix)
    else if s.tooShort r then some (3, r.ix)
    else if s.outOfFrame r then some (4, r.ix)
    else s.entryErr (r.frame, r.offset) rs

/-! ### Checks over the table: ERR 0x5 to 0xA -/

/-- ERR 0x5: counts of OPEN and ARM entries, by tap and in all. -/
def countErr : Nat → Nat → List Row → Option (Nat × Nat)
  | _, _, [] => none
  | a, b, r :: rs =>
    if r.isOpen || r.isArm then
      let a' := if r.tap = 0 then a + 1 else a
      let b' := if r.tap = 0 then b else b + 1
      if 1024 < a' ∨ 1024 < b' ∨ 2048 < a' + b' then some (5, r.ix) else countErr a' b' rs
    else countErr a b rs

/-- ERR 0x6: two gate actions on overlapping masks on one tick. -/
def sameTickErr (rows : List Row) : Option (Nat × Nat) :=
  (rows.find? fun r => r.isGate && rows.any fun q => q.isGate && decide (q.ix < r.ix ∧ q.tick = r.tick ∧ q.cols &&& r.cols ≠ 0)).map fun r => (6, r.ix)

/-- The tick at which column c leaves the tap that row r opens: its length, the next gate action on the column, or the end of the sweep. -/
def leaves (rows : List Row) (sweep : Nat) (r : Row) (c : Nat) : Nat :=
  let next := match rows.find? fun q => q.isGate && decide (r.ix < q.ix) && bit q.cols c with
    | some q => q.tick
    | none => sweep
  min next (if r.arg = 0 then next else r.tick + r.arg)

/-- The end of an opening: the last of its columns leaves (R565). -/
def openEnd (rows : List Row) (sweep : Nat) (r : Row) : Nat := (bitsOf r.cols 16).foldl (fun n c => max n (leaves rows sweep r c)) r.tick

/-- Two half-open stretches of ticks share a tick. -/
def overlap (a b c d : Nat) : Bool := decide (a < d ∧ c < b ∧ a < b ∧ c < d)

/-- ERR 0x7: a pass overlaps another pass or an opening of its own tap. -/
def State.passErr (s : State) (rows : List Row) : Option (Nat × Nat) :=
  let sweep := tickOf s.sweepPer
  let clash := fun (q r : Row) =>
    if q.isRead && r.isRead then overlap q.tick (q.tick + s.regPass q.gains) r.tick (r.tick + s.regPass r.gains)
    else if q.isRead && r.isOpen then decide (q.tap = r.tap) && overlap q.tick (q.tick + s.regPass q.gains) r.tick (openEnd rows sweep r)
    else if q.isOpen && r.isRead then decide (q.tap = r.tap) && overlap r.tick (r.tick + s.regPass r.gains) q.tick (openEnd rows sweep q)
    else false
  (rows.find? fun r => rows.any fun q => decide (q.ix < r.ix) && clash q r).map fun r => (7, r.ix)

/-- ERR 0x8: a GAP overlaps a pass. -/
def State.gapErr (s : State) (rows : List Row) : Option (Nat × Nat) :=
  (rows.find? fun g => g.isGap && rows.any fun r => r.isRead && overlap g.tick (g.tick + g.arg) r.tick (r.tick + s.regPass r.gains)).map
    fun g => (8, g.ix)

/-- ERR 0x9: a pass ends later than 99 % of the sweep. -/
def State.lateErr (s : State) (rows : List Row) : Option (Nat × Nat) :=
  (rows.find? fun r => r.isRead && decide (99 * s.sweepPer < 100 * ((r.tick + s.regPass r.gains) * sub))).map fun r => (9, r.ix)

/-- The part of a stretch of ticks that lies in wall frame f. -/
def State.inFrame (s : State) (a b f : Nat) : Nat := min b (tickOf ((f + 1) * s.checkPer)) - max a (tickOf (f * s.checkPer))

/-- ERR 0xA: MEAS open time by wall frame. -/
def State.measErr (s : State) (rows : List Row) : List Nat → List Row → Option (Nat × Nat)
  | _, [] => none
  | tot, r :: rs =>
    if r.isOpen && r.meas then
      let e := openEnd rows (tickOf s.sweepPer) r
      let tot' := (List.range s.regLockN).map fun f => tot.getD f 0 + s.inFrame r.tick e f
      if tot'.any fun n => decide (s.get CAD_ENV.MEAS_LIMIT * 128 < n) then some (10, r.ix) else s.measErr rows tot' rs
    else s.measErr rows tot rs

/-- The first failure of R108 with its index; none where the table passes. ERR 0xB is the caller's. -/
def State.tableErr (s : State) (t : Tbl Nat) : Option (Nat × Nat) :=
  let rows := s.rows t
  ((((((s.entryErr (0, 0) rows).or (countErr 0 0 rows)).or (sameTickErr rows)).or (s.passErr rows)).or (s.gapErr rows)).or (s.lateErr rows)).or
    (s.measErr rows [] rows)

/-! ### Mode checks (R127) -/

/-- A gate action on column c next after r. -/
def nextGate (rows : List Row) (r : Row) (c : Nat) : Option Row := rows.find? fun q => q.isGate && decide (r.ix < q.ix) && bit q.cols c

/-- TRIGGERED, ERR 0x3. An ARM whose tap is neither read nor disarmed meets two clauses of the code; the ARM entry is named, as for a failure
that belongs to an entry: DESIGN CHOICE (notes/assumptions/42.md). -/
def trigErr (rows : List Row) (last : Nat) : Option (Nat × Nat) :=
  let arms := rows.filter Row.isArm
  let bad := fun (r : Row) =>
    (arms.any fun q => decide (q.ix < r.ix ∧ q.tap = r.tap)) ||
      match rows.find? fun q => q.isRead && decide (q.tap = r.tap ∧ r.ix < q.ix) with
      | some q => !(rows.any fun d => decide (d.action = 8 ∧ d.trig = r.trig ∧ r.ix < d.ix ∧ d.ix < q.ix))
      | none => (rows.any fun q => q.isRead && decide (q.tap = r.tap)) || !(rows.any fun d => decide (d.action = 8 ∧ d.trig = r.trig ∧ r.ix < d.ix))
  match arms.find? bad with
  | some r => some (3, r.ix)
  | none => if arms.any fun r => !(rows.any fun q => q.isRead && decide (q.tap = r.tap)) then some (3, last) else none

/-- Total length of the openings of a tap under a mask index. -/
def openTotal (rows : List Row) (action mask : Nat) : Nat := (rows.filter fun r => decide (r.action = action ∧ r.mask = mask)).foldl (fun n r => n + r.arg) 0

/-- DIFFERENTIAL, ERR 0x4 and 0x5. -/
def State.diffErr (s : State) (rows : List Row) (last : Nat) : Option (Nat × Nat) :=
  match rows.find? fun r => r.isArm || (r.isOpen && (!r.meas || decide (r.arg = 0))) with
  | some r => some (4, r.ix)
  | none =>
    let tol := s.get EXP_DIFF.BAL_TOL
    if (List.range 8).any fun m => decide (openTotal rows 1 m + tol < openTotal rows 2 m ∨ openTotal rows 2 m + tol < openTotal rows 1 m) then
      some (4, last)
    else
      let reads := rows.filter Row.isRead
      match reads.find? fun r => reads.any fun q => decide (q.ix < r.ix ∧ (q.tap = r.tap ∨ q.gains ≠ r.gains)) with
      | some r => some (5, r.ix)
      | none => if reads.length < 2 then some (5, last) else none

/-- INTEGRATING, ERR 0x6 and 0x7. Each column of an opening must be closed at the due time; entries with disjoint masks may close one
opening between them: DESIGN CHOICE (notes/assumptions/43.md). -/
def State.integErr (s : State) (rows : List Row) (last : Nat) : Option (Nat × Nat) :=
  if s.get CAD_CTRL.MAINS_REQ = 0 ∨ s.get EXP_INTEG.FRAMES = 0 ∨ s.get EXP_INTEG.HALVES = 0 then some (6, last)
  else
    let ends := fun (r : Row) => (bitsOf r.cols 16).all fun c =>
      match nextGate rows r c with
      | none => false
      | some q => decide (q.frame = r.frame + s.get EXP_INTEG.FRAMES ∧ q.offset = r.offset ∧ q.action ≠ r.action)
    (rows.find? fun r => r.isArm || (r.isOpen && (decide (r.arg ≠ 0) || !ends r))).map fun r => (7, r.ix)

/-- The video settings pass ERR 0x8. -/
def State.videoFits (s : State) (len gains : Nat) : Bool :=
  decide (100 ≤ len) && !decide (99 * s.sweepPer < 100 * ((len + 400 + s.regPass gains) * sub))

/-- The first failure of R127 for the mode last written. -/
def State.modeErr (s : State) (t : Tbl Nat) : Option (Nat × Nat) :=
  let rows := s.rows t
  let last := min 4095 (sweepEnd t)
  let mode := s.get EXP_MODE.MODE
  if !bit (s.get EXP_MODE_ALLOW.ALLOW) mode then some (1, last)
  else
    match mode with
    | 0 => if s.videoFits (s.get EXP_VIDEO_LEN.LEN) (s.get EXP_VIDEO.GAIN) then none else some (8, last)
    | 1 =>
      match rows.find? Row.isOpen with
      | some r => some (2, r.ix)
      | none => trigErr rows last
    | 2 => if rows.any fun r => r.isOpen || r.isArm then none else some (9, last)
    | 3 => s.diffErr rows last
    | 4 => s.integErr rows last
    | _ => none

/-! ### The verdict -/

/-- The state a check runs on: its registers hold what will be in force after the swap. A commit applies every value written; a swap outside
one leaves those written in CAPTURE waiting, and the values in force stand for them (R80). -/
def State.afterSwap (s : State) (commit : Bool) : State :=
  if commit then s else (pendingFields.filter fun f => s.cad.waits.contains f.key).foldl (fun t f => t.set f (s.inForce f)) s

/-- A swap refused under R108. -/
def State.refuseTable (s : State) (e : Nat × Nat) : State :=
  ((s.set CAD_TBL_STATUS.ERR e.1).set CAD_TBL_STATUS.ERR_INDEX e.2).raise 0x0507 [e.1, e.2]

/-- A swap or video setting refused under R127. -/
def State.refuseMode (s : State) (e : Nat × Nat) : State :=
  ((s.set EXP_MODE_STATUS.ERR e.1).set EXP_MODE_STATUS.ERR_INDEX e.2).raise 0x0602 [e.1, e.2]

/-- The shadow table and the mode written are checked (R108, R127). The flag says that both checks pass. -/
def State.validate (s : State) : State × Bool :=
  let v := s.afterSwap false
  match v.tableErr s.cad.shd with
  | some e => (s.refuseTable e, false)
  | none =>
    let s := s.set CAD_TBL_STATUS.ERR 0
    match v.modeErr s.cad.shd with
    | some e => (s.refuseMode e, false)
    | none => (s.set EXP_MODE_STATUS.ERR 0, true)

/-- A write of CAD_SWAP.REQ (R108, R109, R111). -/
def State.requestSwap (s : State) : State :=
  if s.on CAD_TBL_STATUS.PENDING then s
  else if s.power = stCAPTURE then s.refuseTable (11, 0)
  else
    let r := s.validate
    if r.2 then r.1.set CAD_TBL_STATUS.PENDING 1 else r.1

/-- The host may change the shadow: no swap is pending and no ARM is held (R110, R111). R110's "until COMMIT" is taken as until the commit
sweep, at which the ARM held goes: DESIGN CHOICE (notes/assumptions/41.md). -/
def State.shadowOpen (s : State) : Bool := !s.on CAD_TBL_STATUS.PENDING && s.chn.armed.isNone

end Sys2Proof.Machine
end

