-- ==== Sys2Proof/Machine/Cadence.lean ====
section
/-!
DEFINITION. Commands of the cadence unit and the exposure modes: table entries, openings, triggers, the video schedule, the shadow table, the
mode and the lockstep fault (ch. 03, 04).
-/
namespace Sys2Proof.Machine

/-! ### The next entry (R103 to R105) -/

/-- The table or the video schedule runs: CAPTURE, no lockstep fault, the sweep-start event done (R100, R121). -/
def State.sweepRuns (s : State) : Bool :=
  s.cadenceRuns && decide (s.power = stCAPTURE) && !s.on CAD_STATE.LS_FAULT && !s.cad.sweepDue

/-- The entry the table has reached. -/
def State.entry (s : State) : Nat := Tbl.get 0 s.cad.act s.cad.ptr

/-- A start that p predicts opens the wall frame an entry names. -/
def State.reachFrame (s : State) (f : Nat) : State :=
  if f = s.cad.frameIx + 1 ∧ s.cad.scan.p.isSome ∧ s.cad.scan.taken = false then s.takeStart else s

/-- The entry's wall frame has ended, or its time has passed (R105). -/
def State.entryLate (s : State) (f due : Nat) : Bool :=
  decide (f < s.cad.frameIx) || decide (due < s.fwc) ||
    match s.cad.scan.p with
    | some p => !s.cad.scan.taken && decide (tickOf p ≤ due)
    | none => false

/-- A scheduled event with the scan tracker COASTING flags the sweep (R106, R201). -/
def State.scheduled (s : State) : State := if s.cad.scan.st = 3 then s.flagSweep (s.get CAD_SWEEP.SWEEP) cdCOAST else s

/-- A skipped entry (R105). -/
def State.skipEntry (s : State) : State :=
  let t := s.bump CAD_ERRCNT0.LATE_CNT 1
  if t.cad.late then t else (t.onCad fun c => { c with late := true }).raise 0x0509 [s.cad.ptr, s.get CAD_SWEEP.SWEEP]

/-- The entry the table has reached runs, where it has action `code` and its wall frame has begun: at its time, or skipped. -/
def State.runEntry (s : State) (code : Nat) (act : State → Nat → State) : State :=
  if s.sweepRuns && s.on CAD_STATE.TABLE_RUN && decide (s.cad.ptr < 4096) && decide (entryAction s.entry = code) then
    let e := s.entry
    let f := entryFrame e
    let s := s.reachFrame f
    if s.cad.sweepDue ∨ s.cad.frameIx < f then s
    else
      let due := s.cad.frameAt + entryOffset e
      let next := fun (t : State) => t.onCad fun c => { c with ptr := c.ptr + 1 }
      if s.entryLate f due then next s.skipEntry
      else act (next (s.advance due).scheduled) e
  else s

/-! ### Gate actions (R53, R64, R102, R106, R107, R132) -/

/-- Columns on which a trigger is armed or its exposure runs (R107). -/
def State.triggerCols (s : State) : Nat :=
  (List.range 4).foldl (fun n i =>
    let g := Tbl.get {} s.cad.trg i
    n ||| (if g.armed then g.cols else 0) ||| (if g.opensAt.isSome ∨ g.endsAt.isSome then g.runCols else 0)) 0

/-- The gate commands of some columns, issued CAD_GATE_LAT.LAT ticks before the action's time (R113). -/
def State.commandGates (s : State) (cols : Nat) : State :=
  s.onCad fun c => { c with gateCmd := Tbl.setAll 0 (fun _ => s.fwc - s.get CAD_GATE_LAT.LAT) (bitsOf cols 16) c.gateCmd }

/-- The gates of some columns take an exit. -/
def State.setGates (s : State) (cols exit : Nat) (ends : Option Nat) (meas : Bool) : State :=
  s.onCad fun c => { c with
    gateNo := c.gateNo + 1, gates := Tbl.setAll {} (fun _ => if exit = 0 then {} else ⟨exit, ends, c.gateNo + 1, meas⟩) (bitsOf cols 16) c.gates }

/-- W − H of R132 in 2⁻¹⁷ ticks, none where the mains tracker holds no period (R133). Of a scan tracker without a period the manual does not
say what W is: 0 here, DESIGN CHOICE (notes/assumptions/44.md). -/
def State.integDiff (s : State) : Option Int :=
  match s.cad.mains.per with
  | none => none
  | some pm => some (2 * (s.inForce EXP_INTEG.FRAMES : Int) * (s.scanPer.getD 0) - (s.inForce EXP_INTEG.HALVES : Int) * pm)

/-- One integrating window ends (R132, R133). W − H is reported in whole ns, rounded down. -/
def State.endWindow (s : State) : State :=
  let d := s.integDiff
  let bad := match d with
    | none => true
    | some z => decide (s.get EXP_INTEG.TOL * 2000 * 2 * sub < z.natAbs)
  if bad then
    let t := (s.bump EXP_MODE_ERRCNT.INTEG_MISMATCH_CNT 1).flagSweep (s.get CAD_SWEEP.SWEEP) cdINTEG
    if t.cad.integ then t
    else (t.onCad fun c => { c with integ := true }).raise 0x0604
      [match d with
        | none => 2 ^ 31 - 1
        | some z => unsigned 32 (clampInt (-(2 ^ 31)) (2 ^ 31 - 1) (z / 262144)), s.get CAD_SWEEP.SWEEP]
  else s

/-- The openings that end as a gate action takes some columns, by number: those open on these columns and on no other (R104, R565). -/
def State.openingsOn (s : State) (cols : Nat) : List Nat :=
  let stays := fun n => (List.range 16).any fun c => !bit cols c && decide ((s.gate c).exit ≠ 0 ∧ (s.gate c).number = n)
  (bitsOf cols 16).foldl (fun l c =>
    if (s.gate c).exit ≠ 0 ∧ !l.contains (s.gate c).number ∧ !stays (s.gate c).number then (s.gate c).number :: l else l) []

/-- A gate action of the table takes its columns, those of a trigger left out and counted (R107); in INTEGRATING the windows it ends are
checked. -/
def State.gateAction (s : State) (cols : Nat) (act : State → Nat → State) : State :=
  let mine := s.triggerCols &&& cols
  let s := if mine ≠ 0 then s.bump CAD_ERRCNT0.SUPPR_CNT 1 else s
  let take := cols - mine
  let s := if s.get EXP_MODE.MODE_ACTIVE = 4 then (s.openingsOn take).foldl (fun t _ => t.endWindow) s else s
  act (s.commandGates take) take

/-- An opening of a tap by the table. -/
def State.openEntry (s : State) (tap e : Nat) : State :=
  s.gateAction (s.maskCols (entryMask e)) fun s cols =>
    if entryMeas e && !s.on CAD_STATE.MEAS_OK then
      let t := ((s.bump CAD_ERRCNT0.SUPPR_CNT 1).flagSweep (s.get CAD_SWEEP.SWEEP) cdSUPPR).setGates cols 0 none false
      if t.cad.suppr then t else (t.onCad fun c => { c with suppr := true }).raise 0x050A [s.get CAD_SWEEP.SWEEP]
    else if s.tapBusy tap then (s.refuseTap tap).setGates cols 0 none false
    else s.setGates cols (tap + 1) (if entryArg e = 0 then none else some (s.fwc + entryArg e)) (entryMeas e)

def execOpenA (s : State) : Out := .next (s.runEntry 1 fun t e => t.openEntry 0 e)
def execOpenB (s : State) : Out := .next (s.runEntry 2 fun t e => t.openEntry 1 e)

/-- CLOSE: the gates of the columns go to DG. -/
def execClose (s : State) : Out :=
  .next (s.runEntry 3 fun t e => t.gateAction (t.maskCols (entryMask e)) fun u cols => u.setGates cols 0 none false)

/-- The ends of openings with a length that fall first (R102); an explicit action of the same tick replaces the gates' records and with them
the end (R104). -/
def execOpenLengthEnd (s : State) : Out :=
  let ends := s.cad.gates.filterMap fun (e : Nat × Gate) => e.2.ends
  match ends with
  | [] => .next s
  | a :: as =>
    let at_ := as.foldl min a
    let cols := s.cad.gates.foldl (fun n (e : Nat × Gate) => if e.2.ends = some at_ then n ||| 2 ^ e.1 else n) 0
    .next (((s.advance at_).commandGates cols).setGates cols 0 none false)

/-! ### Passes, gaps and EXPO entries (R66, R102, R117) -/

/-- READ: the pass begins, or waits for a calibration step (R168). -/
def execRead (s : State) : Out := .next (s.runEntry 4 fun t e => t.read (entryArg e % 2) (entryArg e / 2 % 4))

/-- A gap of `len` ticks begins: its mark is 400 ticks shorter (R117). -/
def State.startGap (s : State) (len : Nat) : State := (s.onCad fun c => { c with gapEnd := some (s.fwc + len) }).gapMark (len - 400)

def execGap (s : State) : Out := .next (s.runEntry 5 fun t e => t.startGap (entryArg e))

/-- EXPO: the affected lines take their levels, by a command issued EXP_EXPO_LAT.LAT ticks before the entry's time (R137). -/
def execExpo (s : State) : Out :=
  .next (s.runEntry 6 fun t e => t.onCad fun c => { c with
    expoCmd := t.fwc - t.get EXP_EXPO_LAT.LAT
    expo := (List.range 4).foldl (fun n i => if bit (entryArg e) (4 + i) then setBit n i (bit (entryArg e) i) else n) c.expo })

/-- SWEEP_END: no entry after it runs in this sweep. -/
def execSweepEnd (s : State) : Out :=
  if s.sweepRuns && s.on CAD_STATE.TABLE_RUN && decide (s.cad.ptr < 4096) && decide (entryAction s.entry = 15) then
    .next (s.onCad fun c => { c with ptr := 4096 })
  else .next s

/-- NOP: the table moves on. -/
def execTableNop (s : State) : Out := .next (s.runEntry 0 fun t _ => t)

/-! ### Triggers (R107, R114 to R116, R129) -/

def State.trg (s : State) (n : Nat) : Trg := Tbl.get {} s.cad.trg n
def State.setTrg (s : State) (n : Nat) (f : Trg → Trg) : State :=
  s.onCad fun c => { c with trg := Tbl.set {} c.trg n (f (Tbl.get {} c.trg n)) }

/-- ARM: trigger n waits for its edge, for a tap and columns. -/
def execArmEntry (s : State) : Out :=
  .next (s.runEntry 7 fun t e => t.setTrg (entryArg e % 4) fun g => { g with
    armed := true, fired := false, tap := entryArg e / 4 % 2, cols := t.maskCols (entryMask e) })

/-- DISARM; in TRIGGERED mode a trigger that has not fired since its ARM flags the sweep (R129). -/
def execDisarm (s : State) : Out :=
  .next (s.runEntry 8 fun t e =>
    let n := entryArg e % 4
    let g := t.trg n
    let u := t.setTrg n fun g => { g with armed := false }
    if g.armed && !g.fired && decide (t.get EXP_MODE.MODE_ACTIVE = 1) then
      ((u.flagSweep (t.get CAD_SWEEP.SWEEP) cdNOTRIG).bump EXP_MODE_ERRCNT.NO_TRIGGER_CNT 1).raise 0x0605 [n, t.get CAD_SWEEP.SWEEP]
    else u)

/-- The tick nearest to a timestamp in ticks × 2⁻³, a tie rounded up: where an event scheduled from it is placed (R102, R112). -/
def stampTick (t : Nat) : Nat := (t + 4) / 8

/-- A triggered opening at count `at_`: refused while its tap is in its pass, else open until CAD_TRIG_LENn ticks later. -/
def State.triggerOpen (s : State) (n at_ : Nat) : State :=
  let g := s.trg n
  if s.tapBusy g.runTap then ((s.refuseTap g.runTap).setGates g.runCols 0 none false).setTrg n fun g => { g with opensAt := none }
  else
    (s.setGates g.runCols (g.runTap + 1) none false).setTrg n fun g => { g with opensAt := none, endsAt := some (at_ + s.get (CAD_TRIG_LEN.LEN n)) }

/-- The exposure of a trigger waits or runs, or ended within the last 100 ticks (R116). An edge exactly 100 ticks after the end is outside:
DESIGN CHOICE (notes/assumptions/45.md). -/
def Trg.busy (g : Trg) (now : Nat) : Bool :=
  g.opensAt.isSome || g.endsAt.isSome ||
    match g.lastEnd with
    | some e => decide (now < e + 100)
    | none => false

/-- An edge of TRIGn at `t` (ticks × 2⁻³). -/
def execTriggerEdge (n t : Nat) (rising : Bool) (s : State) : Out :=
  let s := s.advance (t / 8)
  let g := s.trg n
  if decide (n < 4) && s.cadenceRuns && s.on (CAD_TRIG_CFG.EN n) && decide (rising = !s.on (CAD_TRIG_CFG.POL n)) && g.armed then
    if g.busy (t / 8) then .next ((s.bump CAD_ERRCNT1.TRIG_IGN_CNT 1).raise 0x050B [n, s.fwc])
    else
      let d := s.get (CAD_TRIG_DLY.DLY n)
      let u := s.setTrg n fun g => { g with armed := false, fired := true, runTap := g.tap, runCols := g.cols, opensAt := some (stampTick t + d) }
      .next (if d = 0 then u.triggerOpen n (stampTick t) else u)
  else .next s

/-- The delayed opening of trigger n (R115). -/
def execTriggerDelayOpen (n : Nat) (s : State) : Out :=
  match (s.trg n).opensAt with
  | none => .next s
  | some a => .next (((s.advance a).commandGates (s.trg n).runCols).triggerOpen n a)

/-- The exposure of trigger n ends: its columns go to DG. -/
def execTriggerExposureEnd (n : Nat) (s : State) : Out :=
  let g := s.trg n
  match g.endsAt with
  | none => .next s
  | some e =>
    .next ((((s.advance e).commandGates g.runCols).setGates g.runCols 0 none false).setTrg n fun g => { g with endsAt := none, lastEnd := some e })

/-! ### Free-running video (R134) -/

/-- The next sweep start as predicted. -/
def State.nextSweep (s : State) : Nat :=
  s.cad.frameAt + tickOf ((s.lockN - s.cad.frameIx) * s.scanPer.getD (s.get CAD_FREE_SCAN.PERIOD * sub))

/-- The next step of the video schedule. -/
def execVideoScheduleStep (s : State) : Out :=
  if s.sweepRuns && s.on EXP_MODE_STATUS.VIDEO_RUN then
    let next := fun (t : State) => t.onCad fun c => { c with video := c.video + 1 }
    let len := s.cad.videoLen
    match s.cad.video with
    | 0 =>
      let t := (next s).scheduled
      .next (if t.tapBusy 0 then (t.refuseTap 0).setGates 0xFFFF 0 none false else t.setGates 0xFFFF 1 (some (t.cad.sweepAt + len)) false)
    | 1 => .next (((next (s.advance (s.cad.sweepAt + len + 400))).scheduled).read 0 s.cad.videoGain)
    | 2 =>
      if s.arr.pass.isSome ∨ s.arr.held.isSome then .next s
      else
        let t := (next (s.advance (s.arr.lastEnd + 400))).scheduled
        let e := t.nextSweep - 400
        .next (if t.fwc + 2000 ≤ e then t.startGap (e - t.fwc) else t)
    | _ => .next s
  else .next s

/-- The source-7 pulse ends (R135). -/
def execExpoPulseEnd (s : State) : Out :=
  match s.cad.pulse with
  | none => .next s
  | some e => .next ((s.advance e).onCad fun c => { c with pulse := none })

/-! ### The shadow table, swaps and the mode (R16, R101, R108 to R111, R125, R126) -/

def State.effShdAddr (s : State) (p : Path) (w : Nat) : State := if s.shadowOpen then s.writeFields p 0x0505C w else s
def State.effShdLo (s : State) (p : Path) (w : Nat) : State :=
  if s.shadowOpen && s.mayWrite p CAD_SHD_LO.LO then s.onCad fun c => { c with shdLo := w } else s

/-- A write of CAD_SHD_HI commits the entry; the address advances. -/
def State.effShdHi (s : State) (p : Path) (w : Nat) : State :=
  if s.shadowOpen && s.mayWrite p CAD_SHD_HI.HI then
    let a := s.get CAD_SHD_ADDR.ADDR
    ((s.onCad fun c => { c with shd := Tbl.set 0 c.shd a (w * 2 ^ 32 + c.shdLo) }).set CAD_SHD_ADDR.ADDR (a + 1)).set CAD_TBL_STATUS.SHD_NEW 1
  else s

def execCadShdHiWrite (p : Path) (w : Word) (s : State) : Out := .next (s.regWrite p 0x05064 w.toNat fun t => t.effShdHi p w.toNat)

/-- A read of CAD_ACT_HI: the latched word; the address advances. -/
def State.readActHi (s : State) : State × Nat := (s.set CAD_ACT_ADDR.ADDR (s.get CAD_ACT_ADDR.ADDR + 1), s.get CAD_ACT_HI.HI)

def execCadActHiRead (p : Path) (s : State) : Out :=
  if s.answers p 0x05078 then .next { s.readActHi.1 with answer := s.readActHi.2 } else .next { s with answer := 0 }

def State.effSwap (s : State) (p : Path) (w : Nat) : State := if bit w 0 && s.mayWrite p CAD_SWAP.REQ then s.requestSwap else s

def execCadSwapReq (p : Path) (s : State) : Out := .next (s.regWrite p 0x05068 1 fun t => t.effSwap p 1)

/-- A write of EXP_MODE.MODE (R125). -/
def State.effMode (s : State) (p : Path) (w : Nat) : State :=
  let m := EXP_MODE.MODE.of w
  if !s.mayWrite p EXP_MODE.MODE then s
  else if 5 ≤ m ∨ bit (s.get EXP_MODE_ALLOW.ALLOW) m = false then s.raise 0x0603 [m]
  else s.set EXP_MODE.MODE m

def execExpModeWrite (p : Path) (w : Word) (s : State) : Out := .next (s.regWrite p 0x06000 w.toNat fun t => t.effMode p w.toNat)

/-! ### Lockstep (R119 to R122) -/

/-- What the comparator reads of this unit's first copy. -/
def State.copyP (s : State) : CadCopy :=
  let trk := fun (k : Trk) => (k.st, k.p, k.per)
  { scan := trk s.cad.scan, mains := trk s.cad.mains, pointer := (s.cad.ptr, s.cad.video)
    gates := (List.range 16).map fun c => (s.gate c).exit
    pass := s.arr.pass.map fun p => (p.tap, p.gains), gap := s.cad.gapEnd
    expo := (List.range 4).map s.expoLevel, mreq := s.cad.mreq
    arms := (List.range 4).map fun n => ((s.trg n).armed, (s.trg n).tap, (s.trg n).cols) }

/-- The groups of CAD_LS_DIFF in which two copies differ, the fast path apart. -/
def copyGroups (a b : CadCopy) : Nat :=
  ofBool (decide (a.scan ≠ b.scan ∨ a.mains ≠ b.mains)) + 2 * ofBool (decide (a.pointer ≠ b.pointer)) +
    4 * ofBool (decide (a.gates ≠ b.gates)) + 8 * ofBool (decide (a.pass ≠ b.pass ∨ a.gap ≠ b.gap)) +
    16 * ofBool (decide (a.expo ≠ b.expo ∨ a.mreq ≠ b.mreq)) + 32 * ofBool (decide (a.arms ≠ b.arms))

/-- The groups that count on tick `t`: any difference at once, one of the fast-path outputs where it stood on the tick before too (R119). -/
def State.lockstepGroups (s : State) (t : Nat) (q : CadCopy) (fast : Bool) : Nat :=
  copyGroups s.copyP q + 64 * ofBool (fast && decide (s.cad.fastAt.map (· + 1) = some t))

/-- A counted difference: copies forced to DG, the table stopped, LS_FAULT, the event, the canary's trip (R120). -/
def State.lockstepFault (s : State) (d : Nat) : State :=
  let t := (((s.set CAD_LS_FWC0.FWC_LO s.fwc).set CAD_LS_FWC1.FWC_MID (s.fwc / 2 ^ 32)).set CAD_LS_FWC2.FWC_HI (s.fwc / 2 ^ 64)).set CAD_LS_DIFF.GROUPS d
  let t := (t.set CAD_STATE.LS_FAULT 1).stopTable
  let t := if t.power = stCAPTURE then t.flagSweep (t.get CAD_SWEEP.SWEEP) cdABANDON else t
  ((t.raise 0x050D [d, t.fwc]).reviewMreq).trip trCAD_LS

/-- The comparison of one tick: `q` is what the second copy shows, `fastP` and `fastQ` the sampled fast-path outputs of both. The copies run
alike, so a difference comes from outside, with the command. -/
def execLockstepFault (t : Nat) (q : CadCopy) (fastP fastQ : Nat) (s : State) : Out :=
  if s.cadenceRuns then
    let s := s.advance t
    let d := s.lockstepGroups s.fwc q (decide (fastP ≠ fastQ))
    let u := s.onCad fun c => { c with fastAt := if fastP = fastQ then none else some s.fwc }
    .next (if d = 0 ∨ s.on CAD_STATE.LS_FAULT then u else u.lockstepFault d)
  else .next s

end Sys2Proof.Machine
end

