-- ==== Sys2Proof/Machine/ChainOps.lean ====
section
/-!
DEFINITION. What every packet that arrives at a port meets (R296 to R303): its data type and channel, the check on its incarnation, and the
M path to the other port.
-/
namespace Sys2Proof.Machine

/-- The virtual channel R303 gives a data type; none for a reserved one. -/
def vcOf (dt : Nat) : Option Nat :=
  if dt = 0x01 ∨ (0x03 ≤ dt ∧ dt ≤ 0x0F) ∨ dt = 0x12 then some 0
  else if 0x30 ≤ dt ∧ dt ≤ 0x33 then some 1
  else if dt = 0x10 then some 2
  else if dt = 0x11 then some 3
  else if 0x14 ≤ dt ∧ dt ≤ 0x16 then some 4
  else if dt = 0x18 then some 5
  else if 0x20 ≤ dt ∧ dt ≤ 0x24 then some 6
  else if dt = 0x28 then some 7
  else if dt = 0x2C then some 8
  else none

/-- A packet carries the data type of its row, on that type's channel. -/
def Packet.fits (k : Packet) (dt : Nat) : Bool := decide (k.dt = dt) && decide (vcOf dt = some k.vc)

/-- A little-endian field of a packet's payload. -/
def Packet.at_ (k : Packet) (off n : Nat) : Nat := bytesAt k.payload off n

/-- A passing packet enters the M path to the port opposite the one it came in by, and may leave from the trained M depth on (R284); one due to
leave by a port that is not ACTIVE is discarded and counted (R33, R298). -/
def State.cross (s : State) (d : Bool) (k : Packet) : State :=
  if s.portActive (!d) then
    let p := s.port (!d)
    s.onChn fun c => { c with passed := Tbl.set [] c.passed (px (!d)) (Tbl.get [] c.passed (px (!d)) ++ [(k, p.blocks + p.depth)]) }
  else s.bump CHN_ERRCNT4.PORT_DROP 1

/-- A broadcast passes on through every unit but the pithead, which absorbs its own (R296). -/
def State.relay (s : State) (d : Bool) (k : Packet) : State :=
  if k.dst = 63 ∧ !s.isPithead then s.cross d k else s

/-- The pithead drops a packet whose incarnation is older than the one current for its tally (R4, R317); one of a tally without a live grant
carries a retired incarnation. -/
def State.stale (s : State) (k : Packet) : Bool :=
  s.isPithead && decide (1 ≤ k.src) && (serialLater 8 (s.peer k.src).inc k.inc || (s.peer k.src).dead)

/-- What every packet row does first (a ROLL_REPORT is heard whatever its incarnation: it asks for a new grant, R311, R485): a data type or channel that R303 does not give is discarded and counted in TAG_DROP (R301); a
packet of a superseded incarnation is dropped under R317; a packet for another unit only passes; the rest is the row's own. -/
def State.onPacket (s : State) (d : Bool) (k : Packet) (dt : Nat) (f : State → State) : State :=
  if !k.fits dt then s.bump CHN_ERRCNT1.TAG_DROP 1
  else if s.stale k && decide (dt ≠ 0x04) then s.supersede k.src k.inc
  else if k.dst = 63 then f (s.relay d k)
  else if k.dst = s.tally then f s
  else s.cross d k

/-- The tallies joined, the pithead's 64-bit map (CHN_JOINED). -/
def State.joinedMap (s : State) : Nat := s.get (CHN_JOINED.MAP 0) + s.get (CHN_JOINED.MAP 1) * 2 ^ 32
def State.setJoined (s : State) (t : Nat) (b : Bool) : State :=
  (s.putBit (CHN_JOINED.MAP (t / 32)) (t % 32) b).setPeer t fun p => { p with joined := b }

/-- Joined crew tallies. -/
def State.crew (s : State) : List Nat := (List.range 63).filter fun t => decide (2 ≤ t) && bit s.joinedMap t

/-! ### Election (R305 to R307) -/

def chSOLO : Nat := 0
def chCLAIMING : Nat := 1
def chJOINED : Nat := 2
def chORPHAN : Nat := 3
def chPITHEAD : Nat := 4

/-- A CLAIM of this unit; a pithead's carries STANDING (R303, R307). -/
def State.sendClaim (s : State) (standing : Bool) : State :=
  s.sendCtl 0x01 0 63 (leBytes s.serial 8 ++ [s.get CHN_CTRL.PRIORITY, ofBool standing] ++ zeroBytes 6)

/-- Claiming starts when a port of a strapped unit without a tally becomes ACTIVE, unless it has heard of a standing pithead (R305). -/
def State.startClaim (s : State) : State :=
  if s.strap ∧ s.tally = 0 ∧ s.chn.heard = false ∧ s.get CHN_STATE.STATE = chSOLO then
    ((s.set CHN_STATE.STATE chCLAIMING).onChn fun c => { c with claimAt := some s.fwc }).sendClaim false
  else s

end Sys2Proof.Machine
end

