-- ==== Sys2Proof/Machine/RoleOps.lean ====
section
/-!
DEFINITION. Challenges, sessions and keys as shared operations (ch. 16). Paths: 0 BAR0, 1 I²C; roles: 1 operator, 2 installer, 3 maker.
-/
namespace Sys2Proof.Machine

/-- The role of a number. -/
def roleOf (r : Nat) : Option Role :=
  if r = 1 then some .operator else if r = 2 then some .installer else if r = 3 then some .maker else none

def State.sessOf (s : State) (path role : Nat) : Option Sess := Tbl.get none s.rol.sess (rolKey path role)
def State.failsOf (s : State) (path role : Nat) : Nat := Tbl.get 0 s.rol.fails (rolKey path role)

/-- ROL_STATUS.BAR0_OPEN and I2C_OPEN. -/
def State.showSessions (s : State) : State :=
  let m := fun path => ([1, 2, 3].filter fun r => (s.sessOf path r).isSome).foldl (fun n r => n + 2 ^ (r - 1)) 0
  (s.set ROL_STATUS.BAR0_OPEN (m 0)).set ROL_STATUS.I2C_OPEN (m 1)

/-- A role is locked out on a path (R512). -/
def State.lockedOut (s : State) (path role : Nat) : Bool :=
  match Tbl.get none s.rol.locked (rolKey path role) with
  | none => false
  | some t => decide (s.fwc < t)

/-- Roles locked out on a path, as ROL_STATUS.LOCKED shows them to a read on that path. -/
def State.lockedMask (s : State) (path : Nat) : Nat := ([1, 2, 3].filter (s.lockedOut path)).foldl (fun n r => n + 2 ^ (r - 1)) 0

/-- `n` random bytes: free values (R509). -/
def randomBytes : Nat → State → List Nat × State
  | 0, s => ([], s)
  | n + 1, s =>
    let v := s.free
    let r := randomBytes n v.2
    (v.1 % 256 :: r.1, r.2)

/-- A challenge is issued (R509, R511): nonce and counter, which then increments; the stored base advances before a challenge is
answered once the counter has reached it. -/
def State.challenge (s : State) (path role : Nat) : State × Chal :=
  let s := if s.rol.base ≤ s.rol.ctr then s.onRol fun r => { r with base := r.base + 65536 } else s
  let n := randomBytes 16 s
  let c : Chal := ⟨n.1, s.rol.ctr, s.fwc⟩
  (n.2.onRol fun r => { r with ctr := (r.ctr + 1) % 2 ^ 64, chal := Tbl.set none r.chal (rolKey path role) (some c) }, c)

/-- The challenge outstanding for a role on a path, not yet 10 s old (R509). -/
def State.chalOf (s : State) (path role : Nat) : Option Chal :=
  match Tbl.get none s.rol.chal (rolKey path role) with
  | none => none
  | some c => if s.fwc < c.issued + 10 * secTicks then some c else none

/-- The key of a role. -/
def State.keyOf (s : State) (role : Nat) : List Nat := Tbl.get [] s.rol.keys role

/-- The 34-byte message of R510. -/
def State.sessionMessage (s : State) (c : Chal) (path role : Nat) : List Nat :=
  c.nonce ++ leBytes c.ctr 8 ++ [role, path] ++ leBytes s.serial 8

/-- The session opens: event, entry, failure count 0 (R512). -/
def State.openSession (s : State) (path role : Nat) (c : Chal) : State :=
  let t := s.onRol fun r => { r with
    sess := Tbl.set none r.sess (rolKey path role) (some ⟨c.nonce, c.ctr, s.fwc⟩), fails := Tbl.erase r.fails (rolKey path role) }
  ((t.showSessions).sbEnter role path 2 0 0 0 [0, 0]).raise 0x1002 [role, path]

/-- An attempt fails; the fifth in a row locks the role out on the path for 60 s (R512). -/
def State.failSession (s : State) (path role : Nat) : State :=
  let n := s.failsOf path role + 1
  let t := (s.bump ROL_ERRCNT.FAILED 1).onRol fun r => { r with fails := Tbl.set 0 r.fails (rolKey path role) n }
  let t := (t.sbEnter role path 2 4 0 0 [0, n]).raise 0x1003 [role, path, n]
  if n < 5 then t
  else
    (t.onRol fun r => { r with fails := Tbl.erase r.fails (rolKey path role)
                               locked := Tbl.set none r.locked (rolKey path role) (some (s.fwc + 60 * secTicks)) }).sbEnter
      role path 2 5 0 0 [0, 0]

/-- A response to a challenge (R509, R510): it ends the challenge, right or wrong. The answer is true for a session opened. -/
def State.respond (s : State) (path role : Nat) (resp : List Nat) : State × Bool :=
  let t := s.onRol fun r => { r with chal := Tbl.erase r.chal (rolKey path role) }
  match s.chalOf path role with
  | none => (t.failSession path role, false)
  | some c =>
    if hmacSha256 (s.keyOf role) (s.sessionMessage c path role) = resp then (t.openSession path role c, true)
    else (t.failSession path role, false)

/-- A session closes with a cause (R512, R569): 0 command, 1 idle, 2 key, 3 Function Level Reset, 4 SYSRST_N. -/
def State.closeSession (s : State) (path role cause : Nat) : State :=
  match s.sessOf path role with
  | none => s
  | some _ =>
    (((s.onRol fun r => { r with sess := Tbl.erase r.sess (rolKey path role) }).showSessions).sbEnter role path 2 0 0 0
      [cause, s.failsOf path role]).raise 0x1004 [role, path, cause]

/-- Every session of a path closes (R435). -/
def State.closePath (s : State) (path cause : Nat) : State := [1, 2, 3].foldl (fun t r => t.closeSession path r cause) s

/-- Sessions end without event or entry (R512: start-up and power-on reset). -/
def State.dropSessions (s : State) : State :=
  (s.onRol fun r => { r with sess := [], chal := [], fails := [], locked := [], resp := [], keyW := [], keyChk := [], wasOpen := [] }).showSessions

/-- SYSRST_N closes every session and records which were open (R512). -/
def State.sysrstSessions (s : State) : State :=
  (s.onRol fun r => { r with wasOpen := r.wasOpen ++ r.sess.map Prod.fst, sess := [], chal := [] }).showSessions

/-- After the boot the sessions SYSRST_N closed are raised and entered (R512). -/
def State.reportClosed (s : State) : State :=
  let t := s.onRol fun r => { r with wasOpen := [] }
  s.rol.wasOpen.foldl (fun t k => (t.sbEnter (k % 4) (k / 4) 2 0 0 0 [4, t.failsOf (k / 4) (k % 4)]).raise 0x1004 [k % 4, k / 4, 4]) t

end Sys2Proof.Machine
end

