-- ==== Sys2Proof/Machine/PowerOps.lean ====
section
/-!
DEFINITION. The transitions of R454 as shared operations: what a stop of the domains loses, a command checked under R455 and carried
out, and the commands the foreman gives to end HOLD (R479).
-/
namespace Sys2Proof.Machine

/-! ### What does not survive STANDBY (R31, R484) -/

/-- The field kept under a number has access code RWS: it keeps its value through every reset but power-on and start-up (R9). -/
def isRwsKey (k : Nat) : Bool := (fieldsAt (k / 32)).any fun f => decide (f.lo = k % 32 ∧ f.acc = .rws)

/-- Registers of pages 0x01 and 0x11 keep their values, with `canary` those of page 0x03 too and with `rws` every RWS field; all others
return to their reset values. -/
def keptKeys (canary rws : Bool) (regs : Tbl Nat) : Tbl Nat :=
  regs.filter fun e => decide (pageOf (e.1 / 32) = 0x01 ∨ pageOf (e.1 / 32) = 0x11 ∨ (canary = true ∧ pageOf (e.1 / 32) = 0x03)) ||
    (rws && isRwsKey e.1)

/-- The store's cells survive; its controller and the entries not yet written do not (R484, R492). Entries go on from the newest one
kept (R518). -/
def Nvs.cells (n : Nvs) : Nvs :=
  let next := n.sbSlots.foldl (fun m e => match e.2 with | some x => max m (x.number + 1) | none => m) 0
  { banks := n.banks, content := n.content, words := n.words, phys := n.phys, spares := n.spares, worn := n.worn, moved := n.moved, corr := n.corr,
    headerSeq := n.headerSeq, unclosed := n.unclosed, sbNext := next, sbSlots := n.sbSlots }

/-- Stored taps are kept through every reset but that of power-on (R291). -/
def Lnk.kept (l : Lnk) : Lnk :=
  let f := fun (p : Port) => ({ tapsPeer := p.tapsPeer, tapsMap := p.tapsMap, taps := p.taps } : Port)
  ⟨f l.u, f l.d⟩

/-- Every domain but AON and I2C, and CANARY where `canary` says so, is reset, but for the RWS fields where `rws` says so. The store's
cells, the keys in it and what the AON controller holds stay. -/
def State.resetBut (s : State) (canary rws : Bool) : State :=
  let t : State := { s with
    regs := keptKeys canary rws s.regs, latched := [], events := [], heldCanary := if canary then s.heldCanary else []
    saf := if canary then s.saf else {}, rol := { base := s.rol.base, keys := s.rol.keys, keySeq := s.rol.keySeq }
    nvs := s.nvs.cells, hst := {}, tim := {}, lnk := s.lnk.kept, chn := {}, cad := {}, arr := {}, cnv := {}, mon := {}, eng := {}, spot := {}, pipe := {}
    pwr := { s.pwr with startup := 0, pllStage := [], boot := 0, lampItem := none } }
  t.toResets ((if canary then [] else [PWR_CLK.CANARY_RUN]) ++ [PWR_CLK.LOCKED, PWR_CLK.GATED, PWR_CLK.REF_PRESENT])

/-- The reset of STANDBY (R484): the rails of groups 2 to 6 are down, so nothing held on them survives it. -/
def State.resetDomains (s : State) : State := s.resetBut false false

/-- With VDDIO, VCORE or VMID failed above STANDBY the always-on controller holds every domain except AON, I2C and, while VMID stays
good, CANARY in reset (R453). This is no start-up reset, so the RWS fields keep their values (R9). -/
def State.holdDomains (s : State) : State :=
  ((s.resetBut s.vmidGood true).onSaf fun f => { f with railFatal := true }).reviewForcing

/-! ### Transitions -/

/-- Start-up begins (E1 of R456): BUSY until it ends. -/
def State.beginStartup (s : State) : State :=
  (s.set PWR_STATUS.BUSY 1).onPwr fun p => { p with startup := 1 }

/-- Store writes in progress are completed and queued shift book entries written (R454, IDLE to STANDBY). -/
def drainBook : Nat → State → State
  | 0, s => s
  | n + 1, s => if s.nvs.sbQueue.isEmpty then s else drainBook n s.writeEntry

/-- The unit enters STANDBY (R454): store writes completed, the foreman and every domain but AON and I2C stopped. An image still
being written has no index block to write and is lost (R496). -/
def State.toStandby (s : State) : State :=
  let old := s.get PWR_STATUS.STATE
  let t := if s.nvs.img.isSome then s else s.closeOp
  let t := ((drainBook 256 t.sbClose).resetDomains).set PWR_STATUS.PENDING 0
  (((t.set PWR_STATUS.STATE stSTANDBY).set PWR_STATUS.BUSY 0)).raise 0x0101 [old, stSTANDBY]

/-- A command to STANDBY that finds a calibration set commit in progress waits for it (R457). -/
def State.standby (s : State) : State :=
  if (s.nvs.op.map NvsOp.area).getD 0 = 2 then (s.set PWR_STATUS.PENDING stSTANDBY).set PWR_STATUS.BUSY 1 else s.toStandby

/-- A calibration step under way ends with the converters. -/
def State.stopConverters (s : State) : State :=
  (s.set CAL_STATUS.RUN 0).onCnv fun c => { c with step := none, mark := none, recal := false }

/-- IDLE to READY: CADENCE and the converters start, and calibration is due (R167). -/
def State.intoReady (s : State) : State := (((s.toPower stREADY).reviewPipe).startCadence).calReady

/-- READY to IDLE: CADENCE and the converters stop, and PIPE with them. -/
def State.intoIdle (s : State) : State := (((s.reviewPipe).haltCadence).stopConverters).toPower stIDLE

/-- HOLD to IDLE or READY (R454). A unit that was in READY or CAPTURE with PLL-T running keeps its trackers (R100); otherwise CADENCE
starts anew. A level L2 that ends sends REJOIN on a crew unit (R318, R479). -/
def State.endHold (s : State) (target : Nat) : State :=
  let kept := s.cadenceRuns
  let l2 := decide (s.get SAF_STATUS.LEVEL = 2)
  let t := s.leaveHold target
  let t :=
    if target = stREADY then (if kept then t.reviewPipe else (t.reviewPipe).startCadence).calReady
    else (t.haltCadence).stopConverters
  t.when (l2 && s.inCrew) fun t => t.onChn fun c => { c with rejoin := true }

/-- A transition that R454 lists for the present state, carried out. -/
def State.goTo (s : State) (target : Nat) : State :=
  let p := s.power
  if p = stSTANDBY then s.beginStartup
  else if target = stSTANDBY then s.standby
  else if p = stHOLD then s.endHold target
  else if p = stIDLE then s.intoReady
  else if p = stREADY ∧ target = stIDLE then s.intoIdle
  else (s.set PWR_STATUS.PENDING target).set PWR_STATUS.BUSY 1

/-! ### Commands (R455, R560) -/

/-- R454 lists a command for a state. -/
def listed (power target : Nat) : Bool :=
  [(1, 2), (2, 3), (2, 1), (3, 4), (3, 2), (4, 3), (5, 2), (5, 3), (5, 1)].contains (power, target)

/-- Start-up waits for its reference (R560): E3 has not passed. -/
def State.awaitsReference (s : State) : Bool := decide (s.pwr.startup = 1 ∨ s.pwr.startup = 2)

/-- RESULT of a command: the first of 6, 5, 7, 1, 2, 4 and 3 that applies. -/
def State.commandResult (s : State) (session : Bool) (target : Nat) : Nat :=
  if s.power = stSAFETALK then 6
  else if s.on PWR_STATUS.BUSY && !(s.awaitsReference && decide (target = stSTANDBY)) then 5
  else if s.on PWR_RAIL.SEQ_VIOL && !s.awaitsReference then 7
  else if s.power = stSTANDBY ∧ target ≠ stSTANDBY ∧ s.get PWR_RAIL.GOOD ≠ 0x1FF then 1
  else if !listed s.power target && !s.awaitsReference then 2
  else if target = stCAPTURE ∧ session = false then 4
  else if s.power = stHOLD ∧ target ≠ stSTANDBY ∧ s.holdCause target = true then 3
  else 0

/-- A command is checked, and carried out or refused. One that is carried out aborts a BIST run (R502). -/
def State.command (s : State) (session : Bool) (target : Nat) : State :=
  let r := s.commandResult session target
  let t := s.set PWR_STATUS.RESULT r
  if r ≠ 0 then (t.bump PWR_ERRCNT.REFUSED 1).raise 0x0102 [target, r]
  else if s.awaitsReference then
    -- R560: start-up stops, STATE stays STANDBY
    (t.resetDomains).set PWR_STATUS.BUSY 0
  else t.abortBist.goTo target

/-- A host command that ends HOLD ends an L2 that waited for it (R478). -/
def State.commandEnds (s : State) (session : Bool) (target : Nat) : State :=
  let t := s.command session target
  if s.power = stHOLD ∧ (t.power = stIDLE ∨ t.power = stREADY) ∧ s.get SAF_STATUS.LEVEL = 2 then t.endRecovery else t

/-- A write of PWR_CMD: TARGET 1 to 4 are commands, others do nothing. TARGET 4 needs the operator's session: without it the write is
also handled under R11, with it it is entered in the shift book (R515). -/
def State.effPwrCmd (s : State) (p : Path) (w : Nat) : State :=
  let target := PWR_CMD.TARGET.of w
  if target = 0 ∨ stCAPTURE < target then s
  else if target ≠ stCAPTURE ∨ p = .foreman then s.commandEnds true target
  else if s.holds p .operator then
    if s.sbRoom then
      let t := s.commandEnds true target
      ((t.sbEnter 1 (pathNo p) 7 0 0x01000 w [target, t.get PWR_STATUS.RESULT]).touchSession p .operator)
    else s.bump NVS_ERRCNT1.SB_REFUSED 1
  else (s.sbReject p .operator 0x01000 w).commandEnds false target

/-! ### The standing command for ending an L2 HOLD (R479) -/

/-- The causes of R471 other than trips that the foreman may clear are gone: every latched trip's live bit is 0. -/
def State.l2Clear (s : State) (target : Nat) : Bool :=
  let t := (List.range 11).foldl (fun t i => if t.bitOf SAF_TRIP.LIVE i then t else t.putBit SAF_TRIP.LATCHED i false) s
  !t.holdCause target

/-- The state the unit is brought back to: IDLE, or READY and then CAPTURE. -/
def State.entryTarget (s : State) : Nat := if s.saf.entryState = stIDLE then stIDLE else stREADY

/-- With the L2 actions complete and the causes cleared the foreman clears the latched trips, commands the state at entry, and after a
CAPTURE the CAPTURE. RECOVERY_DONE comes when the unit is back: at once, or at the sweep start that brings CAPTURE. -/
def State.releaseL2 (s : State) : State :=
  if s.power = stHOLD ∧ s.get SAF_STATUS.LEVEL = 2 ∧ s.on SAF_CTRL.L2_RELEASE ∧ s.saf.acting = false ∧ s.pagesUp ∧ s.pwr.boot = 0 ∧
      s.l2Clear s.entryTarget then
    let t := (List.range 11).foldl (fun t i => if t.bitOf SAF_TRIP.LIVE i then t else t.putBit SAF_TRIP.LATCHED i false) s
    let e := s.saf.entryState
    let t := (t.noteR44).command true s.entryTarget
    if t.power = stHOLD then t
    else if e = stCAPTURE then t.command true stCAPTURE
    else t.endRecovery
  else s

end Sys2Proof.Machine
end

