-- ==== Sys2Proof/Machine/Canary.lean ====
section
/-!
DEFINITION. The canary's causes and the recovery ladder as commands (ch. 14, R461 to R480, R561).
-/
namespace Sys2Proof.Machine

/-! ### Causes -/

/-- The foreman runs and is watched: SYS runs, no reset holds its cores, no boot is under way (R461, R561). -/
def State.foremanRuns (s : State) : Bool := s.sysRuns && !s.pwr.sysrst && decide (s.pwr.boot = 0)

/-- After FOREMAN_LS or FOREMAN_HB the canary holds both cores in reset (R561). -/
def State.holdForeman (s : State) : State := s.onPwr fun p => { p with boot := 4 }

/-- A cause latches while the canary has its clock. A foreman cause also resets the cores; cause REQ is the request line itself. -/
def execCanaryTrip (i : Fin 11) (s : State) : Out :=
  if !s.on PWR_CLK.CANARY_RUN || decide (i.val = trOSC) then .next s
  else if i.val = trFOREMAN_LS ∨ i.val = trFOREMAN_HB then
    .next (if s.foremanRuns then (s.trip i.val).holdForeman else s)
  else if i.val = trREQ then .next ((s.assertRequest).enterHold 0x0301)
  else .next (s.trip i.val)

/-- The two cores disagree (R465): the comparator asserts the HOLD request in the same cycle, and cause FOREMAN_LS trips. A difference
while the foreman boots under R561 starts the boot again. -/
def execForemanLockstep (s : State) : Out :=
  if s.sysRuns && !s.pwr.sysrst && decide (s.pwr.boot = 0 ∨ s.pwr.boot = 3) then
    let t := (s.raise 0x0309 [s.fwc]).assertRequest
    .next (((t.trip trFOREMAN_LS).enterHold 0x0309).holdForeman)
  else .next s

def execForemanHeartbeatTimeout (s : State) : Out :=
  if s.foremanRuns && s.on PWR_CLK.CANARY_RUN then .next ((s.trip trFOREMAN_HB).holdForeman) else .next s

/-- The canary releases the cores after 1 µs and the foreman boots (R561). -/
def execForemanResetRelease (s : State) : Out :=
  if s.pwr.boot = 4 then .next (s.onPwr fun p => { p with boot := 3 }) else .next s

def execDieTempTrip (s : State) : Out := .next (if s.on PWR_CLK.CANARY_RUN then s.trip trTEMP else s)
def execDieTempNormal (s : State) : Out := .next ((s.putBit SAF_TRIP.LIVE trTEMP false).reviewForcing)

/-- No CANARY edge for 1.0 µs (R464): the missing-pulse detector forces the outputs, unclocked. TPULSE goes low when PLL-T is gated
too (R467). -/
def execOscMissingPulse (s : State) : Out :=
  if s.on PWR_CLK.CANARY_RUN then
    let t := (s.set PWR_CLK.CANARY_RUN 0).putBit SAF_TRIP.LIVE trOSC true
    .next ((if t.pllTOn then t else t.endPulses).reviewForcing)
  else .next s

/-- Conditions of PLL_T, PLL_S and RAIL that began while CANARY stood latch at its first edge (R461). -/
def State.latchStanding (s : State) : State :=
  [(trPLL_T, bit s.saf.pllCause 1 && !s.on (PLL_STATUS.LOCKED 1)), (trPLL_S, bit s.saf.pllCause 2 && !s.on (PLL_STATUS.LOCKED 2)),
    (trRAIL, decide (s.get PWR_RAIL.GOOD ≠ 0x1FF))].foldl (fun t e => if e.2 then t.trip e.1 else t) s

/-- The oscillator returns (R464): cause OSC latches at the first edge; its condition has ended. -/
def execOscReturn (s : State) : Out :=
  if s.bitOf SAF_TRIP.LIVE trOSC then
    let t := (s.set PWR_CLK.CANARY_RUN 1).putBit SAF_TRIP.LIVE trOSC false
    .next (((t.trip trOSC).putBit SAF_TRIP.LIVE trOSC false).latchStanding.reviewForcing)
  else .next s

/-- A phase of MREQ ends (R140) and the command toggles; the canary checks a rising edge (R461, R462): the unit holds tally 1, and
within a run the edges are 900 ns to 1 100 ns apart. -/
def execMreqToggle (s : State) : Out :=
  if s.on EXP_MREQ_STATUS.REQUESTING then
    if s.cad.mreq then
      let due := s.saf.mreqRise.getD s.fwc + 1000
      .next (((s.advance due).onCad fun c => { c with mreq := false }).onSaf fun f => { f with mreqFall := some due })
    else
      let due := s.saf.mreqFall.getD s.fwc + 1000
      let apart := match s.saf.mreqRise, s.saf.mreqFall with
        | some r, some f => decide (due ≤ f + 2200 ∧ (due < r + 1800 ∨ r + 2200 < due))
        | _, _ => false
      let t := ((s.advance due).onCad fun c => { c with mreq := true }).onSaf fun f => { f with mreqRise := some due }
      .next (if (apart || !s.isPithead) && s.on PWR_CLK.CANARY_RUN then t.trip trMREQ else t)
  else .next s

/-! ### Commands on page 0x03 -/

/-- A 1 written to a LATCHED bit clears it only when its live bit is 0 (R471). -/
def State.effTrip (s : State) (p : Path) (w : Nat) : State :=
  if s.mayWrite p SAF_TRIP.LATCHED then
    let live := s.get SAF_TRIP.LIVE
    let t := (List.range 11).foldl (fun t i => if bit w i && !bit live i then t.putBit SAF_TRIP.LATCHED i false else t) s
    (t.noteR44).reviewForcing
  else s

def execSafTripClear (p : Path) (w : Word) (s : State) : Out := .next (s.regWrite p 0x03008 w.toNat fun t => t.effTrip p w.toNat)

/-- Crew tallies that have not reported READY since the CHAIN_RESTART (R480). -/
def State.notReady (s : State) : List Nat := s.crew.filter fun t => !bit s.saf.readyUnits t

/-- An L3 ends on the pithead: RECOVERY_DONE and CHAIN_RESTARTED with the units that made it (R478, R480). -/
def State.endL3 (s : State) : State :=
  let n := (s.crew.filter fun t => bit s.saf.readyUnits t).length
  ((s.endRecovery).onSaf fun f => { f with restart := none, readyUnits := 0 }).raise 0x030C [n + 1]

/-- CHAIN_RESTART (R480): taken on the pithead in an L3 whose own causes are cleared. It goes to READY, its BEAT carries level 0, and
with every joined unit in READY the L3 ends. -/
def State.chainRestart (s : State) : State :=
  if s.isPithead && decide (s.get SAF_STATUS.LEVEL = 3) && s.saf.restart.isNone && !s.holdCause stREADY then
    let t := s.releaseRequest
    let t := if t.power = stHOLD then t.endHold stREADY else if t.power = stIDLE then t.intoReady else t
    let t := t.onSaf fun f => { f with restart := some t.fwc, readyUnits := 0 }
    if t.notReady.isEmpty then t.endL3 else t
  else s

/-- A write of SAF_CMD. -/
def State.effSafCmd (s : State) (p : Path) (w : Nat) : State :=
  let t := if SAF_CMD.TEST_TRIP.of w = 1 && s.mayWrite p SAF_CMD.TEST_TRIP && s.on PWR_CLK.CANARY_RUN then s.trip trTEST else s
  if SAF_CMD.CHAIN_RESTART.of w = 1 && t.mayWrite p SAF_CMD.CHAIN_RESTART then t.chainRestart else t

def execTestTrip (p : Path) (s : State) : Out := .next (s.regWrite p 0x03014 2 fun t => t.effSafCmd p 2)
def execChainRestart (p : Path) (s : State) : Out := .next (s.regWrite p 0x03014 1 fun t => t.effSafCmd p 1)

/-! ### The foreman's count and timers -/

/-- Nominal CANARY cycles in a second. -/
def canaryNominal : Nat := 25000000

/-- The foreman's count of CANARY against REFCLK (R466). -/
def execCanaryCount (n : Nat) (s : State) : Out :=
  if s.foremanRuns && s.on PWR_CLK.REF_PRESENT then
    let dev : Int := (n : Int) - canaryNominal
    if 10 * dev.natAbs > canaryNominal then
      let t := (s.onSaf fun f => { f with drift := true }).raise 0x030A [unsigned 32 (dev * 1000000 / canaryNominal)]
      .next ((t.callRecovery 0x030A 0 2 false false).enterHold 0x030A)
    else .next (s.onSaf fun f => { f with drift := false })
  else .next s

/-- RECOVER level 2 is sent to a tally with a cause (R326, R480). -/
def State.sendRecover (s : State) (tally cause : Nat) : State := s.sendCtl 0x08 0 tally ([2, cause] ++ zeroBytes 6)

/-- A recovery exceeds its limit (R478, R480). -/
def execRecoveryTimeout (s : State) : Out :=
  let lvl := s.get SAF_STATUS.LEVEL
  if lvl = 1 then
    let t := (s.advance (s.saf.since + 2 * msTicks)).raise 0x0307 [1, s.tally]
    match s.saf.l1 with
    | none => .next (t.escalate 0x0307 [])
    | some (code, arg) =>
      if isPortAction code then
        .next ((t.set SAF_STATUS.LEVEL 0).onSaf fun f => { f with l1 := none, covered := [] })
      else .next (t.escalate 0x0307 (if isGapAction code then [] else [(code, arg)]))
  else if lvl = 2 ∧ s.saf.timedOut = false then
    .next (((s.advance (s.saf.since + 250 * msTicks)).onSaf fun f => { f with timedOut := true }).raise 0x0307 [2, s.tally])
  else if lvl = 3 then
    match s.saf.restart with
    | none => .next s
    | some f0 =>
      let t := s.advance (f0 + 2000 * msTicks)
      .next ((t.notReady.foldl (fun t k => (t.sendRecover k 0).raise 0x0307 [3, k]) t).endL3)
  else .next s

/-- A deferred L1 has waited SAF_L1_DEFER.MS (R478). -/
def execL1DeferExpired (s : State) : Out :=
  match s.saf.deferred with
  | none => .next s
  | some (code, _, f0) =>
    let t := s.advance (f0 + s.get SAF_L1_DEFER.MS * msTicks)
    let t := (t.set SAF_STATUS.DEFERRED 0).onSaf fun f => { f with deferred := none }
    .next ((t.raise 0x0308 [code]).callRecovery 0x0308 0 2 false false)

/-- The foreman follows SAF_CTRL.L2_RELEASE (R479). -/
def execL2Release (s : State) : Out := .next s.releaseL2

end Sys2Proof.Machine
end

