-- ==== Sys2Proof/Machine/Chain.lean ====
section
/-!
DEFINITION. The chain as commands (ch. 09): election, roll calls, heartbeats, sweep state, the derailleur, assignment, and the packets of a
stope sweep at the pithead.
-/
namespace Sys2Proof.Machine

/-! ### Grants (R312) -/

/-- The incarnation after `n`: 1 to 255, then 1. -/
def nextInc (n : Nat) : Nat := n % 255 + 1

/-- A tally is granted with the next incarnation and a role: 0 crew, 1 standby. -/
def State.grant (s : State) (t role : Nat) : State :=
  let p := s.peer t
  let inc := nextInc (Tbl.get 0 s.chn.incs t)
  let u := (s.setPeer t fun p => { p with inc, dead := false, quarantined := false, missed := 0 }).setJoined t true
  let u := u.onChn fun c => { c with incs := Tbl.set 0 c.incs t inc, seen := setBit c.seen t true, acked := setBit c.acked t false }
  u.sendCtl 0x05 0 63 (leBytes p.serial 8 ++ [t, inc, role] ++ zeroBytes 5)

/-- Units joined, pithead included (CHN_RING.UNITS). -/
def State.countUnits (s : State) : State := s.set CHN_RING.UNITS (s.crew.length + 1)

/-! ### Roll calls (R308 to R313) -/

/-- The ROLL of this pithead out of a port. -/
def State.sendRoll (s : State) (d : Bool) (next mode way : Nat) : State :=
  s.sendOn d (s.packet 0x03 0 63 ([next, 0, mode + 2 * way, 0] ++ zeroBytes 4 ++ leBytes s.serial 8))

/-- A roll call starts: a full one clears every tally but 1. One asked for while another runs starts nothing. -/
def State.startCall (s : State) (join : Bool) : State :=
  if s.chn.roll.isSome then s
  else
    let t := if join then s.onChn fun c => { c with peers := c.peers.map fun e => (e.1, { e.2 with reported := false }) }
      else
        let t := ((s.set (CHN_JOINED.MAP 0) 2).set (CHN_JOINED.MAP 1) 0).set CHN_RING.UNITS 1
        (t.onChn fun c => { c with peers := [] }).setPeer 1 fun p => { p with serial := s.serial, joined := true, inc := s.inc }
    (t.onChn fun c => { c with roll := some ⟨join, false, s.fwc, none, 0, false⟩ }).sendRoll true 2 (ofBool join) 0

/-- A full roll call, which in CAPTURE is an L3 recovery (R313). -/
def State.fullCall (s : State) : State :=
  (if s.power = stCAPTURE then s.callRecovery 0x0B02 0 3 false false else s).startCall false

/-- A call is asked for: on the pithead alone; one that finds a derailleur ARMED waits until it ends (R313). -/
def State.wantCall (s : State) (join : Bool) : State :=
  if !s.isPithead then s
  else if s.get CHN_DRL_STATUS.STATE = 1 then s.onChn fun c => { c with waitingCall := if join ∧ c.waitingCall ≠ 1 then 2 else 1 }
  else if join then s.startCall true
  else s.fullCall

/-- The call that waited for the derailleur starts once it has ended, cancelled or at E6 (R313). -/
def State.serveCall (s : State) : State :=
  if s.chn.waitingCall = 0 ∨ s.get CHN_DRL_STATUS.STATE ≠ 0 then s
  else (s.onChn fun c => { c with waitingCall := 0 }).wantCall (decide (s.chn.waitingCall = 2))

/-- One claim beats another (R306): higher priority, then lower serial. -/
def beats (pri serial pri' serial' : Nat) : Bool := decide (pri' < pri ∨ (pri = pri' ∧ serial < serial'))

/-- The strapped unit that reports the best claim (R308); 0 where there is none. -/
def State.bestStrap (s : State) : Nat :=
  (s.chn.peers.filter fun e => decide (2 ≤ e.1) && e.2.reported && e.2.strap).foldl (fun b e =>
    if b = 0 ∨ beats e.2.priority e.2.serial (s.peer b).priority (s.peer b).serial then e.1 else b) 0

/-- The last tally reached from port D of the pithead without a break. -/
def State.reachedFromD (s : State) : Nat :=
  (s.chn.peers.filter fun e => decide (2 ≤ e.1) && decide (e.2.hopsU < 63)).foldl (fun n e => max n e.1) 1

/-- A roll call ends (R308, R312): in a full call every unit that reported is granted; ring state, hop counts and standby are settled, and
ROLL_DONE goes to all. -/
def State.endCall (s : State) : State :=
  match s.chn.roll with
  | none => s
  | some r =>
    let standby := s.bestStrap
    let t := s.onChn fun c => { c with roll := none, standby }
    let t := if r.join then t
      else (s.chn.peers.filter fun e => decide (2 ≤ e.1) && e.2.reported).foldl (fun t e => t.grant e.1 (ofBool (decide (e.1 = standby)))) t
    let n := r.expect.getD 0 + 1
    let t := if r.whole then
        t.onChn fun c => { c with peers := c.peers.map fun e => (e.1, if e.2.hopsU < 63 then { e.2 with hopsD := n - e.2.hopsU } else e.2) }
      else t
    let brk := if r.whole then 0 else t.reachedFromD
    let t := ((t.countUnits).put CHN_RING.WHOLE r.whole).set CHN_RING.BREAK_AFTER brk
    let units := t.get CHN_RING.UNITS
    (t.sendCtl 0x06 0 63 ([units, ofBool r.whole, brk, standby] ++ zeroBytes 4)).raise 0x0B02 [units, ofBool r.whole, standby]

/-- The call ends once the token is back and every unit it passed has reported. -/
def State.reviewCall (s : State) : State :=
  match s.chn.roll with
  | some r =>
    match r.expect with
    | some n => if n ≤ r.reports then s.endCall else s
    | none => s
  | none => s

/-- ROLL_REPORT of this unit (R303). -/
def State.sendReport (s : State) : State :=
  s.sendCtl 0x04 0 1 (leBytes s.serial 8 ++ [s.tally, s.get CHN_RING.HOPS_U, s.get CHN_RING.HOPS_D,
    ofBool s.strap + 2 * ofBool (s.on HST_LINK.DL_UP) + 16 * s.get CHN_CTRL.PRIORITY, s.power, 0] ++ leBytes (s.get CHN_EPOCH.GEAR) 2 ++
    leBytes (s.get CHN_EPOCH.ASSIGN) 2 ++ [0, 0] ++ leBytes s.fwVersion 4 ++ zeroBytes 8)

/-- A claimant stops claiming. -/
def State.stopClaim (s : State) : State :=
  if s.get CHN_STATE.STATE = chCLAIMING then (s.set CHN_STATE.STATE chSOLO).onChn fun c => { c with claimAt := none } else s

/-- The token at a unit that is not the pithead (R309 to R311). -/
def State.rollAt (s : State) (k : Packet) : State :=
  let next := k.at_ 0 1
  let hops := k.at_ 1 1 + 1
  let join := bit (k.at_ 2 1) 0
  let way := bit (k.at_ 2 1) 1
  let t := (s.stopClaim).onChn fun c => { c with heard := true, joinCall := join, pitheadSerial := k.at_ 8 8 }
  let t := t.zeros [CHN_STATE.BROKEN_U, CHN_STATE.BROKEN_D]
  let t := (t.set CHN_RING.HOPS_U (if way then 63 else hops)).set CHN_RING.HOPS_D (if way then hops else 63)
  let t := if join then t else (t.zeros [CHN_STATE.INC, CHN_STATE.STATE, CHN_STATE.ROLE]).set CHN_STATE.TALLY next
  let next' := if join then next else if way then next - 1 else next + 1
  -- WAY 0 leaves by port D, WAY 1 by port U
  (t.cross way { k with payload := [next', hops, k.at_ 2 1, 0] ++ k.payload.drop 4 }).sendReport

/-- ROLL: at the pithead the token of its own call that returns at port U shows the ring whole; its way back by port D shows nothing. -/
def execRoll (d : Bool) (k : Packet) (s : State) : Out :=
  if !k.fits 0x03 then .next (s.bump CHN_ERRCNT1.TAG_DROP 1)
  else if s.isPithead then
    if k.at_ 8 8 = s.serial ∧ !d ∧ !bit (k.at_ 2 1) 1 then
      .next (s.onChn fun c => { c with roll := c.roll.map fun r => { r with expect := some (k.at_ 1 1), whole := true } }).reviewCall
    else .next s
  else .next (s.rollAt k)

/-- The token has not returned within 10 ms (R310): a second ROLL goes out of port U. Ten more ms end the call. -/
def execRollTimeout (s : State) : Out :=
  match s.chn.roll with
  | none => .next s
  | some r =>
    if r.second || r.expect.isSome then .next ((s.advance (r.began + 20 * msTicks)).endCall)
    else
      let t := (s.advance (r.began + 10 * msTicks)).onChn fun c => { c with roll := some { r with second := true } }
      .next (t.sendRoll false 62 (ofBool r.join) 1)

/-- The pithead records a report (R308, R311). In a join call a unit that keeps its tally has its hop counts taken; a known serial
without a live grant is granted its tally again; any other is refused. -/
def State.report (s : State) (k : Packet) (r : RollCall) : State :=
  let serial := k.at_ 0 8
  let fill := fun (p : Peer) => { p with
    hopsU := k.at_ 9 1, hopsD := k.at_ 10 1, strap := bit (k.at_ 11 1) 0, priority := k.at_ 11 1 / 16, power := k.at_ 12 1, gear := k.at_ 14 2
    reported := true }
  let s := s.onChn fun c => { c with roll := some { r with reports := r.reports + 1 } }
  if r.join then
    match s.chn.peers.find? fun e => decide (2 ≤ e.1) && decide (e.2.serial = serial) with
    | none => s.raise 0x0B03 [serial]
    | some (t, p) =>
      let s := s.setPeer t fill
      if p.joined && decide (k.at_ 8 1 = t) then s else s.grant t (ofBool (decide (s.chn.standby = t)))
  else s.setPeer (k.at_ 8 1 % 64) fun p => { fill p with serial }

def execRollReport (d : Bool) (k : Packet) (s : State) : Out :=
  .next (s.onPacket d k 0x04 fun t =>
    match t.chn.roll with
    | some r => if t.isPithead then (t.report k r).reviewCall else t
    | none => t)

/-- A GRANT with the unit's own serial (R312): tally, incarnation and role; JOINED. -/
def State.takeGrant (s : State) (k : Packet) : State :=
  if k.at_ 0 8 = s.serial ∧ !s.isPithead then
    let t := (((s.set CHN_STATE.TALLY (k.at_ 8 1)).set CHN_STATE.INC (k.at_ 9 1)).set CHN_STATE.ROLE (min 1 (k.at_ 10 1))).set
      CHN_STATE.STATE chJOINED
    let t := t.onChn fun c => { c with rejoin := false, beatMissed := 0, beatSeen := true, claimAt := none, heard := true }
    let t := t.onCad fun c => { c with everJoined := true, published := false }
    t.reviewTime
  else s
def execGrant (d : Bool) (k : Packet) (s : State) : Out := .next (s.onPacket d k 0x05 fun t => t.takeGrant k)

/-- ROLL_DONE at a unit (R312): ring state and standby; in a whole ring the other hop count is the number of links less the one known
(R294). After a full call the links are as many as the units joined. After a join call there is one more for every unit refused, of which
no packet tells the unit: that number is free (notes/assumptions/56.md). -/
def State.rollDone (s : State) (k : Packet) : State :=
  let units := k.at_ 0 1
  let whole := bit (k.at_ 1 1) 0
  let t := (((s.set CHN_RING.UNITS units).put CHN_RING.WHOLE whole).set CHN_RING.BREAK_AFTER (k.at_ 2 1)).onChn fun c =>
    { c with standby := k.at_ 3 1 }
  let t := if t.get CHN_STATE.STATE = chJOINED ∨ t.get CHN_STATE.STATE = chORPHAN then
      t.set CHN_STATE.ROLE (ofBool (decide (t.tally = k.at_ 3 1))) else t
  let u := t.get CHN_RING.HOPS_U
  let v := t.get CHN_RING.HOPS_D
  if !whole then t
  else
    let refused := if s.chn.joinCall then t.free else (0, t)
    let links := units + refused.1
    let t := refused.2
    if u < 63 then t.set CHN_RING.HOPS_D (links - u) else if v < 63 then t.set CHN_RING.HOPS_U (links - v) else t
def execRollDoneReceive (d : Bool) (k : Packet) (s : State) : Out :=
  .next (s.onPacket d k 0x06 fun t => if t.isPithead then t else t.rollDone k)

/-! ### Election (R305 to R307) -/

/-- The unit takes tally 1 with the next incarnation. -/
def State.takeHead (s : State) : State :=
  let inc := nextInc (Tbl.get 0 s.chn.incs 1)
  let t := (((s.set CHN_STATE.TALLY 1).set CHN_STATE.INC inc).set CHN_STATE.STATE chPITHEAD).set CHN_STATE.ROLE 2
  let t := (t.zeros [CHN_RING.HOPS_U, CHN_RING.HOPS_D, CHN_JOINED.MAP 1]).set (CHN_JOINED.MAP 0) 2
  let t := (t.set CHN_RING.UNITS 1).onChn fun c => { c with
    incs := Tbl.set 0 c.incs 1 inc, claimAt := none, rejoin := false, seen := 0, beatMissed := 0 }
  let t := t.setPeer 1 fun p => { p with serial := s.serial, joined := true, inc }
  let t := t.onCad fun c => { c with counting := c.counting && c.everJoined, zeroNext := !c.everJoined, everJoined := true }
  ((t.reviewTime).reviewMreq).startRings

/-- CLAIM (R305 to R307): every unit forwards it, a claimant absorbs its own. -/
def execClaim (d : Bool) (k : Packet) (s : State) : Out :=
  let serial := k.at_ 0 8
  let standing := bit (k.at_ 9 1) 0
  if !k.fits 0x01 then .next (s.bump CHN_ERRCNT1.TAG_DROP 1)
  else if serial = s.serial then .next s
  else
    let t := s.cross d k
    if s.isPithead then .next (if standing then t else t.sendClaim true)
    else if standing then
      let t := t.onChn fun c => { c with heard := true, pitheadSerial := serial }
      .next (if s.get CHN_STATE.STATE = chCLAIMING then (t.stopClaim).raise 0x0B12 [serial] else t)
    else if s.get CHN_STATE.STATE = chCLAIMING ∧ beats (k.at_ 8 1 % 16) serial (s.get CHN_CTRL.PRIORITY) s.serial then .next t.stopClaim
    else .next t

def execClaimInterval (s : State) : Out := .next (if s.get CHN_STATE.STATE = chCLAIMING then s.sendClaim false else s)

/-- ELECT_MS without a better claim (R306). -/
def execElectionTimeout (s : State) : Out :=
  match s.chn.claimAt with
  | none => .next s
  | some t0 =>
    if s.get CHN_STATE.STATE = chCLAIMING then
      let t := (s.advance (t0 + s.get CHN_CTRL.ELECT_MS * msTicks)).takeHead
      .next ((t.raise 0x0B01 [s.serial, s.get CHN_CTRL.PRIORITY]).fullCall)
    else .next s

/-! ### The derailleur (R322 to R326) -/

/-- The stopes of a bank enabled for a tally, one bit each (R327). -/
def stopeMask (b : Tbl Asg) (t : Nat) : Nat :=
  (b.filter fun e => decide (e.1 / 256 = t) && e.2.valid).foldl (fun m e => m + 2 ^ (e.1 % 256)) 0

/-- The stope enables take a mask, by the foreman (R81). -/
def State.writeMask (s : State) (mask : Nat) : State :=
  (List.range 8).foldl (fun t w => t.set (EXP_STOPE_EN.EN w) (mask / 2 ^ (32 * w))) s

/-- The mask STOPES brought for an assignment epoch, where it changes (R323). -/
def State.stopesFor (s : State) (assign : Nat) (asgCh : Bool) : Option Nat :=
  match s.chn.stopes with
  | some (e, m) => if asgCh ∧ e = assign then some m else none
  | none => none

/-- An ARM names the successors of the epochs in force: those the unit holds, or, for a unit left behind by the chain (R318), those SWEEP_STATE
last brought (R321; DEDUCED, notes/assumptions/57.md). -/
def State.successors (s : State) (gear assign : Nat) (gearCh asgCh : Bool) : Bool :=
  let next := fun (e : Nat × Nat) => decide (gear = (e.1 + ofBool gearCh) % 2 ^ 16 ∧ assign = (e.2 + ofBool asgCh) % 2 ^ 16)
  next (s.get CHN_EPOCH.GEAR, s.get CHN_EPOCH.ASSIGN) || (s.chn.chainEpochs.map next).getD false

/-- A gear is pending on the unit (R322): a value written and not in force, a mode, or a new shadow table. -/
def State.gearPending (s : State) : Bool :=
  s.on CAD_TBL_STATUS.SHD_NEW || decide (s.get EXP_MODE.MODE ≠ s.get EXP_MODE.MODE_ACTIVE) ||
    (gearFields ++ [EXP_INTEG.FRAMES, EXP_INTEG.HALVES]).any fun f => decide (s.get f ≠ s.inForce f)

/-- Why an ARM is refused (R322, R323): result, and what it found (a stope, or the ERR and index of R108 or R127). The epochs, a recovery, the
engines of the new mask, the table and the mode against the pending values, in the order 5, 4, 3, 1, 2; a unit with nothing pending accepts. -/
def State.armResult (s : State) (gear assign : Nat) (gearCh asgCh : Bool) : Nat × Nat × Nat :=
  let new := s.stopesFor assign asgCh
  let mask := new.getD s.enables
  let idle := fun x => match s.engineOf x with
    | some e => decide ((s.engine e).st ≠ 1)
    | none => true
  if !s.successors gear assign gearCh asgCh then (5, 0, 0)
  else if s.get SAF_STATUS.LEVEL ≠ 0 then (4, 0, 0)
  else
    match (List.range 256).find? fun x => asgCh && bit mask x && idle x with
    | some x => (3, x, 0)
    | none =>
      if !s.gearPending then (0, 0, 0)
      else
        let t := match new with
          | some m => s.writeMask m
          | none => s
        let tbl := if s.on CAD_TBL_STATUS.SHD_NEW then s.cad.shd else s.cad.act
        match t.tableErr tbl with
        | some e => (1, e)
        | none =>
          match t.modeErr tbl with
          | some e => (2, e)
          | none => (0, 0, 0)

/-- A unit validates and holds an ARM. A table or mode that fails is refused as at a swap (R123, R148). -/
def State.armUnit (s : State) (number gear assign k : Nat) (gearCh asgCh : Bool) : State × (Nat × Nat) :=
  let r := s.armResult gear assign gearCh asgCh
  let t := if r.1 = 1 then s.refuseTable r.2 else if r.1 = 2 then s.refuseMode r.2 else s
  (t.onChn fun c => { c with armed := some ⟨number, gear, assign, k, gearCh, asgCh, r.1⟩ }, r.1, r.2.1)

/-- The pithead takes an acknowledgement (R323, R324). -/
def State.takeAck (s : State) (tally result : Nat) : State :=
  if s.get CHN_DRL_STATUS.STATE ≠ 1 then s
  else if result = 0 then s.putBit (CHN_ACKED.MAP (tally / 32)) (tally % 32) true
  else ((s.set CHN_DRL_STATUS.NACK_TALLY tally).set CHN_DRL_STATUS.NACK_RESULT result).cancelDerail 2 tally

/-- The smallest multiple of `m` at or above `n`. -/
def multipleFrom (m n : Nat) : Nat := (n + m - 1) / m * m

/-- E1 and E2 of R323. -/
def State.beginDerail (s : State) (gearCh asgCh : Bool) : State :=
  let lOld := max 1 (s.inForce CAD_CTRL.LOCK_N)
  let lNew := max 1 (s.get CAD_CTRL.LOCK_N)
  let k := multipleFrom (Nat.lcm lOld lNew) (s.get CAD_SWEEP.SWEEP + s.get CHN_DRL_CMD.AHEAD * lOld) % 2 ^ 32
  let number := (s.get CHN_DRL_STATUS.NUMBER + 1) % 256
  let g0 := s.get CHN_EPOCH.GEAR
  let a0 := s.get CHN_EPOCH.ASSIGN
  let gear := (g0 + ofBool gearCh) % 2 ^ 16
  let assign := (a0 + ofBool asgCh) % 2 ^ 16
  let t := (s.zeros [CHN_DRL_STATUS.RESULT, CHN_DRL_STATUS.NACK_TALLY, CHN_DRL_STATUS.NACK_RESULT, CHN_ACKED.MAP 0, CHN_ACKED.MAP 1]).set
    CHN_DRL_STATUS.NUMBER number
  let t := ((t.set CHN_DRL_STATUS.STATE 1).set CHN_DRL_SWEEP.K k).onChn fun c => { c with drl := some ⟨gearCh, asgCh, k, lOld, lNew, gear, assign, g0, a0⟩ }
  let changed := fun tally => asgCh && decide (stopeMask s.chn.next tally ≠ stopeMask s.chn.bank tally)
  let t := (s.crew.filter changed).foldl (fun t u => t.sendCtl 0x09 0 u (leBytes assign 2 ++ [0, 0] ++ leBytes (stopeMask s.chn.next u) 32)) t
  let t := if changed 1 then t.onChn fun c => { c with stopes := some (assign, stopeMask s.chn.next 1) } else t
  let t := t.sendCtl 0x0A 0 63 (leBytes gear 2 ++ leBytes assign 2 ++ leBytes k 4 ++ [number, ofBool gearCh + 2 * ofBool asgCh] ++ zeroBytes 6)
  let r := t.armUnit number gear assign k gearCh asgCh
  r.1.takeAck 1 r.2.1

/-- Two entries of a bank own one ledger slot (R328). -/
def slotTwice (b : Tbl Asg) : Bool :=
  let es := b.filter fun e => e.2.valid && decide (e.2.lo < e.2.hi)
  es.any fun x => es.any fun y => decide (x.1 < y.1 ∧ x.2.base < y.2.base + (y.2.hi - y.2.lo) ∧ y.2.base < x.2.base + (x.2.hi - x.2.lo))

/-- E1 of every derailleur checks the next bank (R328). -/
def State.tryDerail (s : State) (gearCh asgCh : Bool) : State :=
  if slotTwice s.chn.next then s.set CHN_DRL_STATUS.RESULT 6 else s.beginDerail gearCh asgCh

/-- A write of CHN_DRL_CMD: AHEAD, then GO under R323, R325 and R340. -/
def State.effDrlCmd (s : State) (p : Path) (w : Nat) : State :=
  let t := s.writeFields p 0x0B014 w
  let g := decide (CHN_DRL_CMD.GO_GEAR.of w = 1) && t.mayWrite p CHN_DRL_CMD.GO_GEAR
  let a := decide (CHN_DRL_CMD.GO_ASSIGN.of w = 1) && t.mayWrite p CHN_DRL_CMD.GO_ASSIGN
  if !t.isPithead || !(g || a) then t
  else if t.get CHN_DRL_STATUS.STATE ≠ 0 ∨ t.power ≠ stCAPTURE then t.set CHN_DRL_STATUS.RESULT 5
  else t.tryDerail g a

/-- GO_GEAR and GO_ASSIGN with AHEAD as it stands. -/
def State.drlWord (s : State) (go : Nat) : Nat := go + s.get CHN_DRL_CMD.AHEAD * 256
def execGoGear (p : Path) (s : State) : Out := .next (s.regWrite p 0x0B014 (s.drlWord 1) fun t => t.effDrlCmd p (s.drlWord 1))
def execGoAssign (p : Path) (s : State) : Out := .next (s.regWrite p 0x0B014 (s.drlWord 2) fun t => t.effDrlCmd p (s.drlWord 2))

/-- STOPES (R323): the mask waits for its assignment epoch. -/
def execStopes (d : Bool) (k : Packet) (s : State) : Out :=
  .next (s.onPacket d k 0x09 fun t => t.onChn fun c => { c with stopes := some (k.at_ 0 2, ofLeBytes ((k.payload.drop 4).take 32)) })

/-- ARM at a joined unit (E3 of R323). -/
def execArm (d : Bool) (k : Packet) (s : State) : Out :=
  .next (s.onPacket d k 0x0A fun t =>
    if t.isCrew then
      let r := t.armUnit (k.at_ 8 1) (k.at_ 0 2) (k.at_ 2 2) (k.at_ 4 4) (bit (k.at_ 9 1) 0) (bit (k.at_ 9 1) 1)
      r.1.sendCtl 0x0B 0 1 ([k.at_ 8 1, r.2.1] ++ leBytes r.2.2 2 ++ zeroBytes 4)
    else t)

def execArmAck (d : Bool) (k : Packet) (s : State) : Out :=
  .next (s.onPacket d k 0x0B fun t =>
    if t.isPithead && decide (k.at_ 0 1 = t.get CHN_DRL_STATUS.NUMBER) then t.takeAck k.src (k.at_ 1 1) else t)

/-- COMMIT at a unit that acknowledged the ARM of its number (E5 of R323). -/
def execCommit (d : Bool) (k : Packet) (s : State) : Out :=
  .next (s.onPacket d k 0x0C fun t =>
    match t.chn.armed with
    | some a => if !t.isPithead && decide (a.number = k.at_ 0 1 ∧ a.result = 0) then t.onChn fun c => { c with commit := some (k.at_ 4 4) } else t
    | none => t)

/-- CANCEL: the unit keeps its gear and epochs (R324). -/
def execCancel (d : Bool) (k : Packet) (s : State) : Out :=
  .next (s.onPacket d k 0x0D fun t =>
    match t.chn.armed with
    | some a => if !t.isPithead && decide (a.number = k.at_ 0 1) then t.onChn fun c => { c with armed := none, commit := none, stopes := none } else t
    | none => t)

/-! ### MIRROR (R319) -/

/-- The pithead's tables, laid end to end: bank in force, incarnations, spares. -/
def State.mirrorTables (s : State) : List Nat :=
  (s.chn.bank.map fun e => [e.1, ofBool e.2.valid, e.2.lo, e.2.hi, e.2.base]).flatten ++ (s.chn.incs.map fun e => [e.1, e.2]).flatten ++
    (List.range 64).map fun t => s.get (CHN_SPARE.SPARE t)

/-- MIRROR goes to the standby after every commit and every write of the spare plan, filled to whole words (R299). -/
def State.sendMirror (s : State) : State :=
  if s.isPithead ∧ s.chn.standby ≠ 0 then
    let m := ((Config.mirror s.mirrorTables).take 16384).map (· % 256)
    s.sendCtl 0x0F 0 s.chn.standby (m ++ zeroBytes ((4 - m.length % 4) % 4))
  else s

def execMirror (d : Bool) (k : Packet) (s : State) : Out :=
  .next (s.onPacket d k 0x0F fun t => if t.get CHN_STATE.ROLE = 1 then t.onChn fun c => { c with mirror := k.payload } else t)

/-- A standby that takes over has the tables last mirrored to it. -/
def State.takeMirror (s : State) : State :=
  let m := s.chn.mirror
  if m.isEmpty then s
  else
    let bank := (Config.mirrorBank m).foldl (fun b e => Tbl.set {} b (e.1 % 2 ^ 14) (Asg.mk true (e.2.1 % 2 ^ 17) (e.2.2.1 % 2 ^ 17) (e.2.2.2 % 2 ^ 32))) ([] : Tbl Asg)
    let t := s.onChn fun c => { c with
      bank, prev := [], since := none, incs := (List.range 63).foldl (fun i t => Tbl.set 0 i t (Config.mirrorInc m t % 256)) c.incs }
    (List.range 64).foldl (fun t i => t.set (CHN_SPARE.SPARE i) (Config.mirrorSpare m i)) t

/-! ### Heartbeats (R315 to R320) -/

/-- A BEAT of this unit (R303). The pithead that restarts the chain carries level 0 (R480). -/
def State.sendBeat (s : State) : State :=
  let lvl := if s.saf.restart.isSome then 0 else s.get SAF_STATUS.LEVEL
  s.sendCtl 0x10 2 (if s.isPithead then 63 else 1) ([s.get CHN_STATE.STATE, s.power, lvl, ofBool (decide (s.enables = 0)) + 2 * ofBool s.chn.rejoin] ++
    leBytes (s.fwc / 64) 4 ++ leBytes (s.egressBytes / 1024) 4 ++ leBytes s.chn.egressDropped 4)

/-- A BEAT at the pithead: heard in this window; REJOIN is granted (R318); READY counts toward the end of an L3 (R480). -/
def State.crewBeat (s : State) (k : Packet) : State :=
  if !bit s.joinedMap k.src then s
  else
    let s := (s.setPeer k.src fun p => { p with missed := 0, power := k.at_ 1 1, gear := k.gear }).onChn fun c => { c with seen := setBit c.seen k.src true }
    let s := if bit (k.at_ 3 1) 1 then
        let s := s.grant k.src (ofBool (decide (s.chn.standby = k.src)))
        if k.gear ≠ s.get CHN_EPOCH.GEAR then s.raise 0x0B11 [k.src, k.gear] else s
      else s
    if s.saf.restart.isSome && decide (stREADY ≤ k.at_ 1 1 ∧ k.at_ 1 1 ≤ stCAPTURE) then
      let s := s.onSaf fun f => { f with readyUnits := setBit f.readyUnits k.src true }
      if s.notReady.isEmpty then s.endL3 else s
    else s

/-- The chain hold ends at a BEAT of level 0 (R480): the request is released, and a unit with no other cause goes to READY. -/
def State.endChainHold (s : State) : State :=
  let t := (s.set SAF_STATUS.CHAIN_HOLD 0).releaseRequest
  let t := if t.power = stHOLD ∧ t.holdCause stREADY = false then t.endHold stREADY else t
  t.endRecovery

/-- The pithead's BEAT at a crew unit: an ORPHAN is JOINED again (R314), level 3 holds the unit with the chain, level 0 ends that hold
(R480). -/
def State.headBeat (s : State) (k : Packet) : State :=
  let t := s.onChn fun c => { c with beatSeen := true, beatMissed := 0, incs := Tbl.set 0 c.incs 1 k.inc }
  let t := if t.get CHN_STATE.STATE = chORPHAN then t.set CHN_STATE.STATE chJOINED else t
  if !t.isCrew then t
  else if k.at_ 2 1 = 3 ∧ t.on SAF_STATUS.CHAIN_HOLD = false then
    (t.callRecovery 0x030B 0 3 false false).when (decide (stIDLE ≤ t.power ∧ t.power ≤ stHOLD)) fun u => u.raise 0x030B [u.fwc]
  else if k.at_ 2 1 = 0 ∧ t.on SAF_STATUS.CHAIN_HOLD then t.endChainHold
  else t

def execBeat (d : Bool) (k : Packet) (s : State) : Out :=
  .next (s.onPacket d k 0x10 fun t =>
    if t.isPithead then (if 2 ≤ k.src then t.crewBeat k else t) else if k.src = 1 then t.headBeat k else t)

/-- The bank in force with every entry of tally t moved to the same stope of s, which is benched and owns none (R330). -/
def movedBank (b : Tbl Asg) (t sp : Nat) : Tbl Asg :=
  (b.filter fun e => decide (e.1 / 256 ≠ sp)).foldl (fun b e => Tbl.set {} b (if e.1 / 256 = t then asgKey sp (e.1 % 256) else e.1) e.2) []

/-- The spare plan of R330 for a tally declared dead, with no derailleur ARMED. While one is COMMITTED its bank is frozen and a second one
cannot run: the plan waits for its end (DEDUCED, notes/assumptions/58.md). -/
def State.useSpare (s : State) (t : Nat) : State :=
  let sp := s.get (CHN_SPARE.SPARE t)
  let u := s.onChn fun c => { c with spareFor := none }
  if s.on CHN_CFG.AUTO_SPARE && decide (2 ≤ sp) && bit s.joinedMap sp && decide (stopeMask s.chn.bank sp = 0) then
    if s.get CHN_DRL_STATUS.STATE = 0 then
      ((u.onChn fun c => { c with next := movedBank c.bank t sp }).tryDerail false true).raise 0x0B10 [t, sp]
    else s.onChn fun c => { c with spareFor := some t }
  else u

/-- The spare plan that waited is applied once the derailleur has ended. -/
def State.serveSpare (s : State) : State :=
  match s.chn.spareFor with
  | some t => if s.get CHN_DRL_STATUS.STATE = 0 ∧ s.power = stCAPTURE then s.useSpare t else s
  | none => s

/-- A crew unit is declared dead (R316): its derailleur is cancelled (R324), and the spare plan holds where none was ARMED (R330). -/
def State.declareDead (s : State) (t : Nat) : State :=
  let inc := (s.peer t).inc
  let armed := decide (s.get CHN_DRL_STATUS.STATE = 1)
  let u := ((s.setPeer t fun p => { p with dead := true }).setJoined t false).countUnits
  let u := (u.raise 0x0B04 [t, inc]).cancelDerail 3 t
  if armed then u else u.useSpare t

/-- A standby takes over (R319). It holds the chain itself from now on: a hold with the old pithead's chain is over. -/
def State.takeOver (s : State) : State :=
  let old := s.chn.pitheadSerial
  let t := (((s.takeMirror).takeHead).set SAF_STATUS.CHAIN_HOLD 0).raise 0x0B07 [old]
  (t.callRecovery 0x0B07 0 3 false false).startCall false

/-- The pithead counts a window without a BEAT from each crew unit (R316, R320). -/
def State.countMissed (s : State) : State :=
  let crew := s.crew
  let th := s.get CHN_CTRL.DEAD_THRESH
  let t := (crew.filter fun u => !bit s.chn.seen u).foldl (fun t u => t.setPeer u fun p => { p with missed := p.missed + 1 }) s
  let dead := crew.filter fun u => decide (th ≤ (t.peer u).missed)
  let t := dead.foldl State.declareDead (t.onChn fun c => { c with seen := 0 })
  if !crew.isEmpty ∧ dead.length = crew.length then (t.raise 0x0B08 [t.fwc]).callRecovery 0x0B08 0 3 false false else t

/-- A crew unit counts a window without the pithead's BEAT (R314). -/
def State.countHead (s : State) : State :=
  let n := if s.chn.beatSeen then 0 else s.chn.beatMissed + 1
  let t := s.onChn fun c => { c with beatSeen := false, beatMissed := n }
  if n < s.get CHN_CTRL.DEAD_THRESH then t
  else if s.get CHN_STATE.ROLE = 1 then (if s.portActive false || s.portActive true then t.takeOver else t)
  else if s.get CHN_STATE.STATE = chJOINED then (t.set CHN_STATE.STATE chORPHAN).raise 0x0B06 [t.fwc]
  else t

/-- A remap in CAPTURE brings a new assignment epoch with the bank in force (R223), as soon as no derailleur is under way. -/
def State.serveRemap (s : State) : State :=
  if s.chn.remapped = false then s
  else if !s.isPithead ∨ s.power ≠ stCAPTURE then s.onChn fun c => { c with remapped := false }
  else if s.get CHN_DRL_STATUS.STATE = 0 then (s.onChn fun c => { c with remapped := false, next := c.bank }).tryDerail false true
  else s
/-- The pithead learns of a remap in CAPTURE. -/
def State.reportRemap (s : State) : State := (s.onChn fun c => { c with remapped := true }).serveRemap

/-- A 1 ms window of the freewheel counter ends (R315, R316). -/
def execBeatWindow (s : State) : Out :=
  let st := s.get CHN_STATE.STATE
  let t := s.advance ((s.fwc / msTicks + 1) * msTicks)
  if s.pwr.boot ≠ 0 ∨ s.pwr.sysrst ∨ (st ≠ chPITHEAD ∧ st ≠ chJOINED ∧ st ≠ chORPHAN) then .next t
  else
    let t := t.sendBeat
    .next (if st = chPITHEAD then (((t.countMissed).serveCall).serveSpare).serveRemap else t.countHead)

/-- BENCH addressed to the unit's incarnation (R314, R317): tally 0, SOLO, and to IDLE. -/
def State.bench (s : State) : State :=
  let t := s.zeros [CHN_STATE.TALLY, CHN_STATE.INC, CHN_STATE.STATE, CHN_STATE.ROLE]
  let t := (t.reviewTime).reviewMreq
  if t.power = stREADY then t.intoIdle
  else if t.power = stCAPTURE then ((t.cadHold).sealAll).intoIdle
  else if t.power = stHOLD then t.commandEnds true stIDLE
  else t
def execBench (d : Bool) (k : Packet) (s : State) : Out :=
  .next (s.onPacket d k 0x07 fun t => if k.at_ 0 1 = t.inc ∧ t.tally ≠ 0 then t.bench else t)

/-- RECOVER (R326, R477): an L2 on the unit. -/
def execRecover (d : Bool) (k : Packet) (s : State) : Out :=
  .next (s.onPacket d k 0x08 fun t => if k.at_ 0 1 = 2 then t.callRecovery 0x0B0B (k.at_ 1 1) 2 false false else t)

/-- RING_NOTICE (R297): the arrival port is marked or cleared; the pithead learns the break, and a port ACTIVE again brings a join roll call
(R313). -/
def execRingNotice (d : Bool) (k : Packet) (s : State) : Out :=
  .next (s.onPacket d k 0x12 fun t =>
    let who := k.at_ 0 1
    let portD := bit (k.at_ 1 1) 0
    let active := bit (k.at_ 1 1) 1
    if t.isPithead then
      let t := t.raise 0x0B0F [who, ofBool portD, ofBool active]
      if active then (if t.on CHN_CFG.JOIN_AUTO then t.onChn fun c => { c with joinAt := some t.fwc } else t)
      else t.breakAfter (if portD then who else who - 1)
    else t.put (if d then CHN_STATE.BROKEN_D else CHN_STATE.BROKEN_U) (!active))

/-- 10 ms after the notice the join roll call starts (R313). -/
def execJoinCallDelay (s : State) : Out :=
  match s.chn.joinAt with
  | none => .next s
  | some t0 => .next (((s.advance (t0 + 10 * msTicks)).onChn fun c => { c with joinAt := none }).wantCall true)

/-! ### CHN_CTRL, assignment and spares -/

/-- A write of CHN_CTRL: its settings, then FULL_CALL or JOIN_CALL (R309, R311, R340). -/
def State.effChnCtrl (s : State) (p : Path) (w : Nat) : State :=
  let t := s.writeFields p 0x0B000 w
  if CHN_CTRL.FULL_CALL.of w = 1 && t.mayWrite p CHN_CTRL.FULL_CALL then t.wantCall false
  else if CHN_CTRL.JOIN_CALL.of w = 1 && t.mayWrite p CHN_CTRL.JOIN_CALL then t.wantCall true
  else t

/-- The word that leaves the settings of CHN_CTRL as they are. -/
def State.chnCtrlWord (s : State) : Nat := s.word [CHN_CTRL.PRIORITY, CHN_CTRL.DEAD_THRESH, CHN_CTRL.ELECT_MS]
def execChnFullCall (p : Path) (s : State) : Out :=
  .next (s.regWrite p 0x0B000 (2 ^ 31 + s.chnCtrlWord) fun t => t.effChnCtrl p (2 ^ 31 + s.chnCtrlWord))
def execChnJoinCall (p : Path) (s : State) : Out :=
  .next (s.regWrite p 0x0B000 (2 ^ 30 + s.chnCtrlWord) fun t => t.effChnCtrl p (2 ^ 30 + s.chnCtrlWord))

/-- The next bank is frozen from E1 of R323 until its sweep K. -/
def State.bankFrozen (s : State) : Bool := s.chn.drl.isSome && s.chn.graceEnd.isNone

/-- The entry CHN_ASG_SEL selects. -/
def State.asgEntry (s : State) : Asg :=
  Tbl.get {} (if s.on CHN_ASG_SEL.BANK then s.chn.next else s.chn.bank) (asgKey (s.get CHN_ASG_SEL.TALLY) (s.get CHN_ASG_SEL.STOPE))

/-- Writes of the entry words (R16, R327): BASE and LO are staged, HI commits the entry of the next bank. -/
def State.effAsgBase (s : State) (p : Path) (w : Nat) : State :=
  if s.mayWrite p CHN_ASG_BASE.SLOT_BASE then s.onChn fun c => { c with stageBase := w % 2 ^ 32 } else s
def State.effAsgLo (s : State) (p : Path) (w : Nat) : State :=
  if s.mayWrite p CHN_ASG_LO.OWN_LO then s.onChn fun c => { c with stageLo := w % 2 ^ 17 } else s
def State.effAsgHi (s : State) (p : Path) (w : Nat) : State :=
  if !s.mayWrite p CHN_ASG_HI.VALID || !s.on CHN_ASG_SEL.BANK || s.bankFrozen then s
  else
    let e : Asg := ⟨bit w 31, s.chn.stageLo, CHN_ASG_HI.OWN_HI.of w, s.chn.stageBase⟩
    s.onChn fun c => { c with next := Tbl.set {} c.next (asgKey (s.get CHN_ASG_SEL.TALLY) (s.get CHN_ASG_SEL.STOPE)) e }
def execChnAsgHiWrite (p : Path) (w : Word) (s : State) : Out := .next (s.regWrite p 0x0B03C w.toNat fun t => t.effAsgHi p w.toNat)

/-- A write of CHN_ASG_CMD: CLEAR, then COPY. -/
def State.effAsgCmd (s : State) (p : Path) (w : Nat) : State :=
  if !s.mayWrite p CHN_ASG_CMD.COPY || s.bankFrozen then s
  else
    let t := if CHN_ASG_CMD.CLEAR.of w = 1 then s.onChn fun c => { c with next := [] } else s
    if CHN_ASG_CMD.COPY.of w = 1 then t.onChn fun c => { c with next := c.bank } else t
def execChnAsgCopy (p : Path) (s : State) : Out := .next (s.regWrite p 0x0B040 2 fun t => t.effAsgCmd p 2)
def execChnAsgClear (p : Path) (s : State) : Out := .next (s.regWrite p 0x0B040 1 fun t => t.effAsgCmd p 1)

/-- A write of the spare plan, which the pithead mirrors (R319). -/
def State.effSpare (s : State) (p : Path) (off w : Nat) : State :=
  let t := s.writeFields p off w
  if t.mayWrite p (CHN_SPARE.SPARE 0) then t.sendMirror else t

/-! ### Sweep state and stope sweeps -/

/-- SWEEP_STATE (R321): the request state of a sweep, the ring, and the chain's epochs. -/
def execSweepState (d : Bool) (k : Packet) (s : State) : Out :=
  .next (s.onPacket d k 0x11 fun t =>
    if t.isPithead then t
    else
      let t := t.onChn fun c => { c with chainEpochs := some (k.at_ 8 2, k.at_ 10 2) }
      ((t.put CHN_RING.WHOLE (bit (k.at_ 4 1) 1)).set CHN_RING.BREAK_AFTER (k.at_ 5 1)).learnRequest (k.at_ 0 4) (bit (k.at_ 4 1) 0))

/-- The build of a source: a stope sweep whose counts are all received goes to the ledger (R331). -/
def State.finishBuild (s : State) (src : Nat) : State :=
  match Tbl.get none s.chn.build src with
  | none => s
  | some b =>
    let nKey := 24 * bytesAt b.hdr 10 3
    let nDelta := 8 * bytesAt b.hdr 13 3
    if nKey ≤ b.keys.length ∧ nDelta ≤ b.deltas.length ∧ bytesAt b.hdr 32 4 ≤ b.stat.length ∧ bytesAt b.hdr 36 4 ≤ b.aux.length then
      ((s.onChn fun c => { c with build := Tbl.erase c.build src }).ledgerJudge
        ⟨src, b.inc, b.sweep, b.gear, b.assign, b.hdr.take 32, b.keys.take nKey, b.deltas.take nDelta, b.stat.take (bytesAt b.hdr 32 4),
          b.aux.take (bytesAt b.hdr 36 4)⟩).reviewIntake
    else s

/-- SWEEP_HDR at the pithead: a sweep of its source still being built is incomplete (R331); one above the intake mark is not built
(R338). -/
def State.openBuild (s : State) (k : Packet) : State :=
  let t := match Tbl.get none s.chn.build k.src with
    | some b => s.ledgerIncomplete k.src (bytesAt b.hdr 8 1) b.sweep
    | none => s
  (t.onChn fun c => { c with build := Tbl.erase c.build k.src }).intake fun u =>
    ((u.usesKibble).onChn fun c => { c with build := Tbl.set none c.build k.src (some ⟨k.inc, k.sweep, k.gear, k.assign, k.payload, [], [], [], []⟩) }).finishBuild k.src

/-- Records of a run join the build of their source and sweep. -/
def State.extendBuild (s : State) (k : Packet) (f : Build → Build) : State :=
  match Tbl.get none s.chn.build k.src with
  | some b =>
    if b.sweep = k.sweep ∧ b.inc = k.inc then
      (s.onChn fun c => { c with build := Tbl.set none c.build k.src (some (f b)) }).finishBuild k.src
    else s
  | none => s

/-- A packet of a run arrives. -/
def State.runPacket (s : State) (d : Bool) (k : Packet) (dt : Nat) (f : State → State) : State :=
  s.onPacket d k dt fun t => if t.isPithead then f t else t

def execSweepHdr (d : Bool) (k : Packet) (s : State) : Out := .next (s.runPacket d k 0x20 fun t => t.openBuild k)
def execKey (d : Bool) (k : Packet) (s : State) : Out :=
  .next (s.runPacket d k 0x21 fun t => t.extendBuild k fun b => { b with keys := b.keys ++ k.payload })
def execDelta (d : Bool) (k : Packet) (s : State) : Out :=
  .next (s.runPacket d k 0x22 fun t => t.extendBuild k fun b => { b with deltas := b.deltas ++ k.payload })
def execStat (d : Bool) (k : Packet) (s : State) : Out :=
  .next (s.runPacket d k 0x23 fun t => t.extendBuild k fun b => { b with stat := b.stat ++ k.payload })
def execAux (d : Bool) (k : Packet) (s : State) : Out :=
  .next (s.runPacket d k 0x24 fun t => t.extendBuild k fun b => { b with aux := b.aux ++ k.payload })

/-- KEY_REFRESH_REQ at a crew unit (R335). -/
def execKeyRefreshReq (d : Bool) (k : Packet) (s : State) : Out := .next (s.onPacket d k 0x0E fun t => t.keyRefresh (k.at_ 0 1))

/-- EVENT at the pithead (R303, R428): it joins the event queue as its unit raised it. ENG_REMAPPED from a unit in CAPTURE reports a remap
(R223). -/
def execEvent (d : Bool) (k : Packet) (s : State) : Out :=
  .next (s.onPacket d k 0x18 fun t =>
    if t.isPithead then
      let u := (t.enqueueEvent ⟨k.at_ 0 2, [], k.src, k.inc, k.at_ 8 8, some (k.at_ 2 6)⟩).pump
      if k.at_ 0 2 = 0x0A02 ∧ (u.peer k.src).power = stCAPTURE then u.reportRemap else u
    else t)

end Sys2Proof.Machine
end

