-- ==== Sys2Proof/Machine/EngineRun.lean ====
section
/-!
DEFINITION. What a stope program does: instructions by class, loads and stores over the engine's address map, the local registers and the
mailbox (R186 to R192, R204 to R212, R218, "Local registers"). Encodings belong to the Sakonu manual; an operation whose result the manual
does not state is `Config.sakonu` of its operands.
-/
namespace Sys2Proof.Machine

/-! ### Messages to the foreman (R211, R212) -/

/-- The oldest message of the outbox that the foreman has not taken. -/
def Eng.outMessage (g : Eng) : Option (List Nat) :=
  if g.l lclOutboxWr = g.l lclOutboxRd then none else some (memBytes g.mem (outboxBase + 64 * g.l lclOutboxRd) 64)

def messageType (m : List Nat) : Nat := ofLeBytes (m.take 2)

/-- The payload of a message: LEN bytes. -/
def messagePayload (m : List Nat) : List Nat := (m.drop 8).take (min 56 (ofLeBytes ((m.drop 2).take 2)))

/-- The foreman takes the oldest message. -/
def Eng.takeMessage (g : Eng) : Eng := g.setL lclOutboxRd ((g.l lclOutboxRd + 1) % 16)

/-- Messages of other types than READY and LOG go to the foreman's program-message queue as they come to the head. -/
def State.takeProgram : Nat → Nat → State → State
  | 0, _, s => s
  | n + 1, e, s =>
    match (s.engine e).outMessage with
    | none => s
    | some m =>
      if messageType m = 0x8001 ∨ messageType m = 0x8002 then s
      else State.takeProgram n e ((s.setEngine e Eng.takeMessage).onEng fun q => { q with messages := q.messages ++ [(e, m)] })

/-! ### The record port (R206 to R208) -/

/-- The sweep an engine names is open for output by it. -/
def State.openFor (s : State) (e sweep : Nat) : Option OutSweep :=
  s.eng.out.find? fun o => decide (o.engine = e ∧ o.sweep = sweep) && o.opened && !o.sealed && decide (o.starts < s.get ENG_DEADLINE.SWEEPS)

def setPushStatus (g : Eng) (busy : Bool) (result : Nat) : Eng := g.setL lclPushStatus (ofBool busy * 2 ^ 31 + result)

/-- The copy of a push ends: BUSY clears, and a sealed sweep may be released. -/
def State.pushDone (s : State) (e : Nat) : State :=
  let t := s.setEngine e fun g => setPushStatus g false (g.l lclPushStatus % 4)
  (t.onEng fun q => { q with out := q.out.map fun o => if o.engine = e then { o with copying := none } else o }).releaseReady

/-- A push with SEAL 0. -/
def State.push (s : State) (e stream count : Nat) : State :=
  let s := if bit ((s.engine e).l lclPushStatus) 31 then s.pushDone e else s
  let n := (s.engine e).l lclOutSweep
  let refuse := fun (t : State) code => (t.setEngine e fun g => setPushStatus g false code).bump ENG_ERRCNT1.PUSH_REFUSED 1
  if count = 0 ∨ 16384 < count ∨ count % 8 ≠ 0 ∨ 3 < stream then refuse s 3
  else
    match s.openFor e n with
    | none => refuse s 2
    | some o =>
      if s.poolFree < count then
        let t := (refuse s 1).setOut o.stope o.sweep fun q => { q with refused := true, cond := setBit q.cond cdREFUSED true }
        if o.refused then t else t.raise 0x0A07 [o.stope, 1]
      else
        ((s.usesKibble).setOut o.stope o.sweep fun q => { q with
          streams := Tbl.set [] q.streams stream (q.stream stream ++ memBytes (s.engine e).mem windowBase count), copying := some (stream, count)
        }).setEngine e fun g => setPushStatus g true 0

/-- A push with SEAL 1. -/
def State.seal (s : State) (e : Nat) : State :=
  match s.openFor e ((s.engine e).l lclOutSweep) with
  | none => s
  | some o => ((s.setOut o.stope o.sweep fun q => { q with sealed := true }).setEngine e fun g => { g with late := 0 }).releaseReady

/-! ### Local registers -/

/-- LCL_IN_RD (R204). -/
def State.writeInRd (s : State) (e v : Nat) : State :=
  let g := s.engine e
  let rd := g.l lclInRd
  let n := serialDiff 16 v rd
  if n ≤ serialDiff 16 (g.l lclInWr) rd then s.setEngine e fun g => g.setL lclInRd (v % 65536)
  else if serialLater 16 v rd then s.engFault e fRING_PROTO
  else s

def State.writeInboxRd (s : State) (e v : Nat) : State := s.setEngine e fun g => Eng.flushAll s.fwc 16 (g.setL lclInboxRd (v % 16))
def State.postOutbox (s : State) (e v : Nat) : State := State.takeProgram 16 e (s.setEngine e fun g => g.setL lclOutboxWr (v % 16))

/-- A TRAP of the program: the code is logged. -/
def State.trapWith (s : State) (e code : Nat) : State := (s.onEng fun q => { q with log := q.log ++ [(e, s.fwc, [code])] }).engFault e fTRAP

/-- A program's write of a local register; RO registers and reserved offsets take nothing. -/
def State.lclWrite (s : State) (e off v : Nat) : State :=
  let en := bit ((s.engine e).l lclInCfg) 31
  let slots := (s.engine e).slots
  let put := fun w => s.setEngine e fun g => g.setL off w
  if off = 0x00 then (if en ∨ bits v 12 10 % slots ≠ 0 then s else put (bits v 12 10 * 4096))
  else if off = 0x04 then
    let low := if en ∨ bits v 0 4 < 2 ∨ 8 < bits v 0 4 then bits ((s.engine e).l lclInCfg) 0 4 else bits v 0 4
    (put (low + 2 ^ 31 * ofBool (bit v 31))).when (!bit v 31) fun t => t.dropClaims e
  else if off = 0x08 then (if en ∨ bits v 4 18 % slots ≠ 0 then s else put (bits v 4 18 * 16))
  else if off = 0x10 then s.writeInRd e (v % 65536)
  else if off = 0x18 then put (v % 2 ^ 32)
  else if off = 0x1C then (if bit v 31 then s.seal e else s.push e (bits v 16 4) (bits v 0 15))
  else if off = 0x2C then s.writeInboxRd e v
  else if off = 0x30 then s.postOutbox e v
  else if off = 0x38 then put (v % 8)
  else if off = 0x3C then s.setEngine e fun g => { g with timer := if v % 2 ^ 32 = 0 then 0 else 5 * s.fwc + 8 * (v % 2 ^ 32) }
  else if off = 0x40 then s.setEngine e fun g => { g with pet := s.fwc }
  else if off = 0x58 then put (bits v 3 19 * 8)
  else if off = 0x5C then put (bits v 3 20 * 8)
  else if off = 0x60 then s.trapWith e (v % 65536)
  else if off = 0x64 then s.programEvent e v
  else s

/-- Cycles left on LCL_TIMER, and cycles since START. -/
def Eng.timerLeft (g : Eng) (fwc : Nat) : Nat := (g.timer - 5 * fwc + 7) / 8
def Eng.cycles (g : Eng) (fwc : Nat) : Nat := (fwc - g.startAt) * 5 / 8

/-- A program's read of a local register. -/
def State.lclRead (s : State) (e off : Nat) : Nat × State :=
  let g := s.engine e
  let latch := fun k v => (v % 2 ^ 32, s.onEng fun q => { q with latch := Tbl.set 0 q.latch (2 * e + k) (v / 2 ^ 32 % 2 ^ 32) })
  if off = 0x24 then (s.poolFree, s)
  else if off = 0x3C then (g.timerLeft s.fwc, s)
  else if off = 0x44 then latch 0 (g.cycles s.fwc)
  else if off = 0x48 then (Tbl.get 0 s.eng.latch (2 * e), s)
  else if off = 0x4C then latch 1 s.fwc
  else if off = 0x50 then (Tbl.get 0 s.eng.latch (2 * e + 1), s)
  else if off = 0x54 then (g.cause * 2 ^ 28 + e * 2 ^ 16 + (s.stopeOf e).getD 0, s)
  else if off = 0x1C ∨ off = 0x40 ∨ off = 0x60 ∨ off = 0x64 then (0, s)
  else (g.l off, s)

/-! ### The address map (R189) and check bits (R190) -/

/-- Kinds of address: 1 data SRAM, 2 local registers, 3 inbox, 4 outbox, 5 output window, 0 none for a program. -/
def addrKind (a n : Nat) : Nat :=
  let inside := fun lo len => decide (lo ≤ a ∧ a + n ≤ lo + len)
  if inside dsram 0x400000 then 1 else if inside 0x20000000 0x100 then 2 else if inside inboxBase 0x400 then 3
  else if inside outboxBase 0x400 then 4 else if inside windowBase 0x4000 then 5 else 0

/-- The 64-bit words that `n` bytes at `a` touch. -/
def wordsAt (a n : Nat) : List Nat := (List.range ((a % 8 + n + 7) / 8)).map fun i => a / 8 + i

/-- The error in a word: what is noted of it, or what is found now; 1 one bit, 2 two bits. -/
def Eng.wordError (g : Eng) (k err : Nat) : Nat := max (Tbl.get 0 g.bad k) err

/-- The worst error in the words that some bytes touch; `errs` lists what is found now, word by word. -/
def Eng.errorAt (g : Eng) (a n : Nat) (errs : List Nat) : Nat :=
  (List.range (wordsAt a n).length).foldl (fun m i => max m (g.wordError (a / 8 + i) (errs.getD i 0))) 0

/-- A 1-bit error in a word is corrected, written back and counted; a 2-bit error is counted and stays (R190, R191). -/
def Eng.noteWord (g : Eng) (k x : Nat) : Eng :=
  if x = 0 then g
  else if x = 1 then { g with corr := min 65535 (g.corr + 1), bad := Tbl.set 0 g.bad k 0 }
  else { g with uncorr := min 65535 (g.uncorr + 1), bad := Tbl.set 0 g.bad k 2 }

/-- Each word that some bytes touch is checked as they are read. -/
def Eng.noteErrors (g : Eng) (a n : Nat) (errs : List Nat) : Eng :=
  (List.range (wordsAt a n).length).foldl (fun h i => h.noteWord (a / 8 + i) (g.wordError (a / 8 + i) (errs.getD i 0))) g

/-- Bytes stored: words written whole are valid again. -/
def Eng.store (g : Eng) (a : Nat) (bs : List Nat) : Eng :=
  let whole := (List.range (bs.length / 8)).map fun i => a / 8 + i
  { g with mem := memWrite g.mem a bs, bad := if a % 8 = 0 then whole.foldl Tbl.erase g.bad else g.bad }

/-- `k` local registers in a row from an offset, as bytes. -/
def State.lclReads (s : State) (e off : Nat) : Nat → List Nat × State
  | 0 => ([], s)
  | k + 1 =>
    let r := s.lclRead e off
    let t := r.2.lclReads e (off + 4) k
    (leBytes r.1 4 ++ t.1, t.2)

/-- Local registers in a row from an offset are written, as long as the engine runs. -/
def State.lclWrites (s : State) (e off : Nat) : List Nat → State
  | [] => s
  | w :: ws =>
    let t := s.lclWrite e off w
    if (t.engine e).st = 1 then t.lclWrites e (off + 4) ws else t

/-- Bytes cut into words, the last with what is left. -/
def storeWords (l : List Nat) : List Nat := (List.range ((l.length + 3) / 4)).map fun i => ofLeBytes ((l.drop (4 * i)).take 4)

/-- `n` bytes are read by the program at `a`: misaligned ILLEGAL, no such address BUS_ERR, an uncorrectable word ECC_DATA. -/
def State.progRead (s : State) (e a n align : Nat) (errs : List Nat) : Option (List Nat) × State :=
  if a % align ≠ 0 then (none, s.engFault e fILLEGAL)
  else
    match addrKind a n with
    | 0 => (none, s.engFault e fBUS_ERR)
    | 2 =>
      let r := s.lclReads e (a % 256 / 4 * 4) ((n + 3) / 4)
      (some ((r.1.drop (a % 4)).take n), r.2)
    | 1 =>
      let g := s.engine e
      let t := s.setEngine e fun g => g.noteErrors a n errs
      if 2 ≤ g.errorAt a n errs then (none, t.engFault e fECC_DATA) else (some (memBytes g.mem a n), t)
    | _ => (some (memBytes (s.engine e).mem a n), s)

/-- Bytes are written by the program at `a`. A store to local registers writes each with its bytes as a number. -/
def State.progWrite (s : State) (e a align : Nat) (bs : List Nat) : State :=
  if a % align ≠ 0 then s.engFault e fILLEGAL
  else
    match addrKind a bs.length with
    | 0 => s.engFault e fBUS_ERR
    | 3 => s.engFault e fBUS_ERR
    | 2 => s.lclWrites e (a % 256 / 4 * 4) (storeWords bs)
    | _ => s.setEngine e fun g => g.store a bs

/-! ### Issue -/

/-- The next instruction address after `n`: hardware loops whose end it is go round (R187). -/
def nextPc : Nat → List (Nat × Nat × Nat) → Nat × List (Nat × Nat × Nat)
  | n, [] => (n, [])
  | n, (st, en, c) :: rest =>
    if n ≠ en then (n, (st, en, c) :: rest)
    else if 1 < c then (st, (st, en, c - 1) :: rest)
    else nextPc n rest

def Eng.stepPc (g : Eng) : Eng := { g with pc := (nextPc (g.pc + 4) g.loops).1, loops := (nextPc (g.pc + 4) g.loops).2 }

/-- The program of an engine goes on: the engine is RUNNING in a quadrant that runs (R226), and not in WAIT (R188). -/
def State.goesOn (s : State) (e : Nat) : Bool :=
  decide (e < 264 ∧ (s.engine e).st = 1 ∧ (s.engine e).waiting = false) && s.quadrantRuns e

/-- An instruction of a program that goes on: the fetch (R189, R191), its effect, and the next address where it does not fault. `ferr` is the error
found in the 64-bit word fetched. -/
def State.issue (s : State) (e ferr : Nat) (adv : Bool) (body : State → State) : State :=
  let g := s.engine e
  if s.goesOn e then
    if 0x10000 ≤ g.pc then s.engFault e fBUS_ERR
    else if g.pc % 4 ≠ 0 then s.engFault e fILLEGAL
    else
      let u := s.setEngine e fun g => g.noteErrors g.pc 4 [ferr]
      if 2 ≤ g.errorAt g.pc 4 [ferr] then u.engFault e fECC_INSTR
      else
        let t := body u
        if adv ∧ (t.engine e).st = 1 then t.setEngine e Eng.stepPc else t
  else s

/-- Register numbers name registers; others are undefined instructions (ILLEGAL). -/
def State.legal (s : State) (e : Nat) (ok : Bool) (f : State → State) : State := if ok then f s else s.engFault e fILLEGAL

def regsOk (l : List Nat) : Bool := l.all fun r => decide (r < 32)

/-- Results of the scalar ALU: sums, differences and bitwise logic on 32 bits; the rest by `Config.sakonu`. -/
def scalarResult (op : ScalarOp) (a b : Nat) : Nat :=
  match op with
  | .add => (a + b) % 2 ^ 32
  | .sub => (a + 2 ^ 32 - b) % 2 ^ 32
  | .and => a &&& b
  | .or => a ||| b
  | .xor => a ^^^ b
  | .shl => Config.sakonu 1 [a, b]
  | .shr => Config.sakonu 2 [a, b]
  | .sar => Config.sakonu 3 [a, b]
  | .eq => Config.sakonu 4 [a, b]
  | .lt => Config.sakonu 5 [a, b]
  | .ltu => Config.sakonu 6 [a, b]
  | .mul => Config.sakonu 7 [a, b]

def execEngScalarAlu (e ferr : Nat) (op : ScalarOp) (rd rs rt : Nat) (s : State) : Out :=
  .next (s.issue e ferr true fun s => s.legal e (regsOk [rd, rs, rt]) fun s =>
    s.setEngine e fun g => g.setS rd (scalarResult op (g.sreg rs) (g.sreg rt)))

/-- Branch class. A branch is taken where the condition, which the manual does not give, says so; a call leaves the next address in rs; a
loop runs from the next instruction to `target` as often as rs says, at most two deep. -/
def Eng.branch (g : Eng) (op : BranchOp) (rs rt target : Nat) : Eng :=
  match op with
  | .cond k => if Config.sakonu (16 + k) [g.sreg rs, g.sreg rt] % 2 = 1 then { g with pc := target } else g.stepPc
  | .call => { g.setS rs (g.pc + 4) with pc := target }
  | .ret => { g with pc := g.sreg rs }
  | .loop => { g with pc := g.pc + 4, loops := (g.pc + 4, target, g.sreg rs) :: g.loops }

def execEngBranch (e ferr : Nat) (op : BranchOp) (rs rt target : Nat) (s : State) : Out :=
  .next (s.issue e ferr false fun s =>
    s.legal e (regsOk [rs, rt] && decide (target % 4 = 0) && (decide (op ≠ .loop) || decide ((s.engine e).loops.length < 2))) fun s =>
      s.setEngine e fun g => g.branch op rs rt target)

/-- Scalar loads and stores of 1, 2, 4 or 8 bytes, aligned (R187, R189). Eight bytes take a register and the next one; `sx` extends the sign of
a short load. -/
def execEngScalarLoadStore (e ferr : Nat) (load : Bool) (size : Nat) (sx : Bool) (reg base off err : Nat) (s : State) : Out :=
  .next (s.issue e ferr true fun s =>
    s.legal e (regsOk [reg, base] && [1, 2, 4, 8].contains size && (decide (size ≠ 8) || decide (reg < 31))) fun s =>
      let g := s.engine e
      let a := (g.sreg base + off) % 2 ^ 32
      if load then
        let r := s.progRead e a size size [err]
        match r.1 with
        | none => r.2
        | some bs =>
          let v := ofLeBytes bs
          let v := if sx ∧ size < 4 then unsigned 32 (signed (8 * size) v) else v
          let t := r.2.setEngine e fun g => g.setS reg v
          if size = 8 then t.setEngine e fun g => g.setS (reg + 1) (v / 2 ^ 32) else t
      else s.progWrite e a size (leBytes (g.sreg reg) (min 4 size) ++ (if size = 8 then leBytes (g.sreg (reg + 1)) 4 else [])))

/-! ### Control (R188) -/

/-- A wake source selected holds already. -/
def Eng.awake (g : Eng) (fwc : Nat) : Bool :=
  let w := g.l lclWake
  (bit w 0 && decide (g.l lclInWr ≠ g.l lclInRd)) || (bit w 1 && decide (g.l lclInboxWr ≠ g.l lclInboxRd)) || (bit w 2 && decide (g.timer ≤ 5 * fwc))

def execWait (e ferr : Nat) (s : State) : Out :=
  .next (s.issue e ferr true fun s => s.legal e (decide ((s.engine e).l lclWake ≠ 0)) fun s =>
    s.setEngine e fun g => { g with waiting := !g.awake s.fwc, waitAt := s.fwc })

/-- FENCE: loads and stores are in order in this model; the program goes on. -/
def execFence (e ferr : Nat) (s : State) : Out := .next (s.issue e ferr true fun s => s)

def execTrap (e ferr code : Nat) (s : State) : Out := .next (s.issue e ferr true fun s => s.trapWith e code)

/-! ### Vectors (R186, R187) -/

def Eng.vreg (g : Eng) (r : Nat) : Nat := Tbl.get 0 g.v r
def Eng.setV (g : Eng) (r v : Nat) : Eng := { g with v := Tbl.set 0 g.v r (v % 2 ^ 512) }

/-- Lane i of w bits. -/
def lane (v w i : Nat) : Nat := bits v (w * i) w

/-- A vector of lanes of w bits. -/
def ofLanes (w : Nat) (l : List Nat) : Nat := l.foldr (fun x n => x % 2 ^ w + n * 2 ^ w) 0

/-- Bits of a lane: 16 or 32. -/
def laneBits (wide : Bool) : Nat := if wide then 32 else 16

/-- A lane-wise operation: sums and differences wrap; the rest by `Config.sakonu`. -/
def laneResult (op : VectorOp) (w a b c : Nat) : Nat :=
  match op with
  | .add => (a + b) % 2 ^ w
  | .sub => (a + 2 ^ w - b) % 2 ^ w
  | .min => Config.sakonu 32 [w, a, b]
  | .max => Config.sakonu 33 [w, a, b]
  | .compare => Config.sakonu 34 [w, a, b]
  | .select => Config.sakonu 35 [w, a, b, c]
  | .shift => Config.sakonu 36 [w, a, b]
  | .saturate => Config.sakonu 37 [w, a, b]

def execEngVectorAlu (e ferr : Nat) (op : VectorOp) (wide : Bool) (vd va vb vc : Nat) (s : State) : Out :=
  .next (s.issue e ferr true fun s => s.legal e (regsOk [vd, va, vb, vc]) fun s =>
    s.setEngine e fun g =>
      let w := laneBits wide
      g.setV vd (ofLanes w ((List.range (512 / w)).map fun i => laneResult op w (lane (g.vreg va) w i) (lane (g.vreg vb) w i) (lane (g.vreg vc) w i))))

/-- Multiply-accumulate: 32 products of 16 × 16 bits into 48-bit lanes, or 16 of 32 × 16 bits into 64-bit lanes. Which 16-bit lanes the wide form
takes the manual does not say. -/
def execEngVectorMac (e ferr : Nat) (wide sx : Bool) (ad va vb : Nat) (s : State) : Out :=
  .next (s.issue e ferr true fun s => s.legal e (regsOk [va, vb] && decide (ad < 4)) fun s =>
    s.setEngine e fun g =>
      let n := if wide then 16 else 32
      let m := if wide then 64 else 48
      let prod := fun i : Nat =>
        if wide then (Config.sakonu 48 [ofBool sx, i, g.vreg va, g.vreg vb] : Int)
        else if sx then signed 16 (lane (g.vreg va) 16 i) * signed 16 (lane (g.vreg vb) 16 i)
        else (lane (g.vreg va) 16 i * lane (g.vreg vb) 16 i : Nat)
      { g with a := Tbl.setAll 0 (fun k => unsigned m (((Tbl.get 0 g.a k : Nat) : Int) + prod (k % 64))) ((List.range n).map fun i => ad * 64 + i) g.a })

/-- The addresses of the elements of a vector access, and their alignment. -/
def Eng.vaddrs (g : Eng) (mode : VectorMem) (wide : Bool) (a : Nat) : List Nat :=
  let w := laneBits wide
  match mode with
  | .block => [a]
  | .strided k => (List.range (512 / w)).map fun i => (a + i * k) % 2 ^ 32
  | .gather ix => (List.range (512 / w)).map fun i => (a + lane (g.vreg ix) w i) % 2 ^ 32

/-- Bytes of each element. -/
def vsize (mode : VectorMem) (wide : Bool) : Nat :=
  match mode with
  | .block => 64
  | _ => laneBits wide / 8

/-- Bytes read at each address in order; a fault stops it. `errs` lists the errors found in the words touched, in the order they are read. -/
def State.progReads (s : State) (e n : Nat) (errs : List Nat) : List Nat → Option (List Nat) × State
  | [] => (some [], s)
  | a :: as =>
    let r := s.progRead e a n n errs
    match r.1 with
    | none => (none, r.2)
    | some bs =>
      let t := r.2.progReads e n (errs.drop (wordsAt a n).length) as
      (t.1.map fun l => bs ++ l, t.2)

/-- Bytes written at each address in order, until one faults. -/
def State.progWrites (s : State) (e n : Nat) : List Nat → List Nat → State
  | [], _ => s
  | a :: as, bs =>
    let t := s.progWrite e a n (bs.take n)
    if (t.engine e).st = 1 then t.progWrites e n as (bs.drop n) else t

/-- A gather names elements of one 4 KiB block, and only loads. -/
def gatherOk (mode : VectorMem) (load : Bool) (addrs : List Nat) : Bool :=
  match mode with
  | .gather ix => load && decide (ix < 32) && addrs.all fun a => decide (a / 4096 = addrs.headD 0 / 4096)
  | _ => true

def execEngVectorLoadStore (e ferr : Nat) (load : Bool) (mode : VectorMem) (wide : Bool) (vr base off : Nat) (errs : List Nat) (s : State) : Out :=
  .next (s.issue e ferr true fun s =>
    let g := s.engine e
    let addrs := g.vaddrs mode wide ((g.sreg base + off) % 2 ^ 32)
    let n := vsize mode wide
    s.legal e (regsOk [vr, base] && gatherOk mode load addrs) fun s =>
      if load then
        let r := s.progReads e n errs addrs
        match r.1 with
        | none => r.2
        | some bs => r.2.setEngine e fun g => g.setV vr (ofLeBytes bs)
      else s.progWrites e n addrs (leBytes (g.vreg vr) 64))

/-- Permute and reduce: a broadcast fills every lane; a horizontal sum is taken on 32 bits; a shuffle is by `Config.sakonu`. -/
def execEngPermuteReduce (e ferr : Nat) (op : PermOp) (wide sx : Bool) (rd ra rb : Nat) (s : State) : Out :=
  .next (s.issue e ferr true fun s => s.legal e (regsOk [rd, ra, rb]) fun s =>
    s.setEngine e fun g =>
      let w := laneBits wide
      match op with
      | .shuffle => g.setV rd (Config.sakonu 64 [w, g.vreg ra, g.vreg rb])
      | .broadcast => g.setV rd (ofLanes w (List.replicate (512 / w) (g.sreg ra)))
      | .sum => g.setS rd (unsigned 32 ((List.range (512 / w)).foldl (fun z i =>
          z + if sx then signed w (lane (g.vreg ra) w i) else (lane (g.vreg ra) w i : Nat)) (0 : Int))))

/-! ### The program's writes of local registers as commands -/

/-- A program that goes on does something to its local registers. -/
def State.program (s : State) (e : Nat) (f : State → State) : State := if s.goesOn e then f s else s

def execLclInRdWrite (e v : Nat) (s : State) : Out := .next (s.program e fun s => s.writeInRd e (v % 65536))
def execLclPush (e stream count : Nat) (s : State) : Out := .next (s.program e fun s => s.push e stream count)
def execLclPushSeal (e : Nat) (s : State) : Out := .next (s.program e fun s => s.seal e)
def execLclPetWrite (e : Nat) (s : State) : Out := .next (s.program e fun s => s.setEngine e fun g => { g with pet := s.fwc })
def execLclTrapWrite (e code : Nat) (s : State) : Out := .next (s.program e fun s => s.trapWith e (code % 65536))
def execLclEventWrite (e cause : Nat) (s : State) : Out := .next (s.program e fun s => s.programEvent e cause)
def execLclOutboxPost (e v : Nat) (s : State) : Out := .next (s.program e fun s => s.postOutbox e v)
def execLclInboxRdWrite (e v : Nat) (s : State) : Out := .next (s.program e fun s => s.writeInboxRd e v)

/-- LCL_TIMER reaches 0; a WAIT on it ends (R188). -/
def execLclTimerZero (e : Nat) (s : State) : Out :=
  let g := s.engine e
  if g.timer = 0 then .next s
  else
    let t := s.advance ((g.timer + 4) / 5)
    .next (t.setEngine e fun g => { g with timer := 0 }.wake 2 t.fwc)

/-- The copy of a push ends (R206). -/
def execPushCopyDone (e : Nat) (s : State) : Out := .next (if bit ((s.engine e).l lclPushStatus) 31 then s.pushDone e else s)

/-- The foreman takes a READY message (R212). -/
def execEngineReadyMessage (e : Nat) (s : State) : Out :=
  match (s.engine e).outMessage with
  | none => .next s
  | some m =>
    if messageType m = 0x8001 then
      .next (State.takeProgram 16 e ((s.setEngine e Eng.takeMessage).onEng fun q => { q with ready := if q.ready.contains e then q.ready else q.ready ++ [e] }))
    else .next s

/-- The foreman takes a LOG message: its payload enters the log with the freewheel count (R212). -/
def execLogMessage (e : Nat) (s : State) : Out :=
  match (s.engine e).outMessage with
  | none => .next s
  | some m =>
    if messageType m = 0x8002 then
      .next (State.takeProgram 16 e ((s.setEngine e Eng.takeMessage).onEng fun q => { q with log := q.log ++ [(e, s.fwc, messagePayload m)] }))
    else .next s

/-- No LCL_PET for ENG_WD.LIMIT_US µs outside WAIT (R218). -/
def execEngWatchdog (e : Nat) (s : State) : Out :=
  .next (s.program e fun s => (s.advance ((s.engine e).pet + s.get ENG_WD.LIMIT_US * usTicks)).engFault e fWATCHDOG)

/-- The scrubber reads one word of data SRAM (R190), or of instruction memory, which is protected in the same way (R191): an uncorrectable one is
noted, and faults the engine as the program next reads or fetches it. -/
def execScrubRead (e addr err : Nat) (s : State) : Out :=
  if e < 264 ∧ (addrKind addr 8 = 1 ∨ addr + 8 ≤ 0x10000) ∧ addr % 8 = 0 then .next (s.setEngine e fun g => g.noteErrors addr 8 [err])
  else .next s

end Sys2Proof.Machine
end

