-- ==== Sys2Proof/Machine/Program.lean ====
section
/-!
DEFINITION. What the standard program and the survey program of the Kynko kit do with items and messages (R233, R235, R241, R256 to R261), the
foreman's messages, and the publication of an item (R202, R212).
-/
namespace Sys2Proof.Machine

/-! ### Messages (R212, R233) -/

/-- The program's own variables change. -/
def State.setStd (s : State) (e : Nat) (f : Std → Std) : State := s.setEngine e fun g => { g with std := g.std.map f }

/-- What the program makes of a message: MAP_CHANGED is checked at once and kept for the first sweep it names. -/
def State.kitMessage (s : State) (e : Nat) (m : List Nat) : State :=
  let p := messagePayload m
  let sweep := bytesAt m 4 4
  match messageType m with
  | 0x0001 => s.setStd e fun k => { k with refresh := sweep :: k.refresh }
  | 0x0002 =>
    let map := tablesOf (s.engine e).mem
    let ok := mapSound map
    (s.setStd e fun k => { k with next := some (bytesAt p 8 4, ok, map) }).when (!ok) fun t => t.programEvent e evCRC
  | 0x0003 => s.setStd e fun k => { k with stats := sweep :: k.stats }
  | _ => s

/-- The program reads its inbox; the foreman fills it up as slots free. -/
def State.kitPoll (s : State) (e : Nat) : Nat → State
  | 0 => s
  | n + 1 =>
    let g := s.engine e
    let rd := g.l lclInboxRd
    if rd = g.l lclInboxWr then s
    else ((s.kitMessage e (memBytes g.mem (inboxBase + 64 * rd) 64)).writeInboxRd e ((rd + 1) % 16)).kitPoll e n

/-- A program of the kit that runs on a stope's engine takes its messages. -/
def State.kitHears (s : State) (stope : Nat) : State :=
  match s.engineOf stope with
  | none => s
  | some e => if (s.engine e).runsKit then s.kitPoll e (16 + (s.engine e).inbox.length) else s

/-- The foreman's messages to the engine of a stope (R212). -/
def execKeyRefresh (stope : Nat) (s : State) : Out := .next ((s.keyRefresh stope).kitHears stope)
def execMapChanged (stope base len sweep : Nat) (s : State) : Out :=
  .next ((s.toStope stope (message 0x0002 (leBytes base 4 ++ leBytes len 4 ++ leBytes sweep 4) sweep)).kitHears stope)
def execStatReq (stope sweep : Nat) (s : State) : Out := .next ((s.toStope stope (message 0x0003 [] sweep)).kitHears stope)

/-! ### The sweep opens (R232, R233, R235, R257) -/

/-- The map in force may be used in a sweep of a binning code. -/
def Std.usable (k : Std) (bin : Nat) : Bool := k.sound && decide ((mapHeader (tableBytes k.map 0 68)).bin = bin)

/-- The OPEN item of a sweep: a new map comes into use, a change of epoch or a KEY_REFRESH that names the sweep owes a key sweep, an unusable map is
reported. -/
def State.kitOpen (s : State) (e : Nat) (body : List Nat) : State :=
  match (s.engine e).std with
  | none => s
  | some k =>
    let n := bytesAt body 0 4
    let ep := (bytesAt body 4 2, bytesAt body 6 2)
    let fresh := k.next.filter fun m => !serialLater 32 m.1 n
    let k1 := match fresh with
      | some m => { k with map := m.2.2, sound := m.2.1, next := none, owed := true }
      | none => k
    let named := k.refresh.any fun r => !serialLater 32 r n
    let k2 := { k1 with
      owed := k1.owed || named || k.epochs.any fun o => decide (o ≠ ep)
      refresh := k.refresh.filter fun r => serialLater 32 r n
      epochs := some ep, cur := some { opening := body } }
    let t := (s.setStd e fun _ => k2).setEngine e fun g => g.kitWindow s.power
    let t := t.when fresh.isSome fun t => t.programEvent e evAPPLIED
    if k.survey || k2.usable (bytesAt body 11 1) then t else t.programEvent e (if k2.sound then evBIN else evCRC)

/-! ### Records -/

/-- Bytes go out through the window, in pushes of whole records of `size` bytes (R206). -/
def State.kitPush (s : State) (e stream size : Nat) (bytes : List Nat) : State :=
  (cutStream size bytes).foldl (fun t c => (t.setEngine e fun g => { g with mem := memWrite g.mem windowBase c }).push e stream c.length) s

/-- The taps a sweep reads, as its OPEN item lists its passes (R199). -/
def StdSweep.taps (w : StdSweep) : List Nat :=
  let ps := (List.range (min 4 (bytesAt w.opening 13 1))).map fun i => bytesAt w.opening (16 + i) 1 % 2
  [0, 1].filter ps.contains

/-- The emitters that are measured (R236): entry number and entry; the others never get a record. -/
def emittersOf (m : List Host.Cell) : List (Nat × Emitter) :=
  ((List.range (mapHeader (tableBytes m 0 68)).count).map fun n => (n, mapEntry (tableBytes m (mapEntries + 8 * n) 8))).filter fun e => e.2.enabled

/-- X, Y and Z of an emitter in the key store. -/
def keysAt (g : Eng) (n : Nat) : List Nat :=
  let b := memBytes g.mem (dsram + mapKeys + 12 * n) 12
  [bytesAt b 0 4, bytesAt b 4 4, bytesAt b 8 4]

/-- The records of a sweep outside a key sweep (R255, R259): key records, delta records, and the emitters that got one. -/
def changedRecords (g : Eng) (k : Std) (h : MapHeader) (stope : Nat) (l : List (Nat × Measured)) : List Nat × List Nat × List Nat :=
  l.foldl (fun (a : List Nat × List Nat × List Nat) (e : Nat × Measured) =>
    let n := e.1
    let r := e.2
    let key := keysAt g n
    let at_ := fun i => key.getD i 0
    if wantsRecord [r.x, r.y, r.z] key h.dthresh r.flags (Tbl.get 0 k.keyFlags n) (k.before.contains n) then
      match deltaRecord (localIndex stope n) r.flags (deltaOf r.x (at_ 0) h.shx) (deltaOf r.y (at_ 1) h.shy) (deltaOf r.z (at_ 2) h.shz) with
      | some d => (a.1, a.2.1 ++ d, a.2.2 ++ [n])
      | none => (a.1 ++ r.key (localIndex stope n), a.2.1, a.2.2 ++ [n])
    else a) ([], [], [])

/-- The key store takes the X, Y and Z fields sent in a key sweep (R258). -/
def storeKeys (g : Eng) (l : List (Nat × Measured)) : Eng :=
  l.foldl (fun g e =>
    let v := fun n => leBytes (if e.2.nophot then 0 else n) 4
    g.store (dsram + mapKeys + 12 * e.1) (v e.2.x ++ v e.2.y ++ v e.2.z)) g

/-- The stream pushes and the seal of a sweep: the header extension first (R250). -/
def State.kitSend (s : State) (e sweep : Nat) (ext keys deltas stat aux : List Nat) : State :=
  let t := s.setEngine e fun g => g.setL lclOutSweep sweep
  let t := t.kitPush e 3 16 ext
  let t := (((t.kitPush e 0 24 keys).kitPush e 1 8 deltas).kitPush e 2 64 stat).kitPush e 3 32 aux
  t.seal e

/-- The standard program closes a sweep (R235, R256 to R261): its records, or its header only where the map is not usable, in VIDEO, and
where the CLOSE carries a condition without photometry, which defers a scheduled key sweep. -/
def State.kitClose (s : State) (e : Nat) (k : Std) (w : StdSweep) (cond : Nat) : State :=
  let n := bytesAt w.opening 0 4
  let stope := bytesAt w.opening 8 1
  let mode := bytesAt w.opening 10 1
  let h := mapHeader (tableBytes k.map 0 68)
  let usable := k.usable (bytesAt w.opening 11 1)
  let phot := !noPhotometry cond (s.sweepMeas n)
  let due := keySweepDue n (max 1 (bytesAt w.opening 9 1)) stope h.keyLog
  let after := bit cond cdRANGE
  let ext := fun key ref => headerExtension (!usable) key h.version ref (16 * h.shx + h.shy) h.shz
  let closed := fun (k : Std) => { k with cur := none, sweeps := k.sweeps + 1, stats := k.stats.filter fun q => serialLater 32 q n }
  if !usable ∨ mode = 0 then
    (s.setStd e fun _ => closed { k with owed := k.owed || after, before := [] }).kitSend e n (ext false k.keyRef) [] [] [] []
  else if !phot then
    let t := s.setStd e fun _ => closed { k with owed := k.owed || after, deferred := k.deferred || due, before := [] }
    (t.when due fun t => t.programEvent e evDEFERRED).kitSend e n (ext false k.keyRef) [] [] [] []
  else
    let l := (emittersOf k.map).map fun m => (m.1, measure k.map h s.mono mode w.taps w m.2)
    let key := due || k.owed || k.deferred
    let stat := if key || k.stats.contains n then statOf (l.map Prod.snd) else []
    if key then
      let t := (s.setStd e fun _ => closed { k with
        owed := after, deferred := false, keyRef := n, before := l.map Prod.fst
        keyFlags := l.foldl (fun f m => Tbl.set 0 f m.1 m.2.flags) k.keyFlags }).setEngine e fun g => storeKeys g l
      t.kitSend e n (ext true n) (l.flatMap fun m => m.2.key (localIndex stope m.1)) [] stat []
    else
      let r := changedRecords (s.engine e) k h stope l
      (s.setStd e fun _ => closed { k with owed := after, before := r.2.2 }).kitSend e n (ext false k.keyRef) r.1 r.2.1 stat []

/-- The survey program closes a sweep: of each two it reports the second, one blob per bright region (R241). -/
def State.surveyClose (s : State) (e : Nat) (k : Std) (w : StdSweep) : State :=
  let n := bytesAt w.opening 0 4
  let bin := bytesAt w.opening 11 1
  let width := gridWidth bin
  let diff := decide (bytesAt w.opening 10 1 = 3)
  let one := fun tap x y => 8 * wordValue ((lineOf w tap y).getD x 0) - blackAt w tap bin x
  let net := fun x y =>
    (one 0 x y - (if diff then one 1 x y else 0), (w.taps.any fun t => let v := (lineOf w t y).getD x 0; bit v 31 || bit v 30))
  let image := (List.range (width / 4 * 3)).map fun y => (List.range width).map fun x => (net x y).1
  let blobs := if k.sweeps % 2 = 1 then blobStream net width (Config.brightRegions image) else []
  (s.setStd e fun k => { k with cur := none, sweeps := k.sweeps + 1 }).kitSend e n (headerExtension false false 0 0 0 0) [] [] [] blobs

/-- An item as a program of the kit takes it in; it releases the slot and restarts the watchdog. -/
def State.kitItem (s : State) (e : Nat) (it : RingItem) : State :=
  let byte := bytesAt it.tag 1 1
  let tap := byte % 2
  let gains := byte / 2 % 4
  let row := bytesAt it.tag 2 2
  let bytes := (it.words.map fun w => leBytes w 4).flatten
  let keep := fun (f : StdSweep → StdSweep) => s.setStd e fun k => { k with cur := k.cur.map f }
  let t := match bytesAt it.tag 0 1 with
    | 1 => (s.kitPoll e (16 + (s.engine e).inbox.length)).kitOpen e bytes
    | 2 => keep fun w => { w with black := Tbl.set [] w.black tap it.words, gains := Tbl.set 0 w.gains tap gains }
    | 3 => keep fun w => { w with lines := Tbl.set [] w.lines (65536 * tap + row) it.words, gains := Tbl.set 0 w.gains tap gains }
    | 4 =>
      match (s.engine e).std with
      | none => s
      | some k =>
        match k.cur with
        | none => s
        | some w => if k.survey then s.surveyClose e k w else s.kitClose e k w (bytesAt bytes 4 4)
    | _ => s
  t.setEngine e fun g => { g.setL lclInRd (g.l lclInWr) with pet := s.fwc }

/-- A claimed item is written and published, while the engine takes items (R193, R202, R205). -/
def execItemPublish (stope : Nat) (s : State) : Out :=
  match s.engineOf stope with
  | none => .next s
  | some e =>
    match (s.engine e).claimed with
    | [] => .next s
    | it :: _ =>
      .next (s.when (s.engine e).takes fun s =>
        let t := s.setEngine e fun g => g.publish s.fwc
        if (t.engine e).runsKit then t.kitItem e it else t)

end Sys2Proof.Machine
end

