-- ==== Sys2Proof/Machine/Engine.lean ====
section
/-!
DEFINITION. Commands on the stope engines from outside: deadlines, start, halt and clear, the memory window, remaps and quadrants (R209,
R213 to R226).
-/
namespace Sys2Proof.Machine

/-! ### Deadlines (R209) -/

/-- One sweep past its deadline: an unsealed one is sealed, with a strike against its engine; a sealed one that still waits for its request state
is released with NO_REQUEST (R208). -/
def State.pastDeadline (s : State) (o : OutSweep) : State :=
  if o.sealed then s.release o 0 false
  else
    let t := s.sealLate o
    if o.opened && decide (o.engine < 264) then
      let n := (t.engine o.engine).late + 1
      let t := t.setEngine o.engine fun g => { g with late := n }
      if t.get ENG_DEADLINE.STRIKES ≤ n then t.engFault o.engine fLATE else t
    else t

def execSweepDeadline (s : State) : Out :=
  .next ((s.eng.out.filter fun o => decide (s.get ENG_DEADLINE.SWEEPS ≤ o.starts)).foldl
    (fun t o => if (t.findOut o.stope o.sweep).isSome then t.pastDeadline o else t) s)

/-! ### ENG_CMD (R215 to R217) -/

/-- A write of a register whose role depends on the value written: without the session it is an attempt (R11). -/
def State.roleWrite (s : State) (p : Path) (off w : Nat) (r : Role) (effect : State → State) : State :=
  if !s.answers p off || (s.power = stSAFETALK && decide (p ≠ .foreman)) then s
  else if !s.holds p r then s.sbReject p r off w
  else if p = .foreman then effect s
  else if !s.sbRoom then s.bump NVS_ERRCNT1.SB_REFUSED 1
  else effect (((s.sbWrite p r off w).touchSession p r).noteFirstWrite p off)

/-- The engine ENG_SEL names. -/
def State.selEngine (s : State) : Nat := s.get ENG_SEL.ENGINE

/-- A BIST run of an engine is in progress: START and CLEAR for it are ignored (R502). -/
def State.bistOn (s : State) (e : Nat) : Bool :=
  match s.nvs.bist with
  | none => false
  | some b => decide (b.1 = e)

/-- START: a HALTED engine whose quadrant runs, and which holds no staged spotlight lines (R348). -/
def State.startEngine (s : State) (e : Nat) : State :=
  if (s.engine e).st = 0 ∧ (s.engine e).staged = false ∧ s.bistOn e = false ∧ s.quadrantRuns e then (s.startWith e 0).reviewEngines else s
def State.haltEngine (s : State) (e : Nat) : State :=
  if (s.engine e).st = 1 then ((s.dropClaims e).setEngine e fun g => { g with st := 0, stopPc := g.pc, waiting := false }).reviewEngines else s
def State.clearEngine (s : State) (e : Nat) : State :=
  let g := s.engine e
  if g.st = 1 ∨ g.staged ∨ s.bistOn e then s else (s.setEngine e fun g => { g with st := 0, fault := 0, mem := [], bad := [] }).reviewEngines

/-- A write of ENG_CMD. -/
def State.writeEngCmd (s : State) (p : Path) (w : Nat) : State :=
  match w % 4 with
  | 1 => s.roleWrite p 0x0A00C w .installer fun t => t.startEngine t.selEngine
  | 2 => s.roleWrite p 0x0A00C w .installer fun t => t.haltEngine t.selEngine
  | 3 => s.roleWrite p 0x0A00C w .maker fun t => t.clearEngine t.selEngine
  | _ => s

def execEngStart (p : Path) (s : State) : Out := .next (s.writeEngCmd p 1)
def execEngHalt (p : Path) (s : State) : Out := .next (s.writeEngCmd p 2)
def execEngClear (p : Path) (s : State) : Out := .next (s.writeEngCmd p 3)

/-! ### The memory window (R213, R214) -/

/-- An engine's memory takes a host word at an address: all of it while HALTED, the host window of data SRAM otherwise. -/
def Eng.windowTakes (g : Eng) (a : Nat) : Bool :=
  let data := decide (dsram ≤ a ∧ a + 4 ≤ dsram + 0x400000)
  let lo := dsram + g.l lclHwinBase
  if g.st = 0 then data || decide (a + 4 ≤ 0x10000) else data && decide (lo ≤ a ∧ a + 4 ≤ lo + g.l lclHwinSize)

/-- Engines a window write goes to. -/
def State.windowTargets (s : State) (e : Nat) : List Nat :=
  if s.on ENG_BCAST_CTRL.EN then (List.range 264).filter fun i => s.bitOf (ENG_BCAST.MASK (i / 32)) (i % 32) else [e]

/-- One word through the window of some engines; the flag says that one took it. A word not taken is counted, and raised once per
second. -/
def State.windowWriteTo (s : State) (targets : List Nat) (a w : Nat) : State × Bool :=
  targets.foldl (fun (r : State × Bool) i =>
    if (r.1.engine i).windowTakes a then (r.1.setEngine i fun g => g.store a (leBytes w 4), true)
    else
      let t := r.1.bump ENG_ERRCNT1.HWIN_REJECT 1
      let again := match t.eng.rejectAt with
        | none => true
        | some f => decide (f + secTicks ≤ t.fwc)
      (if again then (t.onEng fun q => { q with rejectAt := some t.fwc }).raise 0x0A08 [i, a] else t, r.2)) (s, false)

def State.windowWrite (s : State) (e a w : Nat) : State × Bool := s.windowWriteTo (s.windowTargets e) a w

/-- ENG_MEM_ADDR: sets the address; ENG_MEM_CRC starts anew. -/
def State.effMemAddr (s : State) (p : Path) (w : Nat) : State :=
  if s.mayWrite p ENG_MEM_ADDR.ADDR then ((s.writeFields p 0x0A018 w).toReset ENG_MEM_CRC.CRC).onEng fun q => { q with crc := none } else s

/-- The CRC takes in a word. -/
def State.crcWord (s : State) (w : Nat) : State :=
  let c := crc32Run (s.eng.crc.getD 0xFFFFFFFF) (leBytes w 4)
  (s.onEng fun q => { q with crc := some c }).set ENG_MEM_CRC.CRC (c ^^^ 0xFFFFFFFF)

def State.stepMemAddr (s : State) : State := s.set ENG_MEM_ADDR.ADDR (s.get ENG_MEM_ADDR.ADDR + 4)

/-- ENG_MEM_DATA written. -/
def State.effMemData (s : State) (p : Path) (w : Nat) : State :=
  if s.mayWrite p ENG_MEM_DATA.DATA then
    let r := s.windowWrite s.selEngine (s.get ENG_MEM_ADDR.ADDR) w
    (if r.2 then r.1.crcWord w else r.1).stepMemAddr
  else s

/-- An address lies in the engine's input ring or tag ring. -/
def Eng.inRings (g : Eng) (a : Nat) : Bool :=
  let b := g.slotAddr 0
  let t := g.tagAddr 0
  decide (b ≤ a ∧ a < b + 4096 * g.slots) || decide (t ≤ a ∧ a < t + 16 * g.slots)

/-- The word the window reads: instruction memory of an engine that is not HALTED reads 0, data SRAM that holds
staged spotlight lines reads 0 (R348), the rings read 0 without a maker session. -/
def State.windowWord (s : State) (p : Path) (e a : Nat) : Nat :=
  let g := s.engine e
  if a < 0x10000 then (if g.st = 0 then ofLeBytes (memBytes g.mem a 4) else 0)
  else if addrKind a 4 = 2 then (s.lclRead e (a % 256)).1
  else if g.staged ∧ dsram ≤ a ∧ a < dsram + 0x400000 then 0
  else if g.inRings a ∧ !s.holds p .maker then 0
  else if addrKind a 4 = 0 then 0
  else ofLeBytes (memBytes g.mem a 4)

/-- ENG_MEM_DATA read: the address increments after the access. -/
def State.readMemData (s : State) (p : Path) : State × Nat := (s.stepMemAddr, s.windowWord p s.selEngine (s.get ENG_MEM_ADDR.ADDR))

def execEngMemAddrWrite (p : Path) (w : Word) (s : State) : Out := .next (s.regWrite p 0x0A018 w.toNat fun t => t.effMemAddr p w.toNat)
def execEngMemDataWrite (p : Path) (w : Word) (s : State) : Out := .next (s.regWrite p 0x0A01C w.toNat fun t => t.effMemData p w.toNat)
def execEngMemDataRead (p : Path) (s : State) : Out :=
  if s.answers p 0x0A01C then .next { (s.readMemData p).1 with answer := (s.readMemData p).2 } else .next { s with answer := 0 }

/-! ### Remapping (R219 to R225) -/

/-- The target the foreman chooses: the lowest free spare of the quadrant, then the lowest free engine of any enabled quadrant (R219). -/
def State.chooseTarget (s : State) (old : Nat) : Option Nat :=
  let q := quadrantOf old
  ([256 + 2 * q, 257 + 2 * q] ++ List.range 264).find? fun e => s.freeEngine e && s.quadrantRuns e

/-- A remap begins: the copy is under way. -/
def State.beginRemap (s : State) (x old target : Nat) (fault : Bool) : State :=
  ((((s.set ENG_REMAP_STATUS.BUSY 1).set ENG_REMAP_STATUS.ENGINE target).set ENG_REMAP_STATUS.STOPE x).onEng fun q => { q with
    remap := some ⟨x, old, target, false, [], fault⟩ })

/-- The foreman takes ENG_FAULT and begins the copy (R219, R220 E3): the faulted engine retires. Without a free engine the stope stays unserved
and the recovery is over (R222). -/
def execRemapStart (s : State) : Out :=
  if s.eng.remap.isSome then .next s
  else
    match s.eng.faulted with
    | [] => .next s
    | e :: rest =>
      let s := s.onEng fun q => { q with faulted := rest }
      match s.stopeOf e with
      | none => .next (s.actionDone 0x0A01 e)
      | some x =>
        if (s.engine e).st ≠ 2 then .next (s.actionDone 0x0A01 e)
        else
          match s.chooseTarget e with
          | none => .next (((s.raise 0x0A03 [x]).reviewEngines).actionDone 0x0A01 e)
          | some t => .next (((s.beginRemap x e t true).setEngine e fun g => { g with st := 3 }).reviewEngines)

/-- What the copy of E4 carries: instruction memory and data SRAM outside the rings, the local registers, LCL_TIMER among them, with the ring and
mailbox indices 0. DEDUCED (notes/assumptions/52.md): a word copied over is valid again, one that could not be read is marked so. -/
def copiedEngine (old target : Eng) (bad : List Nat) : Eng :=
  let main := fun (a : Nat) => (decide (a < 0x10000) || decide (dsram ≤ a ∧ a < dsram + 0x400000)) && !old.inRings a
  let z : Eng := { target with
    mem := (old.mem.filter fun c => main c.1).foldl (fun m (c : Host.Cell) => Tbl.set (0 : Byte) m c.1 c.2) (target.mem.filter fun c => !main c.1)
    bad := bad.foldl (fun b a => Tbl.set 0 b (a / 8) 2) (target.bad.filter fun e => !main (8 * e.1))
    lcl := old.lcl, timer := old.timer, staged := old.staged, claimed := [] }
  [lclInWr, lclInRd, lclInboxWr, lclInboxRd, lclOutboxWr, lclOutboxRd].foldl (fun g o => g.setL o 0) z

/-- The copy ends (R220 E4, R221). `bad` lists the addresses of the uncorrectable words it met beside those noted before; an engine that cannot
be read gives the first address and the number of its words. -/
def execRemapCopyDone (bad : List Nat) (s : State) : Out :=
  match s.eng.remap with
  | none => .next s
  | some r =>
    if r.copied then .next s
    else
      let old := s.engine r.old
      let noted := (old.bad.filter fun (e : Nat × Nat) => e.2 = 2 ∧ !old.inRings (8 * e.1)).map fun e => 8 * e.1
      let all := noted ++ bad.filter fun a => !noted.contains a
      let t := if r.old < 264 then s.setEngine r.target fun g => copiedEngine old g all else s
      let t := t.onEng fun q => { q with remap := some { r with copied := true, bad := all } }
      .next (if all.isEmpty then t else t.raise 0x0A04 [r.target, all.foldl min (all.headD 0), all.length])

/-- What becomes of the target at E5: it starts with CAUSE 2 where its quadrant runs (R226), in HOLD as the unit leaves HOLD; after an
uncorrectable word it is left HALTED (R221). -/
def State.startTarget (s : State) (r : Remap) : State :=
  if !r.bad.isEmpty then s.setEngine r.target fun g => { g with st := 0 }
  else if s.power = stHOLD then s.setEngine r.target fun g => { g with st := 0, ran := true, again := 2 }
  else if s.quadrantRuns r.target then s.startWith r.target 2
  else s.setEngine r.target fun g => { g with st := 0 }

/-- The messages the foreman holds for the engine that served a stope go to the one that serves it now (R211). -/
def State.moveHeld (s : State) (r : Remap) : State :=
  let held := if r.old < 264 then (s.engine r.old).inbox else []
  let t := if r.old < 264 then s.setEngine r.old fun g => { g with inbox := [] } else s
  t.setEngine r.target fun g => Eng.flushAll s.fwc 16 { g with inbox := g.inbox ++ held }

/-- E5 of R220: the map names the target, which starts. A remap in CAPTURE is reported to the pithead: by ENG_REMAPPED from a crew unit
(R223). -/
def execRemapComplete (s : State) : Out :=
  match s.eng.remap with
  | none => .next s
  | some r =>
    if !r.copied then .next s
    else
      let t := (s.set (mapField r.stope) r.target).onEng fun q => { q with remap := none, fresh := if r.fault then r.target :: q.fresh else q.fresh }
      let t := (t.set ENG_REMAP_STATUS.BUSY 0).set ENG_REMAP_STATUS.RESULT (if r.bad.isEmpty then 0 else 1)
      let t := (((t.moveHeld r).startTarget r).reviewEngines).raise 0x0A02 [r.stope, r.old, r.target]
      let t := if r.fault then t.actionDone 0x0A01 r.old else t
      .next (if s.power = stCAPTURE ∧ s.isPithead then t.reportRemap else t)

/-- A write of ENG_REMAP with GO 1 (R224): a RUNNING engine is halted, a FAULTED one retires (R216). While a remap is in progress it is not
taken. -/
def State.effRemap (s : State) (p : Path) (w : Nat) : State :=
  if !bit w 31 || !s.mayWrite p ENG_REMAP.GO || s.on ENG_REMAP_STATUS.BUSY then s
  else
    let e := ENG_REMAP.ENGINE.of w
    let x := ENG_REMAP.STOPE.of w
    if s.power = stCAPTURE ∨ s.power = stHOLD then s.set ENG_REMAP_STATUS.RESULT 3
    else if 264 ≤ e ∨ !s.freeEngine e then s.set ENG_REMAP_STATUS.RESULT 2
    else
      let old := (s.engineOf x).getD 0x1FF
      let t := if old < 264 then s.haltEngine old else s
      let t := if old < 264 ∧ (t.engine old).st = 2 then t.setEngine old fun g => { g with st := 3 } else t
      t.beginRemap x old e false

def execEngRemapGo (p : Path) (w : Word) (s : State) : Out := .next (s.regWrite p 0x0A058 w.toNat fun t => t.effRemap p w.toNat)

/-! ### Quadrants (R226) -/

/-- Engines of a quadrant. -/
def enginesOf (q : Nat) : List Nat := (List.range 64).map (fun i => 64 * q + i) ++ [256 + 2 * q, 257 + 2 * q]

/-- A quadrant may not be cleared: an engine of it RUNS, or serves an enabled stope in READY or CAPTURE. -/
def State.quadrantBusy (s : State) (q : Nat) : Bool :=
  (enginesOf q).any fun e => decide ((s.engine e).st = 1) ||
    (decide (s.power = stREADY ∨ s.power = stCAPTURE) &&
      match s.stopeOf e with
      | some x => s.stopeOn x
      | none => false)

/-- One quadrant's bit takes a value; the flag notes a clear refused. -/
def State.writeQen (s : State) (v q : Nat) : State × Bool :=
  let now := s.bitOf ENG_CTRL.QEN q
  if bit v q = now then (s, false)
  else if now then
    if s.quadrantBusy q then (s, true) else ((s.putBit ENG_CTRL.QEN q false).putBit ENG_STATUS.QRUN q false, false)
  else
    let t := s.putBit ENG_CTRL.QEN q true
    if bit s.eng.inited q then (t.putBit ENG_STATUS.QRUN q true, false)
    else (t.onEng fun g => { g with initing := setBit g.initing q true }, false)

/-- A write of ENG_CTRL. -/
def State.effEngCtrl (s : State) (p : Path) (w : Nat) : State :=
  let s := if s.mayWrite p ENG_CTRL.SPARE_AUTO then s.writeField ENG_CTRL.SPARE_AUTO w else s
  if !s.mayWrite p ENG_CTRL.QEN then s
  else
    let v := ENG_CTRL.QEN.of w
    let r := [0, 1, 2, 3].foldl (fun (r : State × Bool) q => ((r.1.writeQen v q).1, r.2 || (r.1.writeQen v q).2)) (s, false)
    (if r.2 then r.1.raise 0x0A09 [v] else r.1).reviewEngines

def execEngQenWrite (p : Path) (w : Word) (s : State) : Out := .next (s.regWrite p 0x0A000 w.toNat fun t => t.effEngCtrl p w.toNat)

/-- The first enable of a quadrant is done: every memory of its 66 engines is 0 with valid check bits, and QRUN shows it. -/
def execQuadrantInitDone (q : Nat) (s : State) : Out :=
  if q < 4 ∧ bit s.eng.initing q then
    let t := (enginesOf q).foldl (fun t e => t.setEngine e fun g => { g with mem := [], bad := [] }) s
    let t := t.onEng fun g => { g with initing := setBit g.initing q false, inited := setBit g.inited q true }
    .next ((t.putBit ENG_STATUS.QRUN q (t.bitOf ENG_CTRL.QEN q)).reviewEngines)
  else .next s

end Sys2Proof.Machine
end

