-- ==== Sys2Proof/Machine/HostRegs.lean ====
section
/-!
DEFINITION. What writes of the host interface's own registers do (ch. 12): ring configuration, doorbells, the watchdog, re-arming, and the MSI-X
table.
-/
namespace Sys2Proof.Machine

/-- REQ_OK and what hangs on it (R436, R141). -/
def State.reviewHost (s : State) : State := (s.reviewReq).reviewMreq

/-! ### Ring configuration (R413, R418) -/

/-- What the unit holds of a ring beside its registers is dropped: reads issued for it, buffers at hand, entries not signalled. -/
def State.dropRing (s : State) (k n : Nat) : State :=
  s.onHst fun h =>
    let h := { h with reads := h.reads.filter fun r => decide (¬ (r.kind = k / 2 ∧ k ≠ 1 ∧ r.ring = n)) }
    if k = 0 then { h with sqFetched := Tbl.erase h.sqFetched n, refetch := h.refetch.filter fun r => decide (¬ (r.kind = 0 ∧ r.ring = n)) }
    else if k = 1 then { h with unsignalled := Tbl.erase h.unsignalled n, firstUnsignalled := Tbl.erase h.firstUnsignalled n }
    else { h with dr := Tbl.erase h.dr n, drReady := Tbl.erase h.drReady n, drStarved := Tbl.erase h.drStarved n
                  refetch := h.refetch.filter fun r => decide (¬ (r.kind = 1 ∧ r.ring = n)) }

/-- The unit goes on with a ring: entries and buffers are fetched. -/
def State.goRing (s : State) (k n : Nat) : State := if k = 0 then s.fetchSq n else if k = 1 then s.fetchAll else (s.fetchBuffer n).pump

/-- EN from 0 to 1: indices 0, phase 1, HALTED 0. -/
def State.enableRing (s : State) (k n : Nat) : State :=
  let t := ((s.dropRing k n).zeros [ringIndex k n, ringDb k n, ringHalted k n, ringCause k n]).set (ringPhase k n) (if k = 0 then 0 else 1)
  (t.onHst fun h => { h with stopping := if k = 0 then h.stopping.filter (· ≠ n) else h.stopping }).goRing k n

/-- The ring stands with CAUSE 4; one halted before for another cause says so too. Off tally 1 nothing runs that could stand (R36). -/
def State.stopRing (s : State) (k n : Nat) : State := s.when s.isPithead fun t => (t.halt k n 4).set (ringCause k n) 4

/-- Commands of a submission ring are in flight or wait. -/
def State.sqBusy (s : State) (n : Nat) : Bool :=
  (s.hst.flight.any fun f => decide (f.desc.sq = n)) || s.hst.held.any fun f => decide (f.2.sq = n)

/-- EN from 1 to 0: fetching and filling stop; a data ring closes its buffer; a submission ring stands once its commands have completed. -/
def State.disableRing (s : State) (k n : Nat) : State :=
  let t := if k = 2 ∧ s.isPithead then s.closeBuffer n false else s
  let t := t.dropRing k n
  if k = 0 ∧ t.sqBusy n then t.onHst fun h => { h with stopping := n :: h.stopping } else t.stopRing k n

/-- The cause of a halt no longer holds. A doorbell that halted its ring was not taken, so CAUSE 3 ends with it. -/
def State.causeOver (s : State) (k n : Nat) : Bool :=
  match s.get (ringCause k n) with
  | 1 => s.on HST_STATUS.BME
  | 5 => !s.on HST_STATUS.D3HOT && s.on HST_STATUS.BME
  | 6 => !s.on (HST_CQ_STATUS.HALTED (s.get (HST_SQ_CFG.CQ n)))
  | _ => true

/-- RESUME. -/
def State.resumeRing (s : State) (k n : Nat) : State :=
  if s.on (ringEn k n) && s.on (ringHalted k n) && s.causeOver k n then ((s.zeros [ringHalted k n, ringCause k n]).goRing k n).pump else s

/-- A write of BASE_HI of a ring whose EN is 0 commits both words of the base (R16, R413). -/
def State.effRingBase (s : State) (p : Path) (k n w : Nat) : State :=
  let t := s.writeFields p (ringOff k n + 4) w
  if s.on (ringEn k n) then t
  else t.onHst fun h => { h with base := Tbl.set 0 h.base (64 * k + n) (t.get (ringHi k n) * 2 ^ 32 + t.get (ringLo k n) * 4096) }

/-- A write of a ring's CFG register: its settings while EN is 0, then EN, then RESUME. -/
def State.effRingCfg (s : State) (p : Path) (k n w : Nat) : State :=
  let off := ringOff k n + 8
  let was := s.on (ringEn k n)
  let t := ((fieldsAt off).filter fun f => decide (f.lo ≠ 31)).foldl (fun t f => t.writeField f w) s
  if !s.mayWrite p (ringEn k n) then s
  else
    let t := t.put (ringEn k n) (bit w 31)
    let t := if bit w 31 && !was then t.enableRing k n else if !bit w 31 && was then t.disableRing k n else t
    if bit w 30 then t.resumeRing k n else t

/-- Row RING_ENABLE: a write of the CFG register of ring n of a kind. -/
def execRingEnable (p : Path) (k : Fin 3) (n : Fin 32) (w : Word) (s : State) : Out :=
  .next (s.regWrite p (ringOff k.val n.val + 8) w.toNat fun t => t.effRingCfg p k.val n.val w.toNat)

/-- The CFG word that resumes a ring and leaves its settings: EN as it is. -/
def State.resumeWord (s : State) (k n : Nat) : Nat := 2 ^ 30 + s.word ((fieldsAt (ringOff k n + 8)).filter fun f => decide (f.lo ≠ 30))

def execRingResume (p : Path) (k : Fin 3) (n : Fin 32) (s : State) : Out :=
  .next (s.regWrite p (ringOff k.val n.val + 8) (s.resumeWord k.val n.val) fun t => t.effRingCfg p k.val n.val (s.resumeWord k.val n.val))

/-! ### Doorbells (R414, R416, R418) -/

/-- A doorbell value is valid: below the size, and for a completion ring not beyond STATUS.TAIL. -/
def State.doorbellFits (s : State) (k n v : Nat) : Bool :=
  let z := s.ringSize k n
  decide (v < z) && (decide (k ≠ 1) ||
    decide ((v + z - s.get (ringDb k n)) % z ≤ (s.get (ringIndex k n) + z - s.get (ringDb k n)) % z))

/-- A doorbell: an enabled ring takes it, or halts with CAUSE 3. One written while the ring is halted is stored. -/
def State.effDoorbell (s : State) (p : Path) (k n w : Nat) : State :=
  let v := w % 65536
  if !s.mayWrite p (ringDb k n) then s
  else if !s.on (ringEn k n) then s.set (ringDb k n) v
  else if s.doorbellFits k n v then (s.set (ringDb k n) v).goRing k n
  else if s.isPithead then s.halt k n 3
  else s

def doorbellOff (k n : Nat) : Nat := (if k = 0 then 0x0E800 else if k = 1 then 0x0E880 else 0x0E900) + 4 * n

def execSqDoorbell (p : Path) (n : Fin 32) (w : Word) (s : State) : Out :=
  .next (s.regWrite p (doorbellOff 0 n.val) w.toNat fun t => t.effDoorbell p 0 n.val w.toNat)
def execCqDoorbell (p : Path) (n : Fin 32) (w : Word) (s : State) : Out :=
  .next (s.regWrite p (doorbellOff 1 n.val) w.toNat fun t => t.effDoorbell p 1 n.val w.toNat)
def execDrDoorbell (p : Path) (n : Fin 16) (w : Word) (s : State) : Out :=
  .next (s.regWrite p (doorbellOff 2 n.val) w.toNat fun t => t.effDoorbell p 2 n.val w.toNat)

/-! ### Watchdog and re-arming (R436) -/

/-- A PET was written within the last HST_WDOG.MS ms, or the watchdog is off: MS is 0, or the unit does not hold tally 1 (R36). -/
def State.petted (s : State) : Bool :=
  !s.isPithead || decide (s.get HST_WDOG.MS = 0) ||
    match s.hst.pet with
    | none => false
    | some t => decide (s.fwc < t + s.get HST_WDOG.MS * msTicks)

/-- The watchdog is looked at: a lapse raises HOST_WDOG_EXPIRED. -/
def State.reviewWdog (s : State) : State :=
  let t := s.put HST_STATUS.WDOG_EXP (!s.petted)
  (if !s.petted && !s.on HST_STATUS.WDOG_EXP then t.raise 0x0E05 [t.fwc] else t).reviewHost

/-- A write of HST_WDOG. -/
def State.effWdog (s : State) (p : Path) (w : Nat) : State :=
  let t := s.writeFields p 0x0E010 w
  (if bit w 0 then t.onHst fun h => { h with pet := some t.fwc } else t).reviewWdog

/-- PET with MS as it stands. -/
def State.petWord (s : State) : Nat := s.get HST_WDOG.MS * 65536 + 1
def execHostWdogPet (p : Path) (s : State) : Out := .next (s.regWrite p 0x0E010 s.petWord fun t => t.effWdog p s.petWord)

/-- HST_WDOG.MS ms without a PET. Off tally 1 the register has no effect (R36). -/
def execHostWdogExpired (s : State) : Out :=
  if s.isPithead && decide (s.get HST_WDOG.MS ≠ 0) && !s.on HST_STATUS.WDOG_EXP then
    .next (match s.hst.pet with
      | some t => (s.advance (t + s.get HST_WDOG.MS * msTicks)).reviewWdog
      | none => s.reviewWdog)
  else .next s

/-- A write of HST_CTRL.REARM. -/
def State.effHstCtrl (s : State) (_p : Path) (w : Nat) : State := if bit w 0 then (s.set HST_STATUS.ARMED 1).reviewHost else s
def execHstRearm (p : Path) (s : State) : Out := .next (s.regWrite p 0x0E008 1 fun t => t.effHstCtrl p 1)

/-! ### The MSI-X structures (R407, R409) -/

/-- A word of the table or of the Pending Bit Array as it reads. -/
def State.readMsix (s : State) (off : Nat) : Nat :=
  if off < 0x0EC00 then bits s.hst.msixPending (8 * (off - 0x0EB00)) 32 else s.msixWord off

/-- A write of the table; a vector unmasked while pending is sent. The Pending Bit Array ignores writes. -/
def State.writeMsix (s : State) (off w : Nat) : State :=
  if off < 0x0EC00 then s
  else
    let ctl := decide (off % 16 = 12)
    let t := s.onHst fun h => { h with msix := Tbl.set (if ctl then 1 else 0) h.msix off (if ctl then w % 2 else w) }
    let v := (off - 0x0EC00) / 16
    if ctl && !bit w 0 && bit t.hst.msixPending v then
      (t.onHst fun h => { h with msixPending := setBit h.msixPending v false }).vector v
    else t

/-! ### Events of R412 and the link -/

/-- Every enabled ring halts with a cause. -/
def State.haltAll (s : State) (cause : Nat) : State :=
  let t := (List.range 32).foldl (fun t n => if t.on (HST_SQ_CFG.EN n) then t.haltRing 0 n cause else t) s
  let t := (List.range 32).foldl (fun t n => if t.on (HST_CQ_CFG.EN n) then t.haltRing 1 n cause else t) t
  (List.range 16).foldl (fun t n => if t.on (HST_DR_CFG.EN n) then t.haltRing 2 n cause else t) t

/-- The identifiers of configuration space by name (R404). -/
inductive CfgId where
  | vendorId
  | deviceId
  | revisionId
  | classCode
  | subsystemVendorId
  | subsystemId
  | deviceSerialNumber
  deriving DecidableEq, Repr

/-- What a configuration read of an identifier returns (R404). The command table has no row for a configuration read. -/
def State.cfgRead (s : State) : CfgId → Nat
  | .vendorId => s.cfg.vendorId
  | .deviceId => s.cfg.deviceId
  | .revisionId => s.cfg.revisionId
  | .classCode => s.cfg.classCode
  | .subsystemVendorId => s.cfg.subsystemVendorId
  | .subsystemId => s.cfg.subsystemId
  | .deviceSerialNumber => s.serial

/-- Registers of the rings and doorbells, which an event of R412 returns to their reset values (R437). -/
def isRingKey (k : Nat) : Bool := decide (0x0E100 ≤ k / 32 ∧ k / 32 < 0x0EB00)

/-- The host interface at an event of R412 (R435 E1 to E3, R437). -/
def State.resetHost (s : State) : State :=
  let h := s.hst
  let t : State := { s with regs := Tbl.keep (fun k => !isRingKey k) s.regs
                            hst := { writes := h.writes, waiting := h.waiting, sent := h.sent, tag := h.tag, pet := h.pet, bar2Denied := h.bar2Denied
                                     eventLost := h.eventLost, bulkIn := h.bulkIn, drLost := h.drLost } }
  ((t.zeros [HST_STATUS.BME, HST_STATUS.D3HOT, HST_STATUS.ARMED]).reviewHost).closePath 0 3

/-- The rest of the unit at an event of R412 (R84, R122, R147, R291, R341, R371): pending values discarded, loops ended, open frames ended, STAGED
stopped, contexts OFF; on the unit holding tally 1 the chain is held as an L3 recovery. -/
def State.resetRest (s : State) : State :=
  let t := ((((s.discardArray).endLoops).stopStaged).endFrames)
  let t := (t.onPipe fun p => { p with ctx := p.ctx.map fun e => (e.1, { e.2 with on := false, pending := none, disable := false }) }).reviewPipe
  if t.isPithead then t.callRecovery 0x0E03 0 3 false false else t

/-- An event of R412 or a Function Level Reset. -/
def State.functionReset (s : State) : State :=
  let t := ((s.resetHost).resetRest)
  t.onHst fun h => { h with flrAt := some t.fwc }

end Sys2Proof.Machine
end

