-- ==== Sys2Proof/Machine/Time.lean ====
section
/-!
DEFINITION. The time unit (ch. 11): rate, steps and slews, holdover, link delay, Sync and Follow_Up, publication and the pulse outputs.
Reported times are whole numbers of 2⁻¹⁶ ns; stamps at the lands are in ticks × 2⁻³.
-/
namespace Sys2Proof.Machine

/-! ### The mapping from count to time (R373, R374, R377) -/

/-- The part of a slew not yet applied (R377). -/
def State.slewLeft (s : State) : Int :=
  match s.tim.slew with
  | none => 0
  | some (r, _) => r - s.slewPart s.fwc

/-- The anchor moves to now: T_A := T(f), f_A := f; a slew goes on from here with what is left of it (R374). -/
def State.reanchor (s : State) : State :=
  s.onTim fun t => { t with anchor := s.timeNow, anchorFwc := s.fwc, slew := t.slew.map fun _ => (s.slewLeft, s.fwc) }

/-- Reported time is moved by a step (R376, R378). -/
def State.shiftTime (s : State) (d : Int) : State := s.onTim fun t => { t with anchor := t.anchor + d }

/-- A slew ends or is cancelled; what it has applied stays (R376 to R378). -/
def State.dropSlew (s : State) : State := (s.reanchor.onTim fun t => { t with slew := none }).set TIM_STATUS.SLEWING 0

/-- The signed 64-bit nanoseconds and the fraction staged for a step, in 2⁻¹⁶ ns. -/
def State.stepDelta (s : State) : Int :=
  signed 64 (s.get TIM_STEP1.NS + s.get TIM_STEP2.NS * 2 ^ 32) * nsUnits + s.get TIM_STEP0.FRAC

/-- TIM_JUMP.US in 2⁻¹⁶ ns. -/
def State.jump (s : State) : Int := (s.get TIM_JUMP.US : Int) * 1000 * nsUnits

/-- TIM_SLEW_REM: the remainder in nanoseconds. -/
def State.slewRem (s : State) : Int := s.slewLeft / nsUnits

/-! ### Pulse outputs (R395 to R399) -/

def State.tpulse (s : State) (n : Nat) : Pulse := Tbl.get {} s.tim.tp n
def State.setTpulse (s : State) (n : Nat) (f : Pulse → Pulse) : State :=
  s.onTim fun t => { t with tp := Tbl.set {} t.tp n (f (Tbl.get {} t.tp n)) }

/-- S_k of an output (R396). -/
def State.edgeTime (s : State) (n k : Nat) : Int :=
  ((Tbl.get 0 s.tim.tpStart n : Nat) : Int) * nsUnits + (k : Int) * (s.get (TIM_TP_PERIOD.NS n) : Int) * nsUnits

/-- The smallest k of an output with S_k at or after a time; none where once mode has no such edge (R396). -/
def State.firstEdge (s : State) (n : Nat) (t : Int) : Option Nat :=
  let s0 := s.edgeTime n 0
  let per : Int := (s.get (TIM_TP_PERIOD.NS n) : Int) * nsUnits
  if t ≤ s0 then some 0
  else if s.on (TIM_TP_CFG.MODE n) && decide (0 < per) then some ((t - s0 + per - 1) / per).toNat
  else none

/-- The edges of an output that a step has carried reported time past do not occur, and each counts (R398). -/
def State.skipEdges (s : State) (n : Nat) : State :=
  match (s.tpulse n).next with
  | none => s
  | some k =>
    if s.edgeTime n k < s.timeNow then
      let nx := s.firstEdge n s.timeNow
      (s.setTpulse n fun p => { p with next := nx }).bump TIM_ERRCNT1.TP_SKIP ((nx.getD (k + 1)) - k)
    else s

def State.skipAll (s : State) : State := [0, 1, 2, 3].foldl State.skipEdges s

/-- STATE is VALID or HOLDOVER and the unit is in IDLE or above (R399). -/
def State.pulsesRun (s : State) : Bool :=
  (decide (s.get TIM_STATUS.STATE = tmVALID) || decide (s.get TIM_STATUS.STATE = tmHOLDOVER)) &&
    decide (stIDLE ≤ s.power ∧ s.power ≤ stHOLD ∧ s.pwr.startup = 0)

/-- TPULSEn as its driver holds it (R399, R467). -/
def State.tpulseLand (s : State) (n : Nat) : Bool :=
  (s.tpulse n).high && s.on (TIM_TP_CFG.EN n) && s.pulsesRun && !(s.on (PLL_STATUS.GATED 1) && s.bitOf SAF_TRIP.LIVE trOSC)

/-- TPULSEn at its land (R545). -/
def State.tpulsePin (s : State) (n : Nat) : Option Bool := s.atLand (s.tpulseLand n)

/-! ### Steps (R376) -/

/-- A step is committed: the first row of R376 that applies. -/
def State.applyStep (s : State) (d : Int) : State :=
  let s := s.dropSlew
  let st := s.get TIM_STATUS.STATE
  let t :=
    if st = tmUNSET ∨ st = tmINVALID then
      ((s.shiftTime d).set TIM_STATUS.STATE tmVALID).raise 0x0401 [unsigned 80 d, s.fwc]
    else if (d.natAbs : Int) ≤ s.jump then (s.shiftTime d).raise 0x0402 [unsigned 80 d]
    else
      (((s.onTim fun t => { t with slew := some (d, s.fwc) }).set TIM_STATUS.STEP_REFUSED 1).set TIM_STATUS.SLEWING 1).raise 0x0403
        [unsigned 80 d, s.get TIM_JUMP.US]
  t.skipAll.reviewTime

/-- A new rate: the anchor moves first (R374). -/
def State.applyRate (s : State) (adj : Nat) : State := s.reanchor.set TIM_RATE.ADJ adj

/-- R379: the writes of others than the foreman are ignored while the foreman disciplines a crew unit. -/
def State.hostIgnored (s : State) (p : Path) : Bool := decide (p ≠ .foreman) && s.on TIM_CTRL.SERVO && !s.isPithead

/-- A host write that disciplines the pithead is noted (R380). -/
def State.noteHost (s : State) (p : Path) : State := if p = .foreman then s else s.onTim fun t => { t with lastHost := some s.fwc }

def State.effTimRate (s : State) (p : Path) (w : Nat) : State :=
  if s.hostIgnored p then s.bump TIM_ERRCNT1.HOST_IGN 1 else ((s.applyRate w).noteHost p).reviewTime

/-- TIM_STEP0 and TIM_STEP1 (R376, R379). -/
def State.effTimStage (s : State) (p : Path) (off w : Nat) : State :=
  if s.hostIgnored p then s.bump TIM_ERRCNT1.HOST_IGN 1 else s.writeFields p off w

def State.effTimStep (s : State) (p : Path) (w : Nat) : State :=
  if s.hostIgnored p then s.bump TIM_ERRCNT1.HOST_IGN 1
  else
    let t := s.set TIM_STEP2.NS w
    (t.noteHost p).applyStep t.stepDelta

/-- The remainder is added at once and the slew ends (R378). -/
def State.effTimAccept (s : State) (p : Path) (w : Nat) : State :=
  if TIM_STEP_CMD.ACCEPT.of w ≠ 1 ∨ !s.mayWrite p TIM_STEP_CMD.ACCEPT then s
  else if s.hostIgnored p then s.bump TIM_ERRCNT1.HOST_IGN 1
  else if s.on TIM_STATUS.SLEWING then
    let r := s.slewLeft
    ((((s.dropSlew).shiftTime r).raise 0x0405 [unsigned 80 r]).skipAll).reviewTime
  else s

/-- A new TIM_SLEW.PPM holds from here on (R377). -/
def State.effTimSlew (s : State) (p : Path) (w : Nat) : State := s.reanchor.writeFields p 0x04038 w

/-- START of a pulse output is committed by its highest word (R16); nothing changes while EN is 1 (R395). -/
def State.effTpStart2 (s : State) (p : Path) (n w : Nat) : State :=
  if s.mayWrite p (TIM_TP_START2.SEC n) && !s.on (TIM_TP_CFG.EN n) then
    let t := s.set (TIM_TP_START2.SEC n) w
    t.onTim fun u => { u with
      tpStart := Tbl.set 0 u.tpStart n ((t.get (TIM_TP_START1.SEC n) + w % 2 ^ 32 * 2 ^ 32) * 1000000000 + t.get (TIM_TP_START0.NS n)) }
  else s

/-- Why EN = 1 is refused, 0 where it is not (R395). -/
def State.tpResult (s : State) (n mode : Nat) : Nat :=
  let w := s.get (TIM_TP_WIDTH.NS n)
  let per := s.get (TIM_TP_PERIOD.NS n)
  if w < 10 then 1 else if mode = 1 ∧ per < 100 then 2 else if mode = 1 ∧ per < 2 * w + 20 then 3 else 0

/-- A write of TIM_TPn_CFG (R395, R396, R399). -/
def State.effTpCfg (s : State) (p : Path) (n w : Nat) : State :=
  if !s.mayWrite p (TIM_TP_CFG.EN n) then s
  else
    let mode := (TIM_TP_CFG.MODE n).of w
    if (TIM_TP_CFG.EN n).of w = 0 then
      ((s.set (TIM_TP_CFG.EN n) 0).set (TIM_TP_CFG.MODE n) mode).setTpulse n fun _ => {}
    else
      let r := s.tpResult n mode
      if r ≠ 0 then s.set (TIM_TP_CFG.RESULT n) r
      else
        let t := ((s.set (TIM_TP_CFG.MODE n) mode).set (TIM_TP_CFG.RESULT n) 0).set (TIM_TP_CFG.EN n) 1
        if s.on (TIM_TP_CFG.EN n) then t
        else
          let nx := t.firstEdge n (t.timeNow + 1000 * nsUnits)
          let t := t.setTpulse n fun q => { q with next := nx }
          if mode = 0 ∧ t.edgeTime n 0 ≤ t.timeNow then t.raise 0x040D [n] else t

def execTimRateWrite (p : Path) (w : Word) (s : State) : Out := .next (s.regWrite p 0x04024 w.toNat fun t => t.effTimRate p w.toNat)
def execTimStepCommit (p : Path) (w : Word) (s : State) : Out := .next (s.regWrite p 0x04030 w.toNat fun t => t.effTimStep p w.toNat)
def execTimStepAccept (p : Path) (w : Word) (s : State) : Out := .next (s.regWrite p 0x04034 w.toNat fun t => t.effTimAccept p w.toNat)
def execTpEnable (p : Path) (n : Fin 4) (w : Word) (s : State) : Out :=
  .next (s.regWrite p (0x04100 + 32 * n.val) w.toNat fun t => t.effTpCfg p n.val w.toNat)

/-- The whole remainder has been applied (R377). -/
def execTimeSlewDone (s : State) : Out :=
  match s.tim.slew with
  | none => .next s
  | some (r, f0) =>
    let ppm := s.get TIM_SLEW.PPM
    let s := s.advance (f0 + (r.natAbs * 1000000 + (32768 * ppm - 1)) / (32768 * ppm))
    .next ((s.dropSlew.raise 0x0404 [s.fwc]).reviewTime)

/-- No host write for HOST_S s (R380). -/
def execHostDisciplineLapse (s : State) : Out :=
  match s.tim.lastHost with
  | none => .next s
  | some t => if s.isPithead then .next (s.advance (t + s.get TIM_HOLD.HOST_S * secTicks)).reviewTime else .next s

/-- Holdover has lasted MAX_S (R381). -/
def execTimeInvalid (s : State) : Out :=
  match s.tim.holdAt with
  | none => .next s
  | some t =>
    if s.get TIM_STATUS.STATE = tmHOLDOVER ∧ s.get TIM_HOLD.MAX_S ≠ 0 then
      let s := s.advance (t + s.get TIM_HOLD.MAX_S * secTicks)
      let h := s.holdSeconds
      .next ((((s.set TIM_STATUS.STATE tmINVALID).onTim fun u => { u with holdAt := none }).raise 0x0408 [h]).endPulses.reviewTime)
    else .next s

/-- Reported time reaches S_k (R396, R397), with COARSE on the next CANARY cycle (R400). -/
def execTpulseRise (n : Fin 4) (s : State) : Out :=
  match (s.tpulse n.val).next with
  | none => .next s
  | some k =>
    let c := (s.countAt (s.edgeTime n.val k)).toNat
    let s := s.advance (if s.coarse then s.fwc + (c - s.fwc + 79) / 80 * 80 else c)
    let nx := if s.on (TIM_TP_CFG.MODE n.val) then some (k + 1) else none
    let wide := s.get TIM_STATUS.STATE = tmHOLDOVER ∨ s.on TIM_STATUS.ORIGIN_HOLD = true
    let w := 2 * s.get (TIM_TP_WIDTH.NS n.val)
    .next (s.setTpulse n.val fun p =>
      if s.pulsesRun then { p with next := nx, high := true, fall := s.fwc + (if wide then 2 * w else w) } else { p with next := nx })

/-- The falling edge (R397). -/
def execTpulseFall (n : Fin 4) (s : State) : Out :=
  if (s.tpulse n.val).high then
    .next ((s.advance (s.tpulse n.val).fall).setTpulse n.val fun p => { p with high := false })
  else .next s

/-! ### Link delay (R383 to R385) -/

def State.delay (s : State) (d : Bool) : DelayX := Tbl.get {} s.tim.delay (px d)
def State.setDelay (s : State) (d : Bool) (f : DelayX → DelayX) : State :=
  s.onTim fun t => { t with delay := Tbl.set {} t.delay (px d) (f (Tbl.get {} t.delay (px d))) }

def dlyOk (d : Bool) : Field := if d then TIM_STATUS.DLY_OK_D else TIM_STATUS.DLY_OK_U

/-- A link delay message to the neighbour: it travels one hop (R384). -/
def State.delayPacket (s : State) (d : Bool) (kind seq turn : Nat) : State :=
  s.sendOn d (s.packet 0x33 1 (s.port d).farTally ([kind, 0] ++ leBytes seq 2 ++ leBytes turn 4 ++ zeroBytes 8))

/-- A port starts an exchange: REQ leaves the land at `t1` (R384). -/
def execDelayExchangeStart (d : Bool) (t1 : Nat) (s : State) : Out :=
  let s := s.advance (t1 / 8)
  if s.portActive d then
    let n := ((s.delay d).seq + 1) % 65536
    .next ((s.setDelay d fun x => { x with seq := n, t1 := some t1, t4 := none }).delayPacket d 0 n 0)
  else .next s

/-- A time message that some OFFSCHED frame brought is neither used nor forwarded: it is counted (R284); else `f` takes it. -/
def State.onSchedule (s : State) (d : Bool) (f : State → State) : State :=
  let late := (s.port d).stamps.headD false
  let t := s.setPort d fun p => { p with stamps := p.stamps.drop 1 }
  if late then t.bump (LNK_ERRCNT1.TIME_DROP (px d)) 1 else f t

/-- What a link delay message meets: one that does not fit its row counts under R301, one that came late under R284. -/
def State.onDelay (s : State) (d : Bool) (k : Packet) (kind : Nat) (f : State → State) : State :=
  if !k.fits 0x33 then s.bump CHN_ERRCNT1.TAG_DROP 1
  else s.onSchedule d fun t => if !t.portActive d || decide (k.at_ 0 1 ≠ kind) then t else f t

/-- A REQ that arrived at `t2` is answered with a RESP that leaves at `t3` and an INFO with TURN = t3 − t2 (R384). -/
def execDelayReq (d : Bool) (k : Packet) (t2 t3 : Nat) (s : State) : Out :=
  let n := k.at_ 2 2
  .next ((s.advance (t2 / 8)).onDelay d k 0 fun s => (s.delayPacket d 1 n 0).delayPacket d 2 n (unsigned 32 ((t3 : Int) - t2)))

/-- A RESP arrives at `t4` (R384). -/
def execDelayResp (d : Bool) (k : Packet) (t4 : Nat) (s : State) : Out :=
  .next ((s.advance (t4 / 8)).onDelay d k 1 fun s =>
    if k.at_ 2 2 = (s.delay d).seq ∧ (s.delay d).t1.isSome then s.setDelay d fun x => { x with t4 := some t4 } else s)

/-- The mean, in ticks × 2⁻³, of delays held in halves of that. -/
def meanOf (l : List Int) : Int := l.foldl (· + ·) 0 / (2 * l.length : Int)

/-- A delay differs from the mean of those accepted by more than 2 ns, 4 ticks (R385). -/
def outlier (l : List Int) (v : Int) : Bool := decide (64 * l.length < (v * (l.length : Int) - l.foldl (· + ·) 0).natAbs)

/-- An exchange gives delay `v`, in halves of ticks × 2⁻³: an outlier is discarded, else it is accepted (R385). -/
def State.takeDelay (s : State) (d : Bool) (v : Int) : State :=
  let x := s.delay d
  if outlier x.last v then
    (s.bump TIM_ERRCNT1.DELAY_OUTLIER 1).raise 0x040C [px d, unsigned 32 (v / 2)]
  else
    let l := (v :: x.last).take 8
    let t := (s.setDelay d fun x => { x with last := l, count := min 8 (x.count + 1) }).set (TIM_DELAY.DELAY (px d)) (unsigned 32 (meanOf l))
    t.put (dlyOk d) (decide (7 ≤ x.count))

/-- TIM_ASYM of a port. -/
def State.asym (s : State) (d : Bool) : Int := signed 16 (if d then s.get TIM_ASYM.ASYM_D else s.get TIM_ASYM.ASYM_U)

/-- An INFO completes the exchange: d = ((t4 − t1) − TURN) ÷ 2 + TIM_ASYM (R384). -/
def execDelayInfo (d : Bool) (k : Packet) (s : State) : Out :=
  .next (s.onDelay d k 2 fun s =>
    match (s.delay d).t1, (s.delay d).t4 with
    | some t1, some t4 =>
      if k.at_ 2 2 = (s.delay d).seq then
        (s.setDelay d fun x => { x with t1 := none, t4 := none }).takeDelay d ((t4 : Int) - t1 - (k.at_ 4 4 : Int) + 2 * s.asym d)
      else s
    | _, _ => s)

/-! ### Sync and Follow_Up (R386 to R391) -/

/-- The big-endian bytes of a number, as the time messages carry them (R386). -/
def netBytes (v n : Nat) : List Nat := (leBytes v n).reverse
def ofNetBytes (l : List Nat) : Nat := ofLeBytes l.reverse
def beAt (l : List Nat) (off n : Nat) : Nat := ofNetBytes ((l.drop off).take n)

/-- Reported time at a stamp in ticks × 2⁻³. -/
def State.timeAt8 (s : State) (t : Nat) : Int := s.timeAt16 (t * 8192)

/-- logMessageInterval of an interval in milliseconds: the integer nearest to log₂ of it in seconds (R387). -/
def logInterval (ms : Nat) : Nat :=
  256 - 10 + ((List.range 9).find? fun k => decide (ms * ms * 524288 < 1000000 * 4 ^ k)).getD 8

/-- The 44 bytes of a message (R387): Follow_Up or Sync, for a port, with a number, a correction and a timestamp. -/
def State.ptpMessage (s : State) (follow : Bool) (port seq corr : Nat) (t : Int) : List Nat :=
  let good := decide (s.get TIM_STATUS.STATE = tmVALID) && !s.on TIM_STATUS.SLEWING
  [if follow then 0x08 else 0x00, 0x12] ++ netBytes 44 2 ++ [s.get TIM_SYNC.DOMAIN, 0, if follow then 0 else 2,
    8 * s.get TIM_SYNC.PTP_TS + (if good then 0x30 else 0)] ++ netBytes corr 8 ++ zeroBytes 4 ++ netBytes s.serial 8 ++
    netBytes (if port = 1 then 1 else 2) 2 ++ netBytes seq 2 ++ [if follow then 2 else 0, logInterval (s.get TIM_SYNC.INTERVAL_MS)] ++
    netBytes (timeSec t % 2 ^ 48) 6 ++ netBytes (timeNs t) 4

/-- The pithead sends Sync and Follow_Up: STATE VALID or HOLDOVER, TIM_SYNC.EN 1 (R386). -/
def State.sendsSync (s : State) : Bool :=
  s.isPithead && s.on TIM_SYNC.EN && (decide (s.get TIM_STATUS.STATE = tmVALID) || decide (s.get TIM_STATUS.STATE = tmHOLDOVER))

/-- A Sync leaves by each port of R296, at `u` from port U and at `v` from port D. -/
def execSyncSend (u v : Nat) (s : State) : Out :=
  let s := s.advance (max u v / 8)
  if s.sendsSync then
    let n := s.tim.syncSeq
    let ports := s.portsTo 63
    let t := ports.foldl (fun t d => t.sendOn d (s.packet 0x30 1 63 (s.ptpMessage false (px d) n 0 s.timeNow))) s
    .next (t.onTim fun x => { x with syncSeq := (n + 1) % 65536, syncOut := ports.map fun d => (px d, if d then v else u) })
  else .next s

/-- The Follow_Up of the last Sync, on each port with that port's departure time (R386, R387). -/
def execFollowUpSend (s : State) : Out :=
  let n := (s.tim.syncSeq + 65535) % 65536
  let t := s.tim.syncOut.foldl (fun t o =>
    let at_ := s.timeAt8 o.2
    t.sendOn (decide (o.1 = 1)) (s.packet 0x31 1 63 (s.ptpMessage true o.1 n (timeFrac at_) at_))) s
  .next (t.onTim fun x => { x with syncOut := [] })

/-- The first check of R387 that a message fails: 1 type, 2 version, 3 length, 4 domain, 5 pithead. -/
def State.messageFails (s : State) (follow : Bool) (m : List Nat) : Option Nat :=
  if beAt m 0 1 % 16 ≠ (if follow then 8 else 0) then some 1
  else if beAt m 1 1 % 16 ≠ 2 then some 2
  else if beAt m 2 2 ≠ 44 ∨ m.length ≠ 44 then some 3
  else if beAt m 4 1 ≠ s.get TIM_SYNC.DOMAIN then some 4
  else if beAt m 20 8 ≠ s.chn.pitheadSerial then some 5
  else none

/-- `n` messages, Sync or Follow_Up, are dropped: counted, and raised at most once per second with the failing check (R388). -/
def State.dropSync (s : State) (check n : Nat) : State :=
  let t := s.bump TIM_ERRCNT0.SYNC_DROP n
  let again := match s.tim.lastDrop with
    | none => true
    | some f => decide (f + secTicks ≤ s.fwc)
  if again then (t.onTim fun x => { x with lastDrop := some s.fwc }).raise 0x040B [check] else t

/-- What a time message that arrives meets first: R301, then R284; a Sync or Follow_Up that falls under R284 is counted under R388 too. -/
def State.onTime (s : State) (d : Bool) (k : Packet) (dt : Nat) (f : State → State) : State :=
  if !k.fits dt then s.bump CHN_ERRCNT1.TAG_DROP 1
  else
    let t := s.onSchedule d fun t => if t.isPithead then t else f t
    if (s.port d).stamps.headD false && s.isCrew && decide (dt ≠ 0x32) then t.dropSync 10 1 else t

/-- A Sync that still waits for its Follow_Up is dropped (R388). -/
def State.dropWaiting (s : State) : State :=
  if s.tim.sync.isSome then (s.onTim fun x => { x with sync := none }).dropSync 6 1 else s

/-- A Sync arrives at `t`: it passes on unaltered, and a crew unit keeps its stamp for the Follow_Up (R388, R389). -/
def execSync (d : Bool) (k : Packet) (t : Nat) (s : State) : Out :=
  .next ((s.advance (t / 8)).onTime d k 0x30 fun s =>
    let s := s.relay d k
    if s.isCrew then
      let s := s.dropWaiting
      match s.messageFails false k.payload with
      | some c => s.dropSync c 1
      | none => s.onTim fun x => { x with sync := some (px d, beAt k.payload 30 2, t) }
    else s)

/-- The correction a Follow_Up carries after this unit's ingress, in 2⁻¹⁶ ns (R389). -/
def State.ingress (s : State) (d : Bool) (m : List Nat) : Int :=
  signed 64 (beAt m 8 8) + signed 32 (s.get (TIM_DELAY.DELAY (px d))) * 4096

/-- The Follow_Up as it is passed on: the link delay and the residence of the path are added (R389). -/
def State.forwardFollow (s : State) (d : Bool) (k : Packet) : State :=
  if s.on (dlyOk d) then
    let res : Int := (if d then s.get LNK_RES_DU.RES else s.get LNK_RES_UD.RES : Nat)
    let c := s.ingress d k.payload + res * 4096
    s.relay d { k with payload := k.payload.take 8 ++ netBytes (unsigned 64 c) 8 ++ k.payload.drop 16 }
  else s

/-- The foreman's correction for an offset error `e` (R390). -/
def State.servo (s : State) (e : Int) : State :=
  let iv : Int := (s.get TIM_SYNC.INTERVAL_MS : Int) * 1000000
  let adj := signed 32 (s.get TIM_RATE.ADJ) + e * 2 ^ (40 - s.get TIM_SERVO.KI) / (nsUnits * iv)
  let rate := fun (t : State) => t.applyRate (unsigned 32 (clampInt (-2147483648) 2147483647 adj))
  let step := fun (t : State) (x : Int) =>
    (((t.set TIM_STEP0.FRAC (unsigned 16 x)).set TIM_STEP1.NS (unsigned 32 (x / nsUnits))).set TIM_STEP2.NS
      (unsigned 32 (x / nsUnits / 4294967296))).applyStep x
  if s.on TIM_STATUS.SLEWING then rate s
  else if s.jump < (e.natAbs : Int) then step s e
  else step (rate s) (e / 2 ^ s.get TIM_SERVO.KP)

/-- CHAIN_OK after a pair with offset error `e` (R391). -/
def State.judgePair (s : State) (e : Int) : State :=
  let good := decide ((e.natAbs : Int) ≤ (s.get TIM_SERVO.LOCK_NS : Int) * nsUnits)
  let n := if good then min 8 (s.tim.goodPairs + 1) else 0
  let t := s.onTim fun x => { x with goodPairs := n, pairAt := s.fwc }
  if s.on TIM_STATUS.CHAIN_OK then
    (if s.jump < (e.natAbs : Int) then (t.set TIM_STATUS.CHAIN_OK 0).raise 0x040A [2, s.fwc] else t)
  else if n = 8 then (t.set TIM_STATUS.CHAIN_OK 1).raise 0x0409 [unsigned 64 e]
  else t

/-- The first check of R388 that a pair fails: 6 no Sync to pair with, 7 500 µs passed, 8 not newer, 9 delay not valid. -/
def State.pairFails (s : State) (d : Bool) (m : List Nat) (t : Nat) : Option Nat :=
  match s.tim.sync with
  | none => some 6
  | some (x, n, t0) =>
    if x ≠ px d ∨ n ≠ beAt m 30 2 then some 6
    else if t0 + 8 * 500 * usTicks < t then some 7
    else if (match s.tim.lastSeq with | some q => !serialLater 16 n q | none => false) then some 8
    else if !s.on (dlyOk d) then some 9
    else none

/-- A pair is used (R390, R391). -/
def State.usePair (s : State) (d : Bool) (m : List Nat) : State :=
  match s.tim.sync with
  | none => s
  | some (_, n, t0) =>
    let chain : Int := (beAt m 34 6 : Int) * secUnits + (beAt m 40 4 : Int) * nsUnits + s.ingress d m
    let e := chain - s.timeAt8 t0
    let t := (s.onTim fun x => { x with sync := none, lastSeq := some n }).set TIM_OFS_ERR.E
      (unsigned 32 (clampInt (-2147483648) 2147483647 (e / 4096)))
    let t := if t.on TIM_CTRL.SERVO then t.servo e else t
    (t.judgePair e).reviewTime

/-- A Follow_Up arrives at `t` (R387 to R391). With a pair that is not used both its messages are dropped. -/
def execFollowUp (d : Bool) (k : Packet) (t : Nat) (s : State) : Out :=
  .next ((s.advance (t / 8)).onTime d k 0x31 fun s =>
    let s := s.forwardFollow d k
    if s.isCrew then
      match s.messageFails true k.payload with
      | some c => s.dropSync c 1
      | none =>
        let s := s.put TIM_STATUS.ORIGIN_HOLD (!bit (beAt k.payload 7 1) 4)
        match s.pairFails d k.payload t with
        | some c => if c = 6 then s.dropSync 6 1 else (s.onTim fun x => { x with sync := none }).dropSync c 2
        | none => s.usePair d k.payload
    else s)

/-- SYNC_LOSS intervals have passed without a pair used (R391). -/
def execChainTimeLost (s : State) : Out :=
  if !s.isPithead && s.on TIM_STATUS.CHAIN_OK then
    let s := s.advance (s.tim.pairAt + s.get TIM_HOLD.SYNC_LOSS * s.get TIM_SYNC.INTERVAL_MS * msTicks)
    .next ((((s.set TIM_STATUS.CHAIN_OK 0).onTim fun x => { x with goodPairs := 0 }).raise 0x040A [1, s.fwc]).reviewTime)
  else .next s

/-! ### Publication (R393, R394) -/

/-- A stretch of ticks × 2⁻¹⁶ in 2⁻¹⁶ ns of reported time. -/
def State.timeSpan (s : State) (p : Nat) : Int := 
  (p : Int) * (1099511627776 + signed 32 (s.get TIM_RATE.ADJ)) / 2199023255552

/-- The 32-byte payload of PUBLISH (R393). -/
def pubPayload (mains : Bool) (flags : Nat) (b : Pub) : List Nat :=
  [ofBool mains, flags, 0, 0] ++ leBytes b.frame 4 ++ leBytes (timeSec b.epoch % 2 ^ 48) 6 ++ leBytes (timeNs b.epoch) 4 ++
    leBytes (timeFrac b.epoch) 2 ++ leBytes b.period 6 ++ zeroBytes 6

/-- The publication a payload carries. -/
def readPub (l : List Nat) (fwc : Nat) : Pub :=
  { epoch := (bytesAt l 8 6 : Int) * secUnits + (bytesAt l 14 4 : Int) * nsUnits + bytesAt l 18 2
    period := bytesAt l 20 6, frame := bytesAt l 4 4, arrived := fwc }

/-- A unit takes a publication; the first for the scan since it joined gives the sweep number its origin, and a tracker that waits for
one takes P and p from it (R90, R98, R563). -/
def State.takePub (s : State) (mains : Bool) (b : Pub) : State :=
  let t := s.onTim fun x => { x with pubs := Tbl.set none x.pubs (ofBool mains) (some b) }
  let t := if mains then t else t.onCad fun c => { c with published := true }
  let k := t.trk mains
  if t.trkSrc mains = (if mains then 4 else 2) ∧ k.st = 1 ∧ k.p.isNone then t.netStart mains else t

/-- A committed word of TIM_PUB_W0 to W5 by kind (R16, R394). -/
def State.pubWord (s : State) (mains : Bool) (i : Nat) : Nat := Tbl.get 0 s.tim.pubC (8 * ofBool mains + i)

/-- What the pithead publishes now (R394), with the FLAGS byte. -/
def State.publication (s : State) (mains : Bool) : Option (Nat × Pub) :=
  let from_ := if mains then s.get TIM_PUB_CTRL.MAINS_FROM else s.get TIM_PUB_CTRL.SCAN_FROM
  if from_ = 1 then
    let k := s.trk mains
    match k.p, k.per with
    | some p, some per =>
      if k.st = 2 ∨ k.st = 3 then
        let start := if !mains then s.cad.startAt else if p ≤ s.fwc * sub then p else k.last.getD (p - per)
        some ((if k.st = 3 then 2 else 0),
          { epoch := s.timeAt16 start, period := (s.timeSpan per).toNat, frame := if mains then 0 else s.cad.wall, arrived := s.fwc })
      else none
    | _, _ => none
  else if from_ = 2 then
    if s.get TIM_STATUS.STATE = tmVALID ∧ s.on TIM_STATUS.SLEWING = false then
      let w2 := s.pubWord mains 2
      let e : Int := ((s.pubWord mains 1 + w2 % 65536 * 2 ^ 32 : Nat) : Int) * secUnits + (s.pubWord mains 0 : Int) * nsUnits + (w2 / 65536 : Nat)
      let per : Nat := s.pubWord mains 3 + s.pubWord mains 4 % 65536 * 2 ^ 32
      if per = 0 ∨ s.timeNow < e then none
      else
        let n := (s.timeNow - e) / (per : Int)
        some (1, { epoch := e + n * (per : Int), period := per,
                   frame := if mains then 0 else unsigned 32 ((s.pubWord mains 5 : Int) + n), arrived := s.fwc })
    else none
  else none

/-- The pithead broadcasts PUBLISH after a frame start it publishes, and takes it itself (R393, R98). -/
def execPublishSend (mains : Bool) (s : State) : Out :=
  if s.isPithead then
    match s.publication mains with
    | none => .next s
    | some (flags, b) => .next ((s.sendCtl 0x32 1 63 (pubPayload mains flags b)).takePub mains b)
  else .next s

/-- A publication arrives (R394). -/
def execPublish (d : Bool) (k : Packet) (s : State) : Out :=
  .next (s.onTime d k 0x32 fun s =>
    let s := s.relay d k
    if s.isCrew then s.takePub (decide (k.at_ 0 1 = 1)) (readPub k.payload s.fwc) else s)

/-- A write of TIM_PUB_W0 to W5 stages a word of the kind selected; W5 commits all (R16). -/
def State.effPubWord (s : State) (p : Path) (i w : Nat) : State :=
  if s.mayWrite p TIM_PUB_W0.EP_NS then
    let k := 8 * s.get TIM_PUB_SEL.KIND
    let t := s.onTim fun x => { x with pubW := Tbl.set 0 x.pubW (k + i) (if i = 4 then w % 65536 else w) }
    if i = 5 then
      t.onTim fun x => { x with pubC := Tbl.setAll 0 (fun n => Tbl.get 0 x.pubW n) ((List.range 6).map (k + ·)) x.pubC }
    else t
  else s

end Sys2Proof.Machine
end

