-- ==== Sys2Proof/Machine/LaneOps.lean ====
section
/-!
DEFINITION. The Cegon lane coding and link frames (R265 to R268, R272, R279, R281, R299, R300, R566, R567) as pure functions: keystream, block
composition, block reading, training words, frame words and packet bytes.
-/
namespace Sys2Proof.Machine

/-! ### Keystream (R267): polynomial x⁵⁸ + x³⁹ + 1 -/

/-- One bit: the new bit enters at position 0 of the 58. -/
def keyNext (k : Nat) : Bool := bit k 38 != bit k 57
def keyStep (k : Nat) : Nat := (k * 2 + ofBool (keyNext k)) % 2 ^ 58

/-- 32 bits, the first at bit 0 of the word. -/
def keyWordFrom : Nat → Nat → Nat → Nat → Nat × Nat
  | 0, _, k, w => (w, k)
  | n + 1, i, k, w => keyWordFrom n (i + 1) (keyStep k) (w + ofBool (keyNext k) * 2 ^ i)
def keyWord (k : Nat) : Nat × Nat := keyWordFrom 32 0 k 0

/-- The keystream words of `n` slots, and the generator's state after them. -/
def keyWords : Nat → Nat → List Nat × Nat
  | 0, k => ([], k)
  | n + 1, k =>
    let a := keyWord k
    let r := keyWords n a.2
    (a.1 :: r.1, r.2)

/-- M_k (R267). -/
def maskM (k : Nat) : Nat := if k = 0 then 0 else if k = 1 then 0x55555555 else if k = 2 then 0x33333333 else 0x0F0F0F0F

/-! ### Blocks (R265 to R268, R566) -/

def syncWord : Nat := 0xBC4E5
def stuffWord : Nat := 0xA55A5AA5

/-- CHK over bits [31:24] of a header (R566). -/
def headerChk (k pos : Nat) : Nat := crcBitsL 4 3 8 0 (k * 64 + pos)

def blockHeaderWord (k pos : Nat) : Nat := k * 2 ^ 30 + pos * 2 ^ 24 + headerChk k pos * 2 ^ 20 + syncWord

/-- A block with KEY_SEL k and the stuff word at slot p: payload fills the slots in rising order, the stuff slot skipped. -/
def composeBlock (payload keys : List Nat) (k p : Nat) : List Nat :=
  blockHeaderWord k p :: (List.range 63).map fun j =>
    let i := j + 1
    if i = p then stuffWord else (payload.getD (if i < p then j else j - 1) 0 ^^^ keys.getD i 0) ^^^ maskM k

/-- The run of equal bits at the end of some bits: its value and length, with one more bit. -/
def runStep (r : Nat × Nat) (b : Nat) : Nat × Nat := if r.2 ≠ 0 ∧ r.1 = b then (b, r.2 + 1) else (b, 1)

/-- The run after `n` bits of a word from bit `i`, and whether it reached 32 within it. -/
def runWord : Nat → Nat → (Nat × Nat) × Bool → Nat → (Nat × Nat) × Bool
  | 0, _, r, _ => r
  | n + 1, i, r, w =>
    let q := runStep r.1 (ofBool (bit w i))
    runWord n (i + 1) (q, r.2 || decide (32 ≤ q.2)) w

/-- The first slot that holds the 32nd bit of a run, from slot `i` on; and the run at the end. -/
def runSlots : List Nat → Nat → Nat × Nat → Option Nat × (Nat × Nat)
  | [], _, r => (none, r)
  | w :: ws, i, r =>
    let a := runWord 32 0 (r, false) w
    let t := runSlots ws (i + 1) a.1
    (if a.2 then some i else t.1, t.2)

/-- R268: the block sent, and whether no composition met the run limit. A run that ends in the header leaves the stuff word at slot 63. -/
def composeRun (payload keys : List Nat) (run : Nat × Nat) : Nat → Nat → List Nat × Bool
  | 0, k =>
    let b := composeBlock payload keys k 63
    (b, (runSlots b 0 run).1.isSome)
  | n + 1, k =>
    let b := composeBlock payload keys k 63
    match (runSlots b 0 run).1 with
    | none => (b, false)
    | some q =>
      let b2 := composeBlock payload keys k (if q = 0 then 63 else q)
      match (runSlots b2 0 run).1 with
      | none => (b2, false)
      | some _ => if n = 0 then (b2, true) else composeRun payload keys run n (k + 1)

/-- The payload words of a block received with a good header (R265, R267). -/
def readBlock (words keys : List Nat) : List Nat :=
  let h := words.getD 0 0
  let p := bits h 24 6
  ((List.range 63).filter fun j => decide (j + 1 ≠ p)).map fun j => (words.getD (j + 1) 0 ^^^ keys.getD (j + 1) 0) ^^^ maskM (bits h 30 2)

/-- SYNC stands in a word; its header passes CHK and names a stuff slot (R266, R270). -/
def hasSync (w : Nat) : Bool := decide (w % 2 ^ 20 = syncWord)
def headerGood (w : Nat) : Bool := decide (bits w 20 4 = headerChk (bits w 30 2) (bits w 24 6) ∧ bits w 24 6 ≠ 0)

/-! ### Pre-emphasis (R275) -/

/-- C_PRE and C_POST that R275 accepts. -/
def tapsGood (t : Nat × Nat) : Bool := decide (t.1 ≤ 6 ∧ t.2 ≤ 12 ∧ t.1 + t.2 ≤ 16)

/-- The presets P0 to P7. -/
def presetTaps (k : Nat) : Nat × Nat := [(0, 0), (0, 4), (0, 8), (0, 12), (2, 0), (2, 4), (2, 8), (4, 6)].getD k (0, 4)

/-- The taps one step on: 8 C_PRE up, 9 down, 10 C_POST up, 11 down; none where R275 refuses them. -/
def stepTaps (ask : Nat) (t : Nat × Nat) : Option (Nat × Nat) :=
  let n := if ask = 8 then (t.1 + 1, t.2) else if ask = 9 then (t.1 - 1, t.2) else if ask = 10 then (t.1, t.2 + 1) else (t.1, t.2 - 1)
  if n = t ∨ !tapsGood n then none else some n

/-- What a stage asks for, by the numbers of `presetTaps` and `stepTaps`; 12 for nothing more. -/
def LaneEq.ask (e : LaneEq) : Nat :=
  if e.stage < 8 then e.stage
  else if e.stage = 8 then e.best
  else if e.stage < 13 then (if e.undo then [9, 8, 11, 10].getD (e.stage - 9) 12 else e.stage - 1)
  else 12

/-- A step the far end would refuse is not asked for: the next stage is taken. -/
def LaneEq.skip : Nat → LaneEq → LaneEq
  | 0, e => e
  | n + 1, e =>
    if 9 ≤ e.stage ∧ e.stage < 13 ∧ !e.undo ∧ (stepTaps e.ask (e.pre, e.post)).isNone then LaneEq.skip n { e with stage := e.stage + 1 } else e

/-- The far end has answered the request, and the margin measured has a figure: presets in turn, the best of them, then each tap a step at a time
while the margin grows, a step that did not help being taken back (R275). -/
def LaneEq.answered (e : LaneEq) (fig : Nat) : LaneEq :=
  let e := { e with last := fig, number := e.number + 1 }
  if e.stage < 8 then
    let e := if e.stage = 0 ∨ e.margin < fig then { e with best := e.stage, margin := fig } else e
    { e with stage := e.stage + 1 }
  else if e.stage = 8 then ({ e with pre := (presetTaps e.best).1, post := (presetTaps e.best).2, margin := fig, stage := 9 } : LaneEq).skip 4
  else if 13 ≤ e.stage then e
  else
    let t := (stepTaps e.ask (e.pre, e.post)).getD (e.pre, e.post)
    let e' := { e with pre := t.1, post := t.2 }
    if e.undo then ({ e' with undo := false, stage := e.stage + 1 } : LaneEq).skip 4
    else if e.margin < fig then ({ e' with margin := fig } : LaneEq).skip 4
    else { e' with undo := true }

/-! ### Words and bytes -/

def wordsOf : List Nat → List Nat
  | a :: b :: c :: d :: t => ofLeBytes [a, b, c, d] :: wordsOf t
  | [] => []
  | l => [ofLeBytes l]
def bytesOfWords (l : List Nat) : List Nat := l.flatMap fun w => leBytes w 4

/-! ### Link frames (R279, R281) -/

/-- The packet bytes one frame holds at a width. -/
def frameRoom (n : Nat) : Nat := 4 * (62 * n - 3)

/-- The words of a frame at width `n`: header, control word, packet bytes, CRC. -/
def frameWords (n hdr ctrl : Nat) (bytes : List Nat) : List Nat :=
  let body := [hdr, ctrl] ++ wordsOf ((bytes ++ zeroBytes (frameRoom n)).take (frameRoom n))
  body ++ [crc32 (bytesOfWords body)]

def frameHeader (seq ack : Nat) (nak offsched : Bool) (ftype : Nat) : Nat :=
  seq * 2 ^ 20 + ack * 2 ^ 8 + ofBool nak * 128 + ofBool offsched * 64 + ftype * 16

/-- Payload word i of logical lane j is link word i·N + j (R279). -/
def laneWords (n j : Nat) (frame : List Nat) : List Nat := (List.range 62).map fun i => frame.getD (i * n + j) 0

def ctrlWord (code lanes offset tally hops : Nat) : Nat := code * 2 ^ 28 + lanes * 2 ^ 20 + offset * 2 ^ 12 + tally * 2 ^ 6 + hops

/-! ### Packets (R299, R300, R567) -/

/-- HCRC over the first 14 bytes of a header (R567). -/
def hcrc (l : List Nat) : Nat := crcBytesL 16 0x1021 0xFFFF (l.take 14)

/-- A packet's bytes. -/
def Packet.bytes (k : Packet) : List Nat :=
  let h := leBytes (k.dt * 2 ^ 24 + k.vc * 2 ^ 20 + k.inc * 2 ^ 12 + k.src * 2 ^ 6 + k.dst) 4 ++ leBytes k.sweep 4 ++ leBytes k.gear 2 ++
    leBytes k.assign 2 ++ leBytes k.payload.length 2
  h ++ leBytes (hcrc h) 2 ++ k.payload ++ (if k.payload.isEmpty then [] else leBytes (crc32 k.payload) 4)

/-- What stands at the head of a port's packet stream. -/
inductive Parsed where
  | more
  | fill
  | badHeader
  | badPayload (size : Nat)
  | badTag (size : Nat)
  | packet (size : Nat)
  deriving DecidableEq, Repr

/-- The head of a packet stream (R299 to R301). -/
def parseHead (l : List Nat) : Parsed :=
  if l.length < 4 then .more
  else if bytesAt l 0 4 = 0 then .fill
  else if l.length < 16 then .more
  else if hcrc l ≠ bytesAt l 14 2 then .badHeader
  else
    let len := bytesAt l 12 2
    let size := 16 + len + (if len = 0 then 0 else 4)
    let w := bytesAt l 0 4
    if l.length < size then .more
    else if len ≠ 0 ∧ crc32 ((l.drop 16).take len) ≠ bytesAt l (16 + len) 4 then .badPayload size
    else if vcOf (bits w 24 6) = some (bits w 20 4) then .packet size
    else .badTag size

end Sys2Proof.Machine
end

