-- ==== Sys2Proof/Machine/LinkOps.lean ====
section
/-!
DEFINITION. The link layer as shared operations (R271 to R290): frames and replay, control messages and their collisions, narrowing, and
the loops.
-/
namespace Sys2Proof.Machine

/-! ### Lanes -/

def State.lane (s : State) (d : Bool) (n : Nat) : Lane := Tbl.get {} (s.port d).lanes n
def State.setLane (s : State) (d : Bool) (n : Nat) (f : Lane → Lane) : State :=
  s.setPort d fun p => { p with lanes := Tbl.set {} p.lanes n (f (Tbl.get {} p.lanes n)) }

/-- The receive map in force, and lanes with block lock. -/
def State.rxMap (s : State) (d : Bool) : Nat := s.get (LNK_STATE.MAP (px d))
def State.locked (s : State) (d : Bool) : Nat := s.get (LNK_LOCK.BLOCK_LOCK (px d))

/-- The receive map and its width take a value. -/
def State.setRxMap (s : State) (d : Bool) (m : Nat) : State :=
  (s.set (LNK_STATE.MAP (px d)) m).set (LNK_STATE.WIDTH (px d)) (popCount m 8)

/-- This unit's hops from the pithead: 0 on the pithead, 63 unknown. -/
def State.hops (s : State) : Nat := if s.isPithead then 0 else min (s.hopsBy false) (s.hopsBy true)

/-- The lowest lanes of a set, `n` of them (R273 E5). -/
def lowestLanes (m n : Nat) : Nat := ((bitsOf m 8).take n).foldl (fun a i => a + 2 ^ i) 0

/-! ### Frames and replay (R281 to R285) -/

/-- A control message waits for the next DATA frame of a port (R279). -/
def State.sendCtrl (s : State) (d : Bool) (code lanes offset : Nat) : State :=
  s.setPort d fun p => { p with ctls := p.ctls ++ [ctrlWord code lanes offset s.tally s.hops] }

/-- Packet bytes cut to the room of one frame. -/
def cutFrames (room : Nat) (l : List Nat) : List (List Nat) :=
  (List.range ((l.length + room - 1) / room)).map fun i => (l.drop (room * i)).take room

/-- Frames in the replay buffer leave again from the oldest; after LIMIT replays in a row without the ACK advancing the port retrains as an L1
recovery (R283, R285). -/
def State.replay (s : State) (d : Bool) : State :=
  let p := s.port d
  if p.replay.isEmpty then s
  else if s.get (LNK_RETRY.LIMIT (px d)) ≤ p.replays then
    let t := (s.raise 0x0C05 [px d, (p.replay.headD ⟨0, 0, [], 0, false⟩).seq]).callRecovery 0x0C05 (px d) 1 false false
    t.retrain d ldRETRAIN ptLOCK
  else
    (s.bump (LNK_ERRCNT1.REPLAYS (px d)) 1).setPort d fun p => { p with
      replays := p.replays + 1, sentTo := 0, replay := p.replay.map fun f => { f with born := s.fwc } }

/-- Frames up to an acknowledged SEQ leave the replay buffer (R283). -/
def State.takeLinkAck (s : State) (d : Bool) (ack : Nat) : State :=
  s.setPort d fun p =>
    let rest := p.replay.filter fun f => serialLater 12 f.seq ack
    if rest.length < p.replay.length then { p with replay := rest, sentTo := p.sentTo - (p.replay.length - rest.length), replays := 0 } else p

/-- After a change of width the unacknowledged packet bytes are repacked into frames of the new size, numbered from the first unacknowledged
SEQ (R283). What goes beyond 128 frames waits to leave again, late. -/
def State.repack (s : State) (d : Bool) (m : Nat) : State :=
  s.setPort d fun p =>
    match p.replay with
    | [] => { p with txMap := m }
    | f :: _ =>
      let room := frameRoom (popCount m 8)
      let ctrls := (p.replay.filter fun g => decide (g.ctrl ≠ 0)).map fun g => g.ctrl
      let data := cutFrames room (p.replay.flatMap fun g => g.bytes)
      let n := min 128 (max ctrls.length data.length)
      let rest := (data.drop 128).flatten
      { p with
        txMap := m, txSeq := (f.seq + n) % 4096, sentTo := 0
        replay := (List.range n).map fun i => ⟨(f.seq + i) % 4096, ctrls.getD i 0, data.getD i [], s.fwc, true⟩
        out := (if rest.isEmpty then [] else [⟨rest, some 0, false, false⟩]) ++ p.out }

/-! ### Narrowing (R269, R280) -/

/-- A request of a kind waits for its acknowledgement. -/
def Port.asks (p : Port) (kind : Nat) : Bool := p.requests.any fun r => decide (r.1 = kind)
def Port.ended (p : Port) (kind : Nat) : List (Nat × Nat) := p.requests.filter fun r => decide (r.1 ≠ kind)

/-- This end asks for a receive map: WIDTH_REQ with OFFSET 32. -/
def State.askWidth (s : State) (d : Bool) (m : Nat) : State :=
  (s.sendCtrl d 1 m 32).setPort d fun p => { p with newRx := some (m, none), laterMap := none, requests := p.ended 1 ++ [(1, m)] }

/-- A lane of the receive map is lost: a narrowing is asked for, after one that is under way, or, with no lane left, the port goes down
(R274, R280). -/
def State.loseLane (s : State) (d : Bool) (n : Nat) : State :=
  let p := s.port d
  let m := setBit (p.laterMap.getD ((p.newRx.map (·.1)).getD (s.rxMap d))) n false
  if m = 0 then s.retrain d ldLANES ptDETECT
  else if p.newRx.isSome || p.laterMap.isSome then s.setPort d fun p => { p with laterMap := some m }
  else s.askWidth d m

/-! ### Collisions (R286) -/

/-- This end is the inner end against a far end of the given tally and hops (R286). -/
def State.inner (s : State) (d : Bool) (tally hops : Nat) : Bool :=
  if s.isPithead then true
  else if tally = 1 then false
  else if s.hops ≠ hops then decide (s.hops < hops)
  else if s.tally ≠ tally then (if tally = 0 then true else if s.tally = 0 then false else decide (s.tally < tally))
  else decide (s.serial < s.get (LNK_PEER_LO.SERIAL (px d)) + s.get (LNK_PEER_HI.SERIAL (px d)) * 2 ^ 32)

/-- The outer end withdraws its request of a kind, and keeps a narrowing for later (R286). -/
def State.yields (s : State) (d : Bool) (kind : Nat) : State :=
  let t := (s.sendCtrl d 5 0 0).setPort d fun p => { p with requests := p.ended kind }
  let t := if kind = 1 then t.setPort d fun p => { p with newRx := none, laterMap := p.laterMap.or (p.newRx.map (·.1)) } else t
  t.raise 0x0C07 [px d, kind]

/-- A request of kind `kind` from the far end: `f` is what acknowledging and following it does. In a collision the inner end ignores it,
the outer end withdraws its own and follows (R286). -/
def State.onRequest (s : State) (d : Bool) (kind tally hops : Nat) (f : State → State) : State :=
  if s.portState d ≠ ptACTIVE then s
  else if !(s.port d).asks kind then f s
  else if s.inner d tally hops then s
  else f (s.yields d kind)

/-- A port enters LOOP (R290); `far` names the lanes the far end asked for. Its keystreams go on, for FE_LOOP_END. -/
def State.enterLoop (s : State) (d : Bool) (far : Option Nat) : State :=
  let t := s.linkDown d ldLOOP ptLOOP
  t.setPort d fun p => { p with
    loopFar := far, requests := [], replay := [], sentTo := 0, out := [], ctls := [], rxBytes := [], newRx := none, newTx := none, laterMap := none
    lanes := p.lanes.map fun e => (e.1, { e.2 with rx := [], back := [], gen := 0, chk := 0, chkOn := false }) }

/-! ### Control messages as they arrive -/

/-- A map the far end may ask this transmitter to use (R277, R278): at most WIDTH_MAX lanes, each one in use or trained since, none dropped. -/
def State.mapAllowed (s : State) (d : Bool) (m : Nat) : Bool :=
  decide (m ≠ 0 ∧ popCount m 8 ≤ (s.port d).widthMax) && decide (m &&& ((s.port d).txMap ||| (s.port d).trainedMap) = m)

/-- WIDTH_REQ: followed at OFFSET blocks and acknowledged; one R278 does not allow is not (DEDUCED, notes/assumptions/59.md). -/
def State.ctlWidthReq (s : State) (d : Bool) (lanes offset tally hops : Nat) : State :=
  if s.mapAllowed d lanes then
    s.onRequest d 1 tally hops fun t => (t.sendCtrl d 2 lanes offset).setPort d fun p => { p with newTx := some (lanes, offset) }
  else s
def State.ctlWidthAck (s : State) (d : Bool) : State := s.setPort d fun p => { p with requests := p.ended 1 }
/-- RETRAIN_REQ: RETRAIN_ACK leaves, then the port retrains (R286). -/
def State.ctlRetrainReq (s : State) (d : Bool) (tally hops : Nat) : State :=
  s.onRequest d 3 tally hops fun t => t.sendCtrl d 4 0 0
def State.ctlRetrainAck (s : State) (d : Bool) : State := if (s.port d).asks 3 then s.retrain d ldRETRAIN ptLOCK else s
/-- WITHDRAW cancels what its sender asked for (R286). -/
def State.ctlWithdraw (s : State) (d : Bool) : State := s.setPort d fun p => { p with newTx := none }
def State.ctlSleep (s : State) (d : Bool) : State :=
  if s.portActive d then (s.set (LNK_STATE.PEER_SLEEP (px d)) 1).setPort d fun p => { p with peerQuiet := false } else s
/-- FE_LOOP_REQ is answered only with FE_ALLOW 1; the loop begins once FE_LOOP_ACK has left (R290). -/
def State.ctlFeLoopReq (s : State) (d : Bool) (lanes tally hops : Nat) : State :=
  if s.on (LNK_CTRL.FE_ALLOW (px d)) then s.onRequest d 7 tally hops fun t => t.sendCtrl d 8 lanes 0 else s
def State.ctlFeLoopAck (s : State) (d : Bool) : State := if (s.port d).asks 7 then s.enterLoop d none else s
/-- A control word that arrives in a DATA frame (R279). -/
def State.takeCtrl (s : State) (d : Bool) (c : Nat) : State :=
  let code := bits c 28 4
  let lanes := bits c 20 8
  let tally := bits c 6 6
  let hops := bits c 0 6
  match code with
  | 1 => s.ctlWidthReq d lanes (bits c 12 8) tally hops
  | 2 => s.ctlWidthAck d
  | 3 => s.ctlRetrainReq d tally hops
  | 4 => s.ctlRetrainAck d
  | 5 => s.ctlWithdraw d
  | 6 => s.ctlSleep d
  | 7 => s.ctlFeLoopReq d lanes tally hops
  | 8 => s.ctlFeLoopAck d
  | 9 => s.endLoop d
  | _ => s

/-- A header failed HCRC: the port's stream is discarded up to the next frame, and the port retrains as an L1 recovery (R301). -/
def State.badHeader (s : State) (d : Bool) : State :=
  let t := ((s.bump CHN_ERRCNT0.HDR_CRC 1).setPort d fun p => { p with rxBytes := [] }).callRecovery 0x0C02 (px d) 1 false false
  t.retrain d ldRETRAIN ptLOCK

/-- The packet stream of a port is read as far as it goes (R300, R301): whole packets leave it for the commands that carry them. `late` is OFFSCHED of
the frame just taken; what it and the frames before it say of a time message is kept for the message (R284). -/
def State.readStream (late : Bool) : Nat → Bool → State → State
  | 0, _, s => s
  | n + 1, d, s =>
    let l := (s.port d).rxBytes
    let skip := fun (t : State) (k : Nat) => t.setPort d fun p => { p with rxBytes := p.rxBytes.drop k, rxLate := late }
    match parseHead l with
    | .more => s
    | .fill => State.readStream late n d (skip s 4)
    | .badHeader => s.badHeader d
    | .badPayload k => State.readStream late n d (skip (s.bump CHN_ERRCNT0.PAY_CRC 1) k)
    | .badTag k => State.readStream late n d (skip (s.bump CHN_ERRCNT1.TAG_DROP 1) k)
    | .packet k =>
      let t := if bits (bytesAt l 0 4) 20 4 = 1 then s.setPort d fun p => { p with stamps := p.stamps ++ [p.rxLate] } else s
      State.readStream late n d (skip t k)

/-- A frame fails under R282: counted, and NAK is set until frame ACK + 1 arrives. -/
def State.failFrame (s : State) (d : Bool) : State :=
  (s.bump (LNK_ERRCNT0.CRC_ERR (px d)) 1).setPort d fun p => { p with nak := true }

/-- A frame of the far end accepted in order: its bytes join the stream, and its control word is taken (R282, R284, R288). -/
def State.takeFrameBytes (s : State) (d : Bool) (words : List Nat) : State :=
  let h := words.getD 0 0
  let late := bit h 6
  let bytes := bytesOfWords ((words.drop 2).take (words.length - 3))
  let t := s.setPort d fun p => { p with
    rxSeq := bits h 20 12, nak := false, rxLate := late || (!p.rxBytes.isEmpty && p.rxLate), rxBytes := p.rxBytes ++ bytes
    unacked := p.unacked + 1, unackedAt := some (p.unackedAt.getD s.fwc) }
  let t := t.takeCtrl d (words.getD 1 0)
  t.readStream late (t.port d).rxBytes.length d

/-- A frame with a valid CRC and good headers (R281 to R283). A NAK that goes on, with the ACK where it was, is the one the last replay
answers. -/
def State.goodFrame (s : State) (d : Bool) (words : List Nat) : State :=
  let h := words.getD 0 0
  let data := decide (bits h 4 2 = 0)
  let t := if (s.port d).peerQuiet || data then (s.set (LNK_STATE.PEER_SLEEP (px d)) 0).setPort d fun p => { p with peerQuiet := false } else s
  let t := t.takeLinkAck d (bits h 8 12)
  let nak := bit h 7
  let t := if nak then t.bump (LNK_ERRCNT0.NAK_RX (px d)) 1 else t
  let again := nak && (!(t.port d).peerNak || decide ((t.port d).replays = 0))
  let t := t.setPort d fun p => { p with peerNak := nak }
  let t := if again then t.replay d else t
  if !data || !(t.port d).keyed then t
  else if bits h 20 12 = ((t.port d).rxSeq + 1) % 4096 then t.takeFrameBytes d words
  else t.failFrame d

end Sys2Proof.Machine
end

