-- ==== Sys2Proof/Machine/Link.lean ====
section
/-!
DEFINITION. The Cegon link commands (ch. 08): lane blocks, training, link frames, control messages, width changes, sleep, loops and register
writes; and the packets that pass or leave (R33, R302). `d` is the port: false U, true D.
-/
namespace Sys2Proof.Machine

/-! ### What a transmitter sends -/

/-- A training state in which blocks carry training words. -/
def State.training (s : State) (d : Bool) : Bool := decide (ptDETECT ≤ s.portState d ∧ s.portState d ≤ ptEQ) && !(s.port d).waiting

/-- The lane map this end proposes (E5 of R273): lanes locked at both ends, up to WIDTH_MAX. -/
def State.proposed (s : State) (d : Bool) : Nat := lowestLanes (s.locked d &&& (s.port d).farLocked) (s.port d).widthMax

/-- Slot 5 of a training word (R272, R275): what this receiver asks for, the request answered last, the eye figure of the last request. -/
def State.eqWord (s : State) (d : Bool) (n : Nat) : Nat :=
  let e := (s.lane d n).eq
  if s.portState d = ptEQ then
    Config.eqCode e.ask e.number % 256 * 2 ^ 24 + (e.taken.map Config.eqAck).getD 0 % 256 * 2 ^ 16 + e.last % 256 * 2 ^ 8
  else 0

/-- The 62 training words of a lane (R272). -/
def State.trainWords (s : State) (d : Bool) (n : Nat) : List Nat :=
  let p := s.port d
  let k := (s.lane d n).txKey
  let body := [0x7CE2 * 65536 + n * 256 + s.portState d, k % 2 ^ 32, k / 2 ^ 32, p.blocks % 2 ^ 32, s.eqWord d n,
    s.locked d * 2 ^ 24 + s.proposed d * 65536 + p.startBc.getD 0 % 65536,
    s.serial % 2 ^ 32, s.serial / 2 ^ 32, s.tally * 2 ^ 26 + s.hops * 2 ^ 20]
  body ++ [crc32 (bytesOfWords body)] ++ List.replicate 52 stuffWord

/-- A lane sends a block of 62 payload words (R267, R268): `run` says that its keystream advances, `masks` that it masks the payload. With `silent` the
driver is idle. -/
def State.laneOut (s : State) (d run masks silent : Bool) (n : Nat) (payload : List Nat) : State :=
  let l := s.lane d n
  let keys := if run then keyWords 64 l.txKey else ([], l.txKey)
  if silent then s.setLane d n fun l => { l with txKey := keys.2, sent := [], txRun := (0, 0) }
  else
    let b := composeRun payload (if masks then keys.1 else List.replicate 64 0) l.txRun 4 0
    (s.when b.2 fun t => t.bump (LNK_ERRCNT2.RUN_UNMET (px d)) 1).setLane d n fun l =>
      { l with sent := b.1, txKey := keys.2, txRun := (runSlots b.1 0 l.txRun).2 }

/-- The lands of a port are held silent: its direction sleeps, or data forcing is asserted (R287, R467). -/
def State.silent (s : State) (d : Bool) : Bool := s.on (LNK_STATE.TX_SLEEP (px d)) || s.dataForced

/-! ### Packets on their way out -/

/-- The weight of VC6, VC7 and VC8 (R302). -/
def State.weight (s : State) (vc : Nat) : Nat :=
  if vc = 6 then s.get CHN_WRR.W_REC else if vc = 7 then s.get CHN_WRR.W_SPOT else s.get CHN_WRR.W_BULK

/-- The channel served next among the local packets of a port, with the turns left after it (R302); each port has turns of its own. -/
def State.nextVc (s : State) (d : Bool) (q : List Packet) : Option (Nat × Tbl Nat) :=
  let at_ := fun v => 16 * px d + v
  let has := fun v => q.any fun k => decide (k.vc = v)
  match [1, 0, 2, 3, 4, 5].find? has with
  | some v => some (v, s.chn.wrr)
  | none =>
    let waiting := [6, 7, 8].filter has
    match waiting.find? fun v => decide (0 < Tbl.get 0 s.chn.wrr (at_ v)) with
    | some v => some (v, Tbl.set 0 s.chn.wrr (at_ v) (Tbl.get 0 s.chn.wrr (at_ v) - 1))
    | none =>
      match waiting with
      | [] => none
      | v :: _ =>
        let full := [6, 7, 8].foldl (fun t v => Tbl.set 0 t (at_ v) (s.weight v)) s.chn.wrr
        some (v, Tbl.set 0 full (at_ v) (s.weight v - 1))

/-- A list without its first element that a test accepts. -/
def dropFirst (f : Packet → Bool) : List Packet → List Packet
  | [] => []
  | k :: ks => if f k then ks else k :: dropFirst f ks

/-- A packet joins the bytes on their way out of a port. -/
def State.putOut (s : State) (d : Bool) (k : Packet) (due : Option Nat) : State :=
  s.setPort d fun p => { p with out := p.out ++ [⟨k.bytes, due, decide (k.vc = 1), true⟩] }

/-- The next local packet for a port, by its channel (R302); the flag says whether there was one. -/
def State.chooseLocal (s : State) (d : Bool) : State × Bool :=
  let x := px d
  let q := Tbl.get [] s.chn.queue x
  match s.nextVc d q with
  | none => (s, false)
  | some (v, wrr) =>
    match q.find? fun k => decide (k.vc = v) with
    | none => (s, false)
    | some k =>
      ((s.onChn fun c => { c with wrr := wrr, queue := Tbl.set [] c.queue x (dropFirst (fun k => decide (k.vc = v)) q) }).putOut d k none, true)

/-- The next packet for a port: a passing one whose M depth has gone by first, else a local one (R284, R302). -/
def State.choosePacket (s : State) (d : Bool) : State × Bool :=
  let x := px d
  match Tbl.get [] s.chn.passed x with
  | (k, due) :: rest =>
    if due ≤ (s.port d).blocks then ((s.onChn fun c => { c with passed := Tbl.set [] c.passed x rest }).putOut d k (some due), true)
    else s.chooseLocal d
  | [] => s.chooseLocal d

/-- The packet bytes one frame of a port holds. -/
def State.room (s : State) (d : Bool) : Nat := frameRoom (max 1 (popCount (s.port d).txMap 8))

/-- Bytes on their way out of a port. -/
def Port.outBytes (p : Port) : Nat := p.out.foldl (fun n o => n + o.bytes.length) 0

/-- Packets are chosen until the bytes on their way fill a frame or none is left (R279, R284). -/
def State.fillOut : Nat → Bool → State → State
  | 0, _, s => s
  | n + 1, d, s =>
    if s.room d ≤ (s.port d).outBytes then s
    else
      let r := s.choosePacket d
      if r.2 then State.fillOut n d r.1 else r.1

/-- Packets that wait for a port. -/
def State.packetsFor (s : State) (d : Bool) : Nat := (Tbl.get [] s.chn.passed (px d)).length + (Tbl.get [] s.chn.queue (px d)).length

/-- A passing byte has missed the first frame it could leave on (R284). -/
def State.backlog (s : State) (d : Bool) : Bool :=
  let b := (s.port d).blocks
  (s.port d).out.any (fun o => (o.due.map fun n => decide (n < b)).getD false) || (Tbl.get [] s.chn.passed (px d)).any fun e => decide (e.2 < b)

/-- The first `n` bytes on their way out, and what stays. -/
def takeOut : Nat → List OutBytes → List Nat × List OutBytes
  | _, [] => ([], [])
  | n, o :: os =>
    if n = 0 then ([], o :: os)
    else if o.bytes.length ≤ n then
      let r := takeOut (n - o.bytes.length) os
      (o.bytes ++ r.1, r.2)
    else (o.bytes.take n, { o with bytes := o.bytes.drop n, whole := false } :: os)

/-- Time messages leave in no frame that carries OFFSCHED: they are dropped and counted (R284). -/
def State.dropTime (s : State) (d : Bool) : State :=
  let gone := fun (o : OutBytes) => o.time && o.whole
  let n := ((s.port d).out.filter gone).length
  if n = 0 then s
  else (s.bump (LNK_ERRCNT1.TIME_DROP (px d)) n).setPort d fun p => { p with out := p.out.filter fun o => !gone o }

/-- A new DATA frame is composed from the control word and the packet bytes that wait, where any do and the replay buffer has room (R279, R283,
R284). -/
def State.newFrame (s : State) (d : Bool) (withBytes : Bool) : State × Option LinkFrame :=
  let late := s.backlog d
  let t := s.when late fun u => u.dropTime d
  let p := t.port d
  let r := if withBytes then takeOut (t.room d) p.out else ([], p.out)
  if 128 ≤ p.replay.length ∨ (p.ctls.isEmpty ∧ r.1.isEmpty) then (t, none)
  else
    let f : LinkFrame := ⟨p.txSeq, p.ctls.headD 0, r.1, t.fwc, late⟩
    (t.setPort d fun p => { p with
      txSeq := (p.txSeq + 1) % 4096, replay := p.replay ++ [f], sentTo := if withBytes then p.sentTo + 1 else p.sentTo, ctls := p.ctls.drop 1
      out := r.2, lastByte := if r.1.isEmpty then p.lastByte else t.fwc, sleeping := p.sleeping && r.1.isEmpty }, some f)

/-- The DATA frame of a block period, none where it is IDLE (R281, R283): first what is to be sent again, with OFFSCHED. While a new map is
awaited that is held, and only a control message leaves. -/
def State.nextFrame (s : State) (d : Bool) : State × Option LinkFrame :=
  let p := s.port d
  match p.replay[p.sentTo]? with
  | some f =>
    if p.newTx.isSome then s.newFrame d false
    else (s.setPort d fun p => { p with sentTo := p.sentTo + 1 }, some { f with late := true })
  | none => (State.fillOut (s.packetsFor d) d s).newFrame d true

/-- The words of a frame at the width in force (R279, R281). -/
def State.wordsOfFrame (s : State) (d : Bool) (f : Option LinkFrame) : List Nat :=
  let p := s.port d
  let w := popCount p.txMap 8
  match f with
  | some f => frameWords w (frameHeader f.seq p.rxSeq p.nak f.late 0) f.ctrl f.bytes
  | none => frameWords w (frameHeader p.txSeq p.rxSeq p.nak false 1) 0 []

/-- One block of every boundary agreed goes by (R277). -/
def Port.tick (p : Port) : Port :=
  { p with blocks := p.blocks + 1, newRx := p.newRx.map fun e => (e.1, e.2.map (· - 1)), newTx := p.newTx.map fun e => (e.1, e.2 - 1) }

/-- What the sending of a control message brings (R277, R286, R290): the count to the boundary of a WIDTH_REQ starts; with its acknowledgement sent,
a retrain or a loop begins; FE_LOOP_END ends the loop. -/
def State.sentCtrl (s : State) (d : Bool) (c : Nat) : State :=
  match bits c 28 4 with
  | 1 => s.setPort d fun p => { p with newRx := p.newRx.map fun e => (e.1, some (bits c 12 8)) }
  | 4 => s.retrain d ldRETRAIN ptLOCK
  | 8 => s.enterLoop d (some (bits c 20 8))
  | 9 => s.endLoop d
  | _ => s

/-- A block period of a keyed port that is not silent: its frame on the lanes of the map, training words on the others (R277: they stay
trained; DESIGN CHOICE, notes/assumptions/61.md). -/
def State.sendFrame (s : State) (d : Bool) : State :=
  let r := s.nextFrame d
  let t := r.1
  let m := (t.port d).txMap
  let w := t.wordsOfFrame d r.2
  let u := (List.range 8).foldl (fun u n =>
    if bit m n then u.laneOut d true true false n (laneWords (popCount m 8) (popCount (m % 2 ^ n) 8) w) else u.laneOut d true false false n (t.trainWords d n)) t
  let u := u.setPort d fun p => { p.tick with unacked := 0, unackedAt := none }
  match r.2 with
  | some f => u.sentCtrl d f.ctrl
  | none => u

/-- A block period in which the lands are silent: the keystreams and the block count go on (R287). -/
def State.sendSilence (s : State) (d : Bool) : State :=
  ((List.range 8).foldl (fun u n => u.laneOut d (s.port d).keyed false true n []) s).setPort d Port.tick

/-- A block period of training: training words on every lane (E1 of R273). -/
def State.sendTraining (s : State) (d : Bool) : State :=
  ((List.range 8).foldl (fun u n => u.laneOut d false false false n (s.trainWords d n)) s).setPort d Port.tick

/-- A direction whose SLEEP has been acknowledged, with nothing more to send, enters electrical idle at the block boundary (R287). -/
def State.enterSleep (s : State) (d : Bool) : State :=
  let p := s.port d
  if p.sleeping && p.ctls.isEmpty && p.replay.isEmpty then
    (s.setPort d fun p => { p with sleeping := false }).set (LNK_STATE.TX_SLEEP (px d)) 1
  else s

/-! ### The loops (R290) -/

/-- The pattern generators: feedback taps of PRBS7, PRBS15 and PRBS31 (PRESUMED: the ITU-T O.150 polynomials). -/
def prbsTaps (pattern : Nat) : Nat × Nat := if pattern = 0 then (6, 5) else if pattern = 1 then (14, 13) else (30, 27)
def prbsBit (pattern k : Nat) : Bool := bit k (prbsTaps pattern).1 != bit k (prbsTaps pattern).2

/-- A word of a pattern, and the generator's state after it. -/
def prbsWord (pattern : Nat) : Nat → Nat → Nat → Nat → Nat × Nat
  | 0, _, k, w => (w, k)
  | n + 1, i, k, w =>
    let b := ofBool (prbsBit pattern k)
    prbsWord pattern n (i + 1) ((k * 2 + b) % 2 ^ 31) (w + b * 2 ^ i)
def prbsWords (pattern : Nat) : Nat → Nat → List Nat × Nat
  | 0, k => ([], k)
  | n + 1, k =>
    let a := prbsWord pattern 32 0 k 0
    let r := prbsWords pattern n a.2
    (a.1 :: r.1, r.2)

/-- Bits of a word that differ from what the bits before them give, and the history after it. -/
def prbsCheck (pattern : Nat) : Nat → Nat → Nat × Nat → Nat → Nat × Nat
  | 0, _, r, _ => r
  | n + 1, i, (k, e), w =>
    let b := bit w i
    prbsCheck pattern n (i + 1) ((k * 2 + ofBool b) % 2 ^ 31, e + ofBool (b != prbsBit pattern k)) w

/-- A lane's pattern words and its generator after them. -/
def State.loopWords (s : State) (d : Bool) (n : Nat) : List Nat × Nat :=
  let l := s.lane d n
  let pat := s.get (LNK_LOOP.PATTERN (px d))
  if pat = 3 then (List.replicate 64 (s.get (LNK_LOOP_WORD.WORD (px d))), l.gen)
  else prbsWords pat 64 (if l.gen = 0 then 2 ^ 31 - 1 else l.gen % 2 ^ 31)

/-- A lane's checker: bits that differ from the pattern count; the first block of a pseudo-random pattern sets the checker. -/
def State.checkLoop (s : State) (d : Bool) (n : Nat) (words : List Nat) : State :=
  let x := px d
  let pat := s.get (LNK_LOOP.PATTERN x)
  if pat = 3 then
    s.bump (LNK_PRBS_ERR.ERRORS x n) (words.foldl (fun e w => e + popCount (w ^^^ s.get (LNK_LOOP_WORD.WORD x)) 32) 0)
  else
    let l := s.lane d n
    let r := words.foldl (fun (r : Nat × Nat) w => prbsCheck pat 32 0 r w) (l.chk, 0)
    let t := s.setLane d n fun l => { l with chk := r.1, chkOn := true }
    if l.chkOn then t.bump (LNK_PRBS_ERR.ERRORS x n) r.2 else t

/-- A lane's block in LOOP. The far unit returns what it received on the lanes asked for; in the near-end modes the words sent are the words
received and the lands are idle; in the far-end mode they leave. -/
def State.loopLane (s : State) (d : Bool) (n : Nat) : State :=
  let mode := s.get (LNK_LOOP.MODE (px d))
  let t := s.setLane d n fun l => { l with txKey := if (s.port d).keyed then (keyWords 64 l.txKey).2 else l.txKey, sent := [] }
  match (s.port d).loopFar with
  | some m => if bit m n && !s.dataForced then t.setLane d n fun l => { l with sent := l.back } else t
  | none =>
    if !bit (s.get (LNK_LOOP.LANES (px d))) n then t
    else
      let r := s.loopWords d n
      let t := t.setLane d n fun l => { l with gen := r.2 }
      if mode = 3 then (if s.dataForced then t else t.setLane d n fun l => { l with sent := r.1 }) else t.checkLoop d n r.1

/-- A block period in LOOP. -/
def State.sendLoop (s : State) (d : Bool) : State := ((List.range 8).foldl (fun u n => u.loopLane d n) s).setPort d Port.tick

/-- The transmitter of a port composes and sends one lane block on every lane (R265, R268): training words before the keystreams run, a link frame
after, a pattern in LOOP until FE_LOOP_END is to leave. -/
def execTxBlock (d : Bool) (s : State) : Out :=
  let p := s.port d
  if s.portState d = ptDISABLED then .next s
  else if s.portState d = ptLOOP ∧ p.ctls.isEmpty then .next (s.sendLoop d)
  else
    let s := s.enterSleep d
    if s.silent d then .next (s.sendSilence d)
    else if p.keyed then .next (s.sendFrame d)
    else .next (s.sendTraining d)

/-- The next packet joins the bytes on their way out of a port, while these do not yet fill a frame (R284, R302). -/
def execPacketTransmit (d : Bool) (s : State) : Out :=
  if s.portActive d && decide ((s.port d).outBytes < s.room d) then .next (s.choosePacket d).1 else .next s

/-! ### What a receiver takes -/

/-- A lane comes into block lock; with every lane that has a signal the port leaves LOCK (R271, R274). -/
def State.gainLock (s : State) (d : Bool) (n : Nat) : State :=
  let t := (s.putBit (LNK_LOCK.BLOCK_LOCK (px d)) n true).setLane d n fun l => { l with confirm := 0, miss := 0 }
  if t.portState d = ptLOCK ∧ t.locked d = (t.port d).signal then t.set (LNK_STATE.STATE (px d)) ptCONFIG else t

/-- A block in search: 65 words at one alignment are looked through; what is found is confirmed in the next 4 blocks (R271). -/
def State.searchBlock (s : State) (d : Bool) (n : Nat) (words : List Nat) : State :=
  let l := s.lane d n
  let slip := s.setLane d n fun l => { l with confirm := 0, align := (l.align + 1) % 32 }
  if l.confirm = 0 then
    (if (words.take 65).any hasSync then s.setLane d n fun l => { l with confirm := 1 } else slip)
  else if hasSync (words.getD 0 0) then
    (if l.confirm = 4 then s.gainLock d n else s.setLane d n fun l => { l with confirm := l.confirm + 1 })
  else slip

/-- A block joins those of a lane that wait for the other lanes; lanes differ by less than a block (R272), so two are enough. -/
def Lane.keep (l : Lane) (x : Option (List Nat)) : Lane :=
  let rx := l.rx ++ [(l.count, x)]
  { l with rx := rx.drop (rx.length - 2) }

/-- The keystream of the receive direction starts with the block that the far end's START_BC names (E7 of R273). -/
def State.rxStarts (s : State) (d : Bool) (count : Nat) : Bool :=
  decide ((s.port d).agreed ≠ 0) && decide ((s.port d).farStart = some (count % 65536))

/-- A block on a lane in lock (R266, R270, R271). While the far end sleeps only the keystream advances (R267); when it wakes, SYNC in 2 blocks in a
row lets its blocks in again (E3 of R288). -/
def State.lockedBlock (s : State) (d : Bool) (n : Nat) (words : List Nat) : State :=
  let x := px d
  let l := s.lane d n
  let h := words.getD 0 0
  let on := l.rxOn || s.rxStarts d (l.count + 1)
  let keys := if on then keyWords 64 l.rxKey else (List.replicate 64 0, l.rxKey)
  let t := s.setLane d n fun l => { l with rxKey := keys.2, rxOn := on, count := l.count + 1 }
  let asleep := s.on (LNK_STATE.PEER_SLEEP x)
  let quiet := asleep && (s.port d).peerQuiet
  if !hasSync h then
    if asleep then (t.setLane d n fun l => { l with confirm := 0 }).setPort d fun p => { p with peerQuiet := true }
    else
      let t := (t.bump (LNK_ERRCNT1.HDR_ERR x) 1).setLane d n fun l => { (if on then l.keep none else l) with miss := l.miss + 1 }
      if l.miss = 3 then
        let t := ((t.bump (LNK_ERRCNT2.LOCK_LOSS x) 1).putBit (LNK_LOCK.BLOCK_LOCK x) n false).setLane d n fun l => { l with miss := 0, confirm := 0 }
        if t.portActive d && bit (t.rxMap d) n then (t.putBit (LNK_STATE.FAILED x) n true).loseLane d n else t
      else t
  else
    let t := t.setLane d n fun l => { l with miss := 0, confirm := if quiet then l.confirm + 1 else 0 }
    let good := headerGood h
    let t := if good then t else t.bump (LNK_ERRCNT1.HDR_ERR x) 1
    if on && (!quiet || decide (2 ≤ l.confirm)) then t.setLane d n fun l => l.keep (if good then some (readBlock words keys.1) else none) else t

/-- A block in LOOP (R290): the far unit keeps the words to return them; the near unit of a far-end loop checks them. -/
def State.loopBlock (s : State) (d : Bool) (n : Nat) (words : List Nat) : State :=
  if (s.port d).loopFar.isSome then s.setLane d n fun l => { l with back := words }
  else if s.get (LNK_LOOP.MODE (px d)) = 3 ∧ bit (s.get (LNK_LOOP.LANES (px d))) n then s.checkLoop d n words
  else s

/-- A lane block is received: the words as the deserialiser gives them at the lane's alignment (R265, R270, R271). -/
def execLaneBlockReceive (d : Bool) (n : Fin 8) (words : List Word) (s : State) : Out :=
  let w := words.map BitVec.toNat
  let st := s.portState d
  if st = ptLOOP then .next (s.loopBlock d n.val w)
  else if st = ptDISABLED ∨ st = ptDETECT then .next s
  else if bit (s.locked d) n.val then .next (s.lockedBlock d n.val w)
  else if bit (s.port d).signal n.val then .next (s.searchBlock d n.val w)
  else .next s

/-- 32 equal bits on an active lane (R269): the lane fails, an L1 recovery starts, and the link layer narrows the port. -/
def execLaneStuck (d : Bool) (n : Fin 8) (s : State) : Out :=
  if s.portActive d && bit (s.rxMap d) n.val && !bit (s.get (LNK_STATE.FAILED (px d))) n.val then
    let t := ((s.putBit (LNK_STATE.FAILED (px d)) n.val true).bump (LNK_ERRCNT2.STUCK (px d)) 1).raise 0x0C03 [px d, n.val]
    .next ((t.callRecovery 0x0C03 (px d) 1 false false).loseLane d n.val)
  else .next s

/-- Signal or lock lost on every lane, without a SLEEP (R289). -/
def execLaneSignalLoss (d : Bool) (s : State) : Out :=
  if s.portActive d && !s.on (LNK_STATE.PEER_SLEEP (px d)) then .next (s.retrain d ldLANES ptDETECT) else .next s

/-! ### Training -/

/-- Signal on a lane: DETECT ends (R274). -/
def execClockRecovered (d : Bool) (n : Fin 8) (s : State) : Out :=
  if s.training d then
    let t := s.setPort d fun p => { p with signal := setBit p.signal n.val true }
    .next (if t.portState d = ptDETECT then t.set (LNK_STATE.STATE (px d)) ptLOCK else t)
  else .next s

/-- The peer serial from training. -/
def State.peerSerial (s : State) (d : Bool) : Nat := s.get (LNK_PEER_LO.SERIAL (px d)) + s.get (LNK_PEER_HI.SERIAL (px d)) * 2 ^ 32

/-- Stored taps are valid: same peer serial, same lane map as at their last EQ (R273). -/
def State.tapsValid (s : State) (d : Bool) (m : Nat) : Bool :=
  decide ((s.port d).tapsPeer = some (s.peerSerial d)) && decide ((s.port d).tapsMap = m)

/-- A transmit lane takes taps, unless FIXED holds its own (R275). -/
def State.setTaps (s : State) (d : Bool) (n : Nat) (preset : Nat) (t : Nat × Nat) : State :=
  let x := px d
  if s.on (LNK_PE.FIXED x n) then s else ((s.set (LNK_PE.PRESET x n) preset).set (LNK_PE.C_PRE x n) t.1).set (LNK_PE.C_POST x n) t.2

/-- The taps of a lane. -/
def State.tapsOf (s : State) (d : Bool) (n : Nat) : Nat × Nat := (s.get (LNK_PE.C_PRE (px d) n), s.get (LNK_PE.C_POST (px d) n))

/-- Stored taps are used again (R273, R275). -/
def State.reuseTaps (s : State) (d : Bool) : State :=
  (s.port d).taps.foldl (fun t e => t.setTaps d e.1 e.2.1 (e.2.2.1, e.2.2.2)) s

/-- This end chooses the block at which its keystreams start: free, since the manual gives no rule (R272). -/
def State.chooseStart (s : State) (d : Bool) : State :=
  let f := s.free
  f.2.setPort d fun p => { p with startBc := some (f.1 % 65536) }

/-- E5 of R273: 16 training blocks in a row on every locked lane; the lane map is agreed as the lanes both ends propose, and the M depth of the path
is set (R272). Valid taps are used again; else EQ begins. -/
def State.agree (s : State) (d : Bool) : State :=
  let p := s.port d
  if s.portState d = ptCONFIG ∧ p.agreed = 0 ∧ (bitsOf (s.locked d) 8).all (fun n => decide (16 ≤ (s.lane d n).trained)) then
    let m := s.proposed d &&& p.farMap
    if m = 0 then s
    else
      let f := s.free
      let t := f.2.setPort d fun p => { p with agreed := m, trainedMap := s.locked d &&& p.farLocked, depth := f.1 }
      if t.tapsValid d m then (t.reuseTaps d).chooseStart d else t.set (LNK_STATE.STATE (px d)) ptEQ
  else s

/-- A request of the far receiver for this transmitter's taps (R275): a preset, or a step that R275 allows. It is answered, and counts as taken, once. -/
def State.takeEq (s : State) (d : Bool) (n req : Nat) : State :=
  if (s.lane d n).eq.taken = some req then s
  else
    let t := s.setLane d n fun l => { l with eq := { l.eq with taken := some req } }
    let a := Config.eqAsk req
    if a < 8 then t.setTaps d n a (presetTaps a)
    else if a < 12 then
      match stepTaps a (t.tapsOf d n) with
      | some x => t.setTaps d n (t.get (LNK_PE.PRESET (px d) n)) x
      | none => t
    else t

/-- This receiver's request has been answered: the margin it measured counts, and the next request follows (R275). -/
def State.stepEq (s : State) (d : Bool) (n ack h v : Nat) : State :=
  let e := (s.lane d n).eq
  if e.stage < 13 ∧ ack = Config.eqAck (Config.eqCode e.ask e.number % 256) % 256 then
    ((s.set (LNK_EYE.H_MARGIN (px d) n) h).set (LNK_EYE.V_MARGIN (px d) n) v).setLane d n fun l =>
      { l with eq := l.eq.answered (Config.eyeFigure (h % 256) (v % 256)) }
  else s

/-- A training block: the words of slots 1 to 62 on a lane in lock, and the eye margin measured there; one without the mark of slot 1 or a valid CRC
ends the run of E4 (R272, R273). In EQ its slot 5 is answered (R275). -/
def execTrainingBlockReceive (d : Bool) (n : Fin 8) (words : List Word) (h v : Byte) (s : State) : Out :=
  let w := words.map BitVec.toNat
  if s.training d && bit (s.locked d) n.val then
    if w.getD 0 0 / 65536 = 0x7CE2 ∧ crc32 (bytesOfWords (w.take 9)) = w.getD 9 0 then
      let t := (s.set (LNK_PEER_LO.SERIAL (px d)) (w.getD 6 0)).set (LNK_PEER_HI.SERIAL (px d)) (w.getD 7 0)
      let t := t.setLane d n.val fun l => { l with
        rxKey := w.getD 1 0 + w.getD 2 0 % 2 ^ 26 * 2 ^ 32, count := w.getD 3 0, trained := min 16 (l.trained + 1) }
      let t := t.setPort d fun p => { p with
        farLocked := bits (w.getD 5 0) 24 8, farMap := bits (w.getD 5 0) 16 8, farStart := some (bits (w.getD 5 0) 0 16)
        farTally := bits (w.getD 8 0) 26 6, farHops := bits (w.getD 8 0) 20 6 }
      let t := t.agree d
      .next (if s.portState d = ptEQ then (t.takeEq d n.val (bits (w.getD 4 0) 24 8)).stepEq d n.val (bits (w.getD 4 0) 16 8) h.toNat v.toNat else t)
    else .next (s.setLane d n.val fun l => { l with trained := 0 })
  else .next s

/-- E6 of R273: every lane of the map has settled its margin; the taps are stored for the peer (R275), and the start of the keystreams is
chosen. -/
def execEqComplete (d : Bool) (s : State) : Out :=
  let p := s.port d
  if s.portState d = ptEQ ∧ p.startBc = none ∧ (bitsOf p.agreed 8).all (fun n => decide (13 ≤ (s.lane d n).eq.stage)) then
    let taps := (bitsOf p.agreed 8).foldl (fun t n => Tbl.set (0, 0, 0) t n (s.get (LNK_PE.PRESET (px d) n), s.tapsOf d n)) []
    .next ((s.setPort d fun p => { p with tapsPeer := some (s.peerSerial d), tapsMap := p.agreed, taps }).chooseStart d)
  else .next s

/-- E7 of R273, at block START_BC: keystreams start and the first link frames go out. -/
def execKeystreamStart (d : Bool) (s : State) : Out :=
  let p := s.port d
  if s.training d && !p.keyed && decide (p.startBc = some (p.blocks % 65536)) then
    .next ((s.setRxMap d p.agreed).setPort d fun p => { p with keyed := true, txMap := p.agreed })
  else .next s

/-- The residences measured (R272, R277) reach the time unit's registers. -/
def State.setResidence (s : State) (ud du : Nat) : State := (s.set LNK_RES_UD.RES ud).set LNK_RES_DU.RES du

/-- An L1 of this port is complete: the port is back in service (R473). -/
def State.portServed (s : State) (d : Bool) : State :=
  [0x0C02, 0x0C03, 0x0C05].foldl (fun t c => t.actionDone c (px d)) s

/-- E8 of R273: residence measured, the port becomes ACTIVE; a strapped unit may start claiming (R305). -/
def execLinkUp (d : Bool) (ud du : Nat) (s : State) : Out :=
  let x := px d
  if s.training d && (s.port d).keyed then
    let t := if (s.port d).everTrained then s.bump (LNK_ERRCNT2.RETRAINS x) 1 else s
    let t := ((t.set (LNK_STATE.STATE x) ptACTIVE).set (LNK_STATE.FAILED x) 0).setResidence ud du
    let t := t.setPort d fun p => { p with everTrained := true, detectAt := none, lastByte := s.fwc }
    let t := t.raise 0x0C01 [x, t.get (LNK_STATE.WIDTH x), t.peerSerial d]
    .next (((t.portServed d).portChanged d true).startClaim)
  else .next s

/-- 2 ms since the last entry to DETECT (R274). -/
def execTrainTimeout (d : Bool) (s : State) : Out :=
  match (s.port d).detectAt with
  | none => .next s
  | some t0 =>
    if s.training d then
      let t := (s.advance (t0 + 2 * msTicks)).bump (LNK_ERRCNT2.RETRAINS (px d)) 1
      let t := t.raise 0x0C06 [px d, s.portState d]
      .next (t.setPort d fun p => { p with waiting := true, detectAt := none })
    else .next s

/-- 10 ms later the port enters DETECT again (R274). -/
def execTrainRetryDelay (d : Bool) (s : State) : Out :=
  if (s.port d).waiting && decide (ptDETECT ≤ s.portState d ∧ s.portState d ≤ ptEQ) then .next (s.startTraining d ptDETECT) else .next s

/-! ### Link frames -/

/-- The block count of the oldest blocks that wait, once every lane of the map in lock has its block of it (R272). -/
def State.dueFrame (s : State) (d : Bool) : Option Nat :=
  let lanes := bitsOf (s.rxMap d) 8
  match lanes.filterMap fun n => (s.lane d n).rx.head?.map (·.1) with
  | [] => none
  | c :: cs =>
    let c := cs.foldl min c
    if lanes.all fun n => !bit (s.locked d) n || (s.lane d n).rx.any fun e => decide (e.1 = c) then some c else none

/-- The payload of a lane's block of a count; none where the lane has none, or one with a header error. -/
def State.blockAt (s : State) (d : Bool) (c n : Nat) : Option (List Nat) := (((s.lane d n).rx.find? fun e => decide (e.1 = c)).map (·.2)).join

/-- The words of the frame of a block count in link order (R279): link word i is word i ÷ N of logical lane i mod N. None where a lane fails. -/
def State.frameAt (s : State) (d : Bool) (c : Nat) : Option (List Nat) :=
  let lanes := bitsOf (s.rxMap d) 8
  let got := lanes.filterMap fun n => s.blockAt d c n
  if got.length = lanes.length then
    some ((List.range (62 * lanes.length)).map fun i => (got.getD (i % lanes.length) []).getD (i / lanes.length) 0)
  else none

/-- The blocks of a count leave every lane. -/
def State.dropBlocks (s : State) (d : Bool) (c : Nat) : State :=
  s.setPort d fun p => { p with lanes := p.lanes.map fun e => (e.1, { e.2 with rx := e.2.rx.filter fun b => decide (b.1 ≠ c) }) }

/-- The link frame of a block period is received from the lanes' blocks (R279 to R283), as soon as every lane has brought its own. -/
def execLinkFrameReceive (d : Bool) (s : State) : Out :=
  match s.dueFrame d with
  | none => .next s
  | some c =>
    let t := s.dropBlocks d c
    match s.frameAt d c with
    | some w => .next (if crc32 (bytesOfWords w.dropLast) = w.getLastD 0 then t.goodFrame d w else t.failFrame d)
    | none => .next (t.failFrame d)

/-- WIDTH_REQ proposes a lane map at OFFSET blocks (R277, R286); `tally` and `hops` are the sender's. -/
def execWidthReq (d : Bool) (lanes : Byte) (offset tally hops : Nat) (s : State) : Out := .next (s.ctlWidthReq d lanes.toNat offset tally hops)
/-- WIDTH_ACK acknowledges this end's request (R277). -/
def execWidthAck (d : Bool) (s : State) : Out := .next (s.ctlWidthAck d)
/-- RETRAIN_REQ (R286). -/
def execRetrainReq (d : Bool) (tally hops : Nat) (s : State) : Out := .next (s.ctlRetrainReq d tally hops)
/-- RETRAIN_ACK: the port goes to LOCK (R274). -/
def execRetrainAck (d : Bool) (s : State) : Out := .next (s.ctlRetrainAck d)
/-- WITHDRAW (R286). -/
def execWithdraw (d : Bool) (s : State) : Out := .next (s.ctlWithdraw d)
/-- SLEEP: the far transmitter is about to sleep (R287). -/
def execSleep (d : Bool) (s : State) : Out := .next (s.ctlSleep d)
/-- FE_LOOP_REQ (R290). -/
def execFeLoopReq (d : Bool) (lanes : Byte) (tally hops : Nat) (s : State) : Out := .next (s.ctlFeLoopReq d lanes.toNat tally hops)
/-- FE_LOOP_ACK (R290). -/
def execFeLoopAck (d : Bool) (s : State) : Out := .next (s.ctlFeLoopAck d)
/-- FE_LOOP_END (R290). -/
def execFeLoopEnd (d : Bool) (s : State) : Out := .next (s.endLoop d)

/-- A lane map takes effect in the receive direction (R277). -/
def State.turnRx (s : State) (d : Bool) (m : Nat) : State :=
  (((s.setRxMap d m).raise 0x0C04 [px d, s.rxMap d, m]).setPort d fun p => { p with newRx := none }).actionDone 0x0C03 (px d)

/-- A lane map takes effect in the transmit direction: unacknowledged bytes are repacked (R283), and a lane dropped rejoins only at the next training
(R278). -/
def State.turnTx (s : State) (d : Bool) (m : Nat) : State :=
  let old := (s.port d).txMap
  let gone := (old ||| m) ^^^ m
  ((s.repack d m).raise 0x0C04 [px d, old, m]).setPort d fun p => { p with newTx := none, trainedMap := (p.trainedMap ||| gone) ^^^ gone }

/-- An agreed boundary (R277): the map of each direction whose OFFSET blocks have gone by takes effect, the receive map with block lock on every
lane of it; the residence is measured again; a narrowing kept for later is asked for (R286). The receive map turns without its WIDTH_ACK: over
the lanes that fail no ACK can come (DEDUCED from E4 and E5 of the worked example, notes/assumptions/62.md). -/
def execWidthChangeBoundary (d : Bool) (ud du : Nat) (s : State) : Out :=
  let p := s.port d
  let rx := match p.newRx with
    | some (m, some 0) => some m
    | _ => none
  let tx := match p.newTx with
    | some (m, 0) => some m
    | _ => none
  if s.portActive d && (rx.isSome || tx.isSome) then
    let t := match rx with
      | some m => if m &&& s.locked d = m then s.turnRx d m else s.setPort d fun p => { p with newRx := none, laterMap := some (m &&& s.locked d) }
      | none => s
    let t := match tx with
      | some m => t.turnTx d m
      | none => t
    let t := t.setResidence ud du
    .next (match (t.port d).newRx, (t.port d).laterMap with
      | none, some m => t.askWidth d m
      | _, _ => t)
  else .next s

/-- The oldest unacknowledged frame has waited TIMEOUT µs (R285). -/
def execReplayTimeout (d : Bool) (s : State) : Out :=
  match (s.port d).replay with
  | [] => .next s
  | f :: _ =>
    if s.portActive d then .next ((s.advance (f.born + s.get (LNK_RETRY.TIMEOUT (px d)) * usTicks)).replay d) else .next s

/-! ### Sleep (R287, R288) -/

/-- Packet bytes or a control message wait for a port. -/
def State.toSend (s : State) (d : Bool) : Bool := !(s.port d).out.isEmpty || !(s.port d).ctls.isEmpty || decide (s.packetsFor d ≠ 0)

/-- A transmit direction that may sleep: SLEEP waits for its frame, and with its ACK the lanes go to electrical idle (R287). -/
def execTxSleepEntry (d : Bool) (s : State) : Out :=
  let p := s.port d
  if s.portActive d && s.on (LNK_CTRL.SLEEP_EN (px d)) && p.replay.isEmpty && !s.toSend d && p.requests.isEmpty && !p.sleeping &&
      !s.on (LNK_STATE.TX_SLEEP (px d)) then
    let t := s.advance (p.lastByte + s.get (LNK_CTRL.SLEEP_US (px d)) * usTicks)
    .next ((t.sendCtrl d 6 0 0).setPort d fun p => { p with sleeping := true })
  else .next s

/-- A sleeping transmitter wakes: a packet byte or a control message is pending, 16 frames received are not yet acknowledged, or one has not been
for 1 µs (R288). -/
def execTxWake (d : Bool) (s : State) : Out :=
  let p := s.port d
  if !s.on (LNK_STATE.TX_SLEEP (px d)) then .next s
  else if s.toSend d || decide (16 ≤ p.unacked) then .next (s.set (LNK_STATE.TX_SLEEP (px d)) 0)
  else
    match p.unackedAt with
    | some t => .next ((s.advance (t + usTicks)).set (LNK_STATE.TX_SLEEP (px d)) 0)
    | none => .next s

/-! ### Register writes -/

/-- A write of LNK_x_CTRL: EN under R274, RETRAIN under R286. -/
def State.effLnkCtrl (s : State) (p : Path) (d : Bool) (w : Nat) : State :=
  let x := px d
  let t := (s.writeFields p (0x0C000 + 0x400 * x) w).reviewPort d
  if (LNK_CTRL.RETRAIN x).of w = 1 ∧ s.mayWrite p (LNK_CTRL.RETRAIN x) ∧ t.portActive d ∧ (t.port d).asks 3 = false then
    (t.sendCtrl d 3 0 0).setPort d fun q => { q with requests := q.requests ++ [(3, 0)] }
  else t

def execLnkEnWrite (p : Path) (d : Bool) (w : Word) (s : State) : Out :=
  .next (s.regWrite p (0x0C000 + 0x400 * px d) w.toNat fun t => t.effLnkCtrl p d w.toNat)
def execLnkRetrainWrite (p : Path) (d : Bool) (w : Word) (s : State) : Out :=
  .next (s.regWrite p (0x0C000 + 0x400 * px d) w.toNat fun t => t.effLnkCtrl p d w.toNat)

/-- RUN 0 ends a loop at either end: a far-end loop once FE_LOOP_END has left (R290); a request still waiting is dropped. -/
def State.stopLoop (s : State) (d : Bool) : State :=
  let t := s.set (LNK_LOOP.RUN (px d)) 0
  if s.portState d ≠ ptLOOP then t.setPort d fun q => { q with requests := q.ended 7 }
  else if (s.port d).loopFar.isSome ∨ s.get (LNK_LOOP.MODE (px d)) = 3 then t.sendCtrl d 9 0 0
  else t.endLoop d

/-- A write of LNK_x_LOOP (R290): RUN 1 with a mode of the table, once R44 holds, enters the loop, or asks the far end for it; RUN 0 ends
it. -/
def State.effLnkLoop (s : State) (p : Path) (d : Bool) (w : Nat) : State :=
  let x := px d
  if !s.mayWrite p (LNK_LOOP.RUN x) then s
  else
    let mode := (LNK_LOOP.MODE x).of w
    let run := decide ((LNK_LOOP.RUN x).of w = 1)
    let set := fun (t : State) => ((t.set (LNK_LOOP.MODE x) mode).set (LNK_LOOP.PATTERN x) (min 3 ((LNK_LOOP.PATTERN x).of w))).set (LNK_LOOP.LANES x)
      ((LNK_LOOP.LANES x).of w)
    let t := set s
    if !run then set (s.stopLoop d)
    else if s.on (LNK_LOOP.RUN x) then t
    else if !s.saf.r44 || decide (s.portState d = ptDISABLED ∨ s.portState d = ptLOOP) then t
    else if mode = 1 ∨ mode = 2 then (t.set (LNK_LOOP.RUN x) 1).enterLoop d none
    else if mode = 3 ∧ s.portState d = ptACTIVE ∧ (s.port d).asks 7 = false then
      let m := t.get (LNK_LOOP.LANES x)
      ((t.set (LNK_LOOP.RUN x) 1).sendCtrl d 7 m 0).setPort d fun q => { q with requests := q.requests ++ [(7, m)] }
    else t

def execLnkLoopRunWrite (p : Path) (d : Bool) (w : Word) (s : State) : Out :=
  .next (s.regWrite p (0x0C00C + 0x400 * px d) w.toNat fun t => t.effLnkLoop p d w.toNat)

/-- A write of LNK_x_PEn: taps apply with FIXED 1 and under R275. -/
def State.effLnkPe (s : State) (p : Path) (d : Bool) (n w : Nat) : State :=
  let x := px d
  if !s.mayWrite p (LNK_PE.FIXED x n) then s
  else
    let t := (s.set (LNK_PE.FIXED x n) ((LNK_PE.FIXED x n).of w)).set (LNK_PE.SWING x n) ((LNK_PE.SWING x n).of w)
    let a := (LNK_PE.C_PRE x n).of w
    let b := (LNK_PE.C_POST x n).of w
    if t.on (LNK_PE.FIXED x n) && tapsGood (a, b) then (t.set (LNK_PE.C_PRE x n) a).set (LNK_PE.C_POST x n) b else t

/-- An elastic buffer of the M crossing from port `d` slips: the port retrains (R264). -/
def execElasticBufferSlip (d : Bool) (s : State) : Out :=
  if s.portActive d then .next (s.retrain d ldRETRAIN ptLOCK) else .next s

/-! ### Packets on a port -/

/-- A packet for another unit arrives at port `d` and passes (R33, R298), a time message only if it came on schedule (R284). Broadcasts pass with the
command of their own kind. -/
def execPacketForward (d : Bool) (k : Packet) (s : State) : Out :=
  if k.dst = 63 ∨ (k.dst = s.tally ∧ s.tally ≠ 0) ∨ k.dt = 0x33 then .next s
  else if k.vc = 1 then .next (s.onSchedule d fun t => t.cross d k)
  else .next (s.cross d k)

end Sys2Proof.Machine
end

