-- ==== Sys2Proof/Machine/Monitor.lean ====
section
/-!
DEFINITION. Commands of the monitor converter (ch. 05, R172 to R180).
-/
namespace Sys2Proof.Machine

/-- MONITOR runs: from IDLE upward, while SYS runs. -/
def State.monitorRuns (s : State) : Bool := s.sysRuns && decide (stIDLE ≤ s.power)

/-- Settling time of a reference in ticks (R176). -/
def refSettle (ref : Nat) : Nat := if ref = 0 then 200 * usTicks else if ref = 1 then 50 * usTicks else 10 * usTicks

/-- A MONITOR cycle lasts a twentieth of a microsecond: SAMP + 44 cycles are 1 µs at SAMP 6 (R174). -/
def monCycle : Nat := 40

/-- A conversion of an entry starts (R174 to R176): the sequence entry and the reference as they stand now. -/
def State.startConv (s : State) (entry : Nat) : State :=
  let ref := s.get MON_CTRL.REF
  let t := if ref = s.mon.ref then s else (s.set MON_STATUS.REF_SETTLED 0).onMon fun m => { m with ref := ref, refAt := s.fwc }
  let t := if entry = 0 then t.onMon fun m => { m with len := s.get MON_CTRL.LEN } else t
  ((t.set MON_STATUS.RUNNING 1).set MON_STATUS.ENTRY entry).onMon fun m => { m with
    conv := some ⟨entry, t.fwc, t.on MON_STATUS.REF_SETTLED, s.get (MON_SEQ.CHAN entry), s.get (MON_SEQ.GAIN entry), ref, s.get (MON_SEQ.SAMP entry)⟩ }

/-- The monitor starts at entry 0 once MONITOR runs, RUN is 1 and no conversion is in progress (R174, R175). -/
def State.startMonitor (s : State) : State :=
  if s.monitorRuns && s.on MON_CTRL.RUN && s.mon.conv.isNone then s.startConv 0 else s

/-- The 8-byte record (R178). -/
def monRecordOf (c : MonConv) (code : Nat) (limit : Bool) : List Nat :=
  leBytes (code % 2 ^ 14 + 2 ^ 14 * ofBool (!c.settled) + 2 ^ 15 * ofBool limit) 2 ++
    leBytes (c.chan + 2 ^ 5 * c.entry + 2 ^ 9 * c.ref + 2 ^ 11 * c.gain) 2 ++ leBytes (c.start / 64) 4

/-- A record enters the circular buffer at the write index. A full buffer loses its oldest unread record (R178, R179). -/
def State.putRecordMon (s : State) (bytes : List Nat) : State :=
  let size := 2 ^ s.get MON_BUF_CFG.LOG2SIZE
  let wr := s.get MON_BUF_WR.WR % size
  let next := (wr + 8) % size
  let lost := s.mon.full
  let t := s.onMon fun m => { m with sram := (List.range 8).foldl (fun a i =>
    Tbl.set 0 a (s.get MON_BUF_CFG.BASE + wr + i) (bytes.getD i 0)) m.sram }
  let t := (t.set MON_BUF_WR.WR next).when (decide (next = 0)) fun t => t.set MON_BUF_WR.WRAPS (t.get MON_BUF_WR.WRAPS + 1)
  if lost then
    let t := ((t.set MON_BUF_RD.RD next).bump MON_STATUS.OVERRUN_CNT 1).loseItem 3 0
    if t.mon.overrun then t else (t.onMon fun m => { m with overrun := true }).raise 0x0902 [t.get MON_STATUS.OVERRUN_CNT]
  else t.onMon fun m => { m with full := decide (next = s.get MON_BUF_RD.RD) }

/-! ### From volts to a code (R172, R173) -/

/-- The divider of a channel. -/
def monDivider (c : Nat) : Nat := if c = 0 ∨ c = 3 ∨ c = 7 ∨ c = 17 then 2 else if c = 5 then 4 else 1

/-- The code of each channel at nominal rail voltage, bandgap as reference, gain ×1; none where R172 names none. -/
def nominalCode (c : Nat) : Option Nat :=
  if 24 ≤ c then some 0
  else if c = 17 then some 8192
  else [12288, 10240, 10923, 12288, 12288, 11264, 12288, 8192, 11605][c]?

/-- The bandgap in microvolts (R176). -/
def bandgap : Nat := 1200000

/-- The code an input of `uv` microvolts gives, at a gain of `g` halves and a reference of `vref` microvolts, the converter `err` LSB off
(R173, R181). -/
def monCode (uv vref g d : Nat) (err : Int) : Nat :=
  if 2 * vref * d ≤ uv * g then 16383 else (max 0 (min 16383 ((uv * g * 16384 + vref * d) / (2 * vref * d) + err : Int))).toNat

/-- The code of a conversion. Channels 24 to 31 convert ground, 22 and 23 read zero while the bands are held at reset (R50, R172); the bandgap
against itself gives a fixed code (R173). -/
def State.codeOf (s : State) (c : MonConv) (uv vref : Nat) (err : Int) : Nat :=
  if 24 ≤ c.chan then 0
  else if 22 ≤ c.chan ∧ !s.on EXP_OB_CTRL.OBCOL_SUM_EN then 0
  else if c.ref = 0 then
    if c.chan = 17 then monCode bandgap bandgap (2 ^ c.gain) 2 0 else monCode uv bandgap (2 ^ c.gain) (monDivider c.chan) err
  else monCode uv vref (2 ^ c.gain) (monDivider c.chan) err

/-- A monitor conversion ends (R172 to R179) on an input of `uv` microvolts; `vref` is REFIN or VANA in microvolts where the conversion refers to
it. A limit is judged on REF_SETTLED as it stands now. The next conversion starts on the cycle after, unless RUN is 0. -/
def execMonitorConversionDone (uv vref : Nat) (err : Int) (s : State) : Out :=
  let s := s.startMonitor
  match s.mon.conv with
  | none => .next s
  | some c =>
    let s := s.advance (c.start + (c.samp + 44) * monCycle)
    let code := s.codeOf c uv vref err
    let lim := s.on (MON_LIM.EN c.entry) && s.on MON_STATUS.REF_SETTLED &&
      (decide (code < s.get (MON_LIM.LO c.entry)) || decide (s.get (MON_LIM.HI c.entry) < code))
    let rec_ := monRecordOf c code lim
    let t := s.putRecordMon rec_
    let t := if c.chan < 24 then (t.set (MON_LAST.VALID c.chan) 1).set (MON_LAST.REC c.chan) (ofLeBytes (rec_.take 2)) else t
    let t := if lim then
        let u := t.putBit MON_LIMSTAT.EXCEEDED c.entry true
        if s.bitOf MON_LIMSTAT.EXCEEDED c.entry then u else u.raise 0x0901 [c.entry, c.chan, code]
      else t
    let t := t.onMon fun m => { m with conv := none }
    let t := if t.on MON_CTRL.RUN && !t.mon.stopping then t.startConv (if c.entry < t.mon.len then c.entry + 1 else 0)
      else ((t.set MON_STATUS.RUNNING 0).onMon fun m => { m with stopping := false })
    .next (t.startMonitor).pump

/-- A write of MON_CTRL (R175): LEN and REF as written; RUN 0 stops after the conversion in progress, RUN 1 restarts at entry 0. -/
def State.effMonCtrl (s : State) (p : Path) (w : Nat) : State :=
  let was := s.on MON_CTRL.RUN
  let t := s.writeFields p 0x09000 w
  if was && !t.on MON_CTRL.RUN then t.onMon fun m => { m with stopping := m.conv.isSome }
  else if !was && t.on MON_CTRL.RUN then t.startMonitor else t

def execMonCtrlRunWrite (p : Path) (w : Word) (s : State) : Out := .next (s.regWrite p 0x09000 w.toNat fun t => t.effMonCtrl p w.toNat)

/-- The reference settling time has passed (R176). -/
def execMonRefSettled (s : State) : Out :=
  if s.monitorRuns && !s.on MON_STATUS.REF_SETTLED then .next ((s.advance (s.mon.refAt + refSettle s.mon.ref)).set MON_STATUS.REF_SETTLED 1)
  else .next s

/-- MON_TDIE: the mean of MON_TEMP0 to MON_TEMP2 (R180). The rounding of the mean is not stated: half to even. -/
def State.dieMean (s : State) : Nat :=
  unsigned 16 (roundHalfEven ([0, 1, 2].foldl (fun z n => z + signed 16 (s.get (MON_TEMP.DEGC n))) 0) 3)

/-- The temperature a diode's code stands for, in °C × 2⁻⁴: the straight line through the two points of its trim (R180), half to even; where the
points share a code the manual names no line, and the value is free. -/
def State.diodeTemp (s : State) (n code : Nat) : Nat × State :=
  let a := (Config.diodeTrim n).1
  let b := (Config.diodeTrim n).2
  let dx := (b.1 : Int) - a.1
  if dx = 0 then s.free
  else
    let rise := ((code : Int) - a.1) * (b.2 - a.2) * dx.sign
    (unsigned 16 (a.2 + roundHalfEven rise dx.natAbs), s)

/-- The foreman writes MON_TEMPn and MON_TDIE after a conversion of diode n, channel 9 + n (R180). -/
def execMonTempUpdate (n : Nat) (s : State) : Out :=
  if decide (n < 8) && s.monitorRuns && s.on (MON_LAST.VALID (9 + n)) then
    let r := s.diodeTemp n (s.get (MON_LAST.REC (9 + n)) % 2 ^ 14)
    let t := r.2.set (MON_TEMP.DEGC n) r.1
    .next (t.set MON_TDIE.DEGC t.dieMean)
  else .next s

end Sys2Proof.Machine
end

