-- ==== Sys2Proof/Machine/Pipeline.lean ====
section
/-!
DEFINITION. The spotlight source and the pithead pipeline as commands (ch. 10).
-/
namespace Sys2Proof.Machine

/-! ### The source (R347, R348) -/

/-- Ticks a packet of `n` bytes takes at the rate limit (R347). -/
def State.spotTicks (s : State) (n : Nat) : Nat :=
  let g := max 1 (s.spotNow EXP_SPOT_RATE.GBPS)
  (16 * n + g - 1) / g

/-- An item leaves at the next instant the rate limit allows; with its CLOSE a frame is complete. -/
def State.sendSpot (s : State) (it : SpotItem) : State :=
  let t := s.advance s.spot.nextAt
  let t := t.onSpot fun p => { p with nextAt := t.fwc + t.spotTicks it.packet.size }
  let t := if t.isPithead then t.toInline it else t.send it.packet
  if it.kind = 4 then t.set EXP_SPOT_STATUS.FRAMES (t.get EXP_SPOT_STATUS.FRAMES + 1) else t

/-- The next packet of the spot queue, or of a STAGED frame that is complete. -/
def execSpotPacketSend (s : State) : Out :=
  match s.spot.queue with
  | it :: rest => .next (((s.onSpot fun p => { p with queue := rest, queued := p.queued - it.packet.size }).sendSpot it).reviewSpot)
  | [] =>
    match s.spot.frame with
    | some f =>
      if f.staged && f.complete then
        match f.items with
        | [] => .next ((s.onSpot fun p => { p with frame := none }).reviewSpot)
        | it :: rest =>
          .next (((s.onSpot fun p => { p with frame := if rest.isEmpty then none else some { f with items := rest } }).sendSpot it).reviewSpot)
      else .next s
    | none => .next s

/-- A write of EXP_SPOT_CTRL: EN 0 or a new METHOD stops STAGED at once (R348), the values wait for the next sweep start (R344). -/
def State.effSpotCtrl (s : State) (p : Path) (w : Nat) : State :=
  let t := s.writeFields p 0x06400 w
  if s.mayWrite p EXP_SPOT_CTRL.EN && (!t.on EXP_SPOT_CTRL.EN || decide (t.get EXP_SPOT_CTRL.METHOD ≠ s.get EXP_SPOT_CTRL.METHOD)) then t.stopStaged else t

def execExpSpotCtrlWrite (p : Path) (w : Word) (s : State) : Out := .next (s.regWrite p 0x06400 w.toNat fun t => t.effSpotCtrl p w.toNat)

/-- The staging regions of R346: offsets of lines and of BLACK payloads in an engine's data SRAM. -/
def isStaging (a : Nat) : Bool := decide (dsram ≤ a ∧ a < dsram + 0x300000) || decide (dsram + 0x3FF000 ≤ a ∧ a < dsram + 0x3FF400)

/-- An engine's staging regions are 0 with valid check bits. -/
def Eng.clearStaging (g : Eng) : Eng :=
  if g.staged then
    { g with mem := memClear (memClear g.mem dsram 0x300000) (dsram + 0x3FF000) 0x400
             bad := Tbl.keep (fun k => !isStaging (8 * k)) g.bad, staged := false }
  else g

def execSpotClearDone (s : State) : Out :=
  if s.on EXP_SPOT_STATUS.CLEARING then
    .next ((s.onEng fun g => { g with engs := g.engs.map fun e => (e.1, e.2.clearStaging) }).set EXP_SPOT_STATUS.CLEARING 0)
  else .next s

/-! ### Intake (R353 to R355) -/

/-- A spotlight packet at the pithead enters the spot buffer or is dropped (R354, R355). -/
def State.spotIntake (s : State) (k : Packet) : State :=
  let it := spotOf k
  let drop := fun (t : State) => (if it.kind = 3 then t.loseLine it.src it.sweep else t).bump PIPE_ERRCNT0.SPOT_DROP 1
  if !s.on PIPE_CTRL.EN || decide (s.get PIPE_MEM.SPOT_MIB = 0) then drop s
  else if s.spotSize < s.spotUsed + k.size then
    let t := drop s
    if t.pipe.full then t else (t.onPipe fun p => { p with full := true }).raise 0x0D03 [min 4095 ((s.spotUsed + 65535) / 65536)]
  else ((s.usesKibble).onPipe fun p => { p with spot := p.spot ++ [it], level := p.level + k.size }).reviewPipe

def execSpot (d : Bool) (k : Packet) (s : State) : Out := .next (s.onPacket d k 0x28 fun t => if t.isPithead then t.spotIntake k else t)

/-- A write of PIPE_MEM (R353). -/
def State.effPipeMem (s : State) (p : Path) (w : Nat) : State :=
  if !s.mayWrite p PIPE_MEM.SPOT_MIB then s
  else if s.on PIPE_CTRL.EN ∨ 96 < PIPE_MEM.SPOT_MIB.of w + PIPE_MEM.TBL_MIB.of w + s.get ENG_POOL.MIB + s.get CHN_INTAKE.HWM_MIB then
    s.raise 0x0D06 [w]
  else s.writeFields p 0x0D004 w

def execPipeMemWrite (p : Path) (w : Word) (s : State) : Out := .next (s.regWrite p 0x0D004 w.toNat fun t => t.effPipeMem p w.toNat)

/-- A write of PIPE_CTRL. -/
def State.effPipeCtrl (s : State) (p : Path) (w : Nat) : State := (s.writeFields p 0x0D000 w).reviewPipe

/-! ### Contexts (R358, R359) -/

/-- The context shown, and its staging copy in the registers. -/
def State.selCtx (s : State) : Nat := s.get PIPE_CTX_SEL.CTX
def State.showCtx (s : State) : State := ctxFields.foldl (fun t f => t.set f (par (t.ctx t.selCtx).staging f)) s

/-- A write of PIPE_CTX_SEL shows another context. -/
def State.effCtxSel (s : State) (p : Path) (w : Nat) : State := (s.writeFields p 0x0D00C w).showCtx

/-- A write of a parameter goes to the staging copy. -/
def State.effCtxField (s : State) (p : Path) (off w : Nat) : State :=
  let t := s.writeFields p off w
  t.setCtx t.selCtx fun c => { c with
    staging := (ctxFields.filter fun f => decide (f.off = off)).foldl (fun k f => Tbl.set f.reset k f.key (t.get f)) c.staging }

/-- Two sets of parameters name the same source and tap. -/
def sameSource (a b : Tbl Nat) : Bool :=
  decide (par a PIPE_CTX_CFG.SRC = par b PIPE_CTX_CFG.SRC ∧ par a PIPE_CTX_CFG.TAP = par b PIPE_CTX_CFG.TAP)

/-- Another context, ON or pending, has the source and tap of a copy. -/
def State.ctxClash (s : State) (c : Nat) (k : Tbl Nat) : Bool :=
  s.pipe.ctx.any fun e => decide (e.1 ≠ c) && ((e.2.on && sameSource e.2.force k) || (match e.2.pending with
    | some q => sameSource q k
    | none => false))

/-- A table that a copy uses ends beyond the table area. -/
def State.tableBeyond (s : State) (k : Tbl Nat) : Bool :=
  let size := s.get PIPE_MEM.TBL_MIB * 2 ^ 20
  (decide (par k PIPE_CTX_CFG.FLAT_EN = 1) && decide (size < 64 * par k PIPE_CTX_FLAT.BASE + 1580040)) ||
    (decide (par k PIPE_CTX_CFG.DEF_EN = 1) && decide (size < 64 * par k PIPE_CTX_DEF.BASE + 4 * par k PIPE_CTX_DEFN.COUNT))

/-- RESULT of a commit (R358); the first row that applies. -/
def State.ctxResult (s : State) (c : Nat) : Nat :=
  let k := (s.ctx c).staging
  if s.ctxClash c k then 1
  else if s.tableBeyond k then 2
  else if par k PIPE_CTX_CFG.SRC = 0 ∨ par k PIPE_CTX_CFG.SRC = 63 then 3
  else 0

/-- A write of PIPE_CTX_CMD: COMMIT, then DISABLE. -/
def State.effCtxCmd (s : State) (p : Path) (w : Nat) : State :=
  if !s.mayWrite p PIPE_CTX_CMD.COMMIT then s
  else
    let c := s.selCtx
    let s := if PIPE_CTX_CMD.COMMIT.of w = 1 then
        let r := s.ctxResult c
        s.setCtx c fun x => if r = 0 then { x with result := 0, pending := some x.staging, disable := false } else { x with result := r }
      else s
    if PIPE_CTX_CMD.DISABLE.of w = 1 then s.setCtx c fun x => { x with disable := x.on || x.pending.isSome } else s

def execPipeCtxCommit (p : Path) (s : State) : Out := .next (s.regWrite p 0x0D06C 1 fun t => t.effCtxCmd p 1)
def execPipeCtxDisable (p : Path) (s : State) : Out := .next (s.regWrite p 0x0D06C 2 fun t => t.effCtxCmd p 2)

/-- At an OPEN item of a source its pending copies and DISABLE writes take effect (R359). -/
def State.bindCtx (s : State) (src sweep c : Nat) : State :=
  let x := s.ctx c
  let named := par (x.pending.getD x.force) PIPE_CTX_CFG.SRC
  if named ≠ src then s
  else
    let t := match x.pending with
      | some k =>
        let g := (x.gen + 1) % 2 ^ 16
        (s.setCtx c fun x => { x with pending := none, force := k, on := true, gen := g }).raise 0x0D01 [c, g, sweep]
      | none => s
    if x.disable then t.setCtx c fun x => { x with disable := false, on := false } else t

/-! ### Frames (R356, R357) -/

/-- OPEN: a frame of the same source still open ends; the contexts bound to the source serve the new one. -/
def State.openFrame (s : State) (it : SpotItem) : State :=
  let s := (s.pipe.frames.filter fun f => decide (f.src = it.src)).foldl (fun t f => t.endFrame f false 0 0 0) s
  let s := (List.range 64).foldl (fun t c => t.bindCtx it.src it.sweep c) s
  let cs := (List.range 64).filter fun c => (s.ctx c).on && decide (par (s.ctx c).force PIPE_CTX_CFG.SRC = it.src)
  let f : Frame :=
    { src := it.src, inc := it.inc, sweep := it.sweep, gear := it.gear, assign := it.assign, opened := s.fwc
      lost := (s.pipe.early.filter fun e => decide (e = (it.src, it.sweep))).length
      mosaic := decide (bytesAt it.body 50 1 ≠ 0), ctxs := cs.map fun c => (c, (s.ctx c).gen, (s.ctx c).force) }
  s.onPipe fun p => { p with frames := p.frames ++ [f], early := p.early.filter fun e => decide (e ≠ (it.src, it.sweep)) }

/-- The number a stope, pass and tap are kept under in a frame. -/
def lineKey (it : SpotItem) : Nat := it.stope * 64 + it.pass * 2 + it.tap
def blackKey (it : SpotItem) : Nat := it.tap * 2 ^ 20 + it.pass * 2 ^ 16 + it.stope

/-- The context of a frame for an item's tap (R360). -/
def Frame.ctxFor (f : Frame) (it : SpotItem) : Option (Nat × Nat × Tbl Nat) := f.ctxs.find? fun c => decide (par c.2.2 PIPE_CTX_CFG.TAP = it.tap)

/-- An item that no context takes: counted, raised at most once per second (R360). -/
def State.noCtx (s : State) (it : SpotItem) : State :=
  let t := s.bump PIPE_ERRCNT0.NO_CTX 1
  let again := match s.pipe.noCtxAt with
    | none => true
    | some a => decide (a + secTicks ≤ s.fwc)
  if again then (t.onPipe fun p => { p with noCtxAt := some t.fwc }).raise 0x0D05 [it.src, it.tap, it.stope] else t

/-! ### Lines (R362 to R369) -/

/-- One value of a line after the flat stage: active x, electrons × 2⁻²⁹, flag. -/
structure Corr where
  x : Nat
  e : Int
  flag : Bool
  deriving DecidableEq, Repr

/-- The defect, black and flat stages over a line; the counts of defects fixed and left. -/
def State.correct (s : State) (f : Frame) (k : Tbl Nat) (it : SpotItem) : List Corr × Nat × Nat :=
  let vals := lineValues it
  let x0 := 1024 * (it.stope % 16)
  let y := 768 * (it.stope / 16) + firstPixel f.mosaic it.bin it.row
  let defs := if par k PIPE_CTX_CFG.DEF_EN = 1 ∧ it.bin = 0 then s.defects k else []
  let fixed := (List.range vals.length).map fun i => if defs.isEmpty then (vals.getD i (0, false), 0, 0) else defectStage f.mosaic defs x0 y vals i
  let black := Tbl.get [] f.black (blackKey it)
  ((List.range fixed.length).map fun i =>
      let v := (fixed.getD i ((0, false), 0, 0)).1
      let x := x0 + firstPixel f.mosaic it.bin i
      ⟨x, s.blackFlat k black it.gains (binCount it.bin) x y v.1, v.2⟩,
    fixed.foldl (fun n r => n + r.2.1) 0, fixed.foldl (fun n r => n + r.2.2) 0)

/-- F of a value in its output format (R365). -/
def flagOut (fmt : Nat) (c : Corr) : Bool :=
  if fmt = 0 then bit (corr32 c.e c.flag) 31 else if fmt = 1 then bit (codeOf c.e c.flag) 15 else c.flag

/-- A line enters the statistics of its context (R369). -/
def Stats.addLine (st : Stats) (k : Tbl Nat) (mosaic : Bool) (y fixed left : Nat) (cs : List Corr) : Stats :=
  let st := { st with lines := st.lines + 1, fixed := st.fixed + fixed, left := st.left + left }
  let st := cs.foldl (fun st c => st.add k mosaic c.x y c.e (flagOut (par k PIPE_CTX_CFG.FMT) c)) st
  let d := if mosaic then 2 else 1
  (List.range (cs.length - d)).foldl (fun st i =>
    let a := cs.getD i ⟨0, 0, false⟩
    let b := cs.getD (i + d) ⟨0, 0, false⟩
    if zoneAt k a.x y = zoneAt k b.x y then st.addFocus k (zoneAt k a.x y) a.e b.e else st) st

/-- The bytes of a line in formats 0 and 1. -/
def pixelBytes (fmt : Nat) (cs : List Corr) : List Nat :=
  (cs.map fun c => if fmt = 0 then leBytes (corr32 c.e c.flag) 4 else leBytes (codeOf c.e c.flag) 2).flatten

/-- The bytes of the colour cells of two rows. -/
def colourBytes (k : Tbl Nat) (mosaic : Bool) (top : List (Int × Bool)) (bottom : List Corr) : List Nat :=
  let a := fun i => top.getD i (0, false)
  let b := fun i =>
    let c := bottom.getD i ⟨0, 0, false⟩
    (c.e, c.flag)
  ((List.range (bottom.length / 2)).map fun i =>
    cellBytes (par k PIPE_CTX_CFG.FMT) (colourCell k mosaic (a (2 * i)) (a (2 * i + 1)) (b (2 * i)) (b (2 * i + 1)))).flatten

/-- A line that its context processes. -/
def State.processLine (s : State) (f : Frame) (c : Nat × Nat × Tbl Nat) (it : SpotItem) : State :=
  let k := c.2.2
  let fmt := par k PIPE_CTX_CFG.FMT
  let r := s.correct f k it
  let sr := 768 * (it.stope / 16)
  let y := sr + firstPixel f.mosaic it.bin it.row
  let key := lineKey it
  let last := Tbl.get 0 f.rows key
  let top := Tbl.get [] f.half key
  let f' := { f with
    rows := Tbl.set 0 f.rows key (it.row + 1), stats := Tbl.insert f.stats c.1 ((Tbl.get {} f.stats c.1).addLine k f.mosaic y r.2.1 r.2.2 r.1)
    half := Tbl.set [] f.half key (if 2 ≤ fmt ∧ it.row % 2 = 0 then r.1.map fun v => (v.e, v.flag) else []) }
  let t := s.setFrame f'
  let header := fun row count => blockHeader f c.1 0 row (1024 * (it.stope % 16)) count fmt it.bin it.tap c.2.1 it.time
  if fmt ≤ 1 then t.outBlock f.src f.sweep (par k PIPE_CTX_CFG.RING) 1 (header y r.1.length ++ pixelBytes fmt r.1)
  else if it.row % 2 = 1 ∧ last = it.row ∧ !top.isEmpty then
    t.outBlock f.src f.sweep (par k PIPE_CTX_CFG.RING) 1
      (header (sr + firstPixel f.mosaic it.bin (it.row - 1)) (r.1.length / 2) ++ colourBytes k f.mosaic top r.1)
  else t

/-- A BLACK or LINE item of an open frame (R357, R360). -/
def State.frameItem (s : State) (f : Frame) (it : SpotItem) : State :=
  match f.ctxFor it with
  | none => s.noCtx it
  | some c =>
    if !ctxTakes c.2.2 it.stope then s
    else if it.kind = 2 then s.setFrame { f with black := Tbl.set [] f.black (blackKey it) (toWords it.body) }
    else if it.row < Tbl.get 0 f.rows (lineKey it) then (s.bump PIPE_ERRCNT2.ORDER_DROP 1).setFrame { f with lost := f.lost + 1 }
    else s.processLine f c it

/-- An item in the pipeline. One of a frame that has ended is discarded without count (R357). -/
def State.pipeItem (s : State) (it : SpotItem) : State :=
  if it.kind = 1 then s.openFrame it
  else
    match s.frameOf it.src it.sweep with
    | none => s
    | some f =>
      if it.kind = 4 then s.endFrame f true (bytesAt it.body 0 4) (bytesAt it.body 8 4) it.time
      else if it.kind = 2 ∨ it.kind = 3 then s.frameItem f it
      else s

/-- The pipeline takes its next item: in-line buffer first, spot buffer when that is empty (R354). While PIPE is stopped it takes none (R39). -/
def execPipeItemProcess (s : State) : Out :=
  if !s.on PIPE_CTRL.EN || !s.pipeRuns then .next s
  else
    match s.pipe.inline, s.pipe.spot with
    | it :: rest, _ => .next ((s.onPipe fun p => { p with inline := rest }).pipeItem it).reviewPipe
    | [], it :: rest =>
      .next (((s.onPipe fun p => { p with spot := rest, level := p.level - it.packet.size }).reviewSpotLevel.pipeItem it).reviewPipe)
    | [], [] => .next s

/-- The frame opened first reaches FRAME_MS without its CLOSE (R356), while PIPE runs. -/
def execPipeFrameTimeout (s : State) : Out :=
  match s.pipe.frames with
  | [] => .next s
  | f :: fs =>
    let g := fs.foldl (fun a b => if b.opened < a.opened then b else a) f
    if s.pipeRuns then .next ((s.advance (g.opened + s.get PIPE_CTRL.FRAME_MS * msTicks)).endFrame g false 0 0 0).reviewPipe else .next s

end Sys2Proof.Machine
end

