-- ==== Sys2Proof/Machine/Plls.lean ====
section
/-!
DEFINITION. The reference, the PLLs and the clock outputs (ch. 13, R439 to R449). x is 0 for PLL-L, 1 for PLL-T, 2 for PLL-S.
-/
namespace Sys2Proof.Machine

/-! ### Qualification and lock -/

/-- A qualification window ends (R442) with a count of REFCLK edges; a PLL that waits for its reference starts its lock. -/
def execRefQualificationWindow (edges : Nat) (s : State) : Out :=
  if s.on PWR_CLK.CANARY_RUN then
    let was := s.on PWR_CLK.REF_PRESENT
    let ok := decide (1584 ≤ edges ∧ edges ≤ 1616)
    let t := s.putRef ok
    let t := if was && !ok then t.raise 0x0C08 [t.fwc] else t
    .next (if ok then [0, 1, 2].foldl (fun t x => if t.pllStage x = 1 then t.startLock x else t) t else t)
  else .next s

/-- The binary search ends with a band (E2 of R441). -/
def execPllBandSearchDone (x : Fin 3) (band : Fin 64) (s : State) : Out :=
  if s.pllStage x.val = 2 then .next ((s.setStage x.val 3).set (PLL_STATUS.BAND x.val) band.val) else .next s

/-- Lock is declared and the hold begins (E3, E4). -/
def execPllLockDeclared (x : Fin 3) (s : State) : Out :=
  if s.pllStage x.val = 3 then .next (s.setStage x.val 4) else .next s

/-- Start-up goes on when a PLL locks (E3 and E4 of R456): PLL-S lets the other two lock, and both of them let the foreman boot. -/
def State.startupLock (s : State) : State :=
  let l := fun x => s.on (PLL_STATUS.LOCKED x)
  if s.pwr.startup = 2 ∧ l 2 then ((s.setStage 0 1).setStage 1 1).onPwr fun p => { p with startup := 3, boot := 1 }
  else if s.pwr.startup = 3 ∧ l 0 ∧ l 1 then s.onPwr fun p => { p with startup := 4 }
  else s

/-- E5 of R441: the gates open. The canary's condition ends, the freewheel counter counts ticks again (R31), CADENCE starts anew in a
HOLD entered from READY or CAPTURE (R122), SYS runs again and queued events are delivered, and the relock of an L1 is complete. -/
def State.pllLock (s : State) (x : Nat) : State :=
  let t := (((s.setStage x 5).pllFlags x true).set (PLL_STATUS.SEARCHING x) 0).bump (PLL_CNT.LOCK_CNT x) 1
  let t := t.raise 0x0201 [x, t.get (PLL_STATUS.BAND x), t.get (PLL_STATUS.REFMODE_ACT x)]
  let t := if x = 1 then t.putBit SAF_TRIP.LIVE trPLL_T false else if x = 2 then t.putBit SAF_TRIP.LIVE trPLL_S false else t
  let t := if x = 1 then (if t.cadenceRuns then t.startCadence else t).reviewTime else t
  let t := if t.pagesUp && decide (t.pwr.boot = 0) then t.deliverHeld else t
  ((t.startupLock).actionDone 0x0202 x).reviewForcing

def execPllLocked (x : Fin 3) (s : State) : Out := if s.pllStage x.val = 4 then .next (s.pllLock x.val) else .next s

/-! ### Loss (R443 to R445) -/

/-- PLL-L's outputs stop: both ports go down and train again when it has locked (R274, R445). -/
def State.afterLossL (s : State) : State :=
  [false, true].foldl (fun t d => if t.portState d = ptDISABLED then t else t.retrain d ldPLL ptDETECT) s

/-- The lock flag of PLL-T (x 1) or PLL-S (2) falls (R445): the canary trips; without its clock it cannot, and the loss itself calls L2. -/
def State.lockFlagFalls (s : State) (x : Nat) : State :=
  if s.on PWR_CLK.CANARY_RUN then s.trip (if x = 1 then trPLL_T else trPLL_S)
  else (s.callRecovery 0x0202 x 2 false false).enterHold 0x0202

/-- A locked PLL declares a loss and what hangs on it follows: for PLL-L an L1, for PLL-T and PLL-S what their lock flag brings. -/
def State.pllLost (s : State) (x cause : Nat) : State :=
  let t := s.losePll x cause
  if x = 0 then (t.afterLossL).callRecovery 0x0202 0 1 false false
  else
    let t := t.onSaf fun f => { f with pllCause := setBit f.pllCause x true }
    (if x = 1 then t.afterLossT else t).lockFlagFalls x

/-- Five expected edges of REFCLK are missing (R443): a locked PLL loses its reference, one that is locking abandons its lock. -/
def execPllReferenceMissing (s : State) : Out :=
  .next ([0, 1, 2].foldl (fun t x =>
    if t.pllStage x = 5 then t.pllLost x 1 else if 2 ≤ t.pllStage x then t.abandonLock x else t) s)

/-- The phase error breaks a lock: a loss when LOCKED, a return to E3 in the hold (R441, R443). -/
def execPllLockBreak (x : Fin 3) (s : State) : Out :=
  if s.pllStage x.val = 5 then .next (s.pllLost x.val 0)
  else if s.pllStage x.val = 4 then .next (s.setStage x.val 3)
  else .next s

/-! ### RELOCK (R440) -/

/-- RELOCK of PLL-L or PLL-T in IDLE: the outputs are gated and the lock starts, at once where the reference is present. -/
def State.relock (s : State) (x : Nat) : State :=
  if x ≤ 1 ∧ s.power = stIDLE ∧ s.pwr.startup = 0 then
    let t := if s.on PWR_CLK.REF_PRESENT then s.startLock x else (s.pllFlags x false).setStage x 1
    if x = 0 then t.afterLossL else t.afterLossT
  else s.raise 0x0204 [x, s.power]

/-- A write of PLL_x_CFG: the trims and REFMODE for the next lock, then RELOCK where the maker's session is open. -/
def State.effPllCfg (s : State) (p : Path) (x w : Nat) : State :=
  let t := s.writeFields p (0x02000 + 16 * x) w
  if (PLL_CFG.RELOCK x).of w = 1 && t.mayWrite p (PLL_CFG.RELOCK x) then t.relock x else t

def execPllRelock (p : Path) (x : Fin 3) (w : Word) (s : State) : Out :=
  let v := w.toNat ||| 2 ^ 31
  .next (s.regWrite p (0x02000 + 16 * x.val) v fun t => t.effPllCfg p x.val v)

/-! ### Clock outputs (R447, R449) -/

/-- RESULT of the settings in PLL_CLKOUTn. -/
def State.clkoutResult (s : State) (n : Nat) : Nat :=
  let src := s.get (PLL_CLKOUT.SRC n)
  let div := s.get (PLL_CLKOUT.DIV n)
  let cmos := decide (s.get (PLL_CLKOUT.FORMAT n) = 2)
  if src = 3 then 1
  else if (src = 1 ∧ div < 4) ∨ (src = 2 ∧ div < 2) then 2
  else if cmos ∧ ((src = 1 ∧ div < 10) ∨ (src = 2 ∧ div < 5)) then 3
  else 0

/-- A write of PLL_CLKOUTn. With EN 1 already, other fields are ignored; EN 1 is checked with the values the write leaves. -/
def State.effClkout (s : State) (p : Path) (n w : Nat) : State :=
  let was := s.on (PLL_CLKOUT.EN n)
  let t := s.writeFields p (0x02040 + 4 * n) w
  if was || !t.on (PLL_CLKOUT.EN n) then t
  else
    let r := t.clkoutResult n
    let t := t.set (PLL_CLKOUT.RESULT n) r
    if r = 0 then t else (t.set (PLL_CLKOUT.EN n) 0).raise 0x0203 [n, r]

def execPllClkoutEnable (p : Path) (n : Fin 2) (w : Word) (s : State) : Out :=
  let v := w.toNat ||| 2 ^ 31
  .next (s.regWrite p (0x02040 + 4 * n.val) v fun t => t.effClkout p n.val v)

/-- CLKOUTn toggles: EN 1, its source not gated, R44 met and not forced (R449). REFCLK itself has no gate. -/
def State.clkoutRuns (s : State) (n : Nat) : Bool :=
  let src := s.get (PLL_CLKOUT.SRC n)
  s.on (PLL_CLKOUT.EN n) && !s.screenForced &&
    (if src = 0 then s.on PWR_CLK.REF_PRESENT else s.on (PLL_STATUS.LOCKED src))

end Sys2Proof.Machine
end

