-- ==== Sys2Proof/Machine/Power.lean ====
section
/-!
DEFINITION. VAON, the rails and the power commands (ch. 13, R450 to R457).
-/
namespace Sys2Proof.Machine

/-! ### VAON -/

/-- VAON becomes good (R454, R484, R522): power-on reset of every domain and register; the straps are sampled; STANDBY. -/
def execVaonGood (addr : Nat) (strap : Bool) (s : State) : Out :=
  if s.pwr.vaon then .next s
  else
    let t := s.resetDomains
    let t : State := { t with regs := [], latched := [], lnk := {}, fwc := 0, heldAon := [], i2c := { addr := addr % 8 }, strap, pwr := { perst := s.pwr.perst } }
    .next (t.raise 0x0101 [0, stSTANDBY])

/-- VAON fails: OFF from any state. What a start-up rebuilds is lost; the store keeps its cells. -/
def execVaonFail (s : State) : Out :=
  if s.pwr.vaon then
    let t := s.resetDomains
    .next { t with regs := [], latched := [], lnk := {}, fwc := 0, heldAon := [], i2c := { addr := s.i2c.addr }, pwr := { vaon := false, perst := s.pwr.perst } }
  else .next s

/-! ### Rails (R450 to R453), in the bit order of PWR_RAIL.GOOD -/

/-- The group of a rail. -/
def railGroup (i : Nat) : Nat := if i = 0 then 2 else if i ≤ 2 then 3 else if i ≤ 4 then 4 else if i = 5 then 5 else 6

/-- A rail of an earlier group is not good. -/
def State.outOfOrder (s : State) (i : Nat) : Bool :=
  (List.range 9).any fun j => decide (railGroup j < railGroup i) && !s.bitOf PWR_RAIL.GOOD j

/-- The canary's RAIL condition ends when every rail is good (R461). -/
def State.reviewRails (s : State) : State :=
  (if s.get PWR_RAIL.GOOD = 0x1FF then s.putBit SAF_TRIP.LIVE trRAIL false else s).reviewForcing

/-- A rail is marked good (R451); before a rail of an earlier group it violates the order (R452). -/
def execRailGood (i : Fin 9) (s : State) : Out :=
  if !s.pwr.vaon || s.bitOf PWR_RAIL.GOOD i.val then .next s
  else
    let bad := s.outOfOrder i.val
    let t := (s.putBit PWR_RAIL.GOOD i.val true).onPwr fun p => { p with railLow := setBit p.railLow i.val false }
    let t := if bad then (t.set PWR_RAIL.SEQ_VIOL 1).raise 0x0104 [t.get PWR_RAIL.GOOD] else t
    .next t.reviewRails

/-- A failed VDDIO, VCORE or VMID stops SYS and CADENCE and lets HOLD end only in STANDBY; another rail is a HOLD cause while it lasts
(R453, R471). -/
def State.railFatalFor (s : State) (i : Nat) : State :=
  if i ≤ 2 then (s.onSaf fun f => { f with railFatal := true }).haltCadence
  else s.onSaf fun f => { f with railCause := setBit f.railCause i true }

/-- A rail fails: above STANDBY the FAULT bit, RAIL_FAULT and HOLD (R453, R477), and the canary's trip (R461), which it watches from
the release of the internal reset. -/
def State.railFail (s : State) (i : Nat) : State :=
  if !s.bitOf PWR_RAIL.GOOD i then s
  else
    let t := s.putBit PWR_RAIL.GOOD i false
    let t := if s.above && decide (s.power ≠ 0) then
        let t := (t.putBit PWR_RAIL.FAULT i true).raise 0x0103 [i, t.fwc]
        ((t.railFatalFor i).callRecovery 0x0103 i 2 false false).enterHold 0x0103
      else t
    let t := if t.on PWR_CLK.CANARY_RUN then (t.trip trRAIL).reviewForcing else t.reviewForcing
    if s.above && decide (i ≤ 2) then t.holdDomains else t

def execRailFault (i : Fin 9) (s : State) : Out := .next (if s.pwr.vaon then s.railFail i.val else s)

/-- Every rail of groups 2 to 6 has fallen below 0.3 V (R452): each has failed, and SEQ_VIOL clears. -/
def execRailDown (s : State) : Out :=
  if s.pwr.vaon then
    let t := (List.range 9).foldl State.railFail s
    .next ((t.set PWR_RAIL.SEQ_VIOL 0).onPwr fun p => { p with railLow := 0x1FF })
  else .next s

/-! ### Commands -/

/-- A write of PWR_CMD.TARGET on a path. -/
def State.pwrCmd (s : State) (p : Path) (target : Nat) : State := s.regWrite p 0x01000 target fun t => t.effPwrCmd p target

def execPwrCmdStandby (p : Path) (s : State) : Out := .next (s.pwrCmd p stSTANDBY)
def execPwrCmdIdle (p : Path) (s : State) : Out := .next (s.pwrCmd p stIDLE)
def execPwrCmdReady (p : Path) (s : State) : Out := .next (s.pwrCmd p stREADY)
def execPwrCmdCapture (p : Path) (s : State) : Out := .next (s.pwrCmd p stCAPTURE)

/-- The commit a STANDBY command waited for has ended (R457). -/
def execStandbyAfterCommit (s : State) : Out :=
  if s.get PWR_STATUS.PENDING = stSTANDBY ∧ (s.nvs.op.map NvsOp.area).getD 0 ≠ 2 then .next s.toStandby else .next s

end Sys2Proof.Machine
end

