-- ==== Sys2Proof/Machine/Roles.lean ====
section
/-!
DEFINITION. Commands of the roles block in register form and its timers (ch. 16).
-/
namespace Sys2Proof.Machine

/-- The path number of a register path that keeps its own copy of the challenge registers (R508). -/
def ownCopy (p : Path) : Option Nat :=
  match p with
  | .bar0 => some 0
  | .i2c => some 1
  | _ => none

/-- ROL_CHAL_CMD (R509). ROLE 0 is no action; during a lockout the challenge is refused with RESULT 3. -/
def State.effChallenge (s : State) (p : Path) (w : Nat) : State :=
  match ownCopy p with
  | none => s
  | some x =>
    let role := bits w 0 2
    if !bit w 31 || decide (role = 0) then s
    else if s.lockedOut x role then s.set (ROL_SESSION_STATUS.RESULT x) 3
    else
      let r := s.challenge x role
      let t := (r.1.set (ROL_CTR_LO.C x) r.2.ctr).set (ROL_CTR_HI.C x) (r.2.ctr / 2 ^ 32)
      [0, 1, 2, 3].foldl (fun t k => t.set (ROL_NONCE.N x k) (bytesAtR r.2.nonce k)) t
where
  /-- Word k of a byte string. -/
  bytesAtR (l : List Nat) (k : Nat) : Nat := ofLeBytes ((l.drop (4 * k)).take 4)

/-- The bytes of eight words written on a path. -/
def pathBytes (t : Tbl Nat) (x : Nat) : List Nat := ((List.range 8).map fun k => leBytes (Tbl.get 0 t (8 * x + k)) 4).flatten

/-- OPEN of ROL_SESSION_CMD (R510, R512): RESULT 0 done, 1 reserved role, 2 failed, 3 locked out. -/
def State.sessionOpen (s : State) (x role : Nat) : State :=
  if role = 0 then s.set (ROL_SESSION_STATUS.RESULT x) 1
  else if s.lockedOut x role then s.set (ROL_SESSION_STATUS.RESULT x) 3
  else
    let r := s.respond x role (pathBytes s.rol.resp x)
    r.1.set (ROL_SESSION_STATUS.RESULT x) (if r.2 then 0 else 2)

/-- CLOSE of ROL_SESSION_CMD (R512). -/
def State.sessionClose (s : State) (x role : Nat) : State :=
  if role = 0 then s.set (ROL_SESSION_STATUS.RESULT x) 1 else (s.closeSession x role 0).set (ROL_SESSION_STATUS.RESULT x) 0

def State.effSessionCmd (s : State) (p : Path) (w : Nat) : State :=
  match ownCopy p with
  | none => s
  | some x =>
    let t := if bit w 31 then s.sessionOpen x (bits w 0 2) else s
    if bit w 30 then t.sessionClose x (bits w 0 2) else t

/-- Writes of ROL_RESPk, ROL_KEY_Wk and ROL_KEY_CHK are kept for the path (R508, R510, R513). -/
def State.effRolData (s : State) (p : Path) (off w : Nat) : State :=
  match ownCopy p with
  | none => s
  | some x =>
    if 0x10024 ≤ off ∧ off ≤ 0x10040 then s.onRol fun r => { r with resp := Tbl.set 0 r.resp (8 * x + (off - 0x10024) / 4) w }
    else if 0x1004C ≤ off ∧ off ≤ 0x10068 then s.onRol fun r => { r with keyW := Tbl.set 0 r.keyW (8 * x + (off - 0x1004C) / 4) w }
    else if off = 0x1006C then s.onRol fun r => { r with keyChk := Tbl.set 0 r.keyChk x w }
    else s

/-- A key replacement ends with a RESULT of R513 and a store result of R500, and is entered. -/
def State.keyResult (s : State) (x auth target result store : Nat) : State :=
  ((s.set (ROL_KEY_STATUS.RESULT x) result).set (ROL_KEY_STATUS.STORE x) store).sbEnter auth x 3 (if result = 0 then 0 else 4) 0x10070 0
    [target, result, store]

/-- ROL_KEY_CMD.GO (R513, R514): the wrapped key is unwrapped and checked, the new key is in force, sessions of its role close and its
challenges are discarded. -/
def State.keyReplace (s : State) (p : Path) (x target w : Nat) : State :=
  let auth := if target = 3 then 3 else 2
  if target = 0 then s.keyResult x 0 target 4 0
  else
    match s.sessOf x auth with
    | none => ((s.sbReject p (if auth = 3 then .maker else .installer) 0x10070 w).set (ROL_KEY_STATUS.RESULT x) 1).set (ROL_KEY_STATUS.STORE x) 0
    | some c =>
      let s := s.touchSession p (if auth = 3 then .maker else .installer)
      let nc := c.nonce ++ leBytes c.ctr 8
      let key := List.zipWith (fun a b => a ^^^ b) (pathBytes s.rol.keyW x) (hmacSha256 (s.keyOf auth) (0x57 :: nc))
      if (hmacSha256 key nc).take 4 ≠ leBytes (Tbl.get 0 s.rol.keyChk x) 4 ∨ key.all (fun b => decide (b = 0)) then
        s.keyResult x auth target 2 0
      else
        match s.storeRefuses with
        | some code => s.keyResult x auth target 3 code
        | none =>
          if Tbl.get false s.nvs.worn 154 || Tbl.get false s.nvs.worn 155 then s.keyResult x auth target 3 2 else
          let seq := (s.rol.keySeq + 1) % 65536
          let t := s.onRol fun r => { r with
            keys := Tbl.set [] r.keys target key, keySeq := seq, chal := Tbl.keep (fun k => decide (k % 4 ≠ target)) r.chal }
          let t := (t.keyResult x auth target 0 0).raise 0x1005 [target, seq]
          (t.closeSession 0 target 2).closeSession 1 target 2

def State.effKeyCmd (s : State) (p : Path) (w : Nat) : State :=
  match ownCopy p with
  | none => s
  | some x => if bit w 31 then s.keyReplace p x (bits w 0 2) w else s

/-- A write of ROL_SB_SEL shows the selected entry (R519). -/
def State.effSbSel (s : State) (w : Nat) : State :=
  let e := s.entryOf w
  let b := match e with
    | none => []
    | some e => e.bytes
  (List.range 16).foldl (fun t k => t.set (ROL_SB_W.DATA k) (ofLeBytes ((b.drop (4 * k)).take 4)))
    ((s.set ROL_SB_SEL.ENTRY w).put ROL_SB_STATUS.VALID e.isSome)

def execRolChallenge (p : Path) (role : Nat) (s : State) : Out :=
  let w := 2 ^ 31 + role % 4
  .next (s.regWrite p 0x10008 w fun t => t.effChallenge p w)
def execRolSessionOpen (p : Path) (role : Nat) (s : State) : Out :=
  let w := 2 ^ 31 + role % 4
  .next (s.regWrite p 0x10044 w fun t => t.effSessionCmd p w)
def execRolSessionClose (p : Path) (role : Nat) (s : State) : Out :=
  let w := 2 ^ 30 + role % 4
  .next (s.regWrite p 0x10044 w fun t => t.effSessionCmd p w)
def execRolKeyReplace (p : Path) (target : Nat) (s : State) : Out :=
  let w := 2 ^ 31 + target % 4
  .next (s.regWrite p 0x10070 w fun t => t.effKeyCmd p w)
def execRolSbSelWrite (p : Path) (w : Word) (s : State) : Out := .next (s.regWrite p 0x1007C w.toNat fun t => t.effSbSel w.toNat)

/-- No accepted write for the role on the path for ROL_CFG.IDLE_S seconds: the session closes with CAUSE 1 (R512). -/
def execSessionIdleTimeout (path role : Nat) (s : State) : Out :=
  match s.sessOf path role with
  | none => .next s
  | some c => .next ((s.advance (c.used + s.get ROL_CFG.IDLE_S * secTicks)).closeSession path role 1)

/-- The 60 s lockout ends (R512). -/
def execLockoutEnd (path role : Nat) (s : State) : Out :=
  match Tbl.get none s.rol.locked (rolKey path role) with
  | none => .next s
  | some t => .next ((s.advance t).onRol fun r => { r with locked := Tbl.erase r.locked (rolKey path role) })

/-- An outstanding challenge expires after 10 s (R509). -/
def execChallengeExpiry (path role : Nat) (s : State) : Out :=
  match Tbl.get none s.rol.chal (rolKey path role) with
  | none => .next s
  | some c => .next ((s.advance (c.issued + 10 * secTicks)).onRol fun r => { r with chal := Tbl.erase r.chal (rolKey path role) })

end Sys2Proof.Machine
end

