-- ==== Sys2Proof/Machine/Store.lean ====
section
/-!
DEFINITION. Commands of the non-volatile store and the self-test (ch. 15, R492 to R505).
-/
namespace Sys2Proof.Machine

/-! ### The store -/

/-- A store word write completes and is verified (R498); in a longer operation one queued shift book entry is written after each 512
words (R500). -/
def execStoreWordVerify (block err : Nat) (s : State) : Out :=
  let t := s.onNvs fun n => { n with op := n.op.map fun o => { o with words := o.words + 1 } }
  let n := (t.nvs.op.map NvsOp.words).getD 0
  let t := if 0 < n ∧ n % 512 = 0 then t.writeEntry else t
  .next (t.verify (block % 256) err)

/-- E4 and E5 of R495. An image waits for its IMG_COMMIT. `uncorr`: a source word of the working copy or of a golden was uncorrectable,
and the operation ends with UNCORR (R500). -/
def execCommitComplete (uncorr : Bool) (s : State) : Out :=
  .next (if s.nvs.img.isSome then s else if uncorr && s.copiesOut then s.endOp 7 else s.closeOp)

/-- A refused operation reports why (R500). -/
def State.refuseOp (s : State) (code : Nat) : State := s.set NVS_STATUS.LAST_RESULT code

/-- The area NVS_IMG_SEL names: 1 firmware, 7 defect map. -/
def State.imgArea (s : State) : Nat := if s.on NVS_IMG_SEL.AREA then 7 else 1


/-- IMG_OPEN (R497): word 0 of the target's index block is written 0. -/
def State.imgOpen (s : State) (p : Path) : State :=
  match s.storeRefuses with
  | some c => s.refuseOp c
  | none =>
    let b := s.nextBank s.imgArea
    let t := s.startOp 2 s.imgArea (pathNo p) 3 []
    if t.nvs.op.isNone then t
    else ((t.putImageWord (imgBlock s.imgArea b.1 * 4096) 0).set NVS_IMG_ADDR.ADDR 0).onNvs fun n => { n with img := some ⟨s.imgArea, b.1, b.2⟩ }

/-- The word address and half of image byte offset `o` (R494): data blocks follow the index block, bodies of 32 744 bytes from byte 12. -/
def imgWord (g : NvsImg) (o : Nat) : Nat × Bool :=
  let a := (imgBlock g.area g.bank + 1 + o / 32744) * 32768 + 12 + o % 32744
  (a / 8, decide (a % 8 = 4))

/-- A 32-bit half of a store word takes a value. -/
def State.putHalf (s : State) (a : Nat × Bool) (w : Nat) : State :=
  let v := s.imageWord a.1
  let v := if a.2 then v % 2 ^ 32 + w % 2 ^ 32 * 2 ^ 32 else v / 2 ^ 32 * 2 ^ 32 + w % 2 ^ 32
  s.putImageWord a.1 v

/-- IMG_DATA (R497): a word at NVS_IMG_ADDR, which advances by 4. An address beyond the last data block places nothing. A write to a block
marked WORN is refused at once (R498). -/
def State.imgData (s : State) (w : Nat) : State :=
  match s.nvs.img with
  | none => s.refuseOp 5
  | some g =>
    let o := s.get NVS_IMG_ADDR.ADDR
    if Tbl.get false s.nvs.worn (imgBlock g.area g.bank + 1 + o / 32744) && decide (o / 32744 + 1 < imgBlocks g.area) then s.endOp 2 else
    let t := if o / 32744 + 1 < imgBlocks g.area then s.putHalf (imgWord g o) w else s
    t.set NVS_IMG_ADDR.ADDR (o + 4)

/-- The image bytes from 0 up, `n` words. -/
def State.imgBytes (s : State) (g : NvsImg) (n : Nat) : List Nat :=
  ((List.range n).map fun i =>
    let a := imgWord g (4 * i)
    let v := s.imageWord a.1
    leBytes (if a.2 then v / 2 ^ 32 else v % 2 ^ 32) 4).flatten

/-- The words of one record: head, body, CRC. -/
def State.putRecord (s : State) (g : NvsImg) (index : Nat) (body : List Nat) : State :=
  let head := leBytes g.area 2 ++ [g.bank, index] ++ leBytes g.seq 2 ++ zeroBytes 2 ++ leBytes body.length 4
  let all := head ++ body ++ zeroBytes (32760 - 12 - body.length)
  let all := all ++ leBytes (crc32 all) 4 ++ zeroBytes 4
  let base := (imgBlock g.area g.bank + index) * 4096
  (List.range 4096).foldl (fun t i => t.putImageWord (base + i) (ofLeBytes ((all.drop (8 * i)).take 8))) s

/-- The records of a finished image: its data blocks, then the index block with N_BLOCKS and CRC_SET. The VERSION of an image is not
stated: a free value. -/
def State.putImage (s : State) (g : NvsImg) (bytes : List Nat) : State :=
  let k := (bytes.length + 32743) / 32744
  let t := (List.range k).foldl (fun t i => t.putRecord g (i + 1) ((bytes.drop (32744 * i)).take 32744)) s
  let v := t.free
  v.2.putRecord g 0 (leBytes (k + 1) 4 ++ leBytes (crc32 bytes) 4 ++ leBytes v.1 4)

/-- IMG_COMMIT (R497): the image CRC decides between E4 and E5 of R495 and result CRC. -/
def State.imgCommit (s : State) : State :=
  match s.nvs.img with
  | none => s.refuseOp 5
  | some g =>
    let bytes := s.imgBytes g (s.get NVS_IMG_ADDR.ADDR / 4)
    if crc32 bytes = s.get NVS_IMG_CRC.CRC then (s.putImage g bytes).closeOp else s.endOp 4

/-- Every register of the map, field by field. -/
def allFields : List Field := (regMap.map fun e => ((List.range e.count).map e.fields).flatten).flatten

/-- Registers that are windows onto memory or tables and hold no setting of their own. -/
def isWindow (off : Nat) : Bool :=
  decide (off = 0x0A018 ∨ off = 0x0A01C ∨ (0x0B034 ≤ off ∧ off ≤ 0x0B03C) ∨ (0x0406C ≤ off ∧ off ≤ 0x04080))

/-- The fields of the installer record: RW/I and RWS/I of pages 0x02 to 0x0E (R493). -/
def installerFields : List Field :=
  allFields.filter fun f => decide (f.role = some .installer ∧ (f.acc = .rw ∨ f.acc = .rws) ∧ 2 ≤ pageOf f.off ∧ pageOf f.off ≤ 0x0E) && !isWindow f.off

/-- What the fields hold, one more than each value, by `Field.key`. -/
def State.snapshot (s : State) (fs : List Field) : Tbl Nat := fs.foldl (fun t f => Tbl.set 0 t f.key (s.get f + 1)) []

/-- SAVE_INST (R495). -/
def State.saveInst (s : State) (p : Path) : State :=
  match s.storeRefuses with
  | some c => s.refuseOp c
  | none => s.startOp 3 3 (pathNo p) 2 (s.snapshot installerFields)

/-- A write of NVS_CMD: each action bit whose role is held. -/
def State.effNvsCmd (s : State) (p : Path) (w : Nat) : State :=
  let go := fun (t : State) (f : Field) => decide (f.of w = 1) && t.mayWrite p f
  let t := if go s NVS_CMD.SAVE_INST then s.saveInst p else s
  let t := if go t NVS_CMD.IMG_OPEN then t.imgOpen p else t
  if go t NVS_CMD.IMG_COMMIT then t.imgCommit else t

/-- A write of NVS_IMG_DATA by a path that holds the maker's session. -/
def State.effImgData (s : State) (p : Path) (w : Nat) : State := if s.mayWrite p NVS_IMG_DATA.DATA then s.imgData w else s

def execNvsImgOpen (p : Path) (s : State) : Out := .next (s.regWrite p 0x0F00C 4 fun t => t.effNvsCmd p 4)
def execNvsImgDataWrite (p : Path) (w : Word) (s : State) : Out := .next (s.regWrite p 0x0F018 w.toNat fun t => t.effImgData p w.toNat)
def execNvsImgCommit (p : Path) (s : State) : Out := .next (s.regWrite p 0x0F00C 8 fun t => t.effNvsCmd p 8)
def execNvsSaveInst (p : Path) (s : State) : Out := .next (s.regWrite p 0x0F00C 2 fun t => t.effNvsCmd p 2)

/-- A read of NVS_RD_DATA_LO: the word, HI and status latched (R499). -/
def State.readRdLo (s : State) (err : Nat) : State × Nat := s.readStore err
/-- A read of NVS_RD_DATA_HI: the latched word; the address advances. -/
def State.readRdHi (s : State) : State × Nat := (s.set NVS_RD_ADDR.WORD (s.get NVS_RD_ADDR.WORD + 1), s.nvs.rdHi)

def execNvsRdDataLoRead (p : Path) (err : Nat) (s : State) : Out :=
  if s.answers p 0x0F024 then
    let r := s.readRdLo err
    .next { r.1 with answer := r.2 }
  else .next { s with answer := 0 }

def execNvsRdDataHiRead (p : Path) (s : State) : Out :=
  if s.answers p 0x0F028 then
    let r := s.readRdHi
    .next { r.1 with answer := r.2 }
  else .next { s with answer := 0 }

/-- A block queued by a 2-bit read error is rewritten in place once no other operation runs, and verified (R499, R498). -/
def execStoreRewrite (err : Nat) (s : State) : Out :=
  match s.nvs.rewrite with
  | [] => .next s
  | b :: rest => .next (if s.on NVS_STATUS.BUSY then s else (s.onNvs fun n => { n with rewrite := rest }).verify b err)

/-- A queued shift book entry is written to its slot (R518); a coalescing entry that has been open for 100 ms closes first (R516), as
one does that nothing precedes in the queue. -/
def execShiftBookEntryWrite (s : State) : Out :=
  let t := match s.nvs.sbOpen with
    | some (_, t0) => if t0 + 100 * msTicks ≤ s.fwc ∨ s.nvs.sbQueue.isEmpty then s.sbClose else s
    | none => s
  .next t.writeEntry

/-! ### BIST by command (R501 to R503) -/

/-- The number a target's golden is kept under: all engines share one. -/
def goldOf (target : Nat) : Nat := if target ≤ 0x107 then 0 else target

/-- The golden of a target, none where there is none (R502). -/
def State.golden (s : State) (target : Nat) : Option Nat :=
  match s.inBank 5 with
  | none => none
  | some (_, q) =>
    match Tbl.get 0 (s.bankContent 5) (goldOf target) with
    | 0 => some (Config.storeWord (2 ^ 21 + goldOf target) q % 2 ^ 64)
    | g + 1 => some g

/-- A target's condition and kind allow a run (R501). -/
def State.bistAllowed (s : State) (target kind : Nat) : Bool :=
  let idle := decide (s.power = stIDLE ∨ s.power = stHOLD ∨ s.power = stSAFETALK)
  if target ≤ 0x107 then
    decide ((s.engine target).st ≠ 1) && (s.bitOf ENG_STATUS.QRUN (quadrantOf target) || decide (s.power = stSAFETALK))
  else if target = 0x110 then idle && decide (kind = 1)
  else if 0x111 ≤ target ∧ target ≤ 0x114 then idle && decide (kind = 0)
  else if target = 0x115 then
    decide (kind = 0) && decide (s.get (LNK_STATE.STATE 0) = 0) && decide (s.get (LNK_STATE.STATE 1) = 0)
  else false

/-- GO (R501). While a run is in progress a further GO does nothing. -/
def State.bistGo (s : State) (target kind : Nat) : State :=
  if s.on BIST_STATUS.BUSY then s
  else
    let t := (s.set BIST_STATUS.TARGET target).set BIST_STATUS.KIND kind
    if s.bistAllowed target kind then
      let t := ((t.set BIST_STATUS.BUSY 1).set BIST_STATUS.RESULT 0).onNvs fun n => { n with bist := some (target, kind) }
      if target ≤ 0x107 && !t.bitOf ENG_STATUS.QRUN (quadrantOf target) then
        (t.putBit ENG_STATUS.QRUN (quadrantOf target) true).onNvs fun n => { n with bistQuad := some (quadrantOf target) }
      else t
    else t.set BIST_STATUS.RESULT 3

/-- A write of BIST_CMD. -/
def State.effBistCmd (s : State) (w : Nat) : State :=
  if BIST_CMD.GO.of w = 1 then s.bistGo (BIST_CMD.TARGET.of w) (BIST_CMD.KIND.of w) else s

def execBistLbist (p : Path) (target : Nat) (s : State) : Out :=
  let w := 2 ^ 31 + target % 512
  .next (s.regWrite p 0x12000 w fun t => t.effBistCmd w)
def execBistMbist (p : Path) (target : Nat) (s : State) : Out :=
  let w := 2 ^ 31 + 2 ^ 24 + target % 512
  .next (s.regWrite p 0x12000 w fun t => t.effBistCmd w)

/-- A march leaves the kibble store 0 (R501): every byte that waits in it, and the table area. -/
def State.zeroKibble (s : State) : State :=
  let z := fun (l : List Nat) => zeroBytes l.length
  let item := fun (it : SpotItem) => { it with body := z it.body }
  let t := (s.onPipe fun p => { p with table := [], blank := true, spot := p.spot.map item }).onSpot fun p => { p with queue := p.queue.map item }
  let t := t.onHst fun h => { h with waiting := h.waiting.map fun it => { it with bytes := z it.bytes } }
  let t := t.onEng fun g => { g with out := g.out.map fun o => { o with streams := o.streams.map fun e => (e.1, z e.2) } }
  t.onChn fun c => { c with
    build := c.build.map fun e => (e.1, e.2.map fun b => { b with hdr := z b.hdr, keys := z b.keys, deltas := z b.deltas, stat := z b.stat, aux := z b.aux })
    queue := c.queue.map fun e => (e.1, e.2.map fun k => if k.vc = 6 then { k with payload := z k.payload } else k) }

/-- What a completed run leaves in its block (R501). -/
def State.afterBist (s : State) (target kind : Nat) : State :=
  if target ≤ 0x107 then (if kind = 1 then s.setEngine target fun g => { g with mem := [], bad := [] } else s)
  else if target = 0x110 then s.zeroKibble
  else if target = 0x111 then ((s.setTrk false fun _ => {}).setTrk true fun _ => {}).reviewMeas
  else if target = 0x114 then
    (s.onPipe fun p => { p with ctx := p.ctx.map fun e => (e.1, { e.2 with on := false, pending := none, disable := false }) }).reviewPipe
  else s

/-- A run completes: an LBIST compares its signature with the golden, an MBIST counts failing words (R502). -/
def execBistDone (sig failCnt addr : Nat) (s : State) : Out :=
  match s.nvs.bist with
  | none => .next s
  | some (target, kind) =>
    let t := (s.endBist).afterBist target kind
    let t := if kind = 0 then (t.set BIST_SIG_LO.SIG sig).set BIST_SIG_HI.SIG (sig / 2 ^ 32)
      else (t.set BIST_FAIL.FAIL_CNT (min 65535 failCnt)).set BIST_FAIL_ADDR.ADDR addr
    let r := if kind = 1 then (if failCnt = 0 then 1 else 2)
      else match s.golden target with
        | none => 4
        | some g => if g = sig % 2 ^ 64 then 1 else 2
    let t := t.set BIST_STATUS.RESULT r
    .next (if r = 1 then t.raise 0x1202 [target, kind] else t.raise 0x1203 [target, kind, if kind = 1 then failCnt else 0])

/-- BIST_GOLD_CMD.COMMIT after an LBIST whose RESULT is 1 or 2: the signature becomes the golden of its target (R503). -/
def State.goldCommit (s : State) (p : Path) : State :=
  if s.on BIST_STATUS.KIND || s.on BIST_STATUS.BUSY || decide (s.get BIST_STATUS.RESULT ≠ 1 ∧ s.get BIST_STATUS.RESULT ≠ 2) then s
  else
    match s.storeRefuses with
    | some c => s.refuseOp c
    | none =>
      let sig := s.get BIST_SIG_LO.SIG + s.get BIST_SIG_HI.SIG * 2 ^ 32
      s.startOp 4 5 (pathNo p) 3 (Tbl.set 0 (s.bankContent 5) (goldOf (s.get BIST_STATUS.TARGET)) (sig + 1))

def State.effGoldCmd (s : State) (p : Path) (w : Nat) : State :=
  if BIST_GOLD_CMD.COMMIT.of w = 1 && s.mayWrite p BIST_GOLD_CMD.COMMIT then s.goldCommit p else s

def execBistGoldCommit (p : Path) (s : State) : Out := .next (s.regWrite p 0x12024 1 fun t => t.effGoldCmd p 1)

end Sys2Proof.Machine
end

