-- ==== Sys2Proof/Machine/RegisterAccess.lean ====
section
/-!
DEFINITION. A read and a write of any word of the register space on any path (ch. 01): what each register reads as, the words a read latches
(R16), and the effect of a write.
-/
namespace Sys2Proof.Machine

/-! ### What registers read as. Each function puts the present values into the fields of the register at an offset that follow other state. -/

/-- Pages 0x02 and 0x03. -/
def State.showClocks (s : State) (off : Nat) : State :=
  if off = 0x02048 then s.set PLL_CLKOUT_STATUS.RUNNING (ofBool (s.clkoutRuns 0) + 2 * ofBool (s.clkoutRuns 1))
  else if off = 0x03004 then
    let t := ((s.put SAF_STATUS.SCREEN_FORCED s.screenForced).put SAF_STATUS.DATA_FORCED s.dataForced).put SAF_STATUS.FAULT_N s.faultN
    if s.get SAF_STATUS.LEVEL = 0 then t else t.set SAF_STATUS.ELAPSED_MS (min 65535 ((s.fwc - s.saf.since) / msTicks))
  else s

/-- Page 0x04. TIM_NOW0 to TIM_NOW6 describe the present count (R375). -/
def State.showTime (s : State) (off : Nat) : State :=
  let now := s.timeNow
  let rem := unsigned 64 s.slewRem
  let mains := decide (s.get TIM_PUB_SEL.KIND = 1)
  let hold := s.set TIM_STATUS.HOLD_S s.holdSeconds
  if off = 0x04004 then hold
  else if off = 0x04008 then (s.set TIM_NOW0.FLAGS (hold.word (fieldsAt 0x04004) / 2 ^ 24)).set TIM_NOW0.FRAC (timeFrac now)
  else if off = 0x0400C then s.set TIM_NOW1.NS (timeNs now)
  else if off = 0x04010 then s.set TIM_NOW2.SEC (timeSec now)
  else if off = 0x04014 then s.set TIM_NOW3.SEC (timeSec now / 2 ^ 32)
  else if off = 0x04018 then s.set TIM_NOW4.FWC s.fwc
  else if off = 0x0401C then s.set TIM_NOW5.FWC (s.fwc / 2 ^ 32)
  else if off = 0x04020 then s.set TIM_NOW6.FWC (s.fwc / 2 ^ 64)
  else if off = 0x0403C then s.set TIM_SLEW_REM_LO.REM rem
  else if off = 0x04040 then s.set TIM_SLEW_REM_HI.REM (rem / 2 ^ 32)
  else if off = 0x0406C then s.set TIM_PUB_W0.EP_NS (s.pubWord mains 0)
  else if off = 0x04070 then s.set TIM_PUB_W1.EP_SEC_LO (s.pubWord mains 1)
  else if off = 0x04074 then (s.set TIM_PUB_W2.EP_FRAC (s.pubWord mains 2 / 65536)).set TIM_PUB_W2.EP_SEC_HI (s.pubWord mains 2)
  else if off = 0x04078 then s.set TIM_PUB_W3.PER_LO (s.pubWord mains 3)
  else if off = 0x0407C then s.set TIM_PUB_W4.PER_HI (s.pubWord mains 4)
  else if off = 0x04080 then s.set TIM_PUB_W5.FRAME (s.pubWord mains 5)
  else s

/-- The entry of the shadow table at CAD_SHD_ADDR, and of the active one at CAD_ACT_ADDR. -/
def State.shdEntry (s : State) : Nat := Tbl.get 0 s.cad.shd (s.get CAD_SHD_ADDR.ADDR)
def State.actEntry (s : State) : Nat := Tbl.get 0 s.cad.act (s.get CAD_ACT_ADDR.ADDR)

/-- A field of R80 holds a value that is not in force. -/
def State.valuesPending (s : State) : Bool := pendingFields.any fun f => decide (s.get f ≠ s.inForce f)

/-- Pages 0x05 and 0x06. -/
def State.showImaging (s : State) (off : Nat) : State :=
  let q := qpKey (s.get EXP_QP_SEL.TAP) (s.get EXP_QP_SEL.GROUP)
  if off = 0x05060 then s.set CAD_SHD_LO.LO s.shdEntry
  else if off = 0x05064 then s.set CAD_SHD_HI.HI (s.shdEntry / 2 ^ 32)
  else if off = 0x05074 then s.set CAD_ACT_LO.LO s.actEntry
  else if off = 0x06800 then (if s.mono then s.set EXP_ARRAY_ID.MOSAIC 0 else s)
  else if off = 0x06808 then s.put EXP_ARRAY_STATUS.PENDING s.valuesPending
  else if off = 0x06878 then (s.set EXP_QP_VAL.QP (s.coef q)).put EXP_QP_VAL.FACTORY (!Tbl.get false s.cnv.accepted q)
  else s

/-- Pages 0x07 and 0x08. DESIGN CHOICE (notes/assumptions/50.md): CNV_BANK_STATUS.STRIKES, 3 bits wide, shows a bank's count modulo 8. -/
def State.showConvert (s : State) (off : Nat) : State :=
  let b := s.get CNV_COEF_SEL.BANK
  let k := fun kind => s.coef (coefKey kind b (s.get CNV_COEF_SEL.SLICE) (s.get CNV_COEF_SEL.GAIN))
  if off = 0x0700C then s.set CNV_COEF_OFS.OFS (k 1)
  else if off = 0x07010 then s.set CNV_COEF_GAIN.GAIN (k 2)
  else if off = 0x07014 then s.set CNV_COEF_SKEW.SKEW (k 3)
  else if off = 0x07018 then
    let x := s.bank b
    ((((((s.set CNV_BANK_STATUS.OLDEST_AGE (s.oldestAge b)).set CNV_BANK_STATUS.SPARE x.spare).set CNV_BANK_STATUS.PARKED x.parked).set
      CNV_BANK_STATUS.STRIKES x.strikes).put CNV_BANK_STATUS.FAILED x.failed).put CNV_BANK_STATUS.DEGRADED x.degraded).put
      CNV_BANK_STATUS.RECAL_PENDING x.recal
  else if off = 0x08010 then s.set CAL_STATUS.AGED s.agedKinds
  else if off = 0x08048 then s.showBase
  else s

/-- Page 0x0A. -/
def State.showEngine (s : State) (off : Nat) : State :=
  let g := s.engine s.selEngine
  if off = 0x0A004 then s.reviewEngines
  else if off = 0x0A010 then
    let x := s.stopeOf s.selEngine
    (((s.put ENG_STATE.MAPPED x.isSome).set ENG_STATE.STOPE (x.getD 0)).set ENG_STATE.FAULT g.fault).set ENG_STATE.STATE g.st
  else if off = 0x0A014 then s.set ENG_PC.PC (g.stopPc / 4)
  else if off = 0x0A060 then (s.set ENG_ECC.CORR_CNT g.corr).set ENG_ECC.UNCORR_CNT g.uncorr
  else s

/-- Pages 0x0B and 0x0C. -/
def State.showChain (s : State) (off : Nat) : State :=
  let p := s.peer (s.get CHN_PEER_SEL.TALLY)
  let e := s.asgEntry
  if off = 0x0B008 then s.put CHN_STATE.BENCHED (decide (s.get CHN_STATE.STATE = 2) && decide (s.enables = 0))
  else if off = 0x0B034 then s.set CHN_ASG_BASE.SLOT_BASE e.base
  else if off = 0x0B038 then s.set CHN_ASG_LO.OWN_LO e.lo
  else if off = 0x0B03C then (s.put CHN_ASG_HI.VALID e.valid).set CHN_ASG_HI.OWN_HI e.hi
  else if off = 0x0B050 then
    (((((s.put CHN_PEER_STATUS.JOINED p.joined).put CHN_PEER_STATUS.DEAD p.dead).put CHN_PEER_STATUS.QUARANTINED p.quarantined).set
      CHN_PEER_STATUS.INC p.inc).set CHN_PEER_STATUS.MISSED (min 255 p.missed)).set CHN_PEER_STATUS.HOPS (min p.hopsU p.hopsD)
  else if off = 0x0B054 then s.set (CHN_PEER_SERIAL.SERIAL 0) p.serial
  else if off = 0x0B058 then s.set (CHN_PEER_SERIAL.SERIAL 1) (p.serial / 2 ^ 32)
  else if off = 0x0C800 then s.put LNK_REF_STATUS.PLL_L_LOCK (s.on (PLL_STATUS.LOCKED 0))
  else s

/-- Pages 0x0D and 0x0F to 0x12. LOCKED is that of the reading path. -/
def State.showRest (s : State) (p : Path) (off : Nat) : State :=
  if off = 0x0D008 then s.reviewPipe
  else if off = 0x0D070 then
    let c := s.ctx s.selCtx
    (((s.put PIPE_CTX_STATUS.ON c.on).put PIPE_CTX_STATUS.PENDING c.pending.isSome).set PIPE_CTX_STATUS.RESULT c.result).set PIPE_CTX_STATUS.GEN c.gen
  else if off = 0x0F034 then
    let b := s.get NVS_BLK_SEL.BLOCK
    let phys := match Tbl.get 0 s.nvs.phys b with
      | 0 => b
      | n + 1 => n
    (((s.put NVS_BLK_INFO.RETIRED (Tbl.get false s.nvs.moved b)).put NVS_BLK_INFO.WORN (Tbl.get false s.nvs.worn b)).set NVS_BLK_INFO.PHYS phys).set
      NVS_BLK_INFO.CORR_CNT (Tbl.get 0 s.nvs.corr b)
  else if off = 0x12018 then s.set BIST_GOLD_LO.GOLD ((s.golden (s.get BIST_STATUS.TARGET)).getD 0)
  else if off = 0x1201C then s.set BIST_GOLD_HI.GOLD ((s.golden (s.get BIST_STATUS.TARGET)).getD 0 / 2 ^ 32)
  else if off = 0x11008 then s.set I2C_STATUS.ADDR (0x58 + s.i2c.addr)
  else if off = 0x10000 then s.set ROL_STATUS.LOCKED (s.lockedMask (pathNo p))
  else s

/-- The state with the fields of one register as they read. -/
def State.show (s : State) (p : Path) (off : Nat) : State :=
  let page := pageOf off
  if page = 0x02 ∨ page = 0x03 then s.showClocks off
  else if page = 0x04 then s.showTime off
  else if page = 0x05 ∨ page = 0x06 then s.showImaging off
  else if page = 0x07 ∨ page = 0x08 then s.showConvert off
  else if page = 0x0A then s.showEngine off
  else if page = 0x0B ∨ page = 0x0C then s.showChain off
  else s.showRest p off

/-- The word of a register as it stands; reserved bits and unoccupied offsets read 0 (R14, R15), and write-only fields read 0. -/
def State.liveWord (s : State) (p : Path) (off : Nat) : Nat :=
  (s.show p off).word ((fieldsAt (pathOffset p off)).filter fun f => decide (f.acc ≠ .wo))

/-! ### Values wider than a word (R16) -/

/-- The lowest word of a value and how many higher words it has. The values of the tables, of the store and of CAD_ACT have their own way.
ROL_NONCE0 to ROL_NONCE3, the mask registers and the matrix are no values of this kind: their maps name no latch and no commit, and each word
is a register of its own, DESIGN CHOICE (notes/assumptions/55.md). -/
def wideLows : List (Nat × Nat) := [
  (0x0301C, 2), (0x0302C, 2), (0x04008, 6), (0x04028, 2), (0x0403C, 1), (0x0406C, 5), (0x04104, 2), (0x04124, 2), (0x04144, 2), (0x04164, 2),
  (0x05060, 1), (0x05080, 1), (0x0508C, 1), (0x050AC, 2), (0x08014, 1), (0x0801C, 1), (0x08024, 1), (0x0B020, 1), (0x0B028, 1), (0x0B034, 2),
  (0x0B054, 1), (0x0C014, 1), (0x0C414, 1), (0x12010, 1), (0x12018, 1), (0x1001C, 1)]

/-- Higher words of the value whose lowest word is at an offset. -/
def higherWords (off : Nat) : List Nat :=
  let n := match wideLows.find? fun e => decide (e.1 = off) with
    | some e => e.2
    | none => if 0x0E100 ≤ off ∧ off < 0x0E600 ∧ off % 16 = 0 then 1 else 0
  (List.range n).map fun i => off + 4 * (i + 1)

/-- A word as a read returns it: latched where a read of the lowest word latched it. -/
def State.shownWord (s : State) (p : Path) (off : Nat) : Nat :=
  match Tbl.get 0 s.latched (pathOffset p off) with
  | 0 => s.liveWord p off
  | n + 1 => n

/-- A read of an ordinary register: the word, and the higher words latched. -/
def State.readPlain (s : State) (p : Path) (off : Nat) : State × Nat :=
  ((higherWords off).foldl (fun t o => { t with latched := Tbl.set 0 t.latched (pathOffset p o) (s.liveWord p o + 1) }) s, s.shownWord p off)

/-- A read of the register space. Reads need no session (R13). -/
def State.readWord (s : State) (p : Path) (off : Nat) : State × Nat :=
  if !s.answers p off then (s, 0)
  else if isMsix off then (s, s.readMsix off)
  else if isPerPath off && decide (pathNo p ≥ 2) then (s, 0)
  else if off = 0x05074 then
    let e := s.actEntry
    (s.set CAD_ACT_HI.HI (e / 2 ^ 32), e % 2 ^ 32)
  else if off = 0x05078 then s.readActHi
  else if off = 0x0A01C then s.readMemData p
  else if off = 0x0F024 then s.readRdLo 0
  else if off = 0x0F028 then s.readRdHi
  else s.readPlain p off

/-- Row WIDE_REGISTER_READ: a read of any word; that of a lowest word latches the higher words. -/
def execWideRegisterRead (p : Path) (off : Nat) (s : State) : Out :=
  let r := s.readWord p off
  .next { r.1 with answer := r.2 }

/-! ### Writes -/

/-- Counters become 0. -/
def clearAt (offs : List Nat) (s : State) : State := s.zeros ((offs.flatMap fieldsAt).filter fun f => decide (f.acc = .ro))

/-- The registers an ERRCLR register clears. -/
def clearedBy (off : Nat) : List Nat :=
  if off = 0x01018 then [0x01014]
  else if off = 0x0204C then [0x02008, 0x02018, 0x02028]
  else if off = 0x03040 then [0x03038, 0x0303C]
  else if off = 0x0408C then [0x04084, 0x04088]
  else if off = 0x050A8 then [0x050A0, 0x050A4]
  else if off = 0x06034 then [0x06030]
  else if off = 0x06410 then [0x0640C]
  else if off = 0x06884 then [0x0687C, 0x06880]
  else if off = 0x08040 then [0x0802C, 0x08030, 0x08034, 0x08038, 0x0803C]
  else if off = 0x0A06C then [0x0A064, 0x0A068]
  else if off = 0x0B074 then [0x0B060, 0x0B064, 0x0B068, 0x0B06C, 0x0B070]
  else if off = 0x0C02C ∨ off = 0x0C42C then
    [off - 12, off - 8, off - 4] ++ (List.range 8).map fun n => off - 0x2C + 0x80 + 4 * n
  else if off = 0x0D080 then [0x0D074, 0x0D078, 0x0D07C]
  else if off = 0x0E028 then [0x0E01C, 0x0E020, 0x0E024]
  else if off = 0x0F040 then [0x0F038, 0x0F03C]
  else if off = 0x100C8 then [0x100C4]
  else if off = 0x11014 then [0x1100C, 0x11010]
  else []

/-- A write of an ERRCLR register: 1 in CLEAR clears its counters. -/
def State.effErrclr (s : State) (off w : Nat) : State :=
  if bit w 0 then
    if off = 0x0204C then s.zeros [PLL_CNT.LOSS_CNT 0, PLL_CNT.LOSS_CNT 1, PLL_CNT.LOSS_CNT 2]
    else if off = 0x09018 then (s.set MON_STATUS.OVERRUN_CNT 0).onMon fun m => { m with overrun := false }
    else
      let t := clearAt (clearedBy off) s
      if off = 0x0A06C then t.onEng fun e => { e with engs := e.engs.map fun x => (x.1, { x.2 with corr := 0, uncorr := 0 }) } else t
  else s

/-- Fields of R80 at an offset that a write in CAPTURE changes wait for a commit; a write in any other state that the field takes is no longer
held for one (R80). -/
def State.notePending (t s : State) (p : Path) (off w : Nat) : State :=
  let fs := (fieldsAt off).filter pendingFields.contains
  if s.power = stCAPTURE then
    let ks := (fs.filter fun f => decide (t.get f ≠ s.get f)).map Field.key
    t.onCad fun c => { c with waits := ks.filter (fun k => !c.waits.contains k) ++ c.waits }
  else
    let ks := (fs.filter fun f => s.mayWrite p f && decide (t.get f = f.of w)).map Field.key
    t.onCad fun c => { c with waits := c.waits.filter fun k => !ks.contains k }

/-- What a write does in pages 0x01 to 0x04. -/
def State.effClocks (s : State) (p : Path) (off w : Nat) : State :=
  if off = 0x01000 then s.effPwrCmd p w
  else if off = 0x02000 ∨ off = 0x02010 ∨ off = 0x02020 then s.effPllCfg p ((off - 0x02000) / 16) w
  else if off = 0x02040 ∨ off = 0x02044 then s.effClkout p ((off - 0x02040) / 4) w
  else if off = 0x03000 then (s.writeFields p off w).releaseL2
  else if off = 0x03008 then s.effTrip p w
  else if off = 0x03014 then s.effSafCmd p w
  else if off = 0x04024 then s.effTimRate p w
  else if off = 0x04028 ∨ off = 0x0402C then s.effTimStage p off w
  else if off = 0x04030 then s.effTimStep p w
  else if off = 0x04034 then s.effTimAccept p w
  else if off = 0x04038 then s.effTimSlew p w
  else if 0x0406C ≤ off ∧ off ≤ 0x04080 then s.effPubWord p ((off - 0x0406C) / 4) w
  else if off = 0x04100 ∨ off = 0x04120 ∨ off = 0x04140 ∨ off = 0x04160 then s.effTpCfg p ((off - 0x04100) / 32) w
  else if off = 0x0410C ∨ off = 0x0412C ∨ off = 0x0414C ∨ off = 0x0416C then s.effTpStart2 p ((off - 0x0410C) / 32) w
  else if pageOf off = 4 then (s.writeFields p off w).reviewTime
  else s.writeFields p off w

/-- A binning code that is not allowed (R79). -/
def State.binDenied (s : State) (v : Nat) : Bool := decide ((v = 1 ∧ s.get EXP_BIN_ALLOW.ALLOW1 = 0) ∨ (v = 2 ∧ s.get EXP_BIN_ALLOW.ALLOW2 = 0))

/-- A write of EXP_BINw: each code that is not allowed leaves its field unchanged and raises BIN_DENIED (R79). -/
def State.effBin (s : State) (p : Path) (off w : Nat) : State :=
  ((fieldsAt off).filter fun f => s.mayWrite p f && s.binDenied (f.of w)).foldl
    (fun t f => t.raise 0x0644 [16 * ((f.off - 0x06830) / 4) + f.lo / 2, f.of w]) (s.writeFields p off w)

/-- What a write does in pages 0x05 to 0x0A. -/
def State.effUnit (s : State) (p : Path) (off w : Nat) : State :=
  if off = 0x05004 then s.effCadSrc p w
  else if off = 0x0505C then s.effShdAddr p w
  else if off = 0x05060 then s.effShdLo p w
  else if off = 0x05064 then s.effShdHi p w
  else if off = 0x05068 then s.effSwap p w
  else if off = 0x06000 then s.effMode p w
  else if off = 0x06028 then (s.writeFields p off w).reviewMreq
  else if off = 0x06400 then s.effSpotCtrl p w
  else if 0x06810 ≤ off ∧ off ≤ 0x0682C then (s.writeFields p off w).reviewEngines
  else if 0x06830 ≤ off ∧ off ≤ 0x0686C then s.effBin p off w
  else if off = 0x08008 then s.effCalLimit p w
  else if off = 0x08048 then s.effBaseVal p w
  else if off = 0x0804C then s.effBaseCmd p w
  else if off = 0x09000 then s.effMonCtrl p w
  else if off = 0x0A000 then s.effEngCtrl p w
  else if off = 0x0A018 then s.effMemAddr p w
  else if off = 0x0A01C then s.effMemData p w
  else if off = 0x0A058 then s.effRemap p w
  else s.writeFields p off w

/-- What a write does in pages 0x0B to 0x0D. -/
def State.effChain (s : State) (p : Path) (off w : Nat) : State :=
  let o := off % 0x400
  let d := decide (0x0C400 ≤ off)
  if off = 0x0B000 then s.effChnCtrl p w
  else if off = 0x0B014 then s.effDrlCmd p w
  else if off = 0x0B034 then s.effAsgBase p w
  else if off = 0x0B038 then s.effAsgLo p w
  else if off = 0x0B03C then s.effAsgHi p w
  else if off = 0x0B040 then s.effAsgCmd p w
  else if 0x0B080 ≤ off ∧ off ≤ 0x0B0BC then s.effSpare p off w
  else if pageOf off = 0x0C ∧ off < 0x0C800 ∧ o = 0 then s.effLnkCtrl p d w
  else if pageOf off = 0x0C ∧ off < 0x0C800 ∧ o = 0x0C then s.effLnkLoop p d w
  else if pageOf off = 0x0C ∧ off < 0x0C800 ∧ 0x40 ≤ o ∧ o ≤ 0x5C then s.effLnkPe p d ((o - 0x40) / 4) w
  else if off = 0x0D000 then s.effPipeCtrl p w
  else if off = 0x0D004 then s.effPipeMem p w
  else if off = 0x0D00C then s.effCtxSel p w
  else if 0x0D010 ≤ off ∧ off ≤ 0x0D068 then s.effCtxField p off w
  else if off = 0x0D06C then s.effCtxCmd p w
  else s.writeFields p off w

/-- Kind and number of the ring whose registers hold an offset. -/
def ringKind (off : Nat) : Nat := if off < 0x0E300 then 0 else if off < 0x0E500 then 1 else 2
def ringNo (off : Nat) : Nat := (off - ringOff (ringKind off) 0) / 16

/-- What a write does in pages 0x0E to 0x12. -/
def State.effRest (s : State) (p : Path) (off w : Nat) : State :=
  if off = 0x0E008 then s.effHstCtrl p w
  else if off = 0x0E010 then s.effWdog p w
  else if 0x0E100 ≤ off ∧ off < 0x0E600 ∧ off % 16 = 8 then s.effRingCfg p (ringKind off) (ringNo off) w
  else if 0x0E100 ≤ off ∧ off < 0x0E600 ∧ off % 16 = 4 then s.effRingBase p (ringKind off) (ringNo off) w
  else if 0x0E800 ≤ off ∧ off < 0x0E880 then s.effDoorbell p 0 ((off - 0x0E800) / 4) w
  else if 0x0E880 ≤ off ∧ off < 0x0E900 then s.effDoorbell p 1 ((off - 0x0E880) / 4) w
  else if 0x0E900 ≤ off ∧ off < 0x0E940 then s.effDoorbell p 2 ((off - 0x0E900) / 4) w
  else if off = 0x0F00C then s.effNvsCmd p w
  else if off = 0x0F018 then s.effImgData p w
  else if off = 0x10008 then s.effChallenge p w
  else if off = 0x10044 then s.effSessionCmd p w
  else if off = 0x10070 then s.effKeyCmd p w
  else if isPerPath off then s.effRolData p off w
  else if off = 0x1007C then s.effSbSel w
  else if off = 0x12000 then s.effBistCmd w
  else if off = 0x12024 then s.effGoldCmd p w
  else s.writeFields p off w

/-- What a write does once it is carried out. -/
def State.effWrite (s : State) (p : Path) (off w : Nat) : State :=
  if errclrOffsets.contains off then s.effErrclr off w
  else
    let page := pageOf off
    (if page ≤ 0x04 then s.effClocks p off w
    else if page ≤ 0x0A then s.effUnit p off w
    else if page ≤ 0x0D then s.effChain p off w
    else s.effRest p off w).notePending s p off w

/-- Windows onto tables, shown so that a write that changes nothing is no attempt (R11). -/
def State.showWindow (s : State) (p : Path) (off : Nat) : State :=
  if (0x0406C ≤ off ∧ off ≤ 0x04080) ∨ off = 0x05060 ∨ off = 0x05064 ∨ off = 0x08048 ∨ (0x0B034 ≤ off ∧ off ≤ 0x0B03C) then s.show p off else s

/-- A write the SAFE-TALK state does not take (R42, R490). -/
def State.turnsAway (s : State) (off : Nat) : Bool := decide (s.power = stSAFETALK) && !safeTalkTakes off

/-- A write of a whole word on any path (R7). -/
def State.writeWord (s : State) (p : Path) (off w : Nat) : State :=
  if !s.answers p off then s
  else if isMsix off then s.when (!s.turnsAway off) fun t => t.writeMsix off w
  else if off = 0x0A00C then s.writeEngCmd p w
  else (s.showWindow p off).regWrite p off w fun t => t.effWrite p off w

/-- The role ENG_CMD asks of a value. -/
def engCmdRole (w : Nat) : Option Role := if w % 4 = 0 then none else if w % 4 = 3 then some .maker else some .installer

/-- A write of a word would be an attempt under R11. -/
def State.rejects (s : State) (p : Path) (off w : Nat) : Bool :=
  s.answers p off && !isMsix off && !(isPerPath off && decide (pathNo p ≥ 2)) &&
    (if off = 0x0A00C then (match engCmdRole w with
        | some r => !s.holds p r
        | none => false)
      else if off = 0x01000 then decide (PWR_CMD.TARGET.of w = stCAPTURE) && !s.holds p .operator
      else !((s.showWindow p off).attempts p off w).isEmpty)

/-- Row REGISTER_WRITE. A write that does not carry a whole word on BAR0 is discarded, counted and raised (R406); where BAR0 reaches no
register of page 0x0E none can come. -/
def execRegisterWrite (p : Path) (off : Nat) (w : Word) (full : Bool) (s : State) : Out :=
  if p = .bar0 ∧ full = false then
    if s.answers .bar0 0x0E020 then .next ((s.bump HST_ERRCNT1.BAR0_PARTIAL 1).raise 0x0E08 [off]) else .next s
  else .next (s.writeWord p off w.toNat)

/-! ### The ERRCLR registers -/

def execPwrErrclr (p : Path) (w : Word) (s : State) : Out := .next (s.writeWord p 0x01018 w.toNat)
def execPllErrclr (p : Path) (w : Word) (s : State) : Out := .next (s.writeWord p 0x0204C w.toNat)
def execSafErrclr (p : Path) (w : Word) (s : State) : Out := .next (s.writeWord p 0x03040 w.toNat)
def execTimErrclr (p : Path) (w : Word) (s : State) : Out := .next (s.writeWord p 0x0408C w.toNat)
def execCadErrclr (p : Path) (w : Word) (s : State) : Out := .next (s.writeWord p 0x050A8 w.toNat)
def execExpModeErrclr (p : Path) (w : Word) (s : State) : Out := .next (s.writeWord p 0x06034 w.toNat)
def execExpSpotErrclr (p : Path) (w : Word) (s : State) : Out := .next (s.writeWord p 0x06410 w.toNat)
def execExpArrayErrclr (p : Path) (w : Word) (s : State) : Out := .next (s.writeWord p 0x06884 w.toNat)
def execCalErrclr (p : Path) (w : Word) (s : State) : Out := .next (s.writeWord p 0x08040 w.toNat)
def execMonErrclr (p : Path) (w : Word) (s : State) : Out := .next (s.writeWord p 0x09018 w.toNat)
def execEngErrclr (p : Path) (w : Word) (s : State) : Out := .next (s.writeWord p 0x0A06C w.toNat)
def execChnErrclr (p : Path) (w : Word) (s : State) : Out := .next (s.writeWord p 0x0B074 w.toNat)
def execLnkErrclr (d : Bool) (p : Path) (w : Word) (s : State) : Out := .next (s.writeWord p (0x0C02C + 0x400 * px d) w.toNat)
def execPipeErrclr (p : Path) (w : Word) (s : State) : Out := .next (s.writeWord p 0x0D080 w.toNat)
def execHstErrclr (p : Path) (w : Word) (s : State) : Out := .next (s.writeWord p 0x0E028 w.toNat)
def execNvsErrclr (p : Path) (w : Word) (s : State) : Out := .next (s.writeWord p 0x0F040 w.toNat)
def execRolErrclr (p : Path) (w : Word) (s : State) : Out := .next (s.writeWord p 0x100C8 w.toNat)
def execI2cErrclr (p : Path) (w : Word) (s : State) : Out := .next (s.writeWord p 0x11014 w.toNat)

end Sys2Proof.Machine
end

