-- ==== Sys2Proof/Machine/HostCommands.lean ====
section
/-!
DEFINITION. The commands of the submission rings (R420, R423 to R426), the proxy and bulk packets that carry them to crew units (R431 to R433), and
the completions of host reads (R410).
-/
namespace Sys2Proof

/-! ### Descriptors (R423, R424) -/

/-- An operand field of a descriptor: bytes from `i`, counted from the start of the descriptor. -/
def Desc.at_ (d : Desc) (i n : Nat) : Nat := ofLeBytes ((d.operands.drop (i - 8)).take n)

/-- Operand bytes from `i` up to `j` are 0. -/
def Desc.zeroFrom (d : Desc) (i j : Nat) : Bool := ((d.operands.drop (i - 8)).take (j - i)).all fun b => decide (b = 0)

def opNOP : Nat := 0x00
def opREG_READ : Nat := 0x01
def opREG_WRITE : Nat := 0x02
def opBULK_WRITE : Nat := 0x03
def opSESSION_CHALLENGE : Nat := 0x10
def opSESSION_OPEN : Nat := 0x11
def opSESSION_CLOSE : Nat := 0x12
def opcodes : List Nat := [0x00, 0x01, 0x02, 0x03, 0x10, 0x11, 0x12]

/-- A command for the pithead itself. -/
def Desc.isLocal (d : Desc) : Bool := decide (d.tally ≤ 1)

def Desc.offset (d : Desc) : Nat := d.at_ 8 4
def Desc.count (d : Desc) : Nat := d.at_ 12 1
def Desc.role (d : Desc) : Nat := d.at_ 8 1
def Desc.length (d : Desc) : Nat := d.at_ 16 4
def Desc.kind (d : Desc) : Nat := d.at_ 20 1
def Desc.bcast (d : Desc) : Bool := decide (d.at_ 21 1 = 1)
def Desc.engine (d : Desc) : Nat := d.at_ 22 2
def Desc.dest (d : Desc) : Nat := d.at_ 24 4
def Desc.crc (d : Desc) : Nat := d.at_ 28 4

/-- An OFFSET and a COUNT are in range. -/
def Desc.registersFit (d : Desc) : Bool := decide (d.offset % 4 = 0 ∧ d.offset < 2 ^ 20 ∧ 1 ≤ d.count ∧ d.count ≤ 12)

/-- The COUNT data words of REG_WRITE. -/
def Desc.words (d : Desc) : List Nat := (List.range d.count).map fun k => d.at_ (16 + 4 * k) 4

end Sys2Proof

namespace Sys2Proof.Machine

/-- The operands of a command are in range and its reserved bytes 0. -/
def State.operandsFit (s : State) (opc : Nat) (d : Desc) : Bool :=
  decide (d.flags ≤ 1 ∧ d.tally ≤ 62) &&
    (if opc = opNOP then d.zeroFrom 8 64
    else if opc = opREG_READ then d.registersFit && d.zeroFrom 13 64
    else if opc = opREG_WRITE then d.registersFit && d.zeroFrom 13 16
    else if opc = opBULK_WRITE then
      decide (d.at_ 8 8 % 4 = 0 ∧ d.length % 4 = 0 ∧ 4 ≤ d.length ∧ d.length ≤ 16777216 ∧ d.kind ≤ 1 ∧ d.at_ 21 1 ≤ 1 ∧ d.engine ≤ 263) &&
        d.zeroFrom 32 64 && (decide (d.kind = 0) || (d.isLocal && decide (d.dest + d.length ≤ s.get PIPE_MEM.TBL_MIB * 2 ^ 20)))
    else
      d.isLocal && decide (1 ≤ d.role ∧ d.role ≤ 3) && (if opc = opSESSION_OPEN then d.zeroFrom 9 16 && d.zeroFrom 48 64 else d.zeroFrom 9 64))

/-- A crew tally is joined and has a live grant. -/
def State.reaches (s : State) (t : Nat) : Bool := bit s.joinedMap t && !(s.peer t).dead

/-- The status a command completes with at once, without effect: the first of R426's causes that applies. -/
def State.commandError (s : State) (opc : Nat) (d : Desc) : Option Nat :=
  if !opcodes.contains opc then some 1
  else if !s.operandsFit opc d then some 2
  else if opc = opBULK_WRITE && !s.holds .bar0 .installer then some 3
  else if !d.isLocal && !s.reaches d.tally then some 4
  else none

/-! ### Words read and written for a command -/

/-- COUNT words are read in increasing offsets. -/
def readWords (p : Path) : Nat → Nat → State → State × List Nat
  | 0, _, s => (s, [])
  | n + 1, off, s =>
    let r := s.readWord p off
    let t := readWords p n (off + 4) r.1
    (t.1, r.2 :: t.2)

/-- A word is not taken in the present state (R42, R213; and where its page does not answer). -/
def State.notTaken (s : State) (p : Path) (off : Nat) : Bool :=
  !s.answers p off || s.turnsAway off ||
    (decide (off = 0x0A01C) && s.holds p .installer &&
      !((s.windowTargets s.selEngine).any fun e => (s.engine e).windowTakes (s.get ENG_MEM_ADDR.ADDR)))

/-- A role-gated word finds the shift book queue full (R500). -/
def State.bookFull (s : State) (p : Path) (off : Nat) : Bool := !s.sbRoom && !(s.rolesUsed p off).isEmpty

/-- Words are written in increasing offsets: the words rejected under R11 and the words not taken, one bit each. -/
def writeWords (p : Path) : List Nat → Nat → Nat → State × Nat × Nat → State × Nat × Nat
  | [], _, _, r => r
  | w :: ws, k, off, (s, rej, nt) =>
    let o := off + 4 * k
    let a := s.rejects p o w || s.bookFull p o
    let b := s.notTaken p o
    writeWords p ws (k + 1) off (s.writeWord p o w, setBit rej k a, setBit nt k b)

/-! ### Bulk transfers -/

/-- The engines a bulk word goes to: those of ENG_BCAST0 to ENG_BCAST8, or the engine named (R214, R424). -/
def State.bulkTargets (s : State) (bcast : Bool) (e : Nat) : List Nat :=
  if bcast then (List.range 264).filter fun i => s.bitOf (ENG_BCAST.MASK (i / 32)) (i % 32) else [e]

/-- What a bulk transfer has done so far: words written, words not taken, CRC register. -/
structure BulkSum where
  written : Nat
  refused : Nat
  crc : Nat

/-- The words of a piece of a bulk transfer go to engine memory from an address on. In SAFE-TALK, or without an installer, none is taken. -/
def bulkEngine (may bcast : Bool) (e : Nat) : List Nat → Nat → State × BulkSum → State × BulkSum
  | [], _, r => r
  | w :: ws, a, (s, b) =>
    let r := if may then s.windowWriteTo (s.bulkTargets bcast e) a w else (s, false)
    bulkEngine may bcast e ws (a + 4)
      (r.1, if r.2 then ⟨b.written + 1, b.refused, crc32Run b.crc (leBytes w 4)⟩ else ⟨b.written, b.refused + 1, b.crc⟩)

/-- The same for the table area, a byte offset. -/
def State.bulkTable (s : State) (may : Bool) (bytes : List Nat) (a : Nat) (b : BulkSum) : State × BulkSum :=
  if may then (s.onPipe fun p => { p with table := memWrite p.table a bytes }, ⟨b.written + bytes.length / 4, b.refused, crc32Run b.crc bytes⟩)
  else (s, ⟨b.written, b.refused + bytes.length / 4, b.crc⟩)

/-- STATUS of a bulk transfer: words not taken before a CRC mismatch. -/
def bulkStatus (b : BulkSum) (crc : Nat) : Nat := if b.refused ≠ 0 then 8 else if b.crc ^^^ 0xFFFFFFFF ≠ crc then 6 else 0

/-- The shift book entry of a BULK_WRITE (R515, R517, R569). VALUE the manual does not state. -/
def State.bookBulk (s : State) (path tally e status written refused : Nat) : State :=
  let f := s.free
  f.2.sbEnter 2 path 5 (if status = 0 then 0 else if status = 3 then 1 else 4) (Config.bulkTarget tally e) (f.1 % 2 ^ 32)
    (leBytes written 4 ++ leBytes refused 4)

/-- The sessions open on BAR0 as a ROLES byte (R431). -/
def State.rolesByte (s : State) : Nat :=
  ofBool (s.holds .bar0 .operator) + 2 * ofBool (s.holds .bar0 .installer) + 4 * ofBool (s.holds .bar0 .maker)

/-! ### Commands in flight -/

/-- A TAG or transfer number. -/
def State.newTag (s : State) : State × Nat := (s.onHst fun h => { h with tag := (h.tag + 1) % 65536 }, s.hst.tag)

def State.dropFlight (s : State) (tag : Nat) : State := s.onHst fun h => { h with
  flight := h.flight.filter fun f => decide (f.tag ≠ tag), reads := h.reads.filter fun r => decide (¬ (r.kind = 2 ∧ r.index = tag)) }

/-- A command in flight completes. -/
def State.endFlight (s : State) (f : Flight) (status : Nat) (result : List Nat) : State :=
  (s.dropFlight f.tag).complete f.desc.sq f.desc.cid f.opc status result

/-- A BULK_WRITE completes: its entry, its completion (R424, R515). -/
def State.endBulk (s : State) (f : Flight) (status written refused crc : Nat) : State :=
  (s.bookBulk 0 f.desc.tally f.desc.engine status written refused).endFlight f status (leBytes written 4 ++ leBytes refused 4 ++ leBytes crc 4)

/-- Each BULK_WRITE with data still to read and no read outstanding asks for at most 4 096 bytes more. -/
def State.pumpBulks (s : State) : State :=
  s.hst.flight.foldl (fun t f =>
    let left := f.desc.length - f.asked
    if f.opc = opBULK_WRITE && t.canRead && decide (0 < left) && !(t.hst.reads.any fun r => decide (r.kind = 2 ∧ r.index = f.tag)) then
      let n := min 4096 left
      t.onHst fun h => { h with
        reads := h.reads ++ [HostRead.mk 2 f.desc.sq f.tag (f.desc.at_ 8 8 + f.asked) n]
        flight := h.flight.map fun g => if g.tag = f.tag then { g with asked := g.asked + n } else g }
    else t) s

/-! ### Starting commands (R420) -/

/-- A later command waits behind an earlier one: FENCE behind any of its ring, others behind a BULK_WRITE of its ring to the same unit. -/
def State.waitsBehind (s : State) (d : Desc) : Bool :=
  s.hst.flight.any fun f => decide (f.desc.sq = d.sq) &&
    (bit d.flags 0 || (decide (f.opc = opBULK_WRITE) && decide (f.desc.tally = d.tally ∨ (f.desc.isLocal ∧ d.isLocal))))

/-- A command for a crew unit is sent as a packet (R431). -/
def State.sendProxy (s : State) (opc : Nat) (d : Desc) : State :=
  let r := s.newTag
  let head := leBytes r.2 2 ++ [d.count, s.rolesByte] ++ leBytes d.offset 4
  let t := r.1.onHst fun h => { h with flight := h.flight ++ [⟨opc, d, r.2, some s.fwc, 0, 0, 0, 0xFFFFFFFF⟩] }
  if opc = opREG_READ then t.sendCtl 0x14 4 d.tally head else t.sendCtl 0x15 4 d.tally (head ++ (d.words.map fun w => leBytes w 4).flatten)

/-- A session command on BAR0 (R509, R510, R512): status and result. -/
def State.sessionCommand (s : State) (opc : Nat) (d : Desc) : State × Nat × List Nat :=
  if opc = opSESSION_CLOSE then (s.closeSession 0 d.role 0, 0, [])
  else if s.lockedOut 0 d.role then (s, 9, [])
  else if opc = opSESSION_CHALLENGE then
    let r := s.challenge 0 d.role
    (r.1, 0, r.2.nonce ++ leBytes r.2.ctr 8)
  else
    let r := s.respond 0 d.role ((d.operands.drop 8).take 32)
    (r.1, if r.2 then 0 else 9, [])

/-- STATUS of a REG_WRITE with the words rejected and not taken. -/
def writeStatus (rej nt : Nat) : Nat := if rej ≠ 0 then 3 else if nt ≠ 0 then 8 else 0

/-- A command starts. -/
def State.startCommand (s : State) (opc : Nat) (d : Desc) : State :=
  match s.commandError opc d with
  | some e =>
    let t := if opc = opBULK_WRITE ∧ e = 3 then s.bookBulk 0 d.tally d.engine 3 0 0 else s
    t.complete d.sq d.cid opc e []
  | none =>
    if opc = opNOP then s.complete d.sq d.cid opc 0 []
    else if opc = opBULK_WRITE then
      if s.sbRoom then
        let r := s.newTag
        ((r.1.onHst fun h => { h with flight := h.flight ++ [⟨opc, d, r.2, none, 0, 0, 0, 0xFFFFFFFF⟩] }).touchSession .bar0 .installer).pumpBulks
      else (s.bump NVS_ERRCNT1.SB_REFUSED 1).complete d.sq d.cid opc 3 []
    else if opc = opREG_READ ∨ opc = opREG_WRITE then
      if !d.isLocal then s.sendProxy opc d
      else if opc = opREG_READ then
        let r := readWords .bar0 d.count d.offset s
        r.1.complete d.sq d.cid opc 0 ((r.2.map fun w => leBytes w 4).flatten)
      else
        let r := writeWords .bar0 d.words 0 d.offset (s, 0, 0)
        r.1.complete d.sq d.cid opc (writeStatus r.2.1 r.2.2) (leBytes r.2.1 2)
    else
      let r := s.sessionCommand opc d
      r.1.complete d.sq d.cid opc r.2.1 r.2.2

/-- The first waiting command that may start, with the commands that stay. `before` holds those passed over. -/
def firstReady (s : State) : List (Nat × Desc) → List (Nat × Desc) → Option ((Nat × Desc) × List (Nat × Desc))
  | _, [] => none
  | before, c :: rest =>
    if (before.any fun b => decide (b.2.sq = c.2.sq)) || s.waitsBehind c.2 then firstReady s (before ++ [c]) rest
    else some (c, before ++ rest)

/-- Waiting commands start as those before them complete. -/
def releaseCommands : Nat → State → State
  | 0, s => s
  | n + 1, s =>
    match firstReady s [] s.hst.held with
    | none => s
    | some (c, rest) => releaseCommands n ((s.onHst fun h => { h with held := rest }).startCommand c.1 c.2)

/-- After commands have completed: waiting ones start, disabled rings whose commands are done stand with CAUSE 4 (R418), and entries are
fetched. -/
def State.settleRings (s : State) : State :=
  let t := releaseCommands s.hst.held.length s
  let t := t.hst.stopping.foldl (fun u n => if u.sqBusy n then u
    else (u.onHst fun h => { h with stopping := h.stopping.filter (· ≠ n) }).stopRing 0 n) t
  (List.range 16).foldl State.fetchBuffer (t.pumpBulks).fetchAll

/-- A fetched command: it starts, or waits behind earlier ones of its ring (R420). -/
def State.beginCommand (s : State) (opc : Nat) (d : Desc) : State :=
  if (s.hst.held.any fun c => decide (c.2.sq = d.sq)) || s.waitsBehind d then s.onHst fun h => { h with held := h.held ++ [(opc, d)] }
  else s.startCommand opc d

/-- Take out the first entry that a test accepts. -/
def takeFirst {α : Type} (p : α → Bool) : List α → Option (α × List α)
  | [] => none
  | a :: l => if p a then some (a, l) else (takeFirst p l).map fun r => (r.1, a :: r.2)

/-- The descriptor of the read outstanding for its ring arrives with a command. -/
def State.descriptor (s : State) (opc : Nat) (d : Desc) : State :=
  match takeFirst (fun r => decide (r.kind = 0 ∧ r.ring = d.sq)) s.hst.reads with
  | none => s
  | some (_, rest) =>
    let t := (s.onHst fun h => { h with reads := rest, sqFetched := Tbl.erase h.sqFetched d.sq }).stepIndex 0 d.sq
    (t.beginCommand opc d).settleRings

/-- A completion may bring data: the function issues requests, and PCIe is not forced. -/
def State.execFetched (s : State) (opc : Nat) (d : Desc) : Out := .next (if s.canIssue then s.descriptor opc d else s)

def execNop (d : Desc) (s : State) : Out := s.execFetched opNOP d
def execRegRead (d : Desc) (s : State) : Out := s.execFetched opREG_READ d
def execRegWrite (d : Desc) (s : State) : Out := s.execFetched opREG_WRITE d
def execBulkWrite (d : Desc) (s : State) : Out := s.execFetched opBULK_WRITE d
def execSessionChallenge (d : Desc) (s : State) : Out := s.execFetched opSESSION_CHALLENGE d
def execSessionOpen (d : Desc) (s : State) : Out := s.execFetched opSESSION_OPEN d
def execSessionClose (d : Desc) (s : State) : Out := s.execFetched opSESSION_CLOSE d

/-! ### Completions of host reads (R410, R434, R468) -/

/-- A descriptor as its 64 bytes lay it out (R423): opcode and fields. Reserved bytes 5 to 7 count as flag bits that must be 0. -/
def parseDesc (sq : Nat) (l : List Nat) : Nat × Desc :=
  (bytesAt l 0 1, ⟨sq, bytesAt l 1 1 + 256 * bytesAt l 5 3, bytesAt l 2 2, bytesAt l 4 1, (l.drop 8).take 56⟩)

/-- Data of a BULK_WRITE arrive: written here, or sent on in a bulk packet (R425, R432). -/
def State.bulkData (s : State) (f : Flight) (bytes : List Nat) : State :=
  let d := f.desc
  let done := f.written + f.refused
  let last := decide (d.length ≤ 4 * done + bytes.length)
  if d.isLocal then
    let may := decide (s.power ≠ stSAFETALK)
    let sum : BulkSum := ⟨f.written, f.refused, f.crc⟩
    let r := if d.kind = 0 then bulkEngine may d.bcast d.engine (toWords bytes) (d.dest / 4 * 4 + 4 * done) (s, sum)
      else s.bulkTable may bytes (d.dest + 4 * done) sum
    let t := r.1
    let b := r.2
    if last then t.endBulk f (bulkStatus b d.crc) b.written b.refused (b.crc ^^^ 0xFFFFFFFF)
    else (t.onHst fun h => { h with
      flight := h.flight.map fun g => if g.tag = f.tag then { g with written := b.written, refused := b.refused, crc := b.crc } else g }).pumpBulks
  else
    let flags := ofBool (decide (done = 0)) + 2 * ofBool last + 4 * ofBool d.bcast
    let head := leBytes f.tag 2 ++ [flags, s.rolesByte] ++ leBytes d.engine 2 ++ [0, 0] ++ leBytes (d.dest / 4 * 4 + 4 * done) 4 ++
      leBytes (if last then d.crc else 0) 4
    let t := s.sendCtl 0x2C 8 d.tally (head ++ bytes)
    (t.onHst fun h => { h with
      flight := h.flight.map fun g => if g.tag = f.tag then
        { g with written := g.written + bytes.length / 4, sent := if last then some s.fwc else none } else g }).pumpBulks

/-- A read that ended with data. -/
def State.readDone (s : State) (r : HostRead) (bytes : List Nat) : State :=
  if r.kind = 0 then
    let c := parseDesc r.ring bytes
    let t := (s.onHst fun h => { h with sqFetched := Tbl.erase h.sqFetched r.ring }).stepIndex 0 r.ring
    (t.beginCommand c.1 c.2).settleRings
  else if r.kind = 1 then
    (s.onHst fun h => { h with drReady := Tbl.set [] h.drReady r.ring (Tbl.get [] h.drReady r.ring ++ [(bytesAt bytes 0 8, bytesAt bytes 8 8)]) }).pump
  else
    match s.hst.flight.find? fun f => decide (f.tag = r.index) with
    | none => s
    | some f => (s.bulkData f bytes).settleRings

/-- A read that failed (R410). -/
def State.readFailed (s : State) (r : HostRead) : State :=
  if r.kind ≤ 1 then
    let t := if r.kind = 0 then s.onHst fun h => { h with sqFetched := Tbl.erase h.sqFetched r.ring } else s
    (t.bump HST_ERRCNT0.HOST_RD_ERR 1).halt (if r.kind = 0 then 0 else 2) r.ring 2
  else
    match s.hst.flight.find? fun f => decide (f.tag = r.index) with
    | none => s
    | some f => (s.endBulk f 7 f.written f.refused (f.crc ^^^ 0xFFFFFFFF)).settleRings

/-- A completion that is dropped (R434, R468): while PCIe is forced a descriptor fetch is issued again afterwards; without Bus Master Enable it
ends. The data of a BULK_WRITE then never arrive, and its read ends by the completion timeout. -/
def State.dropRead (s : State) (r : HostRead) (rest : List HostRead) : State :=
  let t := s.bump HST_ERRCNT0.CPL_DROP 1
  if 2 ≤ r.kind then t
  else if s.dataForced then t.onHst fun h => { h with reads := rest, refetch := h.refetch ++ [r] }
  else t.onHst fun h => { h with reads := rest, sqFetched := if r.kind = 0 then Tbl.erase h.sqFetched r.ring else h.sqFetched }

/-- The outstanding read number `ix` and the reads without it. -/
def State.outstanding (s : State) (ix : Nat) : Option (HostRead × List HostRead) :=
  match s.hst.reads[ix]? with
  | none => none
  | some r => some (r, s.hst.reads.eraseIdx ix)

/-- A completion arrives: status 0 with data, else Unsupported Request, Completer Abort or poisoned. -/
def execHostReadCompletion (ix : Nat) (status : Nat) (data : List Byte) (s : State) : Out :=
  match s.outstanding ix with
  | none => .next s
  | some (r, rest) =>
    let t := s.onHst fun h => { h with reads := rest }
    if !s.canIssue then .next (s.dropRead r rest)
    else if status ≠ 0 then .next (t.readFailed r)
    else if data.length = r.len then .next (t.readDone r (data.map BitVec.toNat))
    else .next s

/-- No completion within the completion timeout. -/
def execCompletionTimeout (ix : Nat) (s : State) : Out :=
  match s.outstanding ix with
  | none => .next s
  | some (r, rest) => .next ((s.onHst fun h => { h with reads := rest }).readFailed r)

/-! ### Proxy and bulk packets -/

/-- The response to a proxied command (R431). -/
def State.answerProxy (s : State) (tag count status off : Nat) (words : List Nat) : State :=
  s.sendCtl 0x16 4 1 (leBytes tag 2 ++ [count, status] ++ leBytes off 4 ++ (words.map fun w => leBytes w 4).flatten)

/-- A crew unit takes proxy and bulk packets from tally 1 alone (R431). -/
def State.crewTakes (s : State) (k : Packet) (f : State → State) : State :=
  if s.isCrew && decide (k.src = 1) then f s else s.bump CHN_ERRCNT1.TAG_DROP 1

def execProxyRd (d : Bool) (k : Packet) (s : State) : Out :=
  .next (s.onPacket d k 0x14 fun t => t.crewTakes k fun t =>
    let n := k.at_ 2 1
    let r := readWords (.proxy (k.at_ 3 1)) n (k.at_ 4 4) t
    r.1.answerProxy (k.at_ 0 2) n 0 (k.at_ 4 4) r.2)

def execProxyWr (d : Bool) (k : Packet) (s : State) : Out :=
  .next (s.onPacket d k 0x15 fun t => t.crewTakes k fun t =>
    let n := k.at_ 2 1
    let r := writeWords (.proxy (k.at_ 3 1)) ((List.range n).map fun i => k.at_ (8 + 4 * i) 4) 0 (k.at_ 4 4) (t, 0, 0)
    r.1.answerProxy (k.at_ 0 2) n (if r.2.1 ≠ 0 then 1 else if r.2.2 ≠ 0 then 2 else 0) (k.at_ 4 4) [])

/-- A bulk packet at a crew unit (R432): its words are written; after LAST the unit answers and enters the transfer. -/
def State.bulkPacket (s : State) (k : Packet) : State :=
  let first := bit (k.at_ 2 1) 0
  let last := bit (k.at_ 2 1) 1
  let may := bit (k.at_ 3 1) 1 && decide (s.power ≠ stSAFETALK) && (decide (!first) || s.sbRoom)
  let old : Option BulkIn := if first then some ⟨k.at_ 0 2, 0, 0, 0xFFFFFFFF⟩ else s.hst.bulkIn
  match old with
  | none => s
  | some b =>
    if b.xfer ≠ k.at_ 0 2 then s
    else
      let r := bulkEngine may (bit (k.at_ 2 1) 2) (k.at_ 4 2) (toWords (k.payload.drop 16)) (k.at_ 8 4) (s, ⟨b.written, b.refused, b.crc⟩)
      let t := r.1
      let m := r.2
      if last then
        let status := if bit (k.at_ 3 1) 1 = false then 1 else if m.refused ≠ 0 then 2 else if m.crc ^^^ 0xFFFFFFFF ≠ k.at_ 12 4 then 3 else 0
        ((t.onHst fun h => { h with bulkIn := none }).bookBulk 2 t.tally (k.at_ 4 2) (if status = 1 then 3 else status) m.written m.refused).answerProxy
          (k.at_ 0 2) 3 status 0 [m.written, m.refused, m.crc ^^^ 0xFFFFFFFF]
      else t.onHst fun h => { h with bulkIn := some ⟨b.xfer, m.written, m.refused, m.crc⟩ }

def execBulk (d : Bool) (k : Packet) (s : State) : Out :=
  .next (s.onPacket d k 0x2C fun t => t.crewTakes k fun t => t.bulkPacket k)

/-- The status of a completion from that of a response (R426, R431). -/
def statusOf (st : Nat) : Nat := if st = 0 then 0 else if st = 1 then 3 else if st = 2 then 8 else 6

/-- A response at the pithead completes the command with its TAG; a late one is discarded (R433). Which words of a proxied write were
rejected the response does not say. -/
def State.proxyResponse (s : State) (k : Packet) : State :=
  match s.hst.flight.find? fun f => decide (f.tag = k.at_ 0 2 ∧ f.desc.tally = k.src) && f.sent.isSome with
  | none => s
  | some f =>
    let status := statusOf (k.at_ 3 1)
    let t := if f.opc = opREG_READ then s.endFlight f status (k.payload.drop 8)
      else if f.opc = opREG_WRITE then
        let v := s.free
        if k.at_ 3 1 = 1 then v.2.endFlight f status (leBytes (v.1 % 65536) 2) else s.endFlight f status [0, 0]
      else s.endBulk f status (k.at_ 8 4) (k.at_ 12 4) (k.at_ 16 4)
    t.settleRings

def execProxyRsp (d : Bool) (k : Packet) (s : State) : Out :=
  .next (s.onPacket d k 0x16 fun t => if t.isPithead then t.proxyResponse k else t)

/-- The command sent first among those that wait for a response. -/
def firstSent : List Flight → Option (Flight × Nat)
  | [] => none
  | f :: l =>
    match f.sent, firstSent l with
    | none, r => r
    | some t, none => some (f, t)
    | some t, some (g, u) => if t ≤ u then some (f, t) else some (g, u)

/-- HST_PROXY.MS ms without a response (R433). -/
def execProxyTimeout (s : State) : Out :=
  match firstSent s.hst.flight with
  | none => .next s
  | some (f, t0) =>
    let t := ((s.advance (t0 + s.get HST_PROXY.MS * msTicks)).bump HST_ERRCNT2.PROXY_TIMEOUT 1).raise 0x0E0A [f.desc.tally, f.tag]
    .next ((if f.opc = opBULK_WRITE then t.endBulk f 5 0 0 0 else t.endFlight f 5 []).settleRings)

end Sys2Proof.Machine
end

