-- ==== Sys2Proof/Machine/HostEvents.lean ====
section
/-!
DEFINITION. What the PCI Express link and the host's configuration writes do to the unit, the timers of the rings, and BAR2 (ch. 12).
-/
namespace Sys2Proof.Machine

/-! ### Resets of R412 and the link -/

/-- An event of R412 on a unit above STANDBY; below it the host interface has no power. -/
def State.hostReset (s : State) : State := if s.above then s.functionReset else s

def execPerstNAssert (s : State) : Out :=
  if s.pwr.perst then .next s
  else .next (((s.onPwr fun p => { p with perst := true }).set HST_LINK.DL_UP 0).hostReset)

/-- PERST_N released: from STANDBY with PERST_EN the unit is commanded to IDLE, checked as any command is (R455, R456). -/
def execPerstNRelease (s : State) : Out :=
  if s.pwr.perst then
    let t := s.onPwr fun p => { p with perst := false }
    .next (if decide (s.power = stSTANDBY) && s.on PWR_WAKE.PERST_EN then t.command true stIDLE else t)
  else .next s

def execHotReset (s : State) : Out := .next ((s.set HST_LINK.DL_UP 0).hostReset)
def execFunctionLevelReset (s : State) : Out := .next s.hostReset

/-- E5 of R435, at most 10 ms after the reset. -/
def execFlrDone (s : State) : Out :=
  match s.hst.flrAt with
  | none => .next s
  | some _ => .next ((s.onHst fun h => { h with flrAt := none }).raise 0x0E03 [s.fwc])

/-- Training ends in DL_Up: above STANDBY, with PERST_N released (R412). -/
def execDlUp (s : State) : Out :=
  if s.above && !s.pwr.perst && !s.saf.railFatal then .next (((s.set HST_LINK.DL_UP 1).reviewHost).settleRings.pump) else .next s

/-- SPEED, WIDTH or the mode of the link change: SPEED 1 to 6, WIDTH 1, 2, 4 or 8. -/
def execLinkChanged (speed width : Nat) (flit : Bool) (s : State) : Out :=
  if 1 ≤ speed ∧ speed ≤ 6 ∧ (width = 1 ∨ width = 2 ∨ width = 4 ∨ width = 8) then
    let a := s.get HST_LINK.SPEED
    let b := s.get HST_LINK.WIDTH
    let t := ((s.set HST_LINK.SPEED speed).set HST_LINK.WIDTH width).put HST_LINK.FLIT flit
    .next (if a = speed ∧ b = width then t else t.raise 0x0E0B [a, b, speed, width])
  else .next s

/-! ### Bus Master Enable and D3hot (R411, R434) -/

def execBmeClear (s : State) : Out :=
  if s.on HST_STATUS.BME then
    .next ((((s.set HST_STATUS.BME 0).onHst fun h => { h with bmeCleared := some s.fwc }).haltAll 1).raise 0x0E02 [s.fwc]).reviewHost
  else .next s

/-- The function may issue requests again: what a BULK_WRITE still has to read is asked for. Rings wait for RESUME. -/
def State.busAgain (s : State) : State :=
  let t := if s.on HST_STATUS.BME && !s.on HST_STATUS.D3HOT then s.onHst fun h => { h with graceOver := false } else s
  (t.reviewHost).pumpBulks

def execBmeSet (s : State) : Out :=
  .next (((s.set HST_STATUS.BME 1).onHst fun h => { h with bmeCleared := none }).busAgain)

def execD3hotEntry (s : State) : Out :=
  if s.on HST_STATUS.D3HOT then .next s
  else .next ((((s.set HST_STATUS.D3HOT 1).onHst fun h => { h with d3Entered := some s.fwc }).haltAll 5).raise 0x0E02 [s.fwc]).reviewHost

def execD0Return (s : State) : Out :=
  .next (((s.set HST_STATUS.D3HOT 0).onHst fun h => { h with d3Entered := none }).busAgain)

/-- HST_GRACE.MS ms after the bit was cleared, or after entry to D3hot, whichever was first (E5 of R434). -/
def State.graceFrom (s : State) : Option (Nat × Nat) :=
  match s.hst.bmeCleared, s.hst.d3Entered with
  | none, none => none
  | some a, none => some (a, 0)
  | none, some b => some (b, 1)
  | some a, some b => if a ≤ b then some (a, 0) else some (b, 1)

def execHostGraceExpired (s : State) : Out :=
  match s.graceFrom with
  | none => .next s
  | some (t0, cause) =>
    if s.hst.graceOver || !s.isPithead then .next s
    else .next ((((s.advance (t0 + s.get HST_GRACE.MS * msTicks)).onHst fun h => { h with graceOver := true }).raise 0x0E04 [cause]).reviewHost)

/-! ### Timers of the rings (R422, R429). Off tally 1 they have no effect (R36). -/

def execCqModerationTimer (n : Fin 32) (s : State) : Out :=
  let us := s.get (HST_CQ_CFG.MOD_US n.val)
  match Tbl.get none s.hst.firstUnsignalled n.val with
  | none => .next s
  | some t0 => if us = 0 ∨ s.isPithead = false then .next s else .next ((s.advance (t0 + us * usTicks)).signalCq n.val)

def execDrFlushTimeout (n : Fin 16) (s : State) : Out :=
  let ms := s.get (HST_DR_CFG.FLUSH n.val)
  match Tbl.get none s.hst.dr n.val with
  | none => .next s
  | some b => if ms = 0 ∨ s.isPithead = false then .next s else .next (((s.advance (b.since + ms * msTicks)).closeBuffer n.val true).pump)

/-! ### BAR2 (R408) -/

/-- An access without a maker session is counted; it is raised, and a read entered, at most once per second. -/
def State.denyBar2 (s : State) (off : Nat) : State :=
  let t := s.bump HST_ERRCNT1.BAR2_DENIED 1
  let again := match s.hst.bar2Denied with
    | none => true
    | some f => decide (f + secTicks ≤ s.fwc)
  if again then ((t.onHst fun h => { h with bar2Denied := some s.fwc }).raise 0x0E09 [off]).sbEnter 3 0 6 1 off 0 [] else t

/-- The bytes an area of the kibble store holds, in the order in which they were stored: 0 spot buffer, 1 spot queue, 2 held output, 3 stope
sweeps being built, 4 blocks that wait for a ring. -/
def State.kibbleArea (s : State) (area : Nat) : List Nat :=
  match area with
  | 0 => s.pipe.spot.flatMap fun it => it.packet.bytes
  | 1 => s.spot.queue.flatMap fun it => it.packet.bytes
  | 2 => s.eng.out.flatMap fun o => o.streams.flatMap fun e => e.2
  | 3 => s.chn.build.flatMap fun e => (e.2.map fun b => b.hdr ++ b.keys ++ b.deltas ++ b.stat ++ b.aux).getD []
  | 4 => s.hst.waiting.flatMap fun it => it.bytes
  | _ => []

/-- A byte of the kibble store and what follows its read: of the table area, or of what an area holds; elsewhere 0 while the march that left the
store 0 is the last that touched it (R487), else a free value. Where in the store an area's bytes lie is free (notes/assumptions/63.md). -/
def State.kibbleByte (s : State) (off : Nat) : Nat × State :=
  let at_ := Config.kibblePlace [s.get PIPE_MEM.SPOT_MIB, s.get PIPE_MEM.TBL_MIB, s.get ENG_POOL.MIB, s.get CHN_INTAKE.HWM_MIB] off
  if at_.1 = 5 then (memByte s.pipe.table at_.2, s)
  else
    match (s.kibbleArea at_.1)[at_.2]? with
    | some b => (b % 256, s)
    | none =>
      if s.pipe.blank then (0, s)
      else
        let f := s.free
        (f.1 % 256, f.2)

/-- `n` bytes of the store from an offset, the first lowest in the word. -/
def readKibble : Nat → Nat → State → Nat × State
  | 0, _, s => (0, s)
  | n + 1, off, s =>
    let b := s.kibbleByte off
    let r := readKibble n (off + 1) b.2
    (b.1 + 256 * r.1, r.2)

/-- A DW of the kibble store window, which the pithead alone opens (R26, R408). Without a host link no request can come. -/
def execBar2Read (off : Nat) (write : Bool) (s : State) : Out :=
  if !s.answers .bar0 0x0E020 then .next s
  else if write then .next (s.bump HST_ERRCNT1.BAR2_DENIED 1)
  else if s.holds .bar0 .maker && s.isPithead then
    if off + 0x2000000 * s.get HST_BAR2.BASE < 0x6000000 then
      let v := readKibble 4 (off + 0x2000000 * s.get HST_BAR2.BASE) s
      .next { v.2 with answer := v.1 }
    else .next { s with answer := 0 }
  else .next { s.denyBar2 off with answer := 0 }

end Sys2Proof.Machine
end

