-- ==== Sys2Proof/Machine/I2c.lean ====
section
/-!
DEFINITION. Transfers of the I²C target (ch. 17): commands as the bus brings them, word accesses through the window, the clock hold and the stuck-line
timer.
-/
namespace Sys2Proof.Machine

/-- The offset of the word addressed (R525). -/
def State.i2cOffset (s : State) : Nat := s.get I2C_SEL.PAGE * 4096 + s.get I2C_SEL.WIN * 1024 + s.get I2C_SEL.PTR * 4

/-- PTR advances after a word, unless the last ACCESS was ACCESS_FIXED (R528). -/
def State.i2cAdvance (s : State) : State := if s.on I2C_SEL.FIXED then s else s.set I2C_SEL.PTR (s.get I2C_SEL.PTR + 1)

/-- The target holds SCL for an access to a page that SYS or a block answers (R530): 1 a write, 2 a read. -/
def State.i2cHold (s : State) (kind off : Nat) : State :=
  if pageOf off = 0x01 ∨ pageOf off = 0x03 ∨ pageOf off = 0x11 then s.onI2c fun x => { x with hold := 0 }
  else s.onI2c fun x => { x with hold := kind, holdAt := s.fwc }

/-- What was going on ends: a partial word is discarded and counted (R527). -/
def State.i2cEnd (s : State) : State :=
  let t := if s.i2c.partialBytes.isEmpty then s else s.bump I2C_ERRCNT1.PARTIAL 1
  (t.onI2c fun x => { x with partialBytes := [], reading := false, hold := 0 }).set I2C_STATUS.BUSY 0

/-- A start condition: a transfer before it ends, and FILT takes effect (R524, R527). -/
def State.i2cStart (s : State) : State :=
  ((s.i2cEnd).set I2C_STATUS.BUSY 1).onI2c fun x => { x with filt := s.get I2C_CFG.FILT }

/-- Pulses shorter than this many ns are suppressed on SDA and SCL: 50 ns by the analogue filter, and above STANDBY FILT × 40 ns more by the
digital one (R524). -/
def State.i2cSuppression (s : State) : Nat := 50 + (if s.above then 40 * s.i2c.filt else 0)

/-- A write transfer begins. -/
def State.i2cBegin (s : State) : State := (s.i2cStart).onI2c fun x => { x with nack := false }

/-- Data bytes: every fourth completes a word, which is written as one access (R527). -/
def i2cData : List Nat → State → State
  | [], s => s
  | b :: bs, s =>
    let l := s.i2c.partialBytes ++ [b]
    if l.length < 4 then i2cData bs (s.onI2c fun x => { x with partialBytes := l })
    else
      let off := s.i2cOffset
      let t := (s.onI2c fun x => { x with partialBytes := [] }).writeWord .i2c off (ofLeBytes l)
      i2cData bs ((t.i2cHold 1 off).i2cAdvance)

/-- A command byte that R526 does not list: it is not acknowledged, and the rest of the transfer is ignored. -/
def State.i2cBad (s : State) : State := ((s.i2cBegin).bump I2C_ERRCNT1.BADCMD 1).onI2c fun x => { x with nack := true }

/-- An ACCESS command with its pointer and data. -/
def State.i2cAccess (s : State) (fixed : Bool) (ptr : Nat) (data : List Nat) : State :=
  i2cData data (((s.i2cBegin).put I2C_SEL.FIXED fixed).set I2C_SEL.PTR ptr)

/-- The rows of R526: `known` is false where a code that the table does not list stands in place of the command byte. -/
def execAccessInc (known : Bool) (ptr : Byte) (data : List Byte) (s : State) : Out :=
  if !s.pwr.vaon then .next s
  else if known then .next (s.i2cAccess false ptr.toNat (data.map BitVec.toNat)) else .next s.i2cBad

def execAccessFixed (known : Bool) (ptr : Byte) (data : List Byte) (s : State) : Out :=
  if !s.pwr.vaon then .next s
  else if known then .next (s.i2cAccess true ptr.toNat (data.map BitVec.toNat)) else .next s.i2cBad

/-- SELECT sets PAGE and WIN, and PTR 0; bytes beyond WIN are not acknowledged. -/
def execSelect (known : Bool) (page win : Byte) (further : Bool) (s : State) : Out :=
  if !s.pwr.vaon then .next s
  else if known then
    .next ((((s.i2cBegin).set I2C_SEL.PAGE page.toNat).set I2C_SEL.WIN (win.toNat % 4)).set I2C_SEL.PTR 0 |>.onI2c fun x => { x with nack := further })
  else .next s.i2cBad

/-- A read transfer asks for a word (R529): the address byte is acknowledged, or the fourth byte of the word before was. -/
def execI2cWordRead (s : State) : Out :=
  if !s.pwr.vaon then .next s
  else
    let t := if s.i2c.reading then s.i2cAdvance else s.i2cStart
    let off := t.i2cOffset
    let r := t.readWord .i2c off
    .next { ((r.1.onI2c fun x => { x with reading := true, sent := leBytes r.2 4 }).i2cHold 2 off) with answer := r.2 }

/-- A stop or repeated start. `whole`: the fourth byte of the word being read went out and was not acknowledged, so PTR advances (R529). -/
def execI2cTransferEnd (whole : Bool) (s : State) : Out :=
  .next (if s.i2c.reading && whole then (s.i2cAdvance).i2cEnd else s.i2cEnd)

/-- The target has held SCL for 1 ms (R530): a write's byte is not acknowledged, a read's word goes out as 0xFF bytes. -/
def execI2cHoldTimeout (s : State) : Out :=
  if s.i2c.hold = 0 then .next s
  else
    let t := (s.advance (s.i2c.holdAt + msTicks)).bump I2C_ERRCNT1.LATE 1
    if s.i2c.hold = 1 then .next (t.onI2c fun x => { x with hold := 0, nack := true })
    else .next { t.onI2c fun x => { x with hold := 0, sent := [0xFF, 0xFF, 0xFF, 0xFF] } with answer := 0xFFFFFFFF }

/-- The stuck-line timer expires (R535): SDA held low by the target, or SCL by another device during a transfer. -/
def execI2cStuckTimeout (sda : Bool) (s : State) : Out :=
  if s.on I2C_STATUS.BUSY then
    let t := s.i2cEnd
    if sda then .next ((t.bump I2C_ERRCNT0.SDA_REL 1).raise 0x1101 [t.fwc])
    else .next ((t.bump I2C_ERRCNT0.BUS_RST 1).raise 0x1102 [t.fwc])
  else .next s

end Sys2Proof.Machine
end

