-- ==== Sys2Proof/Machine/Startup.lean ====
section
/-!
DEFINITION. Start-up, the foreman's boot, the lamp check and SYSRST_N (ch. 15, R456, R484 to R491).
-/
namespace Sys2Proof.Machine

/-! ### E2 of R456 -/

/-- The start-up reset: groups 2 to 6 and pages 0x02 to 0x12 at their reset values, the freewheel counter 0, CANARY started; PLL-S waits
for its reference. -/
def execStartupReset (s : State) : Out :=
  if s.pwr.startup = 1 then
    let t := { s.resetDomains with fwc := 0 }
    let t := (t.set PWR_CLK.CANARY_RUN 1).setStage 2 1
    .next ((t.onPwr fun p => { p with startup := 2 }).reviewForcing)
  else .next s

/-! ### The boot (R486) -/

/-- The word of a register in the installer record: its installer fields from the record, other fields as they stand, actions 0. -/
def State.recordWord (s : State) (content : Tbl Nat) (off : Nat) : Nat :=
  (fieldsAt off).foldl (fun w f =>
    let v := match Tbl.get 0 content f.key with
      | 0 => if f.acc = .rw ∨ f.acc = .rws then s.get f else 0
      | n + 1 => n
    w ||| (v <<< f.lo)) 0

/-- Registers whose EN locks others are written after those. -/
def writtenLate : List Nat := [0x04100, 0x04120, 0x04140, 0x04160, 0x0D000]

/-- The registers of the installer record in the order the foreman writes them. -/
def recordOffsets : List Nat :=
  let offs := (installerFields.map Field.off).eraseDups
  (offs.filter fun o => !writtenLate.contains o) ++ offs.filter fun o => writtenLate.contains o

/-- Step 4: the installer record is written under R81, or there is none. -/
def State.replayInstaller (s : State) : State :=
  match s.inBank 3 with
  | none => (s.set NVS_STATUS.INST_NONE 1).recordFails 3 0 0
  | some _ =>
    let c := s.bankContent 3
    let offs := recordOffsets.filter fun o => (fieldsAt o).any fun f => decide (Tbl.get 0 c f.key ≠ 0)
    offs.foldl (fun t o => t.writeWord .foreman o (t.recordWord c o)) s

/-- Step 3, and the counter of R511. -/
def State.loadTrims (s : State) : State :=
  let t := (s.loadCoefs (s.bankContent 2)).set CAL_BASE_STATUS.SEQ ((s.inBank 2).getD (0, 0)).2
  t.onRol fun r => { r with ctr := r.base, base := r.base + 65536 }

/-- Steps 3 to 6 of the boot, steps 3 and 4 after a start-up reset only; without a valid firmware bank the foreman stays in the ROM
loader and none is carried out (R486). -/
def State.firmwareSteps (s : State) (cold : Bool) : State :=
  if (s.inBank 1).isNone then s else (if cold then (s.loadTrims).replayInstaller else s).reviewBook

/-- The lamp check begins with item STORE. -/
def State.startLamp (s : State) (warm : Bool) : State :=
  ((s.put BIST_LAMP.WARM warm).set BIST_LAMP.FAIL 0).onPwr fun p => { p with lampItem := some 0, lampAt := s.fwc }

/-- Row FOREMAN_BOOT_DONE. `crc` and `unc` are the blocks whose record failed its CRC and the words that were uncorrectable as the boot read
the store. After start-up all steps and the full lamp check; after SYSRST_N without steps 3 and 4, with the warm one; after
the reboot of R561 the foreman goes on with the L2 the trip calls. -/
def execForemanBootDone (crc unc : List Nat) (s : State) : Out :=
  if !s.sysRuns || s.pwr.sysrst then .next s
  else
    let t := ((s.bootReads crc unc).showBanks).showFirmware
    let run := fun (t : State) => t.onPwr fun p => { p with boot := 0, rom := (t.inBank 1).isNone }
    if s.pwr.boot = 1 ∧ s.pwr.startup = 4 then
      .next (((run (t.firmwareSteps true)).onPwr fun p => { p with startup := 5 }).deliverHeld.startLamp false)
    else if s.pwr.boot = 2 then .next ((run (t.firmwareSteps false)).deliverHeld.reportClosed.startLamp true)
    else if s.pwr.boot = 3 then
      let t := ((run (t.firmwareSteps false)).putBit SAF_TRIP.LIVE trFOREMAN_LS false).putBit SAF_TRIP.LIVE trFOREMAN_HB false
      .next ((t.onSaf fun f => { f with reboot := false }).deliverHeld.settleL2.reviewForcing)
    else .next s

/-! ### The lamp check (R487 to R490) -/

/-- Item STORE cannot pass without valid firmware and calibration banks and role keys. -/
def State.storeItemOk (s : State) : Bool := (s.inBank 1).isSome && (s.inBank 2).isSome && decide (s.rol.keys.length = 3)

/-- The item after one; the warm check leaves KIBBLE out. -/
def nextItem (warm : Bool) (i : Nat) : Nat := if warm ∧ i = 1 then 3 else i + 1

/-- A reading lies within `pct` per cent of a nominal one. -/
def nearBy (pct nominal n : Nat) : Bool := decide (100 * ((n : Int) - nominal).natAbs ≤ pct * nominal)

/-- Item MONITOR: the codes of channels 0 to 21; rails within 5 % of nominal, diodes between −40 °C and 100 °C, the bandgap against VANA within
1 % of 5 461. -/
def State.monitorItem (s : State) (codes : List Nat) : Bool × State :=
  let rails := (List.range 9).all fun i => nearBy 5 ((nominalCode i).getD 0) (codes.getD i 0)
  (List.range 8).foldl (fun a n =>
    let d := a.2.diodeTemp n (codes.getD (9 + n) 0)
    (a.1 && decide (-640 ≤ signed 16 d.1 ∧ signed 16 d.1 ≤ 1600), d.2)) (rails && nearBy 1 5461 (codes.getD 17 0), s)

/-- Item LOGIC: the signatures of the cadence copies, the converter logic, the DMA and crossbar and the pipeline equal their goldens. -/
def State.logicItem (s : State) (sigs : List Nat) : Bool :=
  (List.range 4).all fun i => decide (s.golden (0x111 + i) = some (sigs.getD i 0))

/-- What an item's test found, from its readings: 0 STORE the records in force, 3 LOGIC the signatures, 6 MONITOR the codes, 7 CLOCKS the
CANARY cycles in 1 ms of REFCLK; the others have no reading beside their own result. -/
def State.itemPasses (s : State) (i : Nat) (readings : List Nat) : Bool × State :=
  if i = 0 then (s.storeItemOk, s)
  else if i = 3 then (s.logicItem readings, s)
  else if i = 6 then s.monitorItem readings
  else if i = 7 then (nearBy 10 (canaryNominal / 1000) (readings.getD 0 0), s)
  else (true, s)

/-- Item 2 leaves the kibble store 0. -/
def State.clearKibble (s : State) : State := s.onPipe fun p => { p with table := [], blank := true }

/-- An item ends: `ok` as the hardware's test found, with its readings; a failing item sets its bit. -/
def execLampCheckItemDone (ok : Bool) (readings : List Nat) (s : State) : Out :=
  match s.pwr.lampItem with
  | none => .next s
  | some i =>
    if 8 ≤ i then .next s
    else
      let r := s.itemPasses i readings
      let t := if ok && r.1 then r.2 else r.2.putBit BIST_LAMP.FAIL i true
      let t := if i = 2 then t.clearKibble else t
      .next (t.onPwr fun p => { p with lampItem := some (nextItem (s.on BIST_LAMP.WARM) i) })

/-- A trip latched before start-up ended brings HOLD and its recovery now. -/
def State.tripAtStart (s : State) : State :=
  match (List.range 11).find? fun i => s.bitOf SAF_TRIP.LATCHED i && decide (i ≠ trREQ) with
  | none => s
  | some i => (s.callRecovery 0x0301 i 2 false false).enterHold 0x0301

/-- A recovery at L2 or L3 ends with a SYSRST_N that leaves no HOLD cause. -/
def State.endDeep (s : State) : State := if s.deepRecovery then (s.releaseRequest).endRecovery else s

/-- The code that names a HOLD cause in force (R471). -/
def State.causeCode (s : State) : Nat :=
  if s.tripHold then 0x0301 else if s.on SAF_STATUS.CHAIN_HOLD then 0x030B else if s.railsHold || s.saf.railFatal then 0x0103
  else if s.pllsHold then 0x0202 else if s.saf.drift then 0x030A else s.get (SAF_F_CODE.CODE 0)

/-- The end of the warm check: HOLD when a cause of R471 is in force, else IDLE (R485). Where CADENCE runs in that HOLD it starts anew
(R122). -/
def State.afterWarm (s : State) : State :=
  if s.holdCause stIDLE then
    if s.power = stHOLD then (s.toPower stHOLD).when s.cadenceRuns State.startCadence
    else (((s.onSaf fun f => { f with entryState := stIDLE }).holdBlocks).toPower stHOLD).raise 0x0302 [s.causeCode, s.get SAF_STATUS.LEVEL]
  else if s.power = stHOLD then ((s.leaveHold stIDLE).startMonitor).endDeep
  else ((s.toPower stIDLE).startMonitor).endDeep

/-- Row LAMP_CHECK_DONE: the report after the last item. -/
def execLampCheckDone (s : State) : Out :=
  if s.pwr.lampItem = some 8 then
    let cold := decide (s.pwr.startup = 5)
    let fail := s.get BIST_LAMP.FAIL
    let t := s.set BIST_LAMP.TIME_MS (min (2 ^ BIST_LAMP.TIME_MS.width - 1) ((s.fwc - s.pwr.lampAt) / msTicks))
    let t := t.onPwr fun p => { p with lampItem := none, startup := 0 }
    if fail ≠ 0 then .next ((t.toPower stSAFETALK).raise 0x1201 [fail, t.get BIST_LAMP.WARM])
    else if cold then .next ((t.onMon fun m => { m with refAt := t.fwc }).toPower stIDLE).startMonitor.tripAtStart
    else .next t.afterWarm
  else .next s

/-! ### SYSRST_N (R485) -/

/-- The chain state becomes SOLO; the other registers of page 0x0B, tally, incarnation, banks and KEYREF stay, and with them a derailleur
under way (R314, R341). -/
def State.goSolo (s : State) : State :=
  (s.set CHN_STATE.STATE chSOLO).onChn fun c =>
    { c with claimAt := none, roll := none, waitingCall := 0, remapped := false, joinAt := none, beatSeen := false, beatMissed := 0, rejoin := false }

/-- What SYSRST_N stops in a unit that has started: CADENCE and the converters' work, the sessions, the host interface as for a Function Level
Reset (R412), pending values, loops, STAGED sending, open frames, a self-test. -/
def State.sysrstBlocks (s : State) : State :=
  let t := (((s.sysrstSessions).resetHost).haltCadence).discardArray
  let t := ((((t.endLoops).stopStaged).endFrames).abortBist).goSolo
  let t := t.set PWR_STATUS.PENDING (if t.get PWR_STATUS.PENDING = stSTANDBY then stSTANDBY else 0)
  (t.set PWR_STATUS.BUSY 1).onHst fun h => { h with flrAt := some t.fwc }

def execSysrstNAssert (s : State) : Out :=
  if s.pwr.sysrst then .next s
  else
    let t := s.onPwr fun p => { p with sysrst := true, lampItem := none }
    if s.pwr.startup ≠ 0 then
      .next ((t.onPwr fun p => { p with startup := min 4 p.startup, boot := if 3 ≤ p.startup then 1 else p.boot }).reviewForcing)
    else if s.above then .next ((t.sysrstBlocks).reviewForcing)
    else .next t

def execSysrstNRelease (s : State) : Out :=
  if s.pwr.sysrst then
    let t := s.onPwr fun p => { p with sysrst := false }
    if s.pwr.startup = 0 && s.above then .next ((t.onPwr fun p => { p with boot := 2 }).reviewForcing) else .next t.reviewForcing
  else .next s

end Sys2Proof.Machine
end

