-- ==== Sys2Proof/Machine/SweepStart.lean ====
section
/-!
DEFINITION. The sweep-start event (R97): what ends with a sweep, the derailleur's stages, values and tables put in force, and what the sweep
that begins needs.
-/
namespace Sys2Proof.Machine

/-- Sweep `n` is `k` or a later one. -/
def reached (k n : Nat) : Bool := !serialLater 32 k n

/-! ### The sweep that ends (R146, R200, R208, R321) -/

/-- The pithead forms the request state of the sweep that ends and publishes it: requested from its start to its end. -/
def State.publishRequest (s : State) (m : Nat) : State :=
  if s.isPithead && decide (s.cad.sweepAt ≠ 0) then
    let ok := !bit (Tbl.get 0 s.cad.conds m) cdNOREQ && s.on EXP_MREQ_STATUS.REQUESTING
    (s.learnRequest m ok).send ⟨0x11, 3, s.inc, s.tally, 63, m, s.get CHN_EPOCH.GEAR, s.get CHN_EPOCH.ASSIGN,
      leBytes m 4 ++ [ofBool ok + 2 * ofBool (s.on CHN_RING.WHOLE), s.get CHN_RING.BREAK_AFTER, 0, 0] ++ leBytes (s.get CHN_EPOCH.GEAR) 2 ++
        leBytes (s.get CHN_EPOCH.ASSIGN) 2 ++ zeroBytes 4⟩
  else s

/-- CLOSE items of the sweep that ends; every sweep held by the port is one sweep older. -/
def State.closeSweep (s : State) : State :=
  let t := match s.cad.opened with
    | some n => (s.eng.out.filter fun (o : OutSweep) => decide (o.sweep = n)).foldl State.closeStope s
    | none => s
  (t.onCad fun c => { c with opened := none }).onEng fun g => { g with out := g.out.map fun (o : OutSweep) => { o with starts := o.starts + 1 } }

/-! ### Power transitions at a sweep start (R454, R83) -/

/-- READY to CAPTURE: every row of both taps is reset, every counter cleared (R83); a recovery that waited for CAPTURE ends. -/
def State.intoCapture (s : State) : State :=
  let t := ((s.set PWR_STATUS.PENDING 0).toPower stCAPTURE).kitWindows
  let t := (t.onArr fun a => { a with counts := [], charge := [], short := [] }).onCad fun c => { c with gains := [] }
  if t.get SAF_STATUS.LEVEL = 2 then t.endRecovery else t

/-- CAPTURE to READY: the sweep in progress has ended; an entry to READY makes calibration due (R167). -/
def State.leaveCapture (s : State) : State := ((((s.set PWR_STATUS.PENDING 0).stopTable).toPower stREADY).kitWindows).calReady

def State.powerAtSweep (s : State) : State :=
  if s.get PWR_STATUS.PENDING = stCAPTURE ∧ s.power = stREADY then s.intoCapture
  else if s.get PWR_STATUS.PENDING = stREADY ∧ s.power = stCAPTURE then s.leaveCapture
  else s

/-! ### Values put in force (R79, R80, R82, R126) -/

/-- Some fields take the values their registers hold. -/
def State.apply (s : State) (fs : List Field) : State :=
  s.onCad fun c => { c with force := fs.foldl (fun t f => Tbl.set f.reset t f.key (s.get f)) c.force }

/-- Stopes whose binning code has become disallowed fall back to 0b00 (R79). -/
def State.denyBins (s : State) : State :=
  (List.range 256).foldl (fun t x =>
    let f := EXP_BIN.BIN x
    let v := t.inForce f
    if (v = 1 ∧ t.inForce EXP_BIN_ALLOW.ALLOW1 = 0) ∨ (v = 2 ∧ t.inForce EXP_BIN_ALLOW.ALLOW2 = 0) then
      (((t.set f 0).onCad fun c => { c with force := Tbl.set f.reset c.force f.key 0 }).raise 0x0644 [x, v])
    else t) s

/-- A new skim threshold makes the sweep a range transition (R82). -/
def State.noteThresh (s : State) (old n : Nat) : State :=
  let new := s.inForce EXP_SKIM.THRESH
  if new = old then s
  else (((s.set EXP_ARRAY_STATUS.THRESH_ACTIVE new).set EXP_ARRAY_STATUS.RANGE_TRANS 1).flagSweep n cdRANGE).raise 0x0643 [old, new, n]

/-- Pending values come into force at the sweep start of sweep n: all of them at a commit, else those not held for one (R80). -/
def State.applyPending (s : State) (commit : Bool) (n : Nat) : State :=
  let old := s.inForce EXP_SKIM.THRESH
  let fs := if commit then pendingFields else pendingFields.filter fun f => !s.cad.waits.contains f.key
  let t := s.apply fs
  let t := if commit then t.onCad fun c => { c with waits := [] } else t
  (((t.denyBins).noteThresh old n).reviewMeas)

/-- The mode last written, and EXP_INTEG with it, come into force (R126). A mode written after the swap request or ARM passed its checks comes
into force with that swap, unchecked: DESIGN CHOICE (notes/assumptions/46.md). -/
def State.applyMode (s : State) (n : Nat) : State :=
  let old := s.get EXP_MODE.MODE_ACTIVE
  let new := s.get EXP_MODE.MODE
  let t := s.apply [EXP_INTEG.FRAMES, EXP_INTEG.HALVES]
  if new = old then t else (t.set EXP_MODE.MODE_ACTIVE new).raise 0x0601 [old, new, n]

/-- The shadow table becomes active and the active one the shadow (R109). -/
def State.swapTables (s : State) (n : Nat) : State :=
  let t := s.onCad fun c => { c with act := c.shd, shd := c.act }
  (((t.set CAD_TBL_STATUS.SHD_NEW 0).set CAD_TBL_STATUS.PENDING 0).set CAD_TBL_STATUS.ACTIVE_LEN (activeLen t.cad.act)).raise 0x0508 [n]

/-- A validated swap takes effect (R109), and the mode with it. -/
def State.swapAtSweep (s : State) (n : Nat) : State :=
  if s.on CAD_TBL_STATUS.PENDING then (s.swapTables n).applyMode n else s

/-! ### The derailleur (E4 to E6 of R323) -/

/-- E4: with every joined unit's acknowledgement COMMIT goes to all, else the derailleur is cancelled; so is one that E4 finds on a unit which
is the pithead no longer. -/
def State.commitStage (s : State) (n : Nat) : State :=
  match s.chn.drl with
  | none => s
  | some d =>
    if s.get CHN_DRL_STATUS.STATE = 1 ∧ reached ((d.k + 2 ^ 32 - d.lOld) % 2 ^ 32) n then
      if !s.isPithead then s.cancelDerail 4 1
      else
      match (1 :: s.crew).find? fun t => !s.bitOf (CHN_ACKED.MAP (t / 32)) (t % 32) with
      | some t => ((s.set CHN_DRL_STATUS.NACK_TALLY t).set CHN_DRL_STATUS.NACK_RESULT 0).cancelDerail 2 t
      | none =>
        ((s.sendCtl 0x0C 0 63 ([s.get CHN_DRL_STATUS.NUMBER, 0, 0, 0] ++ leBytes d.k 4)).set CHN_DRL_STATUS.STATE 2).onChn fun c =>
          { c with commit := some d.k }
    else s

/-- The pithead's banks and epochs at sweep K; the previous ones stand until the grace ends (R329). -/
def State.switchBanks (s : State) : State :=
  match s.chn.drl with
  | none => s
  | some d =>
    (s.onChn fun c => { c with
      prev := c.bank, bank := if d.asgCh then c.next else c.bank, since := some d.k
      acked := s.get (CHN_ACKED.MAP 0) + s.get (CHN_ACKED.MAP 1) * 2 ^ 32, prevGear := d.prevGear, prevAssign := d.prevAssign
      graceEnd := some ((d.k + 4 * d.lNew) % 2 ^ 32) }).sendMirror

/-- What the switch puts in force outside HOLD: every pending value, the shadow table where it is new, the mode (R80, R110, R126, R322). -/
def State.switchGear (s : State) (n : Nat) : State :=
  let t := s.applyPending true n
  let t := if t.on CAD_TBL_STATUS.SHD_NEW then t.swapTables n else t
  t.applyMode n

/-- E5: a unit that holds COMMIT switches; one that holds neither COMMIT nor CANCEL does not (R324). The flag says that it switched. In
HOLD the epochs, the banks and the stope mask change, and pending values wait for READY (R80). -/
def State.switchStage (s : State) (n : Nat) : State × Bool :=
  match s.chn.armed with
  | none => (s, false)
  | some a =>
    if reached a.k n then
      let t := s.onChn fun c => { c with armed := none, commit := none, stopes := none }
      if s.chn.commit.isNone then (t, false)
      else
        let t := match s.stopesFor a.assign a.asgCh with
          | some m => t.writeMask m
          | none => t
        let t := (t.set CHN_EPOCH.GEAR a.gear).set CHN_EPOCH.ASSIGN a.assign
        let t := if t.isPithead then t.switchBanks else t
        if t.power = stHOLD then (t, false) else (t.switchGear n, true)
    else (s, false)

/-- E6: the grace of R329 ends. -/
def State.graceStage (s : State) (n : Nat) : State :=
  match s.chn.drl, s.chn.graceEnd with
  | some d, some e =>
    if reached e n then
      let t := s.onChn fun c => { c with prev := [], graceEnd := none, drl := none }
      ((((t.set CHN_DRL_STATUS.STATE 0).set CHN_DRL_STATUS.RESULT 1).raise 0x0B09 [d.gear, d.assign, d.k])).serveCall.serveSpare
    else s
  | _, _ => s

/-! ### The sweep that begins in CAPTURE -/

/-- The settings of the video schedule come into force where they pass ERR 0x8; a pair that fails is refused once (R127, R134). -/
def State.takeVideo (s : State) : State :=
  let len := s.get EXP_VIDEO_LEN.LEN
  let g := s.get EXP_VIDEO.GAIN
  if len = s.cad.videoLen ∧ g = s.cad.videoGain then s.onCad fun c => { c with videoBad := none }
  else if (s.afterSwap false).videoFits len g then s.onCad fun c => { c with videoLen := len, videoGain := g, videoBad := none }
  else if s.cad.videoBad = some (len, g) then s
  else (s.onCad fun c => { c with videoBad := some (len, g) }).refuseMode (8, 0)

/-- The passes scheduled in the sweep: tap and gain set (R155, R199). -/
def State.planned (s : State) : List (Nat × Nat) :=
  if s.get EXP_MODE.MODE_ACTIVE = 0 then [(0, s.gainSet s.cad.videoGain)]
  else (List.range (sweepEnd s.cad.act)).filterMap fun i =>
    let e := Tbl.get 0 s.cad.act i
    if entryAction e = 4 then some (entryArg e % 2, s.gainSet (entryArg e / 2 % 4)) else none

/-- Gain sets compared with those of each tap's previous pass (R156). -/
def State.noteGains (n : Nat) : List (Nat × Nat) → State → State
  | [], s => s
  | (tap, g) :: rest, s =>
    let old := Tbl.get 0 s.cad.gains tap
    let t := s.onCad fun c => { c with gains := Tbl.set 0 c.gains tap g }
    State.noteGains n rest
      (if old ≠ 0 ∧ old ≠ g then ((t.set EXP_ARRAY_STATUS.RANGE_TRANS 1).flagSweep n cdRANGE).raise 0x0701 [tap, old, g, n] else t)

/-- The table or the video schedule runs from the start of its sweep. -/
def State.startTable (s : State) (n : Nat) : State :=
  let video := decide (s.get EXP_MODE.MODE_ACTIVE = 0)
  let t := (s.put EXP_MODE_STATUS.VIDEO_RUN video).put CAD_STATE.TABLE_RUN (!video)
  let t := t.onCad fun c => { c with plan := t.planned, meas := Tbl.set 0 c.meas n (1 + ofBool (tableHasMeas c.act)), opened := some n, pulse := some (t.fwc + t.get EXP_EXPO_PW.PW) }
  let t := State.noteGains n t.cad.plan t
  ((List.range 256).filter t.stopeOn).foldl State.openStope t

/-! ### The spotlight frame (R343 to R351) -/

/-- Left out of a frame: counted, raised once per sweep (R346, R347). -/
def State.skipSpot (s : State) (k n : Nat) : State :=
  if k = 0 then s
  else
    let t := s.bump EXP_SPOT_ERRCNT.SKIPPED k
    if t.spot.skipped then t else (t.onSpot fun p => { p with skipped := true }).raise 0x0611 [n]

/-- The OPEN item of a frame (R350). -/
def State.spotOpen (s : State) (f : SpotFrame) : SpotItem :=
  let ps := s.cad.plan.map fun p => p.1 + 2 * p.2
  { src := s.tally, inc := s.inc, sweep := f.sweep, gear := f.gear, assign := f.assign, kind := 1, fmt := f.fmt, time := s.fwc / 64
    body := leBytes f.mask 32 ++ [min 15 ps.length, s.get EXP_MODE.MODE_ACTIVE, s.inForce CAD_CTRL.LOCK_N, s.get EXP_ARRAY_STATUS.THRESH_ACTIVE] ++
      (ps ++ zeroBytes 4).take 4 ++ leBytes s.fwc 10 ++ [ofBool (!s.mono)] ++ zeroBytes 13 }

/-- The spotlight frame of sweep n, where one is taken. -/
def State.spotSweep (s : State) (n : Nat) : State :=
  let s := s.onSpot fun p => { p with skipped := false, force := spotFields.foldl (fun t f => Tbl.set f.reset t f.key (s.get f)) p.force }
  let s := match s.spot.frame with
    | some f => if f.staged then s else s.spotComplete
    | none => s
  if s.spotNow EXP_SPOT_CTRL.EN = 1 ∧ s.power = stCAPTURE ∧ n / s.lockN % s.spotNow EXP_SPOT_CTRL.EVERY = 0 then
    if s.spot.frame.isSome then s.skipSpot 1 n
    else
      let staged := decide (s.spotNow EXP_SPOT_CTRL.METHOD = 1)
      let fmt := s.spotNow EXP_SPOT_CTRL.FMT
      let want := (List.range 256).filter fun x => bit (s.spotNow (EXP_SPOT_MASK.MASK (x / 32))) (x % 32) && s.stopeOn x
      let free := fun x => match s.engineOf x with
        | some e => decide ((s.engine e).st = 0)
        | none => false
      let take := if staged then want.filter free else want
      let taps := s.spotNow EXP_SPOT_CTRL.TAPS
      let f : SpotFrame :=
        { sweep := n, gear := s.get CHN_EPOCH.GEAR, assign := s.get CHN_EPOCH.ASSIGN, staged, fmt
          taps := if staged && decide (fmt = 1 ∧ taps = 3) then 1 else taps, mask := take.foldl (fun m x => m + 2 ^ x) 0, at_ := s.fwc
          cond := if take.any s.stopeAged then 2 ^ cdAGED else 0 }
      let t := ((s.skipSpot (want.length - take.length) n).onSpot fun p => { p with frame := some f }).spotTake f (s.spotOpen f)
      (if t.cad.plan.isEmpty then t.spotComplete else t).reviewSpot
  else s.reviewSpot

/-! ### MREQ (R142, R146) -/

/-- MREQ stops where what came into force ends a condition (R143), and starts at a sweep start where every condition holds; the sweeps it
leads are flagged, and so is every sweep not requested throughout. -/
def State.mreqSweep (s : State) (n : Nat) : State :=
  if !s.isPithead then s
  else
    let s := s.reviewMreq
    let t :=
      if s.on EXP_MREQ_STATUS.REQUESTING then s.set EXP_MREQ_STATUS.LEAD_LEFT (s.get EXP_MREQ_STATUS.LEAD_LEFT - 1)
      else if s.mreqFails = none then
        (((((s.set EXP_MREQ_STATUS.REQUESTING 1).set EXP_MREQ_STATUS.LEAD_LEFT (s.get EXP_MREQ_CTRL.LEAD)).onCad fun c =>
          { c with mreq := true }).onSaf fun f => { f with mreqRise := some s.fwc, mreqFall := none }).raise 0x0606 [n])
      else s
    if t.on EXP_MREQ_STATUS.REQUESTING && decide (t.get EXP_MREQ_STATUS.LEAD_LEFT = 0) then t else t.flagSweep n cdNOREQ

/-! ### The event -/

/-- What is new for every sweep. -/
def State.freshSweep (s : State) (n : Nat) : State :=
  (((s.set EXP_ARRAY_STATUS.RANGE_TRANS 0).set CAD_SWEEP.SWEEP n).onCad fun c => { c with
    late := false, suppr := false, integ := false, passIx := 0, plan := [], ptr := 0, video := 0, sweepAt := s.fwc
    conds := c.conds.filter fun e => decide (serialDiff 32 n e.1 ≤ 64)
    meas := c.meas.filter fun e => decide (serialDiff 32 n e.1 ≤ 64) }).onEng fun g => { g with lostRaised := false, fresh := [] }

/-- The gap mark of READY: LOCK_N tracked scan periods less the margin (R100). -/
def State.readyMark (s : State) : State :=
  if s.power = stREADY then s.gapMark (tickOf (s.lockN * s.scanPer.getD (s.get CAD_FREE_SCAN.PERIOD * sub)) - 400) else s

/-- The sweep-start event of sweep n, with sweep m before it. -/
def State.sweepEvent (s : State) (n m : Nat) : State :=
  let s := s.onCad fun c => { c with sweepDue := false, measSince := s.on CAD_STATE.MEAS_OK }
  let s := ((s.closeSweep).publishRequest m).freshSweep n
  let s := (s.commitStage n).graceStage n
  let r := s.switchStage n
  if r.1.power = stHOLD then r.1
  else
    let s := if r.2 then r.1 else (r.1.swapAtSweep n).applyPending false n
    let s := if s.power = stREADY then s.endMark else s
    let s := (s.powerAtSweep).takeVideo
    let s := if s.power = stCAPTURE ∧ s.on CAD_STATE.LS_FAULT = false then (s.scheduled).startTable n else s
    ((s.readyMark).spotSweep n).mreqSweep n

/-- The sweep start that is due, or that the scan tracker's start at p brings (R97, R100, R109, R142, R323). -/
def execSweepStart (s : State) : Out :=
  if !s.cadenceRuns then .next s
  else
    let t := if s.cad.sweepDue then s else s.takeStart
    if t.cad.sweepDue then
      let t := t.advance t.cad.dueAt
      .next (t.sweepEvent (t.cad.wall / t.lockN * t.lockN) (t.get CAD_SWEEP.SWEEP))
    else .next s

end Sys2Proof.Machine
end

