-- ==== Sys2Proof/Machine/Dispatch.lean ====
section
/-!
DEFINITION. The dispatch table: each command's meaning.
-/
namespace Sys2Proof.Machine

def exec (i : Instr) (s : State) : Host.Outcome State Fault Refusal :=
  match i with
  | .registerWrite p off w full => Sys2Proof.Machine.execRegisterWrite p off w full s
  | .wideRegisterRead p off => Sys2Proof.Machine.execWideRegisterRead p off s
  | .expArrayErrclr p w => Sys2Proof.Machine.execExpArrayErrclr p w s
  | .cadErrclr p w => Sys2Proof.Machine.execCadErrclr p w s
  | .expModeErrclr p w => Sys2Proof.Machine.execExpModeErrclr p w s
  | .calErrclr p w => Sys2Proof.Machine.execCalErrclr p w s
  | .monErrclr p w => Sys2Proof.Machine.execMonErrclr p w s
  | .engErrclr p w => Sys2Proof.Machine.execEngErrclr p w s
  | .lnkErrclr d p w => Sys2Proof.Machine.execLnkErrclr d p w s
  | .chnErrclr p w => Sys2Proof.Machine.execChnErrclr p w s
  | .expSpotErrclr p w => Sys2Proof.Machine.execExpSpotErrclr p w s
  | .pipeErrclr p w => Sys2Proof.Machine.execPipeErrclr p w s
  | .timErrclr p w => Sys2Proof.Machine.execTimErrclr p w s
  | .hstErrclr p w => Sys2Proof.Machine.execHstErrclr p w s
  | .pwrErrclr p w => Sys2Proof.Machine.execPwrErrclr p w s
  | .pllErrclr p w => Sys2Proof.Machine.execPllErrclr p w s
  | .safErrclr p w => Sys2Proof.Machine.execSafErrclr p w s
  | .nvsErrclr p w => Sys2Proof.Machine.execNvsErrclr p w s
  | .rolErrclr p w => Sys2Proof.Machine.execRolErrclr p w s
  | .i2cErrclr p w => Sys2Proof.Machine.execI2cErrclr p w s
  | .vaonGood addr strap => Sys2Proof.Machine.execVaonGood addr strap s
  | .vaonFail => Sys2Proof.Machine.execVaonFail s
  | .railGood j => Sys2Proof.Machine.execRailGood j s
  | .railFault j => Sys2Proof.Machine.execRailFault j s
  | .pwrCmdStandby p => Sys2Proof.Machine.execPwrCmdStandby p s
  | .pwrCmdIdle p => Sys2Proof.Machine.execPwrCmdIdle p s
  | .pwrCmdReady p => Sys2Proof.Machine.execPwrCmdReady p s
  | .pwrCmdCapture p => Sys2Proof.Machine.execPwrCmdCapture p s
  | .standbyAfterCommit => Sys2Proof.Machine.execStandbyAfterCommit s
  | .startupReset => Sys2Proof.Machine.execStartupReset s
  | .foremanBootDone crc unc => Sys2Proof.Machine.execForemanBootDone crc unc s
  | .lampCheckItemDone ok readings => Sys2Proof.Machine.execLampCheckItemDone ok readings s
  | .lampCheckDone => Sys2Proof.Machine.execLampCheckDone s
  | .sysrstNAssert => Sys2Proof.Machine.execSysrstNAssert s
  | .sysrstNRelease => Sys2Proof.Machine.execSysrstNRelease s
  | .perstNAssert => Sys2Proof.Machine.execPerstNAssert s
  | .perstNRelease => Sys2Proof.Machine.execPerstNRelease s
  | .hotReset => Sys2Proof.Machine.execHotReset s
  | .functionLevelReset => Sys2Proof.Machine.execFunctionLevelReset s
  | .flrDone => Sys2Proof.Machine.execFlrDone s
  | .d3hotEntry => Sys2Proof.Machine.execD3hotEntry s
  | .d0Return => Sys2Proof.Machine.execD0Return s
  | .bmeClear => Sys2Proof.Machine.execBmeClear s
  | .bmeSet => Sys2Proof.Machine.execBmeSet s
  | .linkChanged speed width flit => Sys2Proof.Machine.execLinkChanged speed width flit s
  | .refQualificationWindow edges => Sys2Proof.Machine.execRefQualificationWindow edges s
  | .pllBandSearchDone x band => Sys2Proof.Machine.execPllBandSearchDone x band s
  | .pllLockDeclared x => Sys2Proof.Machine.execPllLockDeclared x s
  | .pllLocked x => Sys2Proof.Machine.execPllLocked x s
  | .pllReferenceMissing => Sys2Proof.Machine.execPllReferenceMissing s
  | .pllLockBreak x => Sys2Proof.Machine.execPllLockBreak x s
  | .pllRelock p x w => Sys2Proof.Machine.execPllRelock p x w s
  | .pllClkoutEnable p n w => Sys2Proof.Machine.execPllClkoutEnable p n w s
  | .canaryTrip j => Sys2Proof.Machine.execCanaryTrip j s
  | .foremanLockstep => Sys2Proof.Machine.execForemanLockstep s
  | .foremanHeartbeatTimeout => Sys2Proof.Machine.execForemanHeartbeatTimeout s
  | .dieTempTrip => Sys2Proof.Machine.execDieTempTrip s
  | .oscMissingPulse => Sys2Proof.Machine.execOscMissingPulse s
  | .oscReturn => Sys2Proof.Machine.execOscReturn s
  | .testTrip p => Sys2Proof.Machine.execTestTrip p s
  | .safTripClear p w => Sys2Proof.Machine.execSafTripClear p w s
  | .foremanResetRelease => Sys2Proof.Machine.execForemanResetRelease s
  | .canaryCount n => Sys2Proof.Machine.execCanaryCount n s
  | .recoveryTimeout => Sys2Proof.Machine.execRecoveryTimeout s
  | .l1DeferExpired => Sys2Proof.Machine.execL1DeferExpired s
  | .l2Release => Sys2Proof.Machine.execL2Release s
  | .chainRestart p => Sys2Proof.Machine.execChainRestart p s
  | .scanFrmEdge t rising => Sys2Proof.Machine.execScanFrmEdge t rising s
  | .scanLineEdge t rising => Sys2Proof.Machine.execScanLineEdge t rising s
  | .mainsZxEdge t rising => Sys2Proof.Machine.execMainsZxEdge t rising s
  | .netComputedStart m => Sys2Proof.Machine.execNetComputedStart m s
  | .freeReferenceInstant m => Sys2Proof.Machine.execFreeReferenceInstant m s
  | .trackerWindowClose m => Sys2Proof.Machine.execTrackerWindowClose m s
  | .cadSrcWrite p w => Sys2Proof.Machine.execCadSrcWrite p w s
  | .sweepStart => Sys2Proof.Machine.execSweepStart s
  | .openA => Sys2Proof.Machine.execOpenA s
  | .openB => Sys2Proof.Machine.execOpenB s
  | .close => Sys2Proof.Machine.execClose s
  | .read => Sys2Proof.Machine.execRead s
  | .gap => Sys2Proof.Machine.execGap s
  | .expo => Sys2Proof.Machine.execExpo s
  | .armEntry => Sys2Proof.Machine.execArmEntry s
  | .disarm => Sys2Proof.Machine.execDisarm s
  | .sweepEnd => Sys2Proof.Machine.execSweepEnd s
  | .tableNop => Sys2Proof.Machine.execTableNop s
  | .openLengthEnd => Sys2Proof.Machine.execOpenLengthEnd s
  | .triggerEdge n t rising => Sys2Proof.Machine.execTriggerEdge n t rising s
  | .triggerDelayOpen n => Sys2Proof.Machine.execTriggerDelayOpen n s
  | .triggerExposureEnd n => Sys2Proof.Machine.execTriggerExposureEnd n s
  | .cadShdHiWrite p w => Sys2Proof.Machine.execCadShdHiWrite p w s
  | .cadActHiRead p => Sys2Proof.Machine.execCadActHiRead p s
  | .cadSwapReq p => Sys2Proof.Machine.execCadSwapReq p s
  | .expModeWrite p w => Sys2Proof.Machine.execExpModeWrite p w s
  | .lockstepFault t q fastP fastQ => Sys2Proof.Machine.execLockstepFault t q fastP fastQ s
  | .videoScheduleStep => Sys2Proof.Machine.execVideoScheduleStep s
  | .expoPulseEnd => Sys2Proof.Machine.execExpoPulseEnd s
  | .skim tap row col charge => Sys2Proof.Machine.execSkim tap row col charge s
  | .rowLatch dark codes => Sys2Proof.Machine.execRowLatch dark codes s
  | .rowResetDone => Sys2Proof.Machine.execRowResetDone s
  | .calKindDue kind => Sys2Proof.Machine.execCalKindDue kind s
  | .sliceStepDone res => Sys2Proof.Machine.execSliceStepDone res s
  | .pktCalStepDone res => Sys2Proof.Machine.execPktCalStepDone res s
  | .bankRecalDone res => Sys2Proof.Machine.execBankRecalDone res s
  | .calAged => Sys2Proof.Machine.execCalAged s
  | .heldPassStart => Sys2Proof.Machine.execHeldPassStart s
  | .calBaseCapture p => Sys2Proof.Machine.execCalBaseCapture p s
  | .calBaseValWrite p w => Sys2Proof.Machine.execCalBaseValWrite p w s
  | .calBaseCommit p => Sys2Proof.Machine.execCalBaseCommit p s
  | .monitorConversionDone uv vref err => Sys2Proof.Machine.execMonitorConversionDone uv vref err s
  | .monCtrlRunWrite p w => Sys2Proof.Machine.execMonCtrlRunWrite p w s
  | .monRefSettled => Sys2Proof.Machine.execMonRefSettled s
  | .monTempUpdate n => Sys2Proof.Machine.execMonTempUpdate n s
  | .itemPublish stope => Sys2Proof.Machine.execItemPublish stope s
  | .engScalarAlu e ferr op rd rs rt => Sys2Proof.Machine.execEngScalarAlu e ferr op rd rs rt s
  | .engBranch e ferr op rs rt target => Sys2Proof.Machine.execEngBranch e ferr op rs rt target s
  | .engScalarLoadStore e ferr load size sx reg base off err => Sys2Proof.Machine.execEngScalarLoadStore e ferr load size sx reg base off err s
  | .wait e ferr => Sys2Proof.Machine.execWait e ferr s
  | .fence e ferr => Sys2Proof.Machine.execFence e ferr s
  | .trap e ferr code => Sys2Proof.Machine.execTrap e ferr code s
  | .engVectorAlu e ferr op wide vd va vb vc => Sys2Proof.Machine.execEngVectorAlu e ferr op wide vd va vb vc s
  | .engVectorMac e ferr wide sx ad va vb => Sys2Proof.Machine.execEngVectorMac e ferr wide sx ad va vb s
  | .engVectorLoadStore e ferr load mode wide vr base off errs => Sys2Proof.Machine.execEngVectorLoadStore e ferr load mode wide vr base off errs s
  | .engPermuteReduce e ferr op wide sx rd ra rb => Sys2Proof.Machine.execEngPermuteReduce e ferr op wide sx rd ra rb s
  | .lclTimerZero e => Sys2Proof.Machine.execLclTimerZero e s
  | .lclInRdWrite e v => Sys2Proof.Machine.execLclInRdWrite e v s
  | .lclPush e stream count => Sys2Proof.Machine.execLclPush e stream count s
  | .pushCopyDone e => Sys2Proof.Machine.execPushCopyDone e s
  | .lclPushSeal e => Sys2Proof.Machine.execLclPushSeal e s
  | .lclPetWrite e => Sys2Proof.Machine.execLclPetWrite e s
  | .lclTrapWrite e code => Sys2Proof.Machine.execLclTrapWrite e code s
  | .lclEventWrite e cause => Sys2Proof.Machine.execLclEventWrite e cause s
  | .lclOutboxPost e v => Sys2Proof.Machine.execLclOutboxPost e v s
  | .engineReadyMessage e => Sys2Proof.Machine.execEngineReadyMessage e s
  | .logMessage e => Sys2Proof.Machine.execLogMessage e s
  | .keyRefresh stope => Sys2Proof.Machine.execKeyRefresh stope s
  | .mapChanged stope base len sweep => Sys2Proof.Machine.execMapChanged stope base len sweep s
  | .statReq stope sweep => Sys2Proof.Machine.execStatReq stope sweep s
  | .lclInboxRdWrite e v => Sys2Proof.Machine.execLclInboxRdWrite e v s
  | .sweepDeadline => Sys2Proof.Machine.execSweepDeadline s
  | .engWatchdog e => Sys2Proof.Machine.execEngWatchdog e s
  | .scrubRead e addr err => Sys2Proof.Machine.execScrubRead e addr err s
  | .engStart p => Sys2Proof.Machine.execEngStart p s
  | .engHalt p => Sys2Proof.Machine.execEngHalt p s
  | .engClear p => Sys2Proof.Machine.execEngClear p s
  | .engMemAddrWrite p w => Sys2Proof.Machine.execEngMemAddrWrite p w s
  | .engMemDataWrite p w => Sys2Proof.Machine.execEngMemDataWrite p w s
  | .engMemDataRead p => Sys2Proof.Machine.execEngMemDataRead p s
  | .remapStart => Sys2Proof.Machine.execRemapStart s
  | .remapCopyDone bad => Sys2Proof.Machine.execRemapCopyDone bad s
  | .remapComplete => Sys2Proof.Machine.execRemapComplete s
  | .engRemapGo p w => Sys2Proof.Machine.execEngRemapGo p w s
  | .engQenWrite p w => Sys2Proof.Machine.execEngQenWrite p w s
  | .quadrantInitDone q => Sys2Proof.Machine.execQuadrantInitDone q s
  | .txBlock d => Sys2Proof.Machine.execTxBlock d s
  | .laneBlockReceive d n words => Sys2Proof.Machine.execLaneBlockReceive d n words s
  | .laneStuck d n => Sys2Proof.Machine.execLaneStuck d n s
  | .laneSignalLoss d => Sys2Proof.Machine.execLaneSignalLoss d s
  | .clockRecovered d n => Sys2Proof.Machine.execClockRecovered d n s
  | .trainingBlockReceive d n words h v => Sys2Proof.Machine.execTrainingBlockReceive d n words h v s
  | .eqComplete d => Sys2Proof.Machine.execEqComplete d s
  | .keystreamStart d => Sys2Proof.Machine.execKeystreamStart d s
  | .linkUp d ud du => Sys2Proof.Machine.execLinkUp d ud du s
  | .trainTimeout d => Sys2Proof.Machine.execTrainTimeout d s
  | .trainRetryDelay d => Sys2Proof.Machine.execTrainRetryDelay d s
  | .linkFrameReceive d => Sys2Proof.Machine.execLinkFrameReceive d s
  | .widthReq d lanes offset tally hops => Sys2Proof.Machine.execWidthReq d lanes offset tally hops s
  | .widthAck d => Sys2Proof.Machine.execWidthAck d s
  | .retrainReq d tally hops => Sys2Proof.Machine.execRetrainReq d tally hops s
  | .retrainAck d => Sys2Proof.Machine.execRetrainAck d s
  | .withdraw d => Sys2Proof.Machine.execWithdraw d s
  | .sleep d => Sys2Proof.Machine.execSleep d s
  | .feLoopReq d lanes tally hops => Sys2Proof.Machine.execFeLoopReq d lanes tally hops s
  | .feLoopAck d => Sys2Proof.Machine.execFeLoopAck d s
  | .feLoopEnd d => Sys2Proof.Machine.execFeLoopEnd d s
  | .widthChangeBoundary d ud du => Sys2Proof.Machine.execWidthChangeBoundary d ud du s
  | .replayTimeout d => Sys2Proof.Machine.execReplayTimeout d s
  | .txSleepEntry d => Sys2Proof.Machine.execTxSleepEntry d s
  | .txWake d => Sys2Proof.Machine.execTxWake d s
  | .lnkEnWrite p d w => Sys2Proof.Machine.execLnkEnWrite p d w s
  | .lnkRetrainWrite p d w => Sys2Proof.Machine.execLnkRetrainWrite p d w s
  | .lnkLoopRunWrite p d w => Sys2Proof.Machine.execLnkLoopRunWrite p d w s
  | .packetForward d k => Sys2Proof.Machine.execPacketForward d k s
  | .packetTransmit d => Sys2Proof.Machine.execPacketTransmit d s
  | .claim d k => Sys2Proof.Machine.execClaim d k s
  | .claimInterval => Sys2Proof.Machine.execClaimInterval s
  | .electionTimeout => Sys2Proof.Machine.execElectionTimeout s
  | .roll d k => Sys2Proof.Machine.execRoll d k s
  | .rollTimeout => Sys2Proof.Machine.execRollTimeout s
  | .rollReport d k => Sys2Proof.Machine.execRollReport d k s
  | .grant d k => Sys2Proof.Machine.execGrant d k s
  | .rollDoneReceive d k => Sys2Proof.Machine.execRollDoneReceive d k s
  | .bench d k => Sys2Proof.Machine.execBench d k s
  | .recover d k => Sys2Proof.Machine.execRecover d k s
  | .stopes d k => Sys2Proof.Machine.execStopes d k s
  | .arm d k => Sys2Proof.Machine.execArm d k s
  | .armAck d k => Sys2Proof.Machine.execArmAck d k s
  | .commit d k => Sys2Proof.Machine.execCommit d k s
  | .cancel d k => Sys2Proof.Machine.execCancel d k s
  | .keyRefreshReq d k => Sys2Proof.Machine.execKeyRefreshReq d k s
  | .mirror d k => Sys2Proof.Machine.execMirror d k s
  | .ringNotice d k => Sys2Proof.Machine.execRingNotice d k s
  | .beat d k => Sys2Proof.Machine.execBeat d k s
  | .beatWindow => Sys2Proof.Machine.execBeatWindow s
  | .sweepState d k => Sys2Proof.Machine.execSweepState d k s
  | .joinCallDelay => Sys2Proof.Machine.execJoinCallDelay s
  | .chnFullCall p => Sys2Proof.Machine.execChnFullCall p s
  | .chnJoinCall p => Sys2Proof.Machine.execChnJoinCall p s
  | .goGear p => Sys2Proof.Machine.execGoGear p s
  | .goAssign p => Sys2Proof.Machine.execGoAssign p s
  | .chnAsgHiWrite p w => Sys2Proof.Machine.execChnAsgHiWrite p w s
  | .chnAsgCopy p => Sys2Proof.Machine.execChnAsgCopy p s
  | .chnAsgClear p => Sys2Proof.Machine.execChnAsgClear p s
  | .sweepHdr d k => Sys2Proof.Machine.execSweepHdr d k s
  | .key d k => Sys2Proof.Machine.execKey d k s
  | .delta d k => Sys2Proof.Machine.execDelta d k s
  | .stat d k => Sys2Proof.Machine.execStat d k s
  | .aux d k => Sys2Proof.Machine.execAux d k s
  | .event d k => Sys2Proof.Machine.execEvent d k s
  | .proxyRd d k => Sys2Proof.Machine.execProxyRd d k s
  | .proxyWr d k => Sys2Proof.Machine.execProxyWr d k s
  | .proxyRsp d k => Sys2Proof.Machine.execProxyRsp d k s
  | .bulk d k => Sys2Proof.Machine.execBulk d k s
  | .spot d k => Sys2Proof.Machine.execSpot d k s
  | .spotPacketSend => Sys2Proof.Machine.execSpotPacketSend s
  | .expSpotCtrlWrite p w => Sys2Proof.Machine.execExpSpotCtrlWrite p w s
  | .spotClearDone => Sys2Proof.Machine.execSpotClearDone s
  | .pipeItemProcess => Sys2Proof.Machine.execPipeItemProcess s
  | .pipeFrameTimeout => Sys2Proof.Machine.execPipeFrameTimeout s
  | .pipeCtxCommit p => Sys2Proof.Machine.execPipeCtxCommit p s
  | .pipeCtxDisable p => Sys2Proof.Machine.execPipeCtxDisable p s
  | .pipeMemWrite p w => Sys2Proof.Machine.execPipeMemWrite p w s
  | .timRateWrite p w => Sys2Proof.Machine.execTimRateWrite p w s
  | .timStepCommit p w => Sys2Proof.Machine.execTimStepCommit p w s
  | .timStepAccept p w => Sys2Proof.Machine.execTimStepAccept p w s
  | .timeSlewDone => Sys2Proof.Machine.execTimeSlewDone s
  | .hostDisciplineLapse => Sys2Proof.Machine.execHostDisciplineLapse s
  | .timeInvalid => Sys2Proof.Machine.execTimeInvalid s
  | .delayExchangeStart d t1 => Sys2Proof.Machine.execDelayExchangeStart d t1 s
  | .delayReq d k t2 t3 => Sys2Proof.Machine.execDelayReq d k t2 t3 s
  | .delayResp d k t4 => Sys2Proof.Machine.execDelayResp d k t4 s
  | .delayInfo d k => Sys2Proof.Machine.execDelayInfo d k s
  | .syncSend u v => Sys2Proof.Machine.execSyncSend u v s
  | .followUpSend => Sys2Proof.Machine.execFollowUpSend s
  | .sync d k t => Sys2Proof.Machine.execSync d k t s
  | .followUp d k t => Sys2Proof.Machine.execFollowUp d k t s
  | .chainTimeLost => Sys2Proof.Machine.execChainTimeLost s
  | .publishSend mains => Sys2Proof.Machine.execPublishSend mains s
  | .publish d k => Sys2Proof.Machine.execPublish d k s
  | .tpEnable p n w => Sys2Proof.Machine.execTpEnable p n w s
  | .tpulseRise n => Sys2Proof.Machine.execTpulseRise n s
  | .tpulseFall n => Sys2Proof.Machine.execTpulseFall n s
  | .sqDoorbell p n w => Sys2Proof.Machine.execSqDoorbell p n w s
  | .cqDoorbell p n w => Sys2Proof.Machine.execCqDoorbell p n w s
  | .drDoorbell p n w => Sys2Proof.Machine.execDrDoorbell p n w s
  | .ringEnable p k n w => Sys2Proof.Machine.execRingEnable p k n w s
  | .ringResume p k n => Sys2Proof.Machine.execRingResume p k n s
  | .nop d => Sys2Proof.Machine.execNop d s
  | .regRead d => Sys2Proof.Machine.execRegRead d s
  | .regWrite d => Sys2Proof.Machine.execRegWrite d s
  | .bulkWrite d => Sys2Proof.Machine.execBulkWrite d s
  | .sessionChallenge d => Sys2Proof.Machine.execSessionChallenge d s
  | .sessionOpen d => Sys2Proof.Machine.execSessionOpen d s
  | .sessionClose d => Sys2Proof.Machine.execSessionClose d s
  | .cqModerationTimer n => Sys2Proof.Machine.execCqModerationTimer n s
  | .drFlushTimeout n => Sys2Proof.Machine.execDrFlushTimeout n s
  | .bar2Read off write => Sys2Proof.Machine.execBar2Read off write s
  | .proxyTimeout => Sys2Proof.Machine.execProxyTimeout s
  | .hostGraceExpired => Sys2Proof.Machine.execHostGraceExpired s
  | .hostWdogPet p => Sys2Proof.Machine.execHostWdogPet p s
  | .hostWdogExpired => Sys2Proof.Machine.execHostWdogExpired s
  | .hstRearm p => Sys2Proof.Machine.execHstRearm p s
  | .storeWordVerify block err => Sys2Proof.Machine.execStoreWordVerify block err s
  | .commitComplete uncorr => Sys2Proof.Machine.execCommitComplete uncorr s
  | .nvsImgOpen p => Sys2Proof.Machine.execNvsImgOpen p s
  | .nvsImgDataWrite p w => Sys2Proof.Machine.execNvsImgDataWrite p w s
  | .nvsImgCommit p => Sys2Proof.Machine.execNvsImgCommit p s
  | .nvsSaveInst p => Sys2Proof.Machine.execNvsSaveInst p s
  | .nvsRdDataLoRead p err => Sys2Proof.Machine.execNvsRdDataLoRead p err s
  | .nvsRdDataHiRead p => Sys2Proof.Machine.execNvsRdDataHiRead p s
  | .storeRewrite err => Sys2Proof.Machine.execStoreRewrite err s
  | .shiftBookEntryWrite => Sys2Proof.Machine.execShiftBookEntryWrite s
  | .bistLbist p target => Sys2Proof.Machine.execBistLbist p target s
  | .bistMbist p target => Sys2Proof.Machine.execBistMbist p target s
  | .bistDone sig failCnt addr => Sys2Proof.Machine.execBistDone sig failCnt addr s
  | .bistGoldCommit p => Sys2Proof.Machine.execBistGoldCommit p s
  | .rolChallenge p role => Sys2Proof.Machine.execRolChallenge p role s
  | .rolSessionOpen p role => Sys2Proof.Machine.execRolSessionOpen p role s
  | .rolSessionClose p role => Sys2Proof.Machine.execRolSessionClose p role s
  | .rolKeyReplace p target => Sys2Proof.Machine.execRolKeyReplace p target s
  | .rolSbSelWrite p w => Sys2Proof.Machine.execRolSbSelWrite p w s
  | .sessionIdleTimeout path role => Sys2Proof.Machine.execSessionIdleTimeout path role s
  | .lockoutEnd path role => Sys2Proof.Machine.execLockoutEnd path role s
  | .challengeExpiry path role => Sys2Proof.Machine.execChallengeExpiry path role s
  | .accessInc known ptr data => Sys2Proof.Machine.execAccessInc known ptr data s
  | .accessFixed known ptr data => Sys2Proof.Machine.execAccessFixed known ptr data s
  | .select known page win further => Sys2Proof.Machine.execSelect known page win further s
  | .i2cWordRead => Sys2Proof.Machine.execI2cWordRead s
  | .i2cTransferEnd whole => Sys2Proof.Machine.execI2cTransferEnd whole s
  | .i2cHoldTimeout => Sys2Proof.Machine.execI2cHoldTimeout s
  | .i2cStuckTimeout sda => Sys2Proof.Machine.execI2cStuckTimeout sda s
  | .railDown => Sys2Proof.Machine.execRailDown s
  | .dieTempNormal => Sys2Proof.Machine.execDieTempNormal s
  | .hostReadCompletion ix status data => Sys2Proof.Machine.execHostReadCompletion ix status data s
  | .completionTimeout ix => Sys2Proof.Machine.execCompletionTimeout ix s
  | .dlUp => Sys2Proof.Machine.execDlUp s
  | .mreqToggle => Sys2Proof.Machine.execMreqToggle s
  | .elasticBufferSlip d => Sys2Proof.Machine.execElasticBufferSlip d s

end Sys2Proof.Machine
end

