-- ==== Sys2Proof/Safety.lean ====
section
/-!
DEFINITION. What counts as a safe run, in the terms the statements use: a step that answers, the frame of a command, the canonical form of
the register store, and the two halves of a register write (its bookkeeping and its effect).
-/
namespace Sys2Proof.Machine

/-- A step answers a next state. -/
def Answers (o : Out) : Prop := ∃ t, o = .next t

/-! ### Frames -/

/-- Every field but those listed reads as before. -/
def SameRegs (fs : List Field) (s t : State) : Prop := ∀ g : Field, g.key ∉ fs.map Field.key → t.get g = s.get g

/-- Nothing but the register store differs, and of it the listed fields alone. -/
def Only (fs : List Field) (s t : State) : Prop := t = { s with regs := t.regs } ∧ SameRegs fs s t

/-- Nothing but the record of engine `e` differs. -/
def OnlyEngine (e : Nat) (s t : State) : Prop :=
  t = { s with eng := { s.eng with engs := t.eng.engs } } ∧ ∀ o : Nat, o ≠ e → t.engine o = s.engine o

/-- An instruction of an engine's program issues: the program goes on, and its next instruction is in instruction memory, aligned, in a word with
at most the one-bit error that the fetch corrects (R189, R191). `ferr` is the error found in that word now. -/
def State.issues (s : State) (e ferr : Nat) : Prop :=
  s.goesOn e = true ∧ (s.engine e).pc < 0x10000 ∧ (s.engine e).pc % 4 = 0 ∧ (s.engine e).errorAt (s.engine e).pc 4 [ferr] ≤ 1

/-- Engine `e` as the fetch of its next instruction leaves it: the word checked, a one-bit error corrected and counted. -/
def State.fetched (s : State) (e ferr : Nat) : Eng := (s.engine e).noteErrors (s.engine e).pc 4 [ferr]

/-- Everything an event on its way touches: the queues it may join and the counters of what was lost. -/
def OnlyRaised (s t : State) : Prop :=
  t = { s with regs := t.regs, events := t.events, heldAon := t.heldAon, heldCanary := t.heldCanary
               hst := { s.hst with eventLost := t.hst.eventLost, drLost := t.hst.drLost }, chn := { s.chn with queue := t.chn.queue } } ∧
    SameRegs [HST_ERRCNT2.EVENT_LOST, CHN_ERRCNT4.PORT_DROP] s t

/-! ### Register writes -/

/-- A register write is carried out: the register answers, SAFE-TALK takes it, and the shift book has room where a role gates it. -/
def State.takes (s : State) (p : Path) (off w : Nat) : Bool :=
  s.answers p off && !(fieldsAt off).isEmpty && !(isPerPath off && decide (pathNo p ≥ 2)) &&
    !(decide (s.power = stSAFETALK) && !safeTalkTakes off && decide (p ≠ .foreman)) &&
    (decide (p = .foreman) || (s.rolesUsed p off).isEmpty || (s.logAttempts p off w).sbRoom)

/-- What a register write does beside its effect: rejections logged, the shift book entry, the session's idle time, the first set-up
write (R11, R491, R512, R515). -/
def State.booked (s : State) (p : Path) (off w : Nat) : State := s.regWrite p off w id

/-- What a carried-out write of an ERRCLR register does: with CLEAR 0 nothing, with CLEAR 1 every counter among some fields becomes 0 and no
other register changes. -/
def Cleared (fs : List Field) (w : Word) (b u : State) : Prop :=
  (bit w.toNat 0 = false → u = b) ∧ (bit w.toNat 0 = true → Only fs b u ∧ ∀ f ∈ fs, f.acc = .ro → u.get f = 0)

/-! ### What every reachable state keeps -/

/-- The register store is in its canonical form, and the freewheel counter fits its 80 bits (R31). -/
def State.Inv (s : State) : Prop := Tbl.rises none s.regs = true ∧ s.fwc < 2 ^ 80

end Sys2Proof.Machine
end

