-- ==== Sys2Proof/WellFormed.lean ====
section
/-!
DEFINITION. Which commands the hardware can be sent: operands in the ranges their fields, registers and packets have. An operand not tested takes
every value of its type.
-/
namespace Sys2Proof

/-- The ROLES byte of a proxy packet has three bits (R431). -/
def Path.wf : Path → Bool
  | .bar0 => true
  | .i2c => true
  | .proxy roles => decide (roles < 8)
  | .foreman => true

/-- The fields of a descriptor have the widths of R423. -/
def Desc.wf (d : Desc) : Bool :=
  decide (d.sq < 32 ∧ d.cid < 65536 ∧ d.tally < 256 ∧ d.operands.length = 56) && d.operands.all fun b => decide (b < 256)

/-- The fields of a packet have the widths of R299. -/
def Machine.Packet.wf (k : Machine.Packet) : Bool :=
  decide (0 < k.dt ∧ k.dt < 64 ∧ k.vc < 16 ∧ k.inc < 256 ∧ k.src < 64 ∧ k.dst < 64 ∧ k.sweep < 2 ^ 32 ∧ k.gear < 65536 ∧ k.assign < 65536) &&
    decide (k.payload.length % 4 = 0 ∧ k.payload.length ≤ 16384) &&
    k.payload.all fun b => decide (b < 256)

/-- A command is well formed. -/
def Instr.wf : Instr → Bool
  | .registerWrite p off _ _ => p.wf && decide (off < 2 ^ 20 ∧ off % 4 = 0)
  | .wideRegisterRead p off => p.wf && decide (off < 2 ^ 20 ∧ off % 4 = 0)
  | .expArrayErrclr p _ => p.wf
  | .cadErrclr p _ => p.wf
  | .expModeErrclr p _ => p.wf
  | .calErrclr p _ => p.wf
  | .monErrclr p _ => p.wf
  | .engErrclr p _ => p.wf
  | .lnkErrclr _ p _ => p.wf
  | .chnErrclr p _ => p.wf
  | .expSpotErrclr p _ => p.wf
  | .pipeErrclr p _ => p.wf
  | .timErrclr p _ => p.wf
  | .hstErrclr p _ => p.wf
  | .pwrErrclr p _ => p.wf
  | .pllErrclr p _ => p.wf
  | .safErrclr p _ => p.wf
  | .nvsErrclr p _ => p.wf
  | .rolErrclr p _ => p.wf
  | .i2cErrclr p _ => p.wf
  | .vaonGood addr _ => decide (addr < 8)
  | .vaonFail => true
  | .railGood _ => true
  | .railFault _ => true
  | .pwrCmdStandby p => p.wf
  | .pwrCmdIdle p => p.wf
  | .pwrCmdReady p => p.wf
  | .pwrCmdCapture p => p.wf
  | .standbyAfterCommit => true
  | .startupReset => true
  | .foremanBootDone _ _ => true
  | .lampCheckItemDone _ _ => true
  | .lampCheckDone => true
  | .sysrstNAssert => true
  | .sysrstNRelease => true
  | .perstNAssert => true
  | .perstNRelease => true
  | .hotReset => true
  | .functionLevelReset => true
  | .flrDone => true
  | .d3hotEntry => true
  | .d0Return => true
  | .bmeClear => true
  | .bmeSet => true
  | .linkChanged speed width _ => decide (1 ≤ speed ∧ speed ≤ 6) && decide (width = 1 ∨ width = 2 ∨ width = 4 ∨ width = 8)
  | .refQualificationWindow _ => true
  | .pllBandSearchDone _ _ => true
  | .pllLockDeclared _ => true
  | .pllLocked _ => true
  | .pllReferenceMissing => true
  | .pllLockBreak _ => true
  | .pllRelock p _ _ => p.wf
  | .pllClkoutEnable p _ _ => p.wf
  | .canaryTrip _ => true
  | .foremanLockstep => true
  | .foremanHeartbeatTimeout => true
  | .dieTempTrip => true
  | .oscMissingPulse => true
  | .oscReturn => true
  | .testTrip p => p.wf
  | .safTripClear p _ => p.wf
  | .foremanResetRelease => true
  | .canaryCount _ => true
  | .recoveryTimeout => true
  | .l1DeferExpired => true
  | .l2Release => true
  | .chainRestart p => p.wf
  | .scanFrmEdge _ _ => true
  | .scanLineEdge _ _ => true
  | .mainsZxEdge _ _ => true
  | .netComputedStart _ => true
  | .freeReferenceInstant _ => true
  | .trackerWindowClose _ => true
  | .cadSrcWrite p _ => p.wf
  | .sweepStart => true
  | .openA => true
  | .openB => true
  | .close => true
  | .read => true
  | .gap => true
  | .expo => true
  | .armEntry => true
  | .disarm => true
  | .sweepEnd => true
  | .tableNop => true
  | .openLengthEnd => true
  | .triggerEdge n _ _ => decide (n < 4)
  | .triggerDelayOpen n => decide (n < 4)
  | .triggerExposureEnd n => decide (n < 4)
  | .cadShdHiWrite p _ => p.wf
  | .cadActHiRead p => p.wf
  | .cadSwapReq p => p.wf
  | .expModeWrite p _ => p.wf
  | .lockstepFault _ _ _ _ => true
  | .videoScheduleStep => true
  | .expoPulseEnd => true
  | .skim tap row col _ => decide (tap ≤ 1) && decide (row < 12384) && decide (col < 16512)
  | .rowLatch _ codes => decide (∀ c ∈ codes, c.side ≤ 1 ∧ c.x < 16384)
  | .rowResetDone => true
  | .calKindDue kind => decide (1 ≤ kind ∧ kind ≤ 3)
  | .sliceStepDone res => decide (∀ r ∈ res, r.bank < 2048 ∧ r.slice ≤ 4)
  | .pktCalStepDone res => decide (∀ r ∈ res, r.1 < 1024 ∧ r.2 < 2 ^ 24)
  | .bankRecalDone res => decide (∀ r ∈ res, r.bank < 2048 ∧ r.slice ≤ 4)
  | .calAged => true
  | .heldPassStart => true
  | .calBaseCapture p => p.wf
  | .calBaseValWrite p _ => p.wf
  | .calBaseCommit p => p.wf
  | .monitorConversionDone _ _ _ => true
  | .monCtrlRunWrite p _ => p.wf
  | .monRefSettled => true
  | .monTempUpdate n => decide (n < 8)
  | .itemPublish stope => decide (stope < 256)
  | .engScalarAlu e ferr _ rd rs rt => decide (e < 264) && decide (ferr ≤ 2) && decide (rd < 32) && decide (rs < 32) && decide (rt < 32)
  | .engBranch e ferr _ rs rt target => decide (e < 264) && decide (ferr ≤ 2) && decide (rs < 32) && decide (rt < 32) && decide (target < 2 ^ 16 ∧ target % 4 = 0)
  | .engScalarLoadStore e ferr _ size _ reg base off err => decide (e < 264) && decide (ferr ≤ 2) && decide (size = 1 ∨ size = 2 ∨ size = 4) && decide (reg < 32) && decide (base < 32) && decide (off < 2 ^ 32) && decide (err ≤ 2)
  | .wait e ferr => decide (e < 264) && decide (ferr ≤ 2)
  | .fence e ferr => decide (e < 264) && decide (ferr ≤ 2)
  | .trap e ferr code => decide (e < 264) && decide (ferr ≤ 2) && decide (code < 2 ^ 16)
  | .engVectorAlu e ferr _ _ vd va vb vc => decide (e < 264) && decide (ferr ≤ 2) && decide (vd < 32) && decide (va < 32) && decide (vb < 32) && decide (vc < 32)
  | .engVectorMac e ferr _ _ ad va vb => decide (e < 264) && decide (ferr ≤ 2) && decide (ad < 4) && decide (va < 32) && decide (vb < 32)
  | .engVectorLoadStore e ferr _ _ _ vr base off errs => decide (e < 264) && decide (ferr ≤ 2) && decide (vr < 32) && decide (base < 32) && decide (off < 2 ^ 32) && decide (∀ x ∈ errs, x ≤ 2)
  | .engPermuteReduce e ferr _ _ _ rd ra rb => decide (e < 264) && decide (ferr ≤ 2) && decide (rd < 32) && decide (ra < 32) && decide (rb < 32)
  | .lclTimerZero e => decide (e < 264)
  | .lclInRdWrite e v => decide (e < 264) && decide (v < 2 ^ 32)
  | .lclPush e stream count => decide (e < 264) && decide (stream < 2 ^ 16) && decide (count < 2 ^ 16)
  | .pushCopyDone e => decide (e < 264)
  | .lclPushSeal e => decide (e < 264)
  | .lclPetWrite e => decide (e < 264)
  | .lclTrapWrite e code => decide (e < 264) && decide (code < 2 ^ 32)
  | .lclEventWrite e cause => decide (e < 264) && decide (cause < 2 ^ 32)
  | .lclOutboxPost e v => decide (e < 264) && decide (v < 2 ^ 32)
  | .engineReadyMessage e => decide (e < 264)
  | .logMessage e => decide (e < 264)
  | .keyRefresh stope => decide (stope < 256)
  | .mapChanged stope base len sweep => decide (stope < 256) && decide (base < 2 ^ 32) && decide (len < 2 ^ 32) && decide (sweep < 2 ^ 32)
  | .statReq stope sweep => decide (stope < 256) && decide (sweep < 2 ^ 32)
  | .lclInboxRdWrite e v => decide (e < 264) && decide (v < 2 ^ 32)
  | .sweepDeadline => true
  | .engWatchdog e => decide (e < 264)
  | .scrubRead e addr err => decide (e < 264) && decide (addr % 8 = 0) && decide (err ≤ 2)
  | .engStart p => p.wf
  | .engHalt p => p.wf
  | .engClear p => p.wf
  | .engMemAddrWrite p _ => p.wf
  | .engMemDataWrite p _ => p.wf
  | .engMemDataRead p => p.wf
  | .remapStart => true
  | .remapCopyDone _ => true
  | .remapComplete => true
  | .engRemapGo p _ => p.wf
  | .engQenWrite p _ => p.wf
  | .quadrantInitDone q => decide (q < 4)
  | .txBlock _ => true
  | .laneBlockReceive _ _ words => decide (words.length = 64)
  | .laneStuck _ _ => true
  | .laneSignalLoss _ => true
  | .clockRecovered _ _ => true
  | .trainingBlockReceive _ _ words _ _ => decide (words.length = 64)
  | .eqComplete _ => true
  | .keystreamStart _ => true
  | .linkUp _ _ _ => true
  | .trainTimeout _ => true
  | .trainRetryDelay _ => true
  | .linkFrameReceive _ => true
  | .widthReq _ _ offset tally hops => decide (offset < 2 ^ 16) && decide (tally ≤ 63) && decide (hops ≤ 63)
  | .widthAck _ => true
  | .retrainReq _ tally hops => decide (tally ≤ 63) && decide (hops ≤ 63)
  | .retrainAck _ => true
  | .withdraw _ => true
  | .sleep _ => true
  | .feLoopReq _ _ tally hops => decide (tally ≤ 63) && decide (hops ≤ 63)
  | .feLoopAck _ => true
  | .feLoopEnd _ => true
  | .widthChangeBoundary _ _ _ => true
  | .replayTimeout _ => true
  | .txSleepEntry _ => true
  | .txWake _ => true
  | .lnkEnWrite p _ _ => p.wf
  | .lnkRetrainWrite p _ _ => p.wf
  | .lnkLoopRunWrite p _ _ => p.wf
  | .packetForward _ k => k.wf
  | .packetTransmit _ => true
  | .claim _ k => k.wf
  | .claimInterval => true
  | .electionTimeout => true
  | .roll _ k => k.wf
  | .rollTimeout => true
  | .rollReport _ k => k.wf
  | .grant _ k => k.wf
  | .rollDoneReceive _ k => k.wf
  | .bench _ k => k.wf
  | .recover _ k => k.wf
  | .stopes _ k => k.wf
  | .arm _ k => k.wf
  | .armAck _ k => k.wf
  | .commit _ k => k.wf
  | .cancel _ k => k.wf
  | .keyRefreshReq _ k => k.wf
  | .mirror _ k => k.wf
  | .ringNotice _ k => k.wf
  | .beat _ k => k.wf
  | .beatWindow => true
  | .sweepState _ k => k.wf
  | .joinCallDelay => true
  | .chnFullCall p => p.wf
  | .chnJoinCall p => p.wf
  | .goGear p => p.wf
  | .goAssign p => p.wf
  | .chnAsgHiWrite p _ => p.wf
  | .chnAsgCopy p => p.wf
  | .chnAsgClear p => p.wf
  | .sweepHdr _ k => k.wf
  | .key _ k => k.wf
  | .delta _ k => k.wf
  | .stat _ k => k.wf
  | .aux _ k => k.wf
  | .event _ k => k.wf
  | .proxyRd _ k => k.wf
  | .proxyWr _ k => k.wf
  | .proxyRsp _ k => k.wf
  | .bulk _ k => k.wf
  | .spot _ k => k.wf
  | .spotPacketSend => true
  | .expSpotCtrlWrite p _ => p.wf
  | .spotClearDone => true
  | .pipeItemProcess => true
  | .pipeFrameTimeout => true
  | .pipeCtxCommit p => p.wf
  | .pipeCtxDisable p => p.wf
  | .pipeMemWrite p _ => p.wf
  | .timRateWrite p _ => p.wf
  | .timStepCommit p _ => p.wf
  | .timStepAccept p _ => p.wf
  | .timeSlewDone => true
  | .hostDisciplineLapse => true
  | .timeInvalid => true
  | .delayExchangeStart _ _ => true
  | .delayReq _ k _ _ => k.wf
  | .delayResp _ k _ => k.wf
  | .delayInfo _ k => k.wf
  | .syncSend _ _ => true
  | .followUpSend => true
  | .sync _ k _ => k.wf
  | .followUp _ k _ => k.wf
  | .chainTimeLost => true
  | .publishSend _ => true
  | .publish _ k => k.wf
  | .tpEnable p _ _ => p.wf
  | .tpulseRise _ => true
  | .tpulseFall _ => true
  | .sqDoorbell p _ _ => p.wf
  | .cqDoorbell p _ _ => p.wf
  | .drDoorbell p _ _ => p.wf
  | .ringEnable p _ _ _ => p.wf
  | .ringResume p _ _ => p.wf
  | .nop d => d.wf
  | .regRead d => d.wf
  | .regWrite d => d.wf
  | .bulkWrite d => d.wf
  | .sessionChallenge d => d.wf
  | .sessionOpen d => d.wf
  | .sessionClose d => d.wf
  | .cqModerationTimer _ => true
  | .drFlushTimeout _ => true
  | .bar2Read off _ => decide (off < 0x4000000 ∧ off % 4 = 0)
  | .proxyTimeout => true
  | .hostGraceExpired => true
  | .hostWdogPet p => p.wf
  | .hostWdogExpired => true
  | .hstRearm p => p.wf
  | .storeWordVerify block err => decide (block < 256) && decide (err ≤ 3)
  | .commitComplete _ => true
  | .nvsImgOpen p => p.wf
  | .nvsImgDataWrite p _ => p.wf
  | .nvsImgCommit p => p.wf
  | .nvsSaveInst p => p.wf
  | .nvsRdDataLoRead p err => p.wf && decide (err ≤ 3)
  | .nvsRdDataHiRead p => p.wf
  | .storeRewrite err => decide (err ≤ 3)
  | .shiftBookEntryWrite => true
  | .bistLbist p target => p.wf && decide (target < 512)
  | .bistMbist p target => p.wf && decide (target < 512)
  | .bistDone sig _ addr => decide (sig < 2 ^ 64) && decide (addr < 2 ^ 32)
  | .bistGoldCommit p => p.wf
  | .rolChallenge p role => p.wf && decide (role ≤ 3)
  | .rolSessionOpen p role => p.wf && decide (role ≤ 3)
  | .rolSessionClose p role => p.wf && decide (role ≤ 3)
  | .rolKeyReplace p target => p.wf && decide (target ≤ 3)
  | .rolSbSelWrite p _ => p.wf
  | .sessionIdleTimeout path role => decide (path ≤ 1) && decide (role ≤ 3)
  | .lockoutEnd path role => decide (path ≤ 1) && decide (role ≤ 3)
  | .challengeExpiry path role => decide (path ≤ 1) && decide (role ≤ 3)
  | .accessInc _ _ _ => true
  | .accessFixed _ _ _ => true
  | .select _ _ _ _ => true
  | .i2cWordRead => true
  | .i2cTransferEnd _ => true
  | .i2cHoldTimeout => true
  | .i2cStuckTimeout _ => true
  | .railDown => true
  | .dieTempNormal => true
  | .hostReadCompletion _ _ _ => true
  | .completionTimeout _ => true
  | .dlUp => true
  | .mreqToggle => true
  | .elasticBufferSlip _ => true

end Sys2Proof
end

