-- ==== Sys2Proof/Certificates/Slice0/Obligations.lean ====
section
/-!
DEFINITION. The statements for the provers, family by family.
-/
open Sys2Proof Sys2Proof.Machine

/-- O1. A step runs the command at the front of the queue on the state with the queue's rest. For every command c, every state s and every rest of queue:
when s.pending is c followed by rest, step s is exec of c on s with its queue cut to rest. (The queue is the model's own, log entry 8.) -/
def Obligations.FrontCommandRuns : Prop :=
  ∀ (c : Instr) (rest : List Instr) (s : State), s.pending = c :: rest → step s = exec c { s with pending := rest }

/-- O2. With nothing waiting a step lets one clock cycle pass (the model's choice, log entry 4). With an empty queue step answers a next state that
differs from s in the freewheel counter alone: it is one tick later modulo 2^80 while PLL-T drives the TIME domain, 80 ticks later while only CANARY
does, and stands while neither runs. That a step without a command is one cycle is the model's choice (log entry 4). -/
def Obligations.EmptyQueueIdles : Prop :=
  ∀ s : State, s.pending = [] → s.fwc + 80 < 2 ^ 80 →
    step s = .next { s with fwc := if s.on (PLL_STATUS.LOCKED 1) then s.fwc + 1 else if s.on PWR_CLK.CANARY_RUN then s.fwc + 80 else s.fwc }

/-- O3. No command and no step ends in a fault or a refusal. For every command c and every state s, exec c s is a next state, and so is step s: the block
has no state in which a command stops it. -/
def Obligations.EveryCommandAnswers : Prop :=
  (∀ (c : Instr) (s : State), Answers (exec c s)) ∧ ∀ s : State, Answers (step s)

/-- O4. No command touches the waiting commands, the serial number, the variant or the configuration-space identifiers of the unit. For every command c
and states s and t, when exec c s is the next state t, then t has the queue of s, the 64-bit serial number of s, the variant (with or without mosaic)
of s and its configuration-space identifiers: the queue is changed by the step alone, and nothing a host, a port or a pin can send rewrites the
identity of the unit. A walk through all 307 commands and every operation they share. -/
def Obligations.CommandsKeepQueueAndIdentity : Prop :=
  ∀ (c : Instr) (s t : State), exec c s = .next t → t.pending = s.pending ∧ t.serial = s.serial ∧ t.mono = s.mono ∧ t.cfg = s.cfg

/-- O5. Every step keeps the register store canonical and the freewheel counter within 80 bits. Inv s says that the register store lists its fields in
strictly rising order (so that equal contents are equal data) and that the freewheel counter is below 2^80 (R31). For every state s with Inv s,
reachable or not, if step s answers t then Inv t. -/
def Obligations.StepKeepsInvariant : Prop := ∀ s t : State, s.Inv → step s = .next t → t.Inv

/-- O6. The state right after reset meets the invariant. State.reset meets Inv: its register store is in canonical form and its freewheel counter is below
2^80; and its queue is empty. -/
def Obligations.ResetMeetsInvariant : Prop := State.reset.Inv ∧ State.reset.pending = []

/-- O7. Where an event goes: the queue of 1 024 records, the pithead, or a wait of 16 while SYS is stopped. While SYS and the firmware run, raise on a
unit that is not a crew unit appends one event with the code, the data, the tally, the incarnation and the freewheel count when fewer than 1 024 wait,
and changes nothing else; on a crew unit, in touch or ORPHAN, it sends it as an EVENT packet on VC5 to tally 1. While SYS is stopped, the firmware
boots or the foreman stays in the ROM loader, an event of pages 0x01, 0x02 and 0x11 waits in the always-on controller, one of pages 0x03, 0x0F and
0x12 in the canary, up to 16 in each, and one that finds 16 there is lost without any change. In every case nothing but the queues on its way and the
counters of what was lost there changes. -/
def Obligations.EventsReachTheForeman : Prop :=
  ∀ (s : State) (code : Nat) (data : List Nat),
    (s.pagesUp = true → s.pwr.boot = 0 → s.pwr.rom = false → s.inCrew = false → s.events.length < 1024 →
      s.raise code data = { s with events := s.events ++ [⟨code, data, s.get CHN_STATE.TALLY, s.get CHN_STATE.INC, s.fwc, none⟩] }) ∧
    (s.pagesUp = true → s.pwr.boot = 0 → s.pwr.rom = false → s.inCrew = true →
      s.raise code data = s.send (s.packet 0x18 5 1 (eventBytes (s.mkEvent code data)))) ∧
    (s.pagesUp = false ∨ s.pwr.boot ≠ 0 ∨ s.pwr.rom = true → code / 256 ∈ [0x01, 0x02, 0x11] →
      s.raise code data = if s.heldAon.length < 16 then { s with heldAon := s.heldAon ++ [s.mkEvent code data] } else s) ∧
    (s.pagesUp = false ∨ s.pwr.boot ≠ 0 ∨ s.pwr.rom = true → code / 256 ∈ [0x03, 0x0F, 0x12] →
      s.raise code data = if s.heldCanary.length < 16 then { s with heldCanary := s.heldCanary ++ [s.mkEvent code data] } else s) ∧
    OnlyRaised s (s.raise code data)

/-- O8. VAON good resets everything to STANDBY; VAON fail turns the unit OFF. VAON_GOOD on a unit in OFF answers PWR_STATE_CHANGED from OFF to STANDBY
raised over a state in which every register reads its reset value, the power state is STANDBY, the freewheel counter is 0, the straps are those
sampled, no event waits and the store keeps its cells; on a unit that has VAON it changes nothing. VAON_FAIL on a unit that has VAON leaves the power
state OFF, every register at its reset value and the cells of the store as they were. Serial number and queue are untouched by both. -/
def Obligations.VaonStartsAndStopsTheUnit : Prop :=
  (∀ (addr : Nat) (strap : Bool) (s : State), s.pwr.vaon = false →
    ∃ u : State, exec (.vaonGood addr strap) s = .next (u.raise 0x0101 [0, stSTANDBY]) ∧ (∀ f : Field, u.get f = f.reset) ∧
      u.power = PWR_STATUS.STATE.reset ∧ u.pwr.vaon = true ∧ u.fwc = 0 ∧ u.strap = strap ∧ u.i2c.addr = addr % 8 ∧ u.events = [] ∧
      u.nvs = s.nvs.cells ∧ u.serial = s.serial ∧ u.pending = s.pending) ∧
  (∀ (addr : Nat) (strap : Bool) (s : State), s.pwr.vaon = true → exec (.vaonGood addr strap) s = .next s) ∧
  (∀ s : State, s.pwr.vaon = true →
    ∃ t : State, exec .vaonFail s = .next t ∧ t.power = 0 ∧ (∀ f : Field, t.get f = f.reset) ∧ t.nvs = s.nvs.cells ∧
      t.serial = s.serial ∧ t.pending = s.pending)

/-- O9. Rails marked good in order, an order violation, and a rail that fails in STANDBY or above it. With VAON good: RAIL_GOOD of a rail that is not
marked sets its bit of PWR_RAIL.GOOD and takes it off the rails below 0.3 V; when a rail of an earlier group is not good it also sets SEQ_VIOL and
raises SEQ_VIOLATION with the bits as they stand. Nothing else changes but what the rules of the forcing lines bring. RAIL_FAULT of a good rail clears
its bit of GOOD; above STANDBY it also sets its FAULT bit, raises RAIL_FAULT with the rail and the count, and calls recovery and HOLD; in STANDBY with
CANARY stopped nothing else happens. RAIL_DOWN clears SEQ_VIOL and marks all nine rails below 0.3 V. With VDDIO, VCORE or VMID failed above STANDBY
the registers return to their reset values but for pages 0x01 and 0x11, the RWS fields and, while VMID is good, page 0x03. While VDDIO is below 0.3 V,
EXPO, MREQ and TPULSE are high impedance at their lands. -/
def Obligations.RailsAreWatched : Prop :=
  (∀ (i : Fin 9) (s : State), s.pwr.vaon = true → s.bitOf PWR_RAIL.GOOD i.val = false → s.outOfOrder i.val = false →
    ∃ u : State, exec (.railGood i) s = .next u.reviewRails ∧ u.get PWR_RAIL.GOOD = setBit (s.get PWR_RAIL.GOOD) i.val true % 2 ^ 9 ∧
      Only [PWR_RAIL.GOOD] (s.onPwr fun p => { p with railLow := setBit p.railLow i.val false }) u) ∧
  (∀ (i : Fin 9) (s : State), s.pwr.vaon = true → s.bitOf PWR_RAIL.GOOD i.val = false → s.outOfOrder i.val = true →
    ∃ u : State, exec (.railGood i) s = .next (u.raise 0x0104 [u.get PWR_RAIL.GOOD]).reviewRails ∧
      u.get PWR_RAIL.GOOD = setBit (s.get PWR_RAIL.GOOD) i.val true % 2 ^ 9 ∧ u.get PWR_RAIL.SEQ_VIOL = 1 ∧
      Only [PWR_RAIL.GOOD, PWR_RAIL.SEQ_VIOL] (s.onPwr fun p => { p with railLow := setBit p.railLow i.val false }) u) ∧
  (∀ (i : Fin 9) (s : State), s.pwr.vaon = true → s.power = stSTANDBY → s.bitOf PWR_RAIL.GOOD i.val = true → s.on PWR_CLK.CANARY_RUN = false →
    ∃ u : State, exec (.railFault i) s = .next u.reviewForcing ∧ u.get PWR_RAIL.GOOD = setBit (s.get PWR_RAIL.GOOD) i.val false % 2 ^ 9 ∧
      Only [PWR_RAIL.GOOD] s u) ∧
  (∀ (i : Fin 9) (s : State), s.pwr.vaon = true → stSTANDBY < s.power → s.bitOf PWR_RAIL.GOOD i.val = true →
    ∃ u v : State, Only [PWR_RAIL.GOOD, PWR_RAIL.FAULT] s u ∧ u.get PWR_RAIL.GOOD = setBit (s.get PWR_RAIL.GOOD) i.val false % 2 ^ 9 ∧
      u.get PWR_RAIL.FAULT = setBit (s.get PWR_RAIL.FAULT) i.val true % 2 ^ 9 ∧
      v = (((u.raise 0x0103 [i.val, s.fwc]).railFatalFor i.val).callRecovery 0x0103 i.val 2 false false).enterHold 0x0103 ∧
      ∃ t : State, t = (if v.on PWR_CLK.CANARY_RUN then (v.trip trRAIL).reviewForcing else v.reviewForcing) ∧
        exec (.railFault i) s = .next (if i.val ≤ 2 then t.holdDomains else t)) ∧
  (∀ s : State, ∃ u : State, s.holdDomains = u.reviewForcing ∧ u.saf.railFatal = true ∧ u.sysRuns = false ∧ u.fwc = s.fwc ∧ u.nvs = s.nvs.cells ∧ u.events = [] ∧
    (∀ f : Field, f.lo < 32 → pageOf f.off ≠ 0x01 → pageOf f.off ≠ 0x03 → pageOf f.off ≠ 0x11 → u.get f = if isRwsKey f.key then s.get f else f.reset) ∧
    (∀ f : Field, f.lo < 32 → (pageOf f.off = 0x01 ∧ f.key ∉ [PWR_CLK.CANARY_RUN, PWR_CLK.LOCKED, PWR_CLK.GATED, PWR_CLK.REF_PRESENT].map Field.key) ∨ pageOf f.off = 0x11 →
      u.get f = s.get f) ∧
    (∀ f : Field, f.lo < 32 → pageOf f.off = 0x03 → u.get f = if s.bitOf PWR_RAIL.GOOD 2 ∨ isRwsKey f.key = true then s.get f else f.reset)) ∧
  (∀ s : State, s.pwr.vaon = true →
    ∃ t : State, exec .railDown s = .next t ∧ t.get PWR_RAIL.SEQ_VIOL = 0 ∧ t.pwr.railLow = 0x1FF) ∧
  (∀ (n : Nat) (s : State),
    (bit s.pwr.railLow 0 = true → s.expoPin n = none ∧ s.mreqPin = none ∧ s.tpulsePin n = none) ∧
    (bit s.pwr.railLow 0 = false → s.expoPin n = some (s.expoLevel n && !s.screenForced) ∧ s.mreqPin = some (s.cad.mreq && !s.screenForced) ∧
      s.tpulsePin n = some (s.tpulseLand n)))

/-- O10. A power command is refused with its RESULT, or carries out the transition the state table lists. A write of PWR_CMD that is carried out, with b
the state after the bookkeeping of the write. Targets 1 to 3 on every path, and target 4 on the foreman's: with the check failing, RESULT takes its
number, PWR_ERRCNT.REFUSED counts, PWR_CMD_REFUSED is raised with target and result, and nothing else changes; with the check passing while start-up
waits for its reference (R560) the domains are reset and BUSY is 0; else RESULT is 0, a BIST run is aborted and the transition begins, and a command
that ends a HOLD ends a level L2 that waited for it. Beginning a transition: IDLE from STANDBY sets BUSY and starts the start-up sequence; STANDBY
goes to standby; READY from IDLE and IDLE from READY do what their rows say; CAPTURE from READY and READY from CAPTURE only set PENDING and BUSY, to
wait for the sweep. Target 4 on a path with the operator's session is also entered in the shift book; without the session it is logged as a rejection
and refused with its RESULT. STANDBY_AFTER_COMMIT goes to STANDBY once the commit of the calibration area has ended. Where the unit is not BUSY, no
order violation stands, no start-up and no self-test runs: IDLE is taken from STANDBY with every rail good, READY from IDLE, CAPTURE from READY by the
foreman or with the operator's session, STANDBY from IDLE with no calibration commit in progress. Entering STANDBY leaves every register outside pages
0x01 and 0x11 at its reset value, STATE STANDBY, nothing pending, not BUSY, the store's cells kept, and raises PWR_STATE_CHANGED. -/
def Obligations.PowerCommandsAreChecked : Prop :=
  (∀ (c : Instr) (p : Path) (n : Nat) (s : State),
    (c, n) ∈ [(.pwrCmdStandby p, 1), (.pwrCmdIdle p, 2), (.pwrCmdReady p, 3)] ∨ (c, n) = (.pwrCmdCapture .foreman, 4) ∧ p = .foreman →
    s.takes p 0x01000 n = true →
    let b := s.booked p 0x01000 n
    let r := b.commandResult true n
    (r ≠ 0 → b.power ≠ stHOLD →
      ∃ u : State, exec c s = .next (u.raise 0x0102 [n, r]) ∧ Only [PWR_STATUS.RESULT, PWR_ERRCNT.REFUSED] b u ∧
        u.get PWR_STATUS.RESULT = r ∧ u.get PWR_ERRCNT.REFUSED = min 65535 (b.get PWR_ERRCNT.REFUSED + 1)) ∧
    (r = 0 → b.power ≠ stHOLD → b.awaitsReference = true →
      exec c s = .next (((b.set PWR_STATUS.RESULT 0).resetDomains).set PWR_STATUS.BUSY 0)) ∧
    (r = 0 → b.power ≠ stHOLD → b.awaitsReference = false → exec c s = .next (((b.set PWR_STATUS.RESULT 0).abortBist).goTo n)) ∧
    (r = 0 → b.power = stHOLD → b.awaitsReference = false →
      ∃ t : State, t = ((b.set PWR_STATUS.RESULT 0).abortBist).goTo n ∧
        exec c s = .next (if (t.power = stIDLE ∨ t.power = stREADY) ∧ b.get SAF_STATUS.LEVEL = 2 then t.endRecovery else t))) ∧
  (∀ b : State,
    (b.power = stSTANDBY → ∃ u : State, b.goTo 2 = u.onPwr (fun p => { p with startup := 1 }) ∧ Only [PWR_STATUS.BUSY] b u ∧
      u.get PWR_STATUS.BUSY = 1) ∧
    (b.power ≠ stSTANDBY → b.goTo 1 = b.standby) ∧ (b.power = stHOLD → b.goTo 2 = b.endHold 2 ∧ b.goTo 3 = b.endHold 3) ∧
    (b.power = stIDLE → b.goTo 3 = b.intoReady) ∧ (b.power = stREADY → b.goTo 2 = b.intoIdle) ∧
    (∀ n, (b.power, n) ∈ [(stREADY, 4), (stCAPTURE, 3)] →
      ∃ u : State, b.goTo n = u ∧ Only [PWR_STATUS.PENDING, PWR_STATUS.BUSY] b u ∧ u.get PWR_STATUS.PENDING = n ∧ u.get PWR_STATUS.BUSY = 1)) ∧
  (∀ (p : Path) (s : State), p ≠ .foreman → s.takes p 0x01000 4 = true →
    let b := s.booked p 0x01000 4
    (b.holds p .operator = true → b.sbRoom = true →
      ∃ t : State, t = b.commandEnds true 4 ∧
        exec (.pwrCmdCapture p) s = .next ((t.sbEnter 1 (pathNo p) 7 0 0x01000 4 [4, t.get PWR_STATUS.RESULT]).touchSession p .operator)) ∧
    (b.holds p .operator = false → exec (.pwrCmdCapture p) s = .next ((b.sbReject p .operator 0x01000 4).commandEnds false 4))) ∧
  (∀ s : State, s.get PWR_STATUS.PENDING = stSTANDBY → (s.nvs.op.map NvsOp.area).getD 0 ≠ 2 →
    exec .standbyAfterCommit s = .next s.toStandby) ∧
  (∀ s : State, ∃ u : State, s.toStandby = u.raise 0x0101 [s.get PWR_STATUS.STATE, stSTANDBY] ∧ u.get PWR_STATUS.STATE = stSTANDBY ∧ u.get PWR_STATUS.BUSY = 0 ∧
    u.get PWR_STATUS.PENDING = 0 ∧ u.events = [] ∧ u.serial = s.serial ∧ u.pwr.startup = 0 ∧
    u.nvs = (drainBook 256 ((if s.nvs.img.isSome then s else s.closeOp).sbClose)).nvs.cells ∧
    ∀ f : Field, f.lo < 32 → pageOf f.off ≠ 0x01 → pageOf f.off ≠ 0x11 → u.get f = f.reset) ∧
  (∀ (p : Path) (s : State), s.takes p 0x01000 2 = true →
    let b := s.booked p 0x01000 2
    b.power = stSTANDBY → b.get PWR_STATUS.BUSY = 0 → b.get PWR_RAIL.SEQ_VIOL = 0 → b.get PWR_RAIL.GOOD = 0x1FF → b.pwr.startup = 0 → b.nvs.bist = none →
    ∃ t : State, exec (.pwrCmdIdle p) s = .next t ∧ t.pwr.startup = 1 ∧ t.get PWR_STATUS.BUSY = 1 ∧ t.get PWR_STATUS.RESULT = 0 ∧
      Only [PWR_STATUS.RESULT, PWR_STATUS.BUSY] (b.onPwr fun p => { p with startup := 1 }) t) ∧
  (∀ (p : Path) (s : State), s.takes p 0x01000 3 = true →
    let b := s.booked p 0x01000 3
    b.power = stIDLE → b.get PWR_STATUS.BUSY = 0 → b.get PWR_RAIL.SEQ_VIOL = 0 → b.pwr.startup = 0 → b.nvs.bist = none →
    ∃ u : State, Only [PWR_STATUS.RESULT, PWR_STATUS.STATE, PWR_STATUS.BUSY] b u ∧ u.get PWR_STATUS.RESULT = 0 ∧ u.get PWR_STATUS.STATE = stREADY ∧
      u.get PWR_STATUS.BUSY = 0 ∧
      exec (.pwrCmdReady p) s = .next ((((((u.raise 0x0101 [stIDLE, stREADY]).reviewMreq).reviewForcing).reviewPipe).startCadence).calReady)) ∧
  (∀ (p : Path) (s : State), s.takes p 0x01000 1 = true →
    let b := s.booked p 0x01000 1
    b.power = stIDLE → b.get PWR_STATUS.BUSY = 0 → b.get PWR_RAIL.SEQ_VIOL = 0 → b.pwr.startup = 0 → b.nvs.bist = none → b.nvs.op = none →
    exec (.pwrCmdStandby p) s = .next (b.set PWR_STATUS.RESULT 0).toStandby) ∧
  (∀ s : State, s.takes .foreman 0x01000 4 = true →
    let b := s.booked .foreman 0x01000 4
    b.power = stREADY → b.get PWR_STATUS.BUSY = 0 → b.get PWR_RAIL.SEQ_VIOL = 0 → b.pwr.startup = 0 → b.nvs.bist = none →
    ∃ t : State, exec (.pwrCmdCapture .foreman) s = .next t ∧ t.get PWR_STATUS.PENDING = stCAPTURE ∧ t.get PWR_STATUS.BUSY = 1 ∧ t.get PWR_STATUS.RESULT = 0 ∧
      Only [PWR_STATUS.RESULT, PWR_STATUS.PENDING, PWR_STATUS.BUSY] b t)

/-- O11. The reference is qualified and a PLL passes band search, analogue lock and hold to LOCKED. While CANARY runs, a qualification window of 1 584 to
1 616 edges sets REF_PRESENT and its copy on page 0x0C and changes nothing else while no PLL waits; a PLL-S that waits starts its lock: outputs gated,
SEARCHING 1, the reference mode and divider taken. A window outside that count clears REF_PRESENT, and raises REF_LOST when it was 1. The band search
ending stores BAND and goes to the analogue lock; the lock declared begins the hold; the end of the hold sets LOCKED, clears GATED and SEARCHING,
counts the lock and raises PLL_LOCKED with PLL, band and reference mode, after which the canary's condition of that PLL ends, time is looked at again
for PLL-T, events that waited are delivered once SYS and firmware run, start-up goes on, and a relock of a recovery is complete. -/
def Obligations.PllsLockStageByStage : Prop :=
  (∀ (n : Nat) (s : State), s.on PWR_CLK.CANARY_RUN = true → 1584 ≤ n → n ≤ 1616 → s.pllStage 0 ≠ 1 → s.pllStage 1 ≠ 1 →
    ∃ u : State, Only [PWR_CLK.REF_PRESENT, LNK_REF_STATUS.REF_PRESENT] s u ∧ u.get PWR_CLK.REF_PRESENT = 1 ∧
      u.get LNK_REF_STATUS.REF_PRESENT = 1 ∧
      exec (.refQualificationWindow n) s = .next (if s.pllStage 2 = 1 then u.startLock 2 else u)) ∧
  (∀ (n : Nat) (s : State), s.on PWR_CLK.CANARY_RUN = true → (n < 1584 ∨ 1616 < n) →
    ∃ u : State, Only [PWR_CLK.REF_PRESENT, LNK_REF_STATUS.REF_PRESENT] s u ∧ u.get PWR_CLK.REF_PRESENT = 0 ∧
      u.get LNK_REF_STATUS.REF_PRESENT = 0 ∧
      exec (.refQualificationWindow n) s = .next (if s.on PWR_CLK.REF_PRESENT then u.raise 0x0C08 [s.fwc] else u)) ∧
  (∀ (x : Fin 3) (s : State), ∃ u : State, u = s.startLock x.val ∧ u.pllStage x.val = 2 ∧ u.on (PLL_STATUS.LOCKED x.val) = false ∧
    u.get (PLL_STATUS.GATED x.val) = 1 ∧ u.get (PLL_STATUS.SEARCHING x.val) = 1 ∧
    u.get (PLL_STATUS.REFMODE_ACT x.val) = s.get (PLL_CFG.REFMODE x.val) % 4 ∧
    Only [PLL_STATUS.LOCKED x.val, PLL_STATUS.GATED x.val, PWR_CLK.LOCKED, PWR_CLK.GATED, PLL_STATUS.SEARCHING x.val,
      PLL_STATUS.REFMODE_ACT x.val, PLL_STATUS.N x.val] (s.setStage x.val 2) u) ∧
  (∀ (x : Fin 3) (b : Fin 64) (s : State), s.pllStage x.val = 2 →
    ∃ t : State, exec (.pllBandSearchDone x b) s = .next t ∧ t.pllStage x.val = 3 ∧ t.get (PLL_STATUS.BAND x.val) = b.val ∧
      Only [PLL_STATUS.BAND x.val] (s.setStage x.val 3) t) ∧
  (∀ (x : Fin 3) (s : State), s.pllStage x.val = 3 →
    ∃ t : State, exec (.pllLockDeclared x) s = .next t ∧ t = s.setStage x.val 4 ∧ t.pllStage x.val = 4 ∧ ∀ f : Field, t.get f = s.get f) ∧
  (∀ (x : Fin 3) (s : State), s.pllStage x.val = 4 →
    ∃ u a b : State, Only [PLL_STATUS.LOCKED x.val, PLL_STATUS.GATED x.val, PWR_CLK.LOCKED, PWR_CLK.GATED, PLL_STATUS.SEARCHING x.val,
        PLL_CNT.LOCK_CNT x.val] (s.setStage x.val 5) u ∧
      u.get (PLL_STATUS.LOCKED x.val) = 1 ∧ u.get (PLL_STATUS.GATED x.val) = 0 ∧ u.get (PLL_STATUS.SEARCHING x.val) = 0 ∧
      u.get (PLL_CNT.LOCK_CNT x.val) = min 65535 (s.get (PLL_CNT.LOCK_CNT x.val) + 1) ∧
      a = u.raise 0x0201 [x.val, s.get (PLL_STATUS.BAND x.val), s.get (PLL_STATUS.REFMODE_ACT x.val)] ∧
      b = (if x.val = 1 then (if (a.putBit SAF_TRIP.LIVE trPLL_T false).cadenceRuns then (a.putBit SAF_TRIP.LIVE trPLL_T false).startCadence
          else a.putBit SAF_TRIP.LIVE trPLL_T false).reviewTime
        else if x.val = 2 then a.putBit SAF_TRIP.LIVE trPLL_S false else a) ∧
      exec (.pllLocked x) s =
        .next (((if b.pagesUp && decide (b.pwr.boot = 0) then b.deliverHeld else b).startupLock).actionDone 0x0202 x.val).reviewForcing)

/-- O12. A locked PLL declares a loss, one that is locking abandons or repeats its lock. A locked PLL that loses reference or lock clears LOCKED, sets
GATED, stores the cause in REF_LOSS, counts in LOSS_CNT and raises PLL_LOST with PLL, cause and count. PLL_LOCK_BREAK of a locked PLL is such a loss
with cause 0 and what hangs on the PLL follows; in the hold it goes back to the analogue lock and changes nothing else; of a PLL that neither holds
nor is locked it changes nothing. PLL_REFERENCE_MISSING with all three PLLs locking abandons the three locks; with PLL-L alone locked and the others
stopped it is the loss of PLL-L with cause 1. What follows a loss: for PLL-L both ports train again and L1 is called, for PLL-T CADENCE stops, time is
looked at again and the canary trips, for PLL-S the canary trips. -/
def Obligations.PllsAreLost : Prop :=
  (∀ (x : Fin 3) (cause : Nat) (s : State), cause ≤ 1 →
    ∃ u : State, Only [PLL_STATUS.LOCKED x.val, PLL_STATUS.GATED x.val, PWR_CLK.LOCKED, PWR_CLK.GATED, PLL_STATUS.REF_LOSS x.val,
        PLL_CNT.LOSS_CNT x.val] (s.setStage x.val 1) u ∧
      u.get (PLL_STATUS.LOCKED x.val) = 0 ∧ u.get (PLL_STATUS.GATED x.val) = 1 ∧ u.get (PLL_STATUS.REF_LOSS x.val) = cause ∧
      u.get (PLL_CNT.LOSS_CNT x.val) = min 65535 (s.get (PLL_CNT.LOSS_CNT x.val) + 1) ∧
      s.losePll x.val cause = u.raise 0x0202 [x.val, cause, s.fwc]) ∧
  (∀ (x : Fin 3) (s : State), s.pllStage x.val = 5 → ∃ u : State, u = s.losePll x.val 0 ∧
    exec (.pllLockBreak x) s = .next (if x.val = 0 then (u.afterLossL).callRecovery 0x0202 0 1 false false
      else
        let v := u.onSaf fun f => { f with pllCause := setBit f.pllCause x.val true }
        (if x.val = 1 then v.afterLossT else v).lockFlagFalls x.val)) ∧
  (∀ (x : Nat) (s : State), x = 1 ∨ x = 2 → s.lockFlagFalls x = if s.on PWR_CLK.CANARY_RUN then s.trip (if x = 1 then 3 else 4)
    else (s.callRecovery 0x0202 x 2 false false).enterHold 0x0202) ∧
  (∀ (x : Fin 3) (s : State), s.pllStage x.val = 4 → exec (.pllLockBreak x) s = .next (s.setStage x.val 3)) ∧
  (∀ (x : Fin 3) (s : State), s.pllStage x.val < 4 → exec (.pllLockBreak x) s = .next s) ∧
  (∀ s : State, (∀ x < 3, 2 ≤ s.pllStage x ∧ s.pllStage x ≤ 4) →
    ∃ t : State, exec .pllReferenceMissing s = .next t ∧
      ∀ x < 3, t.pllStage x = 1 ∧ t.get (PLL_STATUS.SEARCHING x) = 0 ∧ t.get (PLL_STATUS.REF_LOSS x) = 1) ∧
  (∀ s : State, s.pllStage 0 = 5 → s.pllStage 1 = 0 → s.pllStage 2 = 0 →
    ∃ t : State, t = s.pllLost 0 1 ∧ (t.pllStage 1 = 0 → t.pllStage 2 = 0 → exec .pllReferenceMissing s = .next t))

/-- O13. RELOCK is taken for PLL-L and PLL-T in IDLE; a clock output is enabled only with legal settings. With b the state after the bookkeeping of the
write: RELOCK on a path that may write it, in IDLE with no start-up running, gates PLL-L or PLL-T after the trims of the word are stored, starts its
lock where the reference is present and else waits for it, and the ports (PLL-L) or the CADENCE domain (PLL-T) follow; for PLL-S or in another state
it raises PLL_CMD_DENIED with PLL and state. A write that sets EN of a clock output that was off stores the other fields and the RESULT of the check
of R447; with RESULT 0 the output stays enabled, else EN is 0 again and the refusal is raised with output and RESULT. -/
def Obligations.RelockAndClockOutputs : Prop :=
  (∀ (p : Path) (x : Fin 3) (w : Word) (s : State), let v := w.toNat ||| 2 ^ 31
    s.takes p (0x02000 + 16 * x.val) v = true →
    ∃ u : State, u = (s.booked p (0x02000 + 16 * x.val) v).writeFields p (0x02000 + 16 * x.val) v ∧
      (u.mayWrite p (PLL_CFG.RELOCK x.val) = true → x.val ≤ 1 → u.power = stIDLE → u.pwr.startup = 0 →
        ∃ t : State, t = (if u.on PWR_CLK.REF_PRESENT then u.startLock x.val else (u.pllFlags x.val false).setStage x.val 1) ∧
          exec (.pllRelock p x w) s = .next (if x.val = 0 then t.afterLossL else t.afterLossT)) ∧
      (u.mayWrite p (PLL_CFG.RELOCK x.val) = true → (x.val = 2 ∨ u.power ≠ stIDLE) →
        exec (.pllRelock p x w) s = .next (u.raise 0x0204 [x.val, u.power]))) ∧
  (∀ (p : Path) (n : Fin 2) (w : Word) (s : State), let v := w.toNat ||| 2 ^ 31
    s.takes p (0x02040 + 4 * n.val) v = true → (s.booked p (0x02040 + 4 * n.val) v).on (PLL_CLKOUT.EN n.val) = false →
    ∃ u : State, u = (s.booked p (0x02040 + 4 * n.val) v).writeFields p (0x02040 + 4 * n.val) v ∧
      (u.on (PLL_CLKOUT.EN n.val) = true → u.clkoutResult n.val = 0 →
        ∃ t : State, exec (.pllClkoutEnable p n w) s = .next t ∧ Only [PLL_CLKOUT.RESULT n.val] u t ∧
          t.get (PLL_CLKOUT.RESULT n.val) = 0 ∧ t.on (PLL_CLKOUT.EN n.val) = true) ∧
      (u.on (PLL_CLKOUT.EN n.val) = true → u.clkoutResult n.val ≠ 0 →
        ∃ t : State, exec (.pllClkoutEnable p n w) s = .next (t.raise 0x0203 [n.val, u.clkoutResult n.val]) ∧
          Only [PLL_CLKOUT.RESULT n.val, PLL_CLKOUT.EN n.val] u t ∧ t.get (PLL_CLKOUT.RESULT n.val) = u.clkoutResult n.val ∧
          t.get (PLL_CLKOUT.EN n.val) = 0))

/-- O14. The start-up reset, the foreman's boot, the items of the lamp check and its end. STARTUP_RESET at E1 makes every register outside pages 0x01 and
0x11 read its reset value, the freewheel counter 0, starts CANARY and lets PLL-S wait for its reference; the store keeps its cells. FOREMAN_BOOT_DONE
at E4 ends with the lamp check at item STORE, full, with no failure noted; after SYSRST_N with the warm check; the reboot of a recovery clears the
live bits of the two foreman causes and goes on with the L2. A record the boot cannot read makes its bank invalid and no other. LAMP_CHECK_ITEM_DONE
sets the bit of an item that failed: STORE fails without valid banks and keys, LOGIC where a signature is not its golden, CLOCKS beyond 10 % of 25 000
cycles in 1 ms, MONITOR with a rail beyond 5 % of nominal, every item where its own test did. It clears the kibble store with item 2, and goes to the
next item, the warm check leaving KIBBLE out. LAMP_CHECK_DONE after the last item stores the time; with a failure the unit enters SAFE-TALK and
LAMP_CHECK_FAILED is raised with the failing items and WARM, without one it enters IDLE after a cold start, and after a warm check what R485 says. -/
def Obligations.StartUpRunsToTheLampCheck : Prop :=
  (∀ s : State, s.pwr.startup = 1 →
    ∃ u : State, exec .startupReset s = .next u.reviewForcing ∧
      (∀ f : Field, f.lo < 32 → pageOf f.off ≠ 0x01 → pageOf f.off ≠ 0x11 → u.get f = f.reset) ∧ u.get PWR_CLK.CANARY_RUN = 1 ∧
      u.fwc = 0 ∧ u.pllStage 2 = 1 ∧ u.pwr.startup = 2 ∧ u.nvs = s.nvs.cells ∧ u.events = [] ∧ u.serial = s.serial) ∧
  (∀ (crc unc : List Nat) (s : State), s.sysRuns = true → s.pwr.sysrst = false → s.pwr.boot = 1 → s.pwr.startup = 4 →
    ∃ t : State, exec (.foremanBootDone crc unc) s = .next t ∧ t.pwr.lampItem = some 0 ∧ t.get BIST_LAMP.WARM = 0 ∧ t.get BIST_LAMP.FAIL = 0) ∧
  (∀ (crc unc : List Nat) (s : State), s.sysRuns = true → s.pwr.sysrst = false → s.pwr.boot = 2 →
    ∃ t : State, exec (.foremanBootDone crc unc) s = .next t ∧ t.pwr.lampItem = some 0 ∧ t.get BIST_LAMP.WARM = 1 ∧ t.get BIST_LAMP.FAIL = 0) ∧
  (∀ (crc unc : List Nat) (s : State), s.sysRuns = true → s.pwr.sysrst = false → s.pwr.boot = 3 →
    ∃ u : State, exec (.foremanBootDone crc unc) s = .next u.deliverHeld.settleL2.reviewForcing ∧ u.pwr.boot = 0 ∧ u.saf.reboot = false ∧
      u.bitOf SAF_TRIP.LIVE trFOREMAN_LS = false ∧ u.bitOf SAF_TRIP.LIVE trFOREMAN_HB = false) ∧
  (∀ (b : Nat) (s : State), [1, 2, 3, 5, 7].contains (recordOf b).1 = true → (s.spoilBank b).bankSeq (recordOf b).1 (recordOf b).2.1 = 0 ∧
    ∀ area bank : Nat, 2 * area + bank ≠ 2 * (recordOf b).1 + (recordOf b).2.1 → (s.spoilBank b).bankSeq area bank = s.bankSeq area bank) ∧
  (∀ (ok : Bool) (readings : List Nat) (i : Nat) (s : State), s.pwr.lampItem = some i → i < 8 →
    ∃ t : State, exec (.lampCheckItemDone ok readings) s = .next t ∧ t.pwr.lampItem = some (if s.on BIST_LAMP.WARM ∧ i = 1 then 3 else i + 1) ∧
      t.get BIST_LAMP.FAIL =
        (if ok = true ∧ (s.itemPasses i readings).1 = true then s.get BIST_LAMP.FAIL else setBit (s.get BIST_LAMP.FAIL) i true % 2 ^ BIST_LAMP.FAIL.width) ∧
      Only [BIST_LAMP.FAIL] ({ s with pwr := t.pwr, pipe := t.pipe, freeIx := t.freeIx }) t ∧
      t.pipe = (if i = 2 then { s.pipe with table := [], blank := true } else s.pipe)) ∧
  (∀ (readings : List Nat) (s : State), (s.itemPasses 0 readings).1 = s.storeItemOk ∧ (∀ i ∈ [1, 2, 4, 5], (s.itemPasses i readings).1 = true) ∧
    ((s.itemPasses 3 readings).1 = true ↔ ∀ k : Nat, k < 4 → s.golden (0x111 + k) = some (readings.getD k 0)) ∧
    ((s.itemPasses 7 readings).1 = true ↔ 22500 ≤ readings.getD 0 0 ∧ readings.getD 0 0 ≤ 27500) ∧
    (∀ i c : Nat, i < 9 → nominalCode i = some c → 20 * readings.getD i 0 < 19 * c ∨ 21 * c < 20 * readings.getD i 0 → (s.itemPasses 6 readings).1 = false)) ∧
  (∀ s : State, s.pwr.lampItem = some 8 →
    ∃ u : State, Only [BIST_LAMP.TIME_MS] (s.onPwr fun p => { p with lampItem := none, startup := 0 }) u ∧
      u.get BIST_LAMP.TIME_MS = min (2 ^ BIST_LAMP.TIME_MS.width - 1) ((s.fwc - s.pwr.lampAt) / 2000000) ∧
      exec .lampCheckDone s = .next (
        if s.get BIST_LAMP.FAIL ≠ 0 then (u.toPower stSAFETALK).raise 0x1201 [s.get BIST_LAMP.FAIL, s.get BIST_LAMP.WARM]
        else if s.pwr.startup = 5 then ((u.onMon fun m => { m with refAt := u.fwc }).toPower stIDLE).startMonitor.tripAtStart else u.afterWarm)) ∧
  (∀ (n : Nat) (s : State), n < 8 →
    ∃ u : State, Only [PWR_STATUS.STATE, PWR_STATUS.BUSY] s u ∧ u.get PWR_STATUS.STATE = n ∧ u.get PWR_STATUS.BUSY = 0 ∧
      s.toPower n = ((u.raise 0x0101 [s.power, n]).reviewMreq).reviewForcing)

/-- O15. SYSRST_N asserted and released in STANDBY, during start-up and above STANDBY. SYSRST_N asserted a second time changes nothing. In STANDBY with no
start-up running it only records the pin. During start-up it records the pin, and start-up goes back to E4 at most with the boot to come. Above
STANDBY it ends the lamp check and stops what R485 lists: sessions, CADENCE, the host interface, values not in force, loops, staged sending, frames in
progress, a self-test, and the chain state, which becomes SOLO while tally, incarnation and a derailleur under way stay, and BUSY is 1. Released above
STANDBY it starts the boot after SYSRST_N; released in STANDBY nothing but the pin changes; released when it was not asserted it changes nothing. -/
def Obligations.SysrstStopsAndRebootsTheUnit : Prop :=
  (∀ s : State, s.pwr.sysrst = true → exec .sysrstNAssert s = .next s) ∧
  (∀ s : State, s.pwr.sysrst = false → s.pwr.startup = 0 → s.power = stSTANDBY →
    exec .sysrstNAssert s = .next (s.onPwr fun p => { p with sysrst := true, lampItem := none })) ∧
  (∀ s : State, s.pwr.sysrst = false → s.pwr.startup ≠ 0 →
    ∃ u : State, exec .sysrstNAssert s = .next u.reviewForcing ∧ u.pwr.sysrst = true ∧ u.pwr.startup = min 4 s.pwr.startup ∧
      u.pwr.boot = (if 3 ≤ s.pwr.startup then 1 else s.pwr.boot) ∧ u = { s with pwr := u.pwr }) ∧
  (∀ s : State, s.pwr.sysrst = false → s.pwr.startup = 0 → stSTANDBY < s.power →
    ∃ u : State, exec .sysrstNAssert s = .next u.reviewForcing ∧ u = (s.onPwr fun p => { p with sysrst := true, lampItem := none }).sysrstBlocks ∧
      u.get PWR_STATUS.BUSY = 1 ∧ u.chn.roll = none ∧ u.chn.claimAt = none) ∧
  (∀ s : State, Only [CHN_STATE.STATE] { s with chn := (s.goSolo).chn } s.goSolo ∧ (s.goSolo).get CHN_STATE.STATE = chSOLO ∧ (s.goSolo).chn.drl = s.chn.drl) ∧
  (∀ s : State, s.pwr.sysrst = true → s.pwr.startup = 0 → stSTANDBY < s.power →
    ∃ u : State, exec .sysrstNRelease s = .next u.reviewForcing ∧ u = s.onPwr (fun p => { p with sysrst := false, boot := 2 })) ∧
  (∀ s : State, s.pwr.sysrst = true → s.power = stSTANDBY → s.pwr.startup = 0 →
    exec .sysrstNRelease s = .next (s.onPwr fun p => { p with sysrst := false }).reviewForcing) ∧
  (∀ s : State, s.pwr.sysrst = false → exec .sysrstNRelease s = .next s)

/-- O16. A cause of the canary latches, is counted and raised, and brings HOLD; the foreman causes hold the cores in reset. Latching a cause whose live
bit is 0, TEST apart, sets its LATCHED bit, and its live bit unless the cause is an instant (CAD_LS and MREQ), counts in TRIP_CNT and raises
CANARY_TRIP with the latched bits and the count; a cause whose live bit is 1 latches nothing new. A trip of a cause whose live bit is 0 latches it,
calls level 2 unless the cause is REQ, with a reboot for the foreman causes, and enters HOLD. CANARY_TRIP while CANARY runs is that trip; of the
foreman causes, only while the foreman runs, and the cores are then held in reset; of REQ the HOLD request; of OSC, or with CANARY stopped, nothing.
FOREMAN_LOCKSTEP raises the event, asserts the request, trips FOREMAN_LS and holds the cores; FOREMAN_HEARTBEAT_TIMEOUT trips FOREMAN_HB and holds
them; FOREMAN_RESET_RELEASE starts the boot; the die temperature trips TEMP while CANARY runs, and back to normal clears its live bit. -/
def Obligations.CanaryCausesTrip : Prop :=
  (∀ (i : Nat) (s : State), i < 10 → s.bitOf SAF_TRIP.LIVE i = false →
    ∃ u : State, Only [SAF_TRIP.LIVE, SAF_TRIP.LATCHED, SAF_CNT1.TRIP_CNT] s u ∧ u.get SAF_TRIP.LATCHED = setBit (s.get SAF_TRIP.LATCHED) i true % 2 ^ SAF_TRIP.LATCHED.width ∧
      u.get SAF_TRIP.LIVE = (if i ∈ [0, 6] then s.get SAF_TRIP.LIVE else setBit (s.get SAF_TRIP.LIVE) i true % 2 ^ SAF_TRIP.LIVE.width) ∧
      u.get SAF_CNT1.TRIP_CNT = min 65535 (s.get SAF_CNT1.TRIP_CNT + 1) ∧
      s.latchTrip i = ((u.raise 0x0301 [u.get SAF_TRIP.LATCHED, s.fwc]).reviewMreq).reviewForcing) ∧
  (∀ (i : Nat) (s : State), s.bitOf SAF_TRIP.LIVE i = true → s.latchTrip i = s ∧ s.trip i = s) ∧
  (∀ (i : Nat) (s : State), s.bitOf SAF_TRIP.LIVE i = false → i ≠ 9 →
    s.trip i = ((s.latchTrip i).callRecovery 0x0301 i 2 false (decide (i = 2 ∨ i = 1))).enterHold 0x0301) ∧
  (∀ (i : Fin 11) (s : State), s.on PWR_CLK.CANARY_RUN = true → i.val ∉ [1, 2, 8, 9] → exec (.canaryTrip i) s = .next (s.trip i.val)) ∧
  (∀ (i : Fin 11) (s : State), s.on PWR_CLK.CANARY_RUN = true → i.val ∈ [1, 2] →
    exec (.canaryTrip i) s = .next (if s.foremanRuns then (s.trip i.val).onPwr (fun p => { p with boot := 4 }) else s)) ∧
  (∀ s : State, s.on PWR_CLK.CANARY_RUN = true → exec (.canaryTrip 9) s = .next ((s.assertRequest).enterHold 0x0301)) ∧
  (∀ (i : Fin 11) (s : State), s.on PWR_CLK.CANARY_RUN = false ∨ i.val = 8 → exec (.canaryTrip i) s = .next s) ∧
  (∀ s : State, s.sysRuns = true → s.pwr.sysrst = false → s.pwr.boot = 0 ∨ s.pwr.boot = 3 →
    exec .foremanLockstep s =
      .next ((((((s.raise 0x0309 [s.fwc]).assertRequest).trip trFOREMAN_LS).enterHold 0x0309)).onPwr fun p => { p with boot := 4 })) ∧
  (∀ s : State, s.foremanRuns = true → s.on PWR_CLK.CANARY_RUN = true → exec .foremanHeartbeatTimeout s = .next ((s.trip trFOREMAN_HB).onPwr fun p => { p with boot := 4 })) ∧
  (∀ s : State, s.pwr.boot = 4 → exec .foremanResetRelease s = .next (s.onPwr fun p => { p with boot := 3 })) ∧
  (∀ s : State, s.on PWR_CLK.CANARY_RUN = true → exec .dieTempTrip s = .next (s.trip trTEMP)) ∧
  (∀ s : State, ∃ u : State, exec .dieTempNormal s = .next u.reviewForcing ∧ Only [SAF_TRIP.LIVE] s u ∧
    u.get SAF_TRIP.LIVE = setBit (s.get SAF_TRIP.LIVE) 7 false % 2 ^ SAF_TRIP.LIVE.width)

/-- O17. The missing-pulse detector, the return of CANARY, the count of CANARY, and the toggles of MREQ. OSC_MISSING_PULSE while CANARY runs marks it
stopped and sets the live bit of OSC, and ends every output pulse when PLL-T is gated too; OSC_RETURN marks it running, latches OSC and clears the
live bit. CANARY_COUNT, while the foreman runs with its reference, within 10 % of 25 MHz clears the drift cause and changes nothing else; beyond it
sets the cause, raises CANARY_DRIFT with the deviation in parts per million, calls level 2 and enters HOLD. MREQ_TOGGLE while requesting: a falling
edge drives the command low 1 000 ticks (500 ns) after the rise and changes nothing but the count and its record; a rising edge drives it high, and
trips MREQ when the unit does not hold tally 1 or the distance to the last rise is outside 900 to 1 100 ns; while not requesting nothing changes. -/
def Obligations.OscillatorAndMreqAreChecked : Prop :=
  (∀ s : State, s.on PWR_CLK.CANARY_RUN = true →
    ∃ u : State, Only [PWR_CLK.CANARY_RUN, SAF_TRIP.LIVE] s u ∧ u.get PWR_CLK.CANARY_RUN = 0 ∧
      u.get SAF_TRIP.LIVE = setBit (s.get SAF_TRIP.LIVE) 8 true % 2 ^ SAF_TRIP.LIVE.width ∧
      exec .oscMissingPulse s = .next (if s.on (PLL_STATUS.LOCKED 1) then u else u.endPulses).reviewForcing) ∧
  (∀ s : State, s.bitOf SAF_TRIP.LIVE 8 = true →
    ∃ u : State, Only [PWR_CLK.CANARY_RUN, SAF_TRIP.LIVE] s u ∧ u.get PWR_CLK.CANARY_RUN = 1 ∧ u.bitOf SAF_TRIP.LIVE 8 = false ∧
      exec .oscReturn s = .next (((u.trip trOSC).putBit SAF_TRIP.LIVE 8 false).latchStanding.reviewForcing)) ∧
  (∀ s : State, (bit s.saf.pllCause 1 = true → s.on (PLL_STATUS.LOCKED 1) = true) → (bit s.saf.pllCause 2 = true → s.on (PLL_STATUS.LOCKED 2) = true) →
    s.latchStanding = if s.get PWR_RAIL.GOOD = 511 then s else s.trip trRAIL) ∧
  (∀ (n : Nat) (s : State), s.foremanRuns = true → s.on PWR_CLK.REF_PRESENT = true → 22500000 ≤ n → n ≤ 27500000 →
    exec (.canaryCount n) s = .next (s.onSaf fun f => { f with drift := false })) ∧
  (∀ (n : Nat) (s : State), s.foremanRuns = true → s.on PWR_CLK.REF_PRESENT = true → n < 22500000 ∨ 27500000 < n →
    exec (.canaryCount n) s = .next ((((s.onSaf fun f => { f with drift := true }).raise 0x030A
      [unsigned 32 (((n : Int) - 25000000) * 1000000 / 25000000)]).callRecovery 0x030A 0 2 false false).enterHold 0x030A)) ∧
  (∀ (r : Nat) (s : State), s.on EXP_MREQ_STATUS.REQUESTING = true → s.cad.mreq = true → s.saf.mreqRise = some r →
    exec .mreqToggle s = .next (((s.advance (r + 1000)).onCad fun c => { c with mreq := false }).onSaf fun f => { f with mreqFall := some (r + 1000) })) ∧
  (∀ (r f : Nat) (s : State), s.on EXP_MREQ_STATUS.REQUESTING = true → s.cad.mreq = false → s.saf.mreqRise = some r → s.saf.mreqFall = some f →
    ∃ u : State, u = ((s.advance (f + 1000)).onCad fun c => { c with mreq := true }).onSaf (fun x => { x with mreqRise := some (f + 1000) }) ∧
      (r + 1800 ≤ f + 1000 → f + 1000 ≤ r + 2200 → s.get CHN_STATE.TALLY = 1 → exec .mreqToggle s = .next u) ∧
      (s.on PWR_CLK.CANARY_RUN = false → exec .mreqToggle s = .next u) ∧
      (s.on PWR_CLK.CANARY_RUN = true → f + 1000 < r + 1800 ∨ r + 2200 < f + 1000 ∨ s.get CHN_STATE.TALLY ≠ 1 → exec .mreqToggle s = .next (u.trip trMREQ))) ∧
  (∀ s : State, s.on EXP_MREQ_STATUS.REQUESTING = false → exec .mreqToggle s = .next s)

/-- O18. Entry to HOLD from IDLE, READY and CAPTURE, and from nowhere else. In IDLE, READY and CAPTURE, with no start-up running and SYSRST_N released,
entry to HOLD ends with the power state HOLD, PENDING 0 and BUSY 0 unless a command to STANDBY waits for a commit (then PENDING stays STANDBY and BUSY
is 1), and the state at entry remembered. In every other case entry to HOLD changes nothing. The queue and the serial number are never touched. -/
def Obligations.HoldIsEntered : Prop :=
  ∀ (cause : Nat) (s : State),
    ((stIDLE ≤ s.power ∧ s.power ≤ stCAPTURE ∧ s.pwr.startup = 0 ∧ s.pwr.sysrst = false) →
      (s.enterHold cause).get PWR_STATUS.STATE = stHOLD ∧ (s.enterHold cause).saf.entryState = s.power ∧
      (s.enterHold cause).get PWR_STATUS.PENDING = (if s.get PWR_STATUS.PENDING = stSTANDBY then 1 else 0) ∧
      (s.enterHold cause).get PWR_STATUS.BUSY = (if s.get PWR_STATUS.PENDING = stSTANDBY then 1 else 0) ∧
      (s.enterHold cause).pending = s.pending ∧ (s.enterHold cause).serial = s.serial) ∧
    (¬ (stIDLE ≤ s.power ∧ s.power ≤ stCAPTURE ∧ s.pwr.startup = 0 ∧ s.pwr.sysrst = false) → s.enterHold cause = s)

/-- O19. A fault calls L1, L2 or L3 by its level and the unit, waits for a gap mark, or is a step of the recovery in progress. In STANDBY, SAFE-TALK, OFF
or during start-up a fault calls nothing. With no recovery in progress: level 1 that waits is deferred once (DEFERRED 1, code, argument and count
kept, nothing else changed); level 1 otherwise starts L1; level 2 starts L2 on a unit that does not hold tally 1, and L3 on the one that does. A fault
of a class that the recovery in progress covers changes nothing but, where asked, that a reboot is awaited. Beginning a level sets LEVEL, clears
ELAPSED_MS, logs code, level called, level entered and count in SAF_F0, raises RECOVERY_STARTED, counts in the level's counter, and on tally 1 cancels
the derailleur. -/
def Obligations.FaultsCallRecoveryLevels : Prop :=
  (∀ (code arg lvl : Nat) (w r : Bool) (s : State), (s.power = stSTANDBY ∨ s.power = stSAFETALK ∨ s.power = 0 ∨ s.pwr.startup ≠ 0) →
    s.callRecovery code arg lvl w r = s) ∧
  (∀ (code arg : Nat) (w r : Bool) (s : State), stIDLE ≤ s.power → s.power ≤ stHOLD → s.pwr.startup = 0 → s.get SAF_STATUS.LEVEL = 0 →
    (w = false → s.callRecovery code arg 1 w r = s.startL1 code arg) ∧
    (w = true → s.saf.deferred = none →
      ∃ u : State, u = s.callRecovery code arg 1 w r ∧ u.saf.deferred = some (code, arg, s.fwc) ∧ u.get SAF_STATUS.DEFERRED = 1 ∧
        Only [SAF_STATUS.DEFERRED] ({ s with saf := u.saf }) u) ∧
    (s.get CHN_STATE.TALLY ≠ 1 → s.callRecovery code arg 2 w r = (s.beginLevel 2 code arg 2).enterL2 code [] r) ∧
    (s.get CHN_STATE.TALLY = 1 → s.callRecovery code arg 2 w r = (s.beginLevel 3 code arg 2).enterL3 code)) ∧
  (∀ (code arg lvl : Nat) (w r : Bool) (s : State), stIDLE ≤ s.power → s.power ≤ stHOLD → s.pwr.startup = 0 → s.get SAF_STATUS.LEVEL ≠ 0 →
    s.saf.covered.contains (faultClass code arg) = true →
    s.callRecovery code arg lvl w r = if r then s.onSaf (fun f => { f with reboot := true }) else s) ∧
  (∀ (level code arg called : Nat) (s : State), 1 ≤ level → level ≤ 3 → called ≤ 3 → s.get CHN_STATE.TALLY ≠ 1 →
    ∃ u v : State, s.beginLevel level code arg called = v.bump (if level = 1 then SAF_CNT0.L1_CNT else if level = 2 then SAF_CNT0.L2_CNT else SAF_CNT1.L3_CNT) 1 ∧
      v = u.raise 0x0304 [level, code] ∧ u.get SAF_STATUS.LEVEL = level ∧ u.get SAF_STATUS.ELAPSED_MS = 0 ∧
      u.get (SAF_F_CODE.CODE 0) = code % 65536 ∧ u.get (SAF_F_CODE.CALLED 0) = called ∧ u.get (SAF_F_CODE.ENTERED 0) = level ∧
      u.get (SAF_F_FWC0.FWC_LO 0) = s.fwc % 2 ^ 32 ∧ u.saf.covered = [faultClass code arg] ∧ u.saf.since = s.fwc ∧
      Only [SAF_STATUS.LEVEL, SAF_STATUS.ELAPSED_MS, SAF_F_CODE.CODE 0, SAF_F_CODE.CALLED 0, SAF_F_CODE.ENTERED 0, SAF_F_FWC0.FWC_LO 0,
        SAF_F_FWC1.FWC_MID 0, SAF_F_FWC2.FWC_HI 0] ({ s with saf := u.saf }) u)

/-- O20. Clearing trips, the test trip, the limits of a recovery, the release of an L2 and the restart of the chain. SAF_TRIP_CLEAR, carried out on a path
that may write LATCHED, clears exactly the latched bits written 1 whose live bit is 0 and no other register. TEST_TRIP on a path that may write it
while CANARY runs is a trip of TEST. CHAIN_RESTART is taken on tally 1 in an L3 whose own causes are cleared; otherwise nothing changes.
RECOVERY_TIMEOUT of an L1 raises the event with level 1 and the tally 2 ms after its start; a port retrain's L1 ends there, any other becomes the
level the unit calls for an L2, with its action to be carried out again unless it is a bank re-calibration. RECOVERY_TIMEOUT of an L2 raises
RECOVERY_TIMEOUT with level 2 and the tally 250 ms after its start, once; with no recovery in progress nothing changes; of an L3 it tells every unit
that is not ready, raises the event for each and ends the L3. L1_DEFER_EXPIRED gives the deferral up, raises L1_DEFER_EXPIRED with its code and calls
level 2. L2_RELEASE, in HOLD of a completed L2 with release asked and its causes cleared, clears the latched trips whose live bit is 0 and commands
the state at entry; a unit that is then back in IDLE or READY, and was not in CAPTURE, ends its recovery; one that was is also commanded to CAPTURE. -/
def Obligations.RecoveriesEnd : Prop :=
  (∀ (p : Path) (w : Word) (s : State), s.takes p 0x03008 w.toNat = true → (s.booked p 0x03008 w.toNat).mayWrite p SAF_TRIP.LATCHED = true →
    ∃ u : State, exec (.safTripClear p w) s = .next (u.noteR44).reviewForcing ∧ Only [SAF_TRIP.LATCHED] (s.booked p 0x03008 w.toNat) u ∧
      ∀ i < 11, u.bitOf SAF_TRIP.LATCHED i =
        ((s.booked p 0x03008 w.toNat).bitOf SAF_TRIP.LATCHED i && !(bit w.toNat i && !(s.booked p 0x03008 w.toNat).bitOf SAF_TRIP.LIVE i))) ∧
  (∀ (p : Path) (s : State), s.takes p 0x03014 2 = true → (s.booked p 0x03014 2).mayWrite p SAF_CMD.TEST_TRIP = true → s.on PWR_CLK.CANARY_RUN = true →
    (s.booked p 0x03014 2).on PWR_CLK.CANARY_RUN = true → exec (.testTrip p) s = .next ((s.booked p 0x03014 2).trip trTEST)) ∧
  (∀ (p : Path) (s : State), s.takes p 0x03014 1 = true → (s.booked p 0x03014 1).mayWrite p SAF_CMD.CHAIN_RESTART = true →
    ∃ b : State, b = s.booked p 0x03014 1 ∧
      (b.get CHN_STATE.TALLY ≠ 1 ∨ b.get SAF_STATUS.LEVEL ≠ 3 ∨ b.saf.restart.isSome = true ∨ b.holdCause stREADY = true → exec (.chainRestart p) s = .next b) ∧
      (b.get CHN_STATE.TALLY = 1 → b.get SAF_STATUS.LEVEL = 3 → b.saf.restart = none → b.holdCause stREADY = false →
        ∃ r t u : State, r = b.releaseRequest ∧ t = (if r.power = stHOLD then r.endHold stREADY else if r.power = stIDLE then r.intoReady else r) ∧
          u = t.onSaf (fun f => { f with restart := some t.fwc, readyUnits := 0 }) ∧
          exec (.chainRestart p) s = .next (if u.notReady.isEmpty then u.endL3 else u))) ∧
  (∀ s : State, s.get SAF_STATUS.LEVEL = 0 → exec .recoveryTimeout s = .next s) ∧
  (∀ (code arg : Nat) (s : State), s.get SAF_STATUS.LEVEL = 1 → s.saf.l1 = some (code, arg) →
    ∃ t : State, t = (s.advance (s.saf.since + 4000000)).raise 0x0307 [1, s.get CHN_STATE.TALLY] ∧
      (code ∈ [0x0C02, 0x0C03, 0x0C05] → ∃ u : State, exec .recoveryTimeout s = .next u ∧ u.get SAF_STATUS.LEVEL = 0 ∧
        Only [SAF_STATUS.LEVEL] { t with saf := { t.saf with l1 := none, covered := [] } } u) ∧
      (code ∉ [0x0C02, 0x0C03, 0x0C05] → exec .recoveryTimeout s = .next (t.escalate 0x0307 (if code = 0x0703 then [] else [(code, arg)])))) ∧
  (∀ s : State, s.get SAF_STATUS.LEVEL = 2 → s.saf.timedOut = false →
    exec .recoveryTimeout s = .next (((s.advance (s.saf.since + 500000000)).onSaf fun f => { f with timedOut := true }).raise 0x0307 [2, s.get CHN_STATE.TALLY])) ∧
  (∀ (f : Nat) (s : State), s.get SAF_STATUS.LEVEL = 3 → s.saf.restart = some f →
    ∃ t : State, t = s.advance (f + 4000000000) ∧
      exec .recoveryTimeout s = .next ((t.notReady.foldl (fun t k => (t.sendRecover k 0).raise 0x0307 [3, k]) t).endL3)) ∧
  (∀ (code a f : Nat) (s : State), s.saf.deferred = some (code, a, f) →
    ∃ u : State, Only [SAF_STATUS.DEFERRED] ((s.advance (f + s.get SAF_L1_DEFER.MS * 2000000)).onSaf fun x => { x with deferred := none }) u ∧
      u.get SAF_STATUS.DEFERRED = 0 ∧ exec .l1DeferExpired s = .next ((u.raise 0x0308 [code]).callRecovery 0x0308 0 2 false false)) ∧
  (∀ s : State, s.saf.deferred = none → exec .l1DeferExpired s = .next s) ∧
  (∀ s : State, s.power = stHOLD → s.get SAF_STATUS.LEVEL = 2 → s.on SAF_CTRL.L2_RELEASE = true → s.saf.acting = false → s.pagesUp = true →
    s.pwr.boot = 0 → s.l2Clear (if s.saf.entryState = stIDLE then stIDLE else stREADY) = true →
    ∃ u t : State, Only [SAF_TRIP.LATCHED] s u ∧ (∀ i < 11, u.bitOf SAF_TRIP.LATCHED i = (s.bitOf SAF_TRIP.LATCHED i && s.bitOf SAF_TRIP.LIVE i)) ∧
      t = (u.noteR44).command true (if s.saf.entryState = stIDLE then stIDLE else stREADY) ∧
      exec .l2Release s = .next (if t.power = stHOLD then t else if s.saf.entryState = stCAPTURE then t.command true stCAPTURE else t.endRecovery)) ∧
  (∀ s : State, s.power ≠ stHOLD ∨ s.get SAF_STATUS.LEVEL ≠ 2 ∨ s.on SAF_CTRL.L2_RELEASE = false → exec .l2Release s = .next s)

/-- O21. A skim cycle adds the charge gathered; a node above the threshold loses one packet and counts it, saturating at 4 095. While CADENCE runs, SKIM
at an existing node adds the charge the node gathered to what it holds. Where the comparators act and the node then holds 18 000 plus 250 electrons
for each step of the threshold code in force, the packet counter goes up by one and the packet charge of its column group and tap leaves the node; at
4 095 the counter stays, the exhausted flag is set and nothing leaves. Below the threshold, or where the comparators do not act, only the charge
changes. Every other node, every register and every other record stay as they were. While CADENCE stands nothing changes at all. -/
def Obligations.SkimCountsAPacket : Prop :=
  (∀ (tap row col charge : Nat) (s : State), tap < 2 → row < 12384 → col < 16512 → s.cadenceRuns = true →
    ∃ t : State, exec (.skim tap row col charge) s = .next t ∧ t = { s with arr := { s.arr with counts := t.arr.counts, charge := t.arr.charge } } ∧
      (∀ k, k ≠ nodeKey tap row col → Tbl.get 0 t.arr.counts k = Tbl.get 0 s.arr.counts k ∧ Tbl.get 0 t.arr.charge k = Tbl.get 0 s.arr.charge k) ∧
      (s.disarmed tap row = false → (18000 + 250 * s.get EXP_ARRAY_STATUS.THRESH_ACTIVE) * 256 ≤ Tbl.get 0 s.arr.charge (nodeKey tap row col) + charge →
        (Tbl.get 0 s.arr.counts (nodeKey tap row col) % 4096 < 4095 →
          Tbl.get 0 t.arr.counts (nodeKey tap row col) = Tbl.get 0 s.arr.counts (nodeKey tap row col) + 1 ∧
          Tbl.get 0 t.arr.charge (nodeKey tap row col) = Tbl.get 0 s.arr.charge (nodeKey tap row col) + charge - s.coef (qpKey tap (groupOf col))) ∧
        (Tbl.get 0 s.arr.counts (nodeKey tap row col) % 4096 = 4095 → Tbl.get 0 t.arr.counts (nodeKey tap row col) = 4096 + 4095 ∧
          Tbl.get 0 t.arr.charge (nodeKey tap row col) = Tbl.get 0 s.arr.charge (nodeKey tap row col) + charge)) ∧
      (s.disarmed tap row = true ∨ Tbl.get 0 s.arr.charge (nodeKey tap row col) + charge < (18000 + 250 * s.get EXP_ARRAY_STATUS.THRESH_ACTIVE) * 256 →
        t.arr.counts = s.arr.counts ∧ Tbl.get 0 t.arr.charge (nodeKey tap row col) = Tbl.get 0 s.arr.charge (nodeKey tap row col) + charge)) ∧
  (∀ (tap row col charge : Nat) (s : State), s.cadenceRuns = false → exec (.skim tap row col charge) s = .next s)

/-- O22. The latch of a row, the reset of its nodes and counters, the end of a pass, and a pass that waited for a calibration step. ROW_LATCH in a pass
with rows to go latches the next row on both sides at its time, the row number moved on; without a pass, or with every row latched, nothing changes.
ROW_RESET_DONE in a pass that is ahead of its resets empties the nodes of the two rows it resets and sets their counters and exhausted flags to 0,
leaves those of the other tap as they were, and moves the reset on; with the last row the pass ends; in a pass over no row it ends with its first 40
ns. HELD_PASS_START with no calibration step under way counts in CAL_HOLD.HOLD_CNT, raises the event with tap and delay and starts the pass that
waited; while a step runs, or without a pass that waits, nothing changes. -/
def Obligations.RowsLatchResetAndHeldPasses : Prop :=
  (∀ (dark : Nat) (codes : List RowCode) (p : Pass) (s : State), s.arr.pass = some p → p.row < p.rows →
    ∃ u : State, u = (s.advance (p.began + p.row * p.rowTicks)).onArr (fun a => { a with pass := some { p with row := p.row + 1 } }) ∧
      exec (.rowLatch dark codes) s = .next ((u.latchSide p 0 p.row dark codes).latchSide p 1 p.row dark codes)) ∧
  (∀ (dark : Nat) (codes : List RowCode) (s : State), s.arr.pass = none ∨ (∃ p : Pass, s.arr.pass = some p ∧ p.rows ≤ p.row) →
    exec (.rowLatch dark codes) s = .next s) ∧
  (∀ (p : Pass) (s : State), s.arr.pass = some p → p.rows ≠ 0 → p.reset < p.row → p.reset + 1 ≠ p.rows → p.tap < 2 →
    ∃ t : State, exec .rowResetDone s = .next t ∧ t.arr.pass = some { p with reset := p.reset + 1 } ∧
      (∀ row col, row < 2 ^ 14 → col < 2 ^ 15 → p.rowIs p.reset row = true →
        Tbl.get 0 t.arr.counts (nodeKey p.tap row col) = 0 ∧ Tbl.get 0 t.arr.charge (nodeKey p.tap row col) = 0) ∧
      (∀ tap row col, tap < 2 → row < 2 ^ 14 → col < 2 ^ 15 → tap ≠ p.tap ∨ p.rowIs p.reset row = false →
        Tbl.get 0 t.arr.counts (nodeKey tap row col) = Tbl.get 0 s.arr.counts (nodeKey tap row col) ∧
        Tbl.get 0 t.arr.charge (nodeKey tap row col) = Tbl.get 0 s.arr.charge (nodeKey tap row col)) ∧
      t = { s with fwc := t.fwc, arr := { s.arr with counts := t.arr.counts, charge := t.arr.charge, pass := t.arr.pass } }) ∧
  (∀ (p : Pass) (s : State), s.arr.pass = some p → p.rows = 0 → exec .rowResetDone s = .next ((s.advance (p.began + 80)).endPass p)) ∧
  (∀ s : State, s.arr.pass = none → exec .rowResetDone s = .next s) ∧
  (∀ (tap g f : Nat) (s : State), s.arr.held = some (tap, g, f) → s.cnv.step = none → s.cnv.recal = false → s.arr.pass = none →
    ∃ u : State, Only [CAL_HOLD.HOLD_CNT] s u ∧ u.get CAL_HOLD.HOLD_CNT = min (2 ^ CAL_HOLD.HOLD_CNT.width - 1) (s.get CAL_HOLD.HOLD_CNT + 1) ∧
      exec .heldPassStart s = .next ((u.raise 0x0803 [tap, s.fwc - f]).startPass tap g)) ∧
  (∀ s : State, s.arr.held = none ∨ s.cnv.step.isSome = true → exec .heldPassStart s = .next s)

/-- O23. An entry the table reaches in its own wall frame acts at its offset, or is skipped and counted when that has passed. Ready s code says that the
table runs, has reached an entry of that action code, and that the entry's wall frame is the one in progress. Base is the state after the table's
bookkeeping: the freewheel counter moved on to the entry's time, the pointer moved on, the sweep flagged while coasting. A late entry is skipped: the
pointer moves on, LATE_CNT counts, and the event is raised once in a sweep. On time: OPEN_A and OPEN_B do the opening of tap A and B with the entry's
columns, CLOSE takes the columns to DG, READ begins or holds the pass of its tap with its gains, GAP begins the gap of its length, EXPO sets the lines
it names to the levels it gives by a command issued EXP_EXPO_LAT.LAT ticks before, ARM_ENTRY arms its trigger for its tap and columns, DISARM disarms
it, and flags, counts and raises a trigger that has not fired in TRIGGERED mode; NOP only moves the pointer; SWEEP_END ends the table until the next
sweep. -/
def Obligations.TableEntriesRun : Prop :=
  ∀ s : State,
    let ready := fun (code : Nat) => s.sweepRuns = true ∧ s.on CAD_STATE.TABLE_RUN = true ∧ s.cad.ptr < 4096 ∧
      entryAction s.entry = code ∧ entryFrame s.entry = s.cad.frameIx
    let due := s.cad.frameAt + entryOffset s.entry
    let onTime := s.entryLate (entryFrame s.entry) due = false
    let b := ((s.advance due).scheduled).onCad fun c => { c with ptr := c.ptr + 1 }
    let e := s.entry
    (∀ x ∈ [(Instr.openA, 1), (.openB, 2), (.close, 3), (.read, 4), (.gap, 5), (.expo, 6), (.armEntry, 7), (.disarm, 8), (.tableNop, 0)],
      ready x.2 → s.entryLate (entryFrame s.entry) due = true →
        exec x.1 s = .next (s.skipEntry.onCad fun c => { c with ptr := c.ptr + 1 })) ∧
    (∃ u : State, Only [CAD_ERRCNT0.LATE_CNT] s u ∧ u.get CAD_ERRCNT0.LATE_CNT = min (2 ^ CAD_ERRCNT0.LATE_CNT.width - 1) (s.get CAD_ERRCNT0.LATE_CNT + 1) ∧
      s.skipEntry = if s.cad.late then u else (u.onCad fun c => { c with late := true }).raise 0x0509 [s.cad.ptr, s.get CAD_SWEEP.SWEEP]) ∧
    (ready 1 → onTime → exec .openA s = .next (b.openEntry 0 e)) ∧
    (ready 2 → onTime → exec .openB s = .next (b.openEntry 1 e)) ∧
    (ready 3 → onTime → exec .close s = .next (b.gateAction (b.maskCols (entryMask e)) fun u cols => u.setGates cols 0 none false)) ∧
    (ready 4 → onTime → exec .read s = .next (b.read (entryArg e % 2) (entryArg e / 2 % 4))) ∧
    (ready 5 → onTime → exec .gap s = .next ((b.onCad fun c => { c with gapEnd := some (b.fwc + entryArg e) }).gapMark (entryArg e - 400))) ∧
    (ready 6 → onTime → ∃ t : State, exec .expo s = .next t ∧ t = { b with cad := { b.cad with expo := t.cad.expo, expoCmd := t.cad.expoCmd } } ∧
      t.cad.expoCmd = b.fwc - b.get EXP_EXPO_LAT.LAT ∧
      ∀ i < 4, bit t.cad.expo i = if bit (entryArg e) (4 + i) then bit (entryArg e) i else bit b.cad.expo i) ∧
    (ready 7 → onTime → ∃ t : State, exec .armEntry s = .next t ∧ (t.trg (entryArg e % 4)).armed = true ∧ (t.trg (entryArg e % 4)).fired = false ∧
      (t.trg (entryArg e % 4)).tap = entryArg e / 4 % 2 ∧ (t.trg (entryArg e % 4)).cols = b.maskCols (entryMask e) ∧
      (∀ n, n ≠ entryArg e % 4 → t.trg n = b.trg n) ∧ t = { b with cad := { b.cad with trg := t.cad.trg } }) ∧
    (ready 8 → onTime → ∃ u : State, (u.trg (entryArg e % 4)).armed = false ∧ (∀ n, n ≠ entryArg e % 4 → u.trg n = b.trg n) ∧
      u = { b with cad := { b.cad with trg := u.cad.trg } } ∧
      exec .disarm s = .next (if (b.trg (entryArg e % 4)).armed && !(b.trg (entryArg e % 4)).fired && decide (b.get EXP_MODE.MODE_ACTIVE = 1) then
        ((u.flagSweep (b.get CAD_SWEEP.SWEEP) cdNOTRIG).bump EXP_MODE_ERRCNT.NO_TRIGGER_CNT 1).raise 0x0605 [entryArg e % 4, b.get CAD_SWEEP.SWEEP]
        else u)) ∧
    (ready 0 → onTime → exec .tableNop s = .next b) ∧
    (ready 15 → exec .sweepEnd s = .next (s.onCad fun c => { c with ptr := 4096 }))

/-- O24. What an opening does to the gates: the tap's exit on its columns, suppressed without MEAS_OK, refused while the tap is in its pass. Setting gates
gives each of the sixteen columns named the exit, the end, a fresh number and the measuring mark, or DG for exit 0, and leaves the gates of every
other column and every register as they were. The command of a gate action is issued CAD_GATE_LAT.LAT ticks before it. An opening with no trigger
columns and outside INTEGRATING: with the measuring mark and MEAS_OK 0 the columns go to DG, SUPPR_CNT counts, the sweep is flagged and the event
raised once; of a tap in its pass the opening is refused, counted and raised and the columns go to DG; else the gates take the tap's exit, ending
after the entry's length where it has one. OPEN_LENGTH_END takes to DG the columns of the openings that end first, at that time; without such an
opening it changes nothing. -/
def Obligations.GatesOpenAndClose : Prop :=
  (∀ (cols x : Nat) (ends : Option Nat) (m : Bool) (s : State), s.setGates cols x ends m = { s with cad := (s.setGates cols x ends m).cad } ∧
    ∀ c : Nat, (s.setGates cols x ends m).gate c =
      if c < 16 ∧ bit cols c = true then (if x = 0 then {} else ⟨x, ends, s.cad.gateNo + 1, m⟩) else s.gate c) ∧
  (∀ (cols : Nat) (s : State), s.commandGates cols = { s with cad := { s.cad with gateCmd := (s.commandGates cols).cad.gateCmd } } ∧
    ∀ c : Nat, Tbl.get 0 (s.commandGates cols).cad.gateCmd c =
      if c < 16 ∧ bit cols c = true then s.fwc - s.get CAD_GATE_LAT.LAT else Tbl.get 0 s.cad.gateCmd c) ∧
  (∀ (tap e : Nat) (s : State), s.triggerCols &&& s.maskCols (entryMask e) = 0 → s.get EXP_MODE.MODE_ACTIVE ≠ 4 →
    let cols := s.maskCols (entryMask e)
    let t := s.commandGates cols
    (entryMeas e = true → s.on CAD_STATE.MEAS_OK = false → s.cad.suppr = true →
      s.openEntry tap e = ((t.bump CAD_ERRCNT0.SUPPR_CNT 1).flagSweep (s.get CAD_SWEEP.SWEEP) cdSUPPR).setGates cols 0 none false) ∧
    (entryMeas e = true → s.on CAD_STATE.MEAS_OK = false → s.cad.suppr = false →
      s.openEntry tap e = ((((t.bump CAD_ERRCNT0.SUPPR_CNT 1).flagSweep (s.get CAD_SWEEP.SWEEP) cdSUPPR).setGates cols 0 none false).onCad
        fun c => { c with suppr := true }).raise 0x050A [s.get CAD_SWEEP.SWEEP]) ∧
    (entryMeas e = false ∨ s.on CAD_STATE.MEAS_OK = true → s.tapBusy tap = true →
      s.openEntry tap e = (((t.bump EXP_ARRAY_ERRCNT1.SHORT_CNT 1).setShort tap 3).raise 0x0640 [tap, s.fwc]).setGates cols 0 none false) ∧
    (entryMeas e = false ∨ s.on CAD_STATE.MEAS_OK = true → s.tapBusy tap = false →
      s.openEntry tap e = t.setGates cols (tap + 1) (if entryArg e = 0 then none else some (s.fwc + entryArg e)) (entryMeas e))) ∧
  (∀ (c n no : Nat) (x : Nat) (m : Bool) (s : State), c < 16 → s.cad.gates = [(c, ⟨x, some n, no, m⟩)] →
    exec .openLengthEnd s = .next (((s.advance n).commandGates (2 ^ c)).setGates (2 ^ c) 0 none false)) ∧
  (∀ s : State, (∀ e ∈ s.cad.gates, e.2.ends = none) → exec .openLengthEnd s = .next s)

/-- O25. An edge of an armed trigger opens its columns at once or after its delay, an edge during an exposure is ignored and counted. TRIGGER_EDGE of an
enabled trigger with the active edge and an armed entry: while its exposure waits or runs, or ended less than 50 ns (100 ticks) ago, the edge is
counted in TRIG_IGN_CNT and raised, and opens nothing; else the trigger disarms, has fired, and opens its tap on its columns, at the tick nearest to
the edge with delay 0, else the delay after that tick. An edge of the other polarity, of a disabled trigger or with nothing armed only moves the
freewheel counter. TRIGGER_DELAY_OPEN opens at the due count, TRIGGER_EXPOSURE_END takes the columns to DG at the due count and remembers it; without
a due count both change nothing. -/
def Obligations.TriggersOpenAndEnd : Prop :=
  (∀ (n f : Nat) (rising : Bool) (s : State), n < 4 → s.cadenceRuns = true → s.on (CAD_TRIG_CFG.EN n) = true →
    rising = !s.on (CAD_TRIG_CFG.POL n) → (s.trg n).armed = true →
    ((s.trg n).busy (f / 8) = true →
      ∃ u : State, Only [CAD_ERRCNT1.TRIG_IGN_CNT] (s.advance (f / 8)) u ∧
        u.get CAD_ERRCNT1.TRIG_IGN_CNT = min (2 ^ CAD_ERRCNT1.TRIG_IGN_CNT.width - 1) (s.get CAD_ERRCNT1.TRIG_IGN_CNT + 1) ∧
        exec (.triggerEdge n f rising) s = .next (u.raise 0x050B [n, u.fwc])) ∧
    ((s.trg n).busy (f / 8) = false →
      ∃ u : State, (u.trg n).armed = false ∧ (u.trg n).fired = true ∧ (u.trg n).opensAt = some ((f + 4) / 8 + s.get (CAD_TRIG_DLY.DLY n)) ∧
        (u.trg n).runTap = (s.trg n).tap ∧ (u.trg n).runCols = (s.trg n).cols ∧ (∀ k, k ≠ n → u.trg k = s.trg k) ∧
        u = { (s.advance (f / 8)) with cad := { s.cad with trg := u.cad.trg } } ∧
        exec (.triggerEdge n f rising) s = .next (if s.get (CAD_TRIG_DLY.DLY n) = 0 then u.triggerOpen n ((f + 4) / 8) else u))) ∧
  (∀ (n f : Nat) (rising : Bool) (s : State), s.cadenceRuns = false ∨ s.on (CAD_TRIG_CFG.EN n) = false ∨ (s.trg n).armed = false ∨
      rising = s.on (CAD_TRIG_CFG.POL n) →
    exec (.triggerEdge n f rising) s = .next (s.advance (f / 8))) ∧
  (∀ (n a : Nat) (s : State), (s.trg n).opensAt = some a → exec (.triggerDelayOpen n) s = .next (((s.advance a).commandGates (s.trg n).runCols).triggerOpen n a)) ∧
  (∀ (n : Nat) (s : State), (s.trg n).opensAt = none → exec (.triggerDelayOpen n) s = .next s) ∧
  (∀ (n a : Nat) (s : State), s.tapBusy (s.trg n).runTap = false →
    ∃ t : State, s.triggerOpen n a = t ∧ (t.trg n).endsAt = some (a + s.get (CAD_TRIG_LEN.LEN n)) ∧ (t.trg n).opensAt = none ∧
      (∀ c < 16, bit (s.trg n).runCols c = true → (t.gate c).exit = (s.trg n).runTap + 1)) ∧
  (∀ (n a : Nat) (s : State), (s.trg n).endsAt = some a →
    ∃ t : State, exec (.triggerExposureEnd n) s = .next t ∧ (t.trg n).endsAt = none ∧ (t.trg n).lastEnd = some a ∧
      (∀ c < 16, bit (s.trg n).runCols c = true → (t.gate c).exit = 0) ∧ ∀ f : Field, t.get f = s.get f) ∧
  (∀ (n : Nat) (s : State), (s.trg n).endsAt = none → exec (.triggerExposureEnd n) s = .next s)

/-- O26. The video schedule, the pulse of EXPO, the shadow table, the swap request, the mode and the lockstep fault. VIDEO_SCHEDULE_STEP while video runs:
step 0 opens tap A on every column for the length of the sweep's video exposure, step 1 reads tap A 200 ns after the exposure ends, step 2 waits for
that pass and, 200 ns after it, begins the gap up to 200 ns before the next sweep where 1 microsecond (2000 ticks) is left, and no gap where less is.
EXPO_PULSE_END ends the pulse at its due count. CAD_SHD_HI_WRITE carried out while the shadow is open stores the entry of both words at CAD_SHD_ADDR,
moves the address on and sets SHD_NEW; while a swap is pending nothing but the bookkeeping happens. CAD_ACT_HI_READ answers the latched word and moves
CAD_ACT_ADDR on. CAD_SWAP_REQ is the request of R108; with a swap pending nothing changes, in CAPTURE it is refused. EXP_MODE_WRITE stores an allowed
mode and nothing else, and raises the refusal for another. LOCKSTEP_FAULT compares the copies of a tick: alike, or on a unit already faulted, nothing
but the sampled fast path is kept; a fast-path difference of one tick is not counted; a counted one stores count and groups, sets LS_FAULT, stops the
table, abandons the sweep in CAPTURE, raises the event and trips CAD_LS. -/
def Obligations.VideoTablesAndModes : Prop :=
  (∀ s : State, s.sweepRuns = true → s.on EXP_MODE_STATUS.VIDEO_RUN = true →
    (s.cad.video = 0 → s.tapBusy 0 = false → s.cad.scan.st ≠ 3 →
      exec .videoScheduleStep s = .next ((s.onCad fun c => { c with video := 1 }).setGates 0xFFFF 1 (some (s.cad.sweepAt + s.cad.videoLen)) false)) ∧
    (s.cad.video = 1 → s.cad.scan.st ≠ 3 →
      exec .videoScheduleStep s =
        .next (((s.advance (s.cad.sweepAt + s.cad.videoLen + 400)).onCad fun c => { c with video := 2 }).read 0 s.cad.videoGain)) ∧
    (s.cad.video = 2 → s.arr.pass.isSome = true → exec .videoScheduleStep s = .next s) ∧
    (s.cad.video = 2 → s.arr.pass = none → s.arr.held = none → s.cad.scan.st ≠ 3 →
      ∃ (t : State) (e : Nat), t = (s.advance (s.arr.lastEnd + 400)).onCad (fun c => { c with video := 3 }) ∧ e = t.nextSweep - 400 ∧
        (t.fwc + 2000 ≤ e → exec .videoScheduleStep s = .next ((t.onCad fun c => { c with gapEnd := some e }).gapMark (e - t.fwc - 400))) ∧
        (e < t.fwc + 2000 → exec .videoScheduleStep s = .next t)) ∧
    (3 ≤ s.cad.video → exec .videoScheduleStep s = .next s)) ∧
  (∀ (n : Nat) (s : State), s.cad.pulse = some n → exec .expoPulseEnd s = .next ((s.advance n).onCad fun c => { c with pulse := none })) ∧
  (∀ (p : Path) (w : Word) (s : State), s.takes p 0x05064 w.toNat = true →
    ∃ b : State, b = s.booked p 0x05064 w.toNat ∧
      (b.shadowOpen = true → b.mayWrite p CAD_SHD_HI.HI = true →
        ∃ t : State, exec (.cadShdHiWrite p w) s = .next t ∧ Tbl.get 0 t.cad.shd (b.get CAD_SHD_ADDR.ADDR) = w.toNat * 2 ^ 32 + b.cad.shdLo ∧
          (∀ k, k ≠ b.get CAD_SHD_ADDR.ADDR → Tbl.get 0 t.cad.shd k = Tbl.get 0 b.cad.shd k) ∧
          t.get CAD_SHD_ADDR.ADDR = (b.get CAD_SHD_ADDR.ADDR + 1) % 2 ^ CAD_SHD_ADDR.ADDR.width ∧ t.get CAD_TBL_STATUS.SHD_NEW = 1 ∧
          Only [CAD_SHD_ADDR.ADDR, CAD_TBL_STATUS.SHD_NEW] ({ b with cad := { b.cad with shd := t.cad.shd } }) t) ∧
      (b.shadowOpen = false → exec (.cadShdHiWrite p w) s = .next b)) ∧
  (∀ (p : Path) (s : State), s.answers p 0x05078 = true →
    ∃ t : State, exec (.cadActHiRead p) s = .next t ∧ t.answer = s.get CAD_ACT_HI.HI ∧
      t.get CAD_ACT_ADDR.ADDR = (s.get CAD_ACT_ADDR.ADDR + 1) % 2 ^ CAD_ACT_ADDR.ADDR.width ∧ Only [CAD_ACT_ADDR.ADDR] ({ s with answer := t.answer }) t) ∧
  (∀ (p : Path) (s : State), s.takes p 0x05068 1 = true → (s.booked p 0x05068 1).mayWrite p CAD_SWAP.REQ = true →
    ∃ b : State, b = s.booked p 0x05068 1 ∧ (b.on CAD_TBL_STATUS.PENDING = true → exec (.cadSwapReq p) s = .next b) ∧
      (b.on CAD_TBL_STATUS.PENDING = false → b.power = stCAPTURE → exec (.cadSwapReq p) s = .next (b.refuseTable (11, 0))) ∧
      (b.on CAD_TBL_STATUS.PENDING = false → b.power ≠ stCAPTURE →
        exec (.cadSwapReq p) s = .next (if b.validate.2 then b.validate.1.set CAD_TBL_STATUS.PENDING 1 else b.validate.1))) ∧
  (∀ (p : Path) (w : Word) (s : State), s.takes p 0x06000 w.toNat = true → (s.booked p 0x06000 w.toNat).mayWrite p EXP_MODE.MODE = true →
    ∃ b : State, b = s.booked p 0x06000 w.toNat ∧
      (EXP_MODE.MODE.of w.toNat < 5 → bit (b.get EXP_MODE_ALLOW.ALLOW) (EXP_MODE.MODE.of w.toNat) = true →
        ∃ t : State, exec (.expModeWrite p w) s = .next t ∧ Only [EXP_MODE.MODE] b t ∧ t.get EXP_MODE.MODE = EXP_MODE.MODE.of w.toNat) ∧
      (5 ≤ EXP_MODE.MODE.of w.toNat ∨ bit (b.get EXP_MODE_ALLOW.ALLOW) (EXP_MODE.MODE.of w.toNat) = false →
        exec (.expModeWrite p w) s = .next (b.raise 0x0603 [EXP_MODE.MODE.of w.toNat]))) ∧
  (∀ (n : Nat) (q : CadCopy) (x y : Nat) (s : State), s.cadenceRuns = true →
    ∃ (a b : State) (d : Nat), a = s.advance n ∧ b = a.onCad (fun c => { c with fastAt := if x = y then none else some a.fwc }) ∧
      d = copyGroups a.copyP q + (if x ≠ y ∧ s.cad.fastAt.map (· + 1) = some a.fwc then 64 else 0) ∧
      (d = 0 ∨ s.on CAD_STATE.LS_FAULT = true → exec (.lockstepFault n q x y) s = .next b) ∧
      (d ≠ 0 → s.on CAD_STATE.LS_FAULT = false →
        ∃ u v : State, Only [CAD_LS_FWC0.FWC_LO, CAD_LS_FWC1.FWC_MID, CAD_LS_FWC2.FWC_HI, CAD_LS_DIFF.GROUPS, CAD_STATE.LS_FAULT] b u ∧
          u.get CAD_LS_DIFF.GROUPS = d % 2 ^ CAD_LS_DIFF.GROUPS.width ∧ u.get CAD_STATE.LS_FAULT = 1 ∧ u.get CAD_LS_FWC0.FWC_LO = b.fwc % 2 ^ 32 ∧
          v = (if u.stopTable.power = stCAPTURE then u.stopTable.flagSweep (u.stopTable.get CAD_SWEEP.SWEEP) cdABANDON else u.stopTable) ∧
          exec (.lockstepFault n q x y) s = .next (((v.raise 0x050D [d, v.fwc]).reviewMreq).trip trCAD_LS))) ∧
  (∀ (n : Nat) (q : CadCopy) (x y : Nat) (s : State), s.cadenceRuns = false → exec (.lockstepFault n q x y) s = .next s) ∧
  (∀ a : CadCopy, copyGroups a a = 0)

/-- O27. Edges of SCAN_FRM, SCAN_LINE and MAINS_ZX: the update of P and p, glitches, the measuring edges, the line count. MAINS_ZX_EDGE of the active
polarity to a LOCKED mains tracker on MAINS, inside the window and in tolerance: with e the edge time minus p, P becomes P plus e times 2^-KI and p
becomes p plus the new P plus e times 2^-KP, both rounded toward minus infinity in units of 2^-16 tick; the tracker stays LOCKED, CAD_MAINS_ERR holds
e, and the conditions that hang on the trackers are looked at again. An edge outside the window (P/64 on either side of p) is a glitch: counted,
nothing else. A tracker without a period takes its first edge as t1 and its second as t2, with P = t2 - t1 and p = t2 + P. An edge of the other
polarity or of another source only moves the freewheel counter. SCAN_FRM_EDGE starts the line count at 0 and goes to the scan tracker; with a line
count that differs from CAD_SCAN_CFG.LINES it first raises the event with the count, and the edge counts as bad. SCAN_LINE_EDGE adds one to a line
count that runs. -/
def Obligations.TrackersFollowTheirEdges : Prop :=
  (∀ (f p per : Nat) (rising : Bool) (s : State), s.cadenceRuns = true → s.get CAD_SRC.MAINS_SRC = 3 → rising = !s.on CAD_MAINS_CFG.POL →
    s.cad.mains.p = some p → s.cad.mains.per = some per →
    let e : Int := (f * 8192 : Nat) - (p : Nat)
    (s.cad.mains.st = 2 → 64 * e.natAbs ≤ per → e.natAbs ≤ s.get CAD_ACQ.MAINS_TOL * 2000 * 65536 →
      ∃ u : State, exec (.mainsZxEdge f rising) s = .next u.reviewTrackers ∧
        u.cad.mains.per = some ((per : Int) + e / 2 ^ s.get CAD_TRK.KI).toNat ∧
        u.cad.mains.p = some ((p : Int) + ((per : Int) + e / 2 ^ s.get CAD_TRK.KI).toNat + e / 2 ^ s.get CAD_TRK.KP).toNat ∧
        u.cad.mains.st = 2 ∧ u.cad.mains.miss = 0 ∧ u.fwc = max s.fwc (f / 8) % 2 ^ 80 ∧
        u.get CAD_MAINS_ERR.ERR = unsigned 32 (clampInt (-(2 ^ 31)) (2 ^ 31 - 1) (e / 8192)) ∧
        Only [CAD_MAINS_ERR.ERR, CAD_STATE.MAINS_ST, CAD_MAINS_PER_LO.PER_LO, CAD_MAINS_PER_HI.PER_HI]
          ({ (s.advance (f / 8)) with cad := { s.cad with mains := u.cad.mains } }) u) ∧
    (s.cad.mains.st ≠ 0 → s.cad.mains.st ≠ 4 → per < 64 * e.natAbs →
      ∃ t : State, exec (.mainsZxEdge f rising) s = .next t ∧ Only [CAD_ERRCNT1.GLITCH_CNT] (s.advance (f / 8)) t ∧
        t.get CAD_ERRCNT1.GLITCH_CNT = min (2 ^ CAD_ERRCNT1.GLITCH_CNT.width - 1) (s.get CAD_ERRCNT1.GLITCH_CNT + 1))) ∧
  (∀ (f : Nat) (rising : Bool) (s : State), s.cadenceRuns = true → s.get CAD_SRC.MAINS_SRC = 3 → rising = !s.on CAD_MAINS_CFG.POL →
    s.cad.mains.st = 1 → s.cad.mains.p = none →
    (s.cad.mains.first = none → ∃ t : State, exec (.mainsZxEdge f rising) s = .next t ∧ t.cad.mains = { s.cad.mains with first := some (f * 8192) }) ∧
    (∀ t1, s.cad.mains.first = some t1 → ∃ t : State, exec (.mainsZxEdge f rising) s = .next t ∧ t.cad.mains.per = some (f * 8192 - t1) ∧
      t.cad.mains.p = some (f * 8192 + (f * 8192 - t1)) ∧ t.cad.mains.agree = 0 ∧ t.cad.mains.st = 1)) ∧
  (∀ (f : Nat) (rising : Bool) (s : State), s.cadenceRuns = false ∨ s.get CAD_SRC.MAINS_SRC ≠ 3 ∨ rising = s.on CAD_MAINS_CFG.POL →
    exec (.mainsZxEdge f rising) s = .next (s.advance (f / 8))) ∧
  (∀ (f : Nat) (rising : Bool) (s : State), s.cadenceRuns = true → s.get CAD_SRC.SCAN_SRC = 1 → rising = !s.on CAD_SCAN_CFG.POL → s.cad.scan.st ≠ 0 →
    (s.cad.lines = none ∨ s.get CAD_SCAN_CFG.LINES = 0 ∨ s.cad.lines = some (s.get CAD_SCAN_CFG.LINES) →
      exec (.scanFrmEdge f rising) s = .next (((s.advance (f / 8)).onCad fun c => { c with lines := some 0 }).inputEdge false (f * 8192) false)) ∧
    (∀ k, s.cad.lines = some k → s.get CAD_SCAN_CFG.LINES ≠ 0 → k ≠ s.get CAD_SCAN_CFG.LINES →
      exec (.scanFrmEdge f rising) s =
        .next ((((s.advance (f / 8)).raise 0x050C [k]).onCad fun c => { c with lines := some 0 }).inputEdge false (f * 8192) true))) ∧
  (∀ (f : Nat) (rising : Bool) (s : State), s.cadenceRuns = true → s.get CAD_SRC.SCAN_SRC = 1 → rising = !s.on CAD_SCAN_CFG.LINE_POL →
    exec (.scanLineEdge f rising) s = .next ((s.advance (f / 8)).onCad fun c => { c with lines := c.lines.map (· + 1) }))

/-- O28. FREE instants, computed starts, a window that closes without an edge, and a change of source. FREE_REFERENCE_INSTANT of a mains tracker on FREE
falls on p with e = 0, takes P from the period register, moves p on by P and counts AGREE up to 8, LOCKED with its event on reaching 8 in ACQUIRING.
TRACKER_WINDOW_CLOSE of a tracker on an input with p and P is the missing edge at the window's end; of a tracker in OFF or on FREE nothing changes.
The missing edge of a LOCKED mains tracker makes it COASTING with COUNT - 1 left, p moved on by P and P kept, and raises the COAST event; of a
COASTING one with some left, one less; with none left it is LOST with its event. NET_COMPUTED_START of a tracker on publications whose chain time is
invalid is a missing edge at p; of a tracker on another source it changes nothing. CAD_SRC_WRITE of a code of the field that differs from the present
one stores it, passes the tracker through OFF and looks at time again; the same codes change nothing. -/
def Obligations.TrackersRunWithoutEdges : Prop :=
  (∀ (p : Nat) (s : State), s.cadenceRuns = true → s.get CAD_SRC.MAINS_SRC = 5 → s.cad.mains.p = some p →
    ∃ u : State, u.cad.mains.p = some (p + s.get CAD_FREE_MAINS.PERIOD * 65536) ∧ u.cad.mains.per = some (s.get CAD_FREE_MAINS.PERIOD * 65536) ∧
      u.cad.mains.agree = min 8 (s.cad.mains.agree + 1) ∧ u.get CAD_MAINS_ERR.ERR = 0 ∧
      Only [CAD_MAINS_ERR.ERR, CAD_STATE.MAINS_ST, CAD_MAINS_PER_LO.PER_LO, CAD_MAINS_PER_HI.PER_HI]
        ({ (s.advance (tickOf p)) with cad := { s.cad with mains := u.cad.mains } }) u ∧
      (s.cad.mains.st = 1 → 7 ≤ s.cad.mains.agree → u.cad.mains.st = 2 ∧
        exec (.freeReferenceInstant true) s = .next ((u.raise 0x0506 [5, s.get CAD_FREE_MAINS.PERIOD * 65536]).reviewTrackers)) ∧
      (s.cad.mains.st ≠ 1 ∨ s.cad.mains.agree < 7 → u.cad.mains.st = s.cad.mains.st ∧ exec (.freeReferenceInstant true) s = .next u.reviewTrackers)) ∧
  (∀ (m : Bool) (p per : Nat) (s : State), s.cadenceRuns = true → (s.trk m).st ≠ 0 → s.trkSrc m = 1 ∨ s.trkSrc m = 3 → (s.trk m).p = some p →
    (s.trk m).per = some per → s.onNet m = false →
    exec (.trackerWindowClose m) s = .next ((s.advance ((p + per / 64) / 65536)).edgeMissing m)) ∧
  (∀ (m : Bool) (s : State), s.cadenceRuns = false ∨ (s.trk m).st = 0 ∨ s.trkSrc m = 5 → exec (.trackerWindowClose m) s = .next s) ∧
  (∀ (p per : Nat) (s : State), s.cad.mains.p = some p → s.cad.mains.per = some per →
    (s.cad.mains.st = 2 → ∃ u : State, u.cad.mains.st = 3 ∧ u.cad.mains.left = s.get CAD_COAST.COUNT - 1 ∧ u.cad.mains.p = some (p + per) ∧ u.cad.mains.per = some per ∧
      Only [CAD_STATE.MAINS_ST, CAD_MAINS_PER_LO.PER_LO, CAD_MAINS_PER_HI.PER_HI] ({ s with cad := { s.cad with mains := u.cad.mains } }) u ∧
      s.edgeMissing true = (u.raise 0x0504 [s.trkSrc true, s.fwc]).reviewTrackers) ∧
    (s.cad.mains.st = 3 → 0 < s.cad.mains.left → ∃ u : State, u.cad.mains.st = 3 ∧ u.cad.mains.left = s.cad.mains.left - 1 ∧ u.cad.mains.p = some (p + per) ∧
      Only [CAD_STATE.MAINS_ST, CAD_MAINS_PER_LO.PER_LO, CAD_MAINS_PER_HI.PER_HI] ({ s with cad := { s.cad with mains := u.cad.mains } }) u ∧
      s.edgeMissing true = u.reviewTrackers) ∧
    (s.cad.mains.st = 3 → s.cad.mains.left = 0 → ∃ u : State, u.cad.mains.st = 4 ∧ u.cad.mains.p = none ∧ u.cad.mains.per = some per ∧
      Only [CAD_STATE.MAINS_ST, CAD_MAINS_PER_LO.PER_LO, CAD_MAINS_PER_HI.PER_HI] ({ s with cad := { s.cad with mains := u.cad.mains } }) u ∧
      s.edgeMissing true = (u.raise 0x0505 [s.trkSrc true, s.fwc]).reviewTrackers)) ∧
  (∀ (m : Bool) (p per : Nat) (b : Pub) (s : State), s.cadenceRuns = true → s.onNet m = true → (s.trk m).st ≠ 0 → (s.trk m).st ≠ 4 →
    (s.trk m).p = some p → (s.trk m).per = some per → s.pubOf m = some b → s.on TIM_STATUS.CHAIN_OK = false →
    exec (.netComputedStart m) s = .next ((s.advance (tickOf p)).edgeMissing m)) ∧
  (∀ (m : Bool) (s : State), s.cadenceRuns = false ∨ s.onNet m = false ∨ (s.trk m).st = 0 → exec (.netComputedStart m) s = .next s) ∧
  (∀ (p : Path) (w : Word) (s : State), s.takes p 0x05004 w.toNat = true → (s.booked p 0x05004 w.toNat).mayWrite p CAD_SRC.SCAN_SRC = true →
    ∃ b : State, b = s.booked p 0x05004 w.toNat ∧
      (CAD_SRC.SCAN_SRC.of w.toNat = b.get CAD_SRC.SCAN_SRC → CAD_SRC.MAINS_SRC.of w.toNat = b.get CAD_SRC.MAINS_SRC →
        exec (.cadSrcWrite p w) s = .next b) ∧
      (CAD_SRC.SCAN_SRC.of w.toNat = b.get CAD_SRC.SCAN_SRC → CAD_SRC.MAINS_SRC.of w.toNat ≠ b.get CAD_SRC.MAINS_SRC →
        CAD_SRC.MAINS_SRC.of w.toNat ∈ [0, 3, 4, 5] →
        ∃ u : State, Only [CAD_SRC.MAINS_SRC] b u ∧ u.get CAD_SRC.MAINS_SRC = CAD_SRC.MAINS_SRC.of w.toNat ∧
          exec (.cadSrcWrite p w) s = .next (u.selectSrc true).reviewTime))

/-- O29. A slice step, a packet calibration and a bank re-calibration end; a kind falls due; coefficients age. For one bank, with the line fitted to the
codes of its spare: a plausible result is taken and the spare takes the place of the oldest active slice; an implausible one counts a strike and
raises the refusal with bank, slice and quantity, and on the last strike the slice is parked, the parking raised and level 1 called. SLICE_STEP_DONE
at the end of a slice step does this for every bank that rotates, then counts the run, looks at the aged set and schedules on. For one column group: a
measured charge within 0.25 percent of the value in force and 2 percent of the baseline waits for the next pass of its tap and restarts its age, and
any other is raised and dropped. PKT_CAL_STEP_DONE does this for all 1 024 groups of its tap and resets the calibration rows. Without the step under
way both change nothing. CAL_KIND_DUE moves the freewheel counter on to the age of its kind. BANK_RECAL_DONE without a re-calibration changes nothing;
with one and no bank waiting it ends it. A bank with five slices within limits is restored, one with fewer than four has failed, and the slices within
limits take their coefficients (of a failed bank the model's choice, log entry 51). CAL_AGED stores the aged kinds, flags the open sweeps of aged
stopes and raises the event as the set grows from empty. -/
def Obligations.CalibrationStepsEnd : Prop :=
  (∀ (b : Nat) (r : SliceResult) (s : State),
    (s.implausible r = none → s.sliceBank b r = ((s.takeSlice r).rotate b, false)) ∧
    (∀ q, s.implausible r = some q → (s.bank b).strikes + 1 < s.get CAL_LIMIT.STRIKES →
      s.sliceBank b r = ((s.setBank b fun k => { k with strikes := k.strikes + 1 }).raise 0x0702 [b, (s.bank b).spare, q], true)) ∧
    (∀ q, s.implausible r = some q → s.get CAL_LIMIT.STRIKES ≤ (s.bank b).strikes + 1 →
      s.sliceBank b r = (((((s.setBank b fun k => { k with strikes := k.strikes + 1 }).raise 0x0702 [b, (s.bank b).spare, q]).setBank b
        fun k => { k with parked := (s.bank b).spare, recal := true }).raise 0x0703 [b, (s.bank b).spare]).callRecovery 0x0703 b 1 true false, true))) ∧
  (∀ (b : Nat) (s : State), ∃ t : State, t = s.rotate b ∧ (t.bank b).spare = s.oldestActive b ∧ (t.bank b).strikes = 0 ∧
    (t.bank b).active = (s.bank b).active.map (fun x => if x = s.oldestActive b then (s.bank b).spare else x) ∧
    (∀ k, k ≠ b → t.bank k = s.bank k) ∧ t = { s with cnv := { s.cnv with banks := t.cnv.banks } }) ∧
  (∀ (res : List SliceSample) (f : Nat) (s : State), s.cnv.step = some (1, f) →
    ∃ r : State × Bool, r = (List.range 2048).foldl (fun (a : State × Bool) b =>
        if (a.1.bank b).rotates = true then
          ((a.1.sliceBank b (match res.find? fun m => decide (m.bank = b) with
            | some m => a.1.fitSample { m with slice := (a.1.bank b).spare }
            | none => a.1.sliceNow b (a.1.bank b).spare)).1,
           a.2 || (a.1.sliceBank b (match res.find? fun m => decide (m.bank = b) with
            | some m => a.1.fitSample { m with slice := (a.1.bank b).spare }
            | none => a.1.sliceNow b (a.1.bank b).spare)).2)
        else a) ((s.advance (f + 192000)).reviewAged, false) ∧
      exec (.sliceStepDone res) s = .next (((r.1.stepRan 1 r.2).reviewAged).schedule)) ∧
  (∀ (res : List SliceSample) (s : State), s.cnv.step = none → exec (.sliceStepDone res) s = .next s) ∧
  (∀ (tap g q : Nat) (s : State), ∃ k : Nat, k = qpKey tap g ∧
    ((s.coef k : Int) * 399 ≤ q * 400 ∧ (q : Int) * 400 ≤ s.coef k * 401 ∧ (s.baseCoef k : Int) * 49 ≤ q * 50 ∧ (q : Int) * 50 ≤ s.baseCoef k * 51 →
      s.qpGroup tap g q = ((s.onArr fun a => { a with qpNext := Tbl.set 0 a.qpNext k (q + 1) }).setStamp k, false)) ∧
    ((q : Int) * 400 < s.coef k * 399 ∨ (s.coef k : Int) * 401 < q * 400 ∨ (q : Int) * 50 < s.baseCoef k * 49 ∨ (s.baseCoef k : Int) * 51 < q * 50 →
      s.qpGroup tap g q = (s.raise 0x0645 [g, tap, q], true))) ∧
  (∀ (res : List (Nat × Nat)) (kind f : Nat) (s : State), s.cnv.step = some (kind, f) → kind = 2 ∨ kind = 3 →
    ∃ r : State × Bool, r = (List.range 1024).foldl (fun (a : State × Bool) g =>
        ((a.1.qpGroup (kind - 2) g (match res.find? fun r => decide (r.1 = g) with
          | some r => r.2 % 2 ^ 24
          | none => a.1.coef (qpKey (kind - 2) g))).1,
         a.2 || (a.1.qpGroup (kind - 2) g (match res.find? fun r => decide (r.1 = g) with
          | some r => r.2 % 2 ^ 24
          | none => a.1.coef (qpKey (kind - 2) g))).2)) ((s.advance (f + 160000)).reviewAged, false) ∧
      exec (.pktCalStepDone res) s = .next ((((r.1.resetCalRows (kind - 2)).stepRan kind r.2).reviewAged).schedule)) ∧
  (∀ (res : List (Nat × Nat)) (s : State), s.cnv.step = none → exec (.pktCalStepDone res) s = .next s) ∧
  (∀ (kind : Nat) (s : State), 1 ≤ kind → kind ≤ 3 →
    exec (.calKindDue kind) s = .next (s.advance (s.lastStep kind + (if kind = 1 then s.get CAL_INT_SLICE.MS else s.get CAL_INT_PKT.MS) * 2000000))) ∧
  (∀ (res : List SliceSample) (s : State), s.cnv.recal = false → exec (.bankRecalDone res) s = .next s) ∧
  (∀ (res : List SliceSample) (code arg : Nat) (s : State), s.cnv.recal = true → s.cnv.banks = [] → s.saf.l1 = some (code, arg) → code = 0x0703 →
    ∃ u : State, Only [CNV_STATUS.DEGRADED_CNT] ({ ((s.advance (s.saf.since + 960000)).reviewAged) with
          cnv := { (s.advance (s.saf.since + 960000)).reviewAged.cnv with recal := false }, saf := { (s.advance (s.saf.since + 960000)).reviewAged.saf with bankFailed := false } }) u ∧
      u.get CNV_STATUS.DEGRADED_CNT = 0 ∧ exec (.bankRecalDone res) s = .next ((u.actionDone code arg).reviewAged).schedule) ∧
  (∀ (res : List SliceSample) (b : Nat) (s : State), ∃ (r : Nat → SliceResult) (good : List Nat) (t : State),
    (∀ sl, r sl = match res.find? fun m => decide (m.bank = b ∧ m.slice = sl) with
      | some m => s.fitSample m
      | none => s.sliceNow b sl) ∧ good = [0, 1, 2, 3, 4].filter (fun sl => s.nearBase (r sl)) ∧ t = good.foldl (fun t sl => t.takeSlice (r sl)) s ∧
    (good.length = 5 → s.recalBank b res =
      ((t.setBank b fun k => { k with parked := 7, strikes := 0, failed := false, degraded := false, recal := false }).raise 0x0705 [b], false)) ∧
    (good.length < 4 → s.recalBank b res =
      ((t.setBank b fun k => { k with failed := true, degraded := false, recal := false }).raise 0x0706 [b, good.length], true))) ∧
  (∀ s : State, ∃ (u v : State) (a : Nat), u = s.advance s.firstAging ∧ a = u.agedKinds ∧ v.get CAL_STATUS.AGED = a % 8 ∧
    v.eng.out = u.eng.out.map (fun o => if u.agedBanks o.stope = true then { o with cond := o.cond ||| 2 ^ cdAGED } else o) ∧
    Only [CAL_STATUS.AGED] ({ (u.spotFlag cdAGED u.agedBanks) with eng := { u.eng with out := v.eng.out } }) v ∧
    exec .calAged s = .next (if a = 0 ∨ s.cnv.wasAged = true then v.onCnv fun c => { c with wasAged := decide (a ≠ 0) }
      else (v.onCnv fun c => { c with wasAged := true }).raise 0x0802 [a, v.fwc]))

/-- O30. The maker's baseline, and the monitor converter: a conversion ends, RUN, the reference, the temperatures. With b the state after the bookkeeping
of the write, on a path that may write the fields and with BUSY 0: CAL_BASE_CAPTURE makes the working copy the values in force; CAL_BASE_VAL_WRITE
puts the low bits of the word at the selection of the working copy and leaves every other value; CAL_BASE_COMMIT starts a commit of the working copy
to the calibration area with BUSY 1 and the commit noted, or reports why the store refuses it. MONITOR_CONVERSION_DONE with a conversion of a channel
below 24 in progress, RUN 1 and no limit enabled stores the record of its code, shows it in the channel's MON_LAST, and starts the next entry of the
sequence; a record that finds room goes to the write pointer, which moves on by 8; the code against the bandgap is V G 16384 / (V_REF D), rounded and
held at 16383, and ground reads 0; with nothing in progress and the monitor stopped nothing changes. A write of MON_CTRL that clears RUN lets the
conversion in progress end the run; one that sets it starts at entry 0. MON_REF_SETTLED, while the monitor's domain runs and REF_SETTLED is 0, moves
the freewheel counter on to the end of the reference's settling time and sets REF_SETTLED; MON_TEMP_UPDATE after a conversion of its diode stores the
temperature on the line through the two trim points (a free value where they share a code) and the mean of the first three, rounded half to even (the
rounding is the model's choice, log entry 28). -/
def Obligations.BaselineAndMonitor : Prop :=
  (∀ (p : Path) (s : State), s.takes p 0x0804C 2 = true → (s.booked p 0x0804C 2).mayWrite p CAL_BASE_CMD.COMMIT = true →
    (s.booked p 0x0804C 2).on CAL_BASE_STATUS.BUSY = false →
    exec (.calBaseCapture p) s = .next ((s.booked p 0x0804C 2).onCnv fun c => { c with work := c.coef })) ∧
  (∀ (p : Path) (w : Word) (s : State), s.showBase.takes p 0x08048 w.toNat = true →
    ∃ b : State, b = s.showBase.booked p 0x08048 w.toNat ∧ (b.mayWrite p CAL_BASE_VAL.VAL = true → b.on CAL_BASE_STATUS.BUSY = false →
      ∃ t : State, exec (.calBaseValWrite p w) s = .next t ∧
        Tbl.get (coefNominal b.baseSel) t.cnv.work b.baseSel = w.toNat % 2 ^ coefWidth b.baseSel ∧
        (∀ d k, k ≠ b.baseSel → Tbl.get d t.cnv.work k = Tbl.get d b.cnv.work k) ∧ t = { b with cnv := { b.cnv with work := t.cnv.work } }) ∧
      (b.on CAL_BASE_STATUS.BUSY = true → exec (.calBaseValWrite p w) s = .next b)) ∧
  (∀ (p : Path) (s : State), s.takes p 0x0804C 1 = true → (s.booked p 0x0804C 1).mayWrite p CAL_BASE_CMD.COMMIT = true →
    (s.booked p 0x0804C 1).on CAL_BASE_STATUS.BUSY = false →
    ∃ b : State, b = s.booked p 0x0804C 1 ∧
      (b.storeRefuses = none → Tbl.get false b.nvs.worn (98 + 24 * (b.nextBank 2).1) = false → exec (.calBaseCommit p) s =
        .next (((b.startOp 1 2 (pathNo p) 3 b.cnv.work).set CAL_BASE_STATUS.BUSY 1).onCnv fun c => { c with commit := true })) ∧
      (∀ c, b.storeRefuses = some c → ∃ u : State, Only [NVS_STATUS.LAST_RESULT, CAL_BASE_STATUS.LAST_OK] b u ∧ u.get CAL_BASE_STATUS.LAST_OK = 0 ∧
        exec (.calBaseCommit p) s = .next (u.raise 0x0805 [c]))) ∧
  (∀ (uv vref : Nat) (err : Int) (s : State), s.mon.conv = none → s.on MON_CTRL.RUN = false → exec (.monitorConversionDone uv vref err) s = .next s) ∧
  (∀ (uv vref : Nat) (err : Int) (c : MonConv) (s : State), s.mon.conv = some c → c.chan < 24 → s.on (MON_LIM.EN c.entry) = false →
    s.on MON_CTRL.RUN = true → s.mon.stopping = false →
    ∃ (code : Nat) (u v : State), code = s.codeOf c uv vref err ∧ u = (s.advance (c.start + (c.samp + 44) * 40)).putRecordMon (monRecordOf c code false) ∧
      v = (((u.set (MON_LAST.VALID c.chan) 1).set (MON_LAST.REC c.chan) (ofLeBytes ((monRecordOf c code false).take 2))).onMon
        fun m => { m with conv := none }).startConv (if c.entry < s.mon.len then c.entry + 1 else 0) ∧
      exec (.monitorConversionDone uv vref err) s = .next v.pump) ∧
  (∀ (uv vref : Nat) (err : Int) (c : MonConv) (s : State), c.chan < 22 → c.chan ≠ 17 → c.ref = 0 →
    (2400000 * monDivider c.chan ≤ uv * 2 ^ c.gain → s.codeOf c uv vref err = 16383) ∧
    (err = 0 → uv * 2 ^ c.gain < 2400000 * monDivider c.chan →
      s.codeOf c uv vref err = min 16383 ((uv * 2 ^ c.gain * 16384 + 1200000 * monDivider c.chan) / (2400000 * monDivider c.chan)))) ∧
  (∀ (uv vref : Nat) (err : Int) (c : MonConv) (s : State), 24 ≤ c.chan → s.codeOf c uv vref err = 0) ∧
  (∀ (bytes : List Nat) (s : State), s.mon.full = false →
    s.get MON_BUF_WR.WR + 8 < 2 ^ s.get MON_BUF_CFG.LOG2SIZE → s.get MON_BUF_WR.WR + 8 < 2 ^ MON_BUF_WR.WR.width →
    ∃ t : State, t = s.putRecordMon bytes ∧ t.get MON_BUF_WR.WR = s.get MON_BUF_WR.WR + 8 ∧ t.get MON_BUF_RD.RD = s.get MON_BUF_RD.RD ∧
      (∀ i, i < 8 → Tbl.get 0 t.mon.sram (s.get MON_BUF_CFG.BASE + s.get MON_BUF_WR.WR + i) = bytes.getD i 0) ∧
      (∀ a, a < s.get MON_BUF_CFG.BASE + s.get MON_BUF_WR.WR ∨ s.get MON_BUF_CFG.BASE + s.get MON_BUF_WR.WR + 8 ≤ a →
        Tbl.get 0 t.mon.sram a = Tbl.get 0 s.mon.sram a) ∧
      Only [MON_BUF_WR.WR] ({ s with mon := { s.mon with sram := t.mon.sram, full := decide (s.get MON_BUF_WR.WR + 8 = s.get MON_BUF_RD.RD) } }) t) ∧
  (∀ (p : Path) (w : Word) (s : State), s.takes p 0x09000 w.toNat = true →
    ∃ b u : State, b = s.booked p 0x09000 w.toNat ∧ u = b.writeFields p 0x09000 w.toNat ∧
      (b.on MON_CTRL.RUN = true → u.on MON_CTRL.RUN = false →
        exec (.monCtrlRunWrite p w) s = .next (u.onMon fun m => { m with stopping := m.conv.isSome })) ∧
      (b.on MON_CTRL.RUN = false → u.on MON_CTRL.RUN = true → u.monitorRuns = true → u.mon.conv = none →
        exec (.monCtrlRunWrite p w) s = .next (u.startConv 0)) ∧
      (b.on MON_CTRL.RUN = u.on MON_CTRL.RUN → exec (.monCtrlRunWrite p w) s = .next u)) ∧
  (∀ s : State, s.monitorRuns = true →
    (s.on MON_STATUS.REF_SETTLED = false →
      exec .monRefSettled s = .next ((s.advance (s.mon.refAt + refSettle s.mon.ref)).set MON_STATUS.REF_SETTLED 1)) ∧
    (s.on MON_STATUS.REF_SETTLED = true → exec .monRefSettled s = .next s)) ∧
  (∀ (n : Nat) (s : State), n < 8 → s.monitorRuns = true → s.on (MON_LAST.VALID (9 + n)) = true →
    ∃ (r : Nat × State) (t : State), exec (.monTempUpdate n) s = .next t ∧
      (r = if (Config.diodeTrim n).2.1 = (Config.diodeTrim n).1.1 then s.free else
        (unsigned 16 ((Config.diodeTrim n).1.2 + roundHalfEven (((s.get (MON_LAST.REC (9 + n)) % 2 ^ 14 : Nat) - ((Config.diodeTrim n).1.1 : Int)) *
          ((Config.diodeTrim n).2.2 - (Config.diodeTrim n).1.2) * (((Config.diodeTrim n).2.1 : Int) - (Config.diodeTrim n).1.1).sign)
          (((Config.diodeTrim n).2.1 : Int) - (Config.diodeTrim n).1.1).natAbs), s)) ∧
      t.get (MON_TEMP.DEGC n) = r.1 % 2 ^ (MON_TEMP.DEGC n).width ∧
      Only [MON_TEMP.DEGC n, MON_TDIE.DEGC] r.2 t ∧ t.get MON_TDIE.DEGC = unsigned 16 (roundHalfEven
        (signed 16 (t.get (MON_TEMP.DEGC 0)) + signed 16 (t.get (MON_TEMP.DEGC 1)) + signed 16 (t.get (MON_TEMP.DEGC 2))) 3) % 2 ^ MON_TDIE.DEGC.width)

/-- O31. A sweep start that is due numbers the sweep, puts pending values and a validated table in force, and brings the power transition that waited for
it. While CADENCE stands SWEEP_START changes nothing, and nothing when no start is due and the scan tracker predicts none. A start that is due happens
at its count, with the number of the wall frame rounded down to a multiple of LOCK_N, after the sweep in CAD_SWEEP. The sweep that begins has that
number, no range transition and nothing raised yet. Values put in force are those in the registers, field by field, for every field of R80. A swap
makes the shadow table active and the active one the shadow, clears SHD_NEW and PENDING, stores the active length and raises the event. A CAPTURE that
waits in READY becomes CAPTURE with every counter of every node 0; a READY that waits in CAPTURE becomes READY. On the unit that holds tally 1, with
every condition of R141 met, MREQ starts: REQUESTING 1, LEAD_LEFT the lead, the command high at once, the event raised, and the sweep flagged while it
leads. -/
def Obligations.SweepStartsPutValuesInForce : Prop :=
  (∀ s : State, s.cadenceRuns = false → exec .sweepStart s = .next s) ∧
  (∀ s : State, s.cad.sweepDue = false → s.cad.scan.p = none ∨ s.cad.scan.taken = true → exec .sweepStart s = .next s) ∧
  (∀ s : State, s.cadenceRuns = true → s.cad.sweepDue = true →
    exec .sweepStart s = .next ((s.advance s.cad.dueAt).sweepEvent (s.cad.wall / s.lockN * s.lockN) (s.get CAD_SWEEP.SWEEP))) ∧
  (∀ (n : Nat) (s : State), ∃ u : State, u = s.freshSweep n ∧ u.get CAD_SWEEP.SWEEP = n % 2 ^ CAD_SWEEP.SWEEP.width ∧ u.get EXP_ARRAY_STATUS.RANGE_TRANS = 0 ∧
    u.cad.ptr = 0 ∧ u.cad.late = false ∧ u.cad.sweepAt = s.fwc ∧ u.eng.lostRaised = false ∧
    Only [EXP_ARRAY_STATUS.RANGE_TRANS, CAD_SWEEP.SWEEP] ({ s with cad := u.cad, eng := u.eng }) u) ∧
  (∀ (f : Field) (s : State), f ∈ pendingFields → (s.apply pendingFields).inForce f = s.get f) ∧
  (∀ (n : Nat) (s : State), ∃ u : State, u.cad.act = s.cad.shd ∧ u.cad.shd = s.cad.act ∧ u.get CAD_TBL_STATUS.SHD_NEW = 0 ∧ u.get CAD_TBL_STATUS.PENDING = 0 ∧
    u.get CAD_TBL_STATUS.ACTIVE_LEN = activeLen s.cad.shd % 2 ^ CAD_TBL_STATUS.ACTIVE_LEN.width ∧
    Only [CAD_TBL_STATUS.SHD_NEW, CAD_TBL_STATUS.PENDING, CAD_TBL_STATUS.ACTIVE_LEN] ({ s with cad := { s.cad with act := s.cad.shd, shd := s.cad.act } }) u ∧
    s.swapTables n = u.raise 0x0508 [n] ∧
    (s.on CAD_TBL_STATUS.PENDING = true → s.swapAtSweep n = (u.raise 0x0508 [n]).applyMode n) ∧
    (s.on CAD_TBL_STATUS.PENDING = false → s.swapAtSweep n = s)) ∧
  (∀ s : State,
    (s.get PWR_STATUS.PENDING = stCAPTURE → s.power = stREADY → s.get SAF_STATUS.LEVEL ≠ 2 →
      ∃ t : State, t = s.powerAtSweep ∧ t.get PWR_STATUS.STATE = stCAPTURE ∧ t.get PWR_STATUS.PENDING = 0 ∧ t.get PWR_STATUS.BUSY = 0 ∧ t.arr.counts = []) ∧
    (s.get PWR_STATUS.PENDING = stREADY → s.power = stCAPTURE →
      ∃ t : State, t = s.powerAtSweep ∧ t.get PWR_STATUS.STATE = stREADY ∧ t.get PWR_STATUS.PENDING = 0 ∧ t.get PWR_STATUS.BUSY = 0) ∧
    (s.get PWR_STATUS.PENDING = 0 → s.powerAtSweep = s)) ∧
  (∀ (n : Nat) (s : State), (s.get CHN_STATE.TALLY ≠ 1 → s.mreqSweep n = s) ∧
    (s.get CHN_STATE.TALLY = 1 → s.on EXP_MREQ_STATUS.REQUESTING = false → s.mreqFails = none → 0 < s.get EXP_MREQ_CTRL.LEAD →
      ∃ u : State, Only [EXP_MREQ_STATUS.REQUESTING, EXP_MREQ_STATUS.LEAD_LEFT] ({ s with cad := { s.cad with mreq := true }, saf := { s.saf with mreqRise := some s.fwc, mreqFall := none } }) u ∧
        u.get EXP_MREQ_STATUS.REQUESTING = 1 ∧ u.get EXP_MREQ_STATUS.LEAD_LEFT = s.get EXP_MREQ_CTRL.LEAD % 2 ^ EXP_MREQ_STATUS.LEAD_LEFT.width ∧
        (s.get EXP_MREQ_CTRL.LEAD < 16 → s.mreqSweep n = (u.raise 0x0606 [n]).flagSweep n cdNOREQ)))

/-- O32. A rate moves the anchor first; a step sets, jumps or slews; a slew ends or is accepted; time lapses. With b the state after the bookkeeping of a
write that is not ignored under R379. TIM_RATE_WRITE makes the anchor the present reported time and count and stores the rate; a host's write is noted
as discipline. TIM_STEP_COMMIT stores the high word and applies the step staged: any slew first ends; in UNSET or INVALID time is stepped, STATE
becomes VALID and the event is raised; otherwise a step within TIM_JUMP steps and raises its event, and a larger one starts a slew with STEP_REFUSED
and SLEWING 1 and raises its event; edges passed are skipped and the states of time looked at again. TIM_STEP_ACCEPT while slewing adds the remainder
at once and raises its event; while not slewing nothing changes. Every write of another than the foreman while the foreman disciplines a crew unit
only counts in HOST_IGN. TIME_SLEW_DONE ends the slew when the whole remainder is applied at PPM and raises the event. HOST_DISCIPLINE_LAPSE on tally
1 looks at time again HOST_S after the last write; TIME_INVALID after MAX_S of holdover makes STATE INVALID, raises the event and ends the pulses. -/
def Obligations.TimeIsRatedSteppedAndSlewed : Prop :=
  (∀ s : State, ∃ u : State, u = s.reanchor ∧ u.tim.anchor = s.timeNow ∧ u.tim.anchorFwc = s.fwc ∧ u = { s with tim := u.tim }) ∧
  (∀ (p : Path) (w : Word) (s : State), s.takes p 0x04024 w.toNat = true → ∃ b : State, b = s.booked p 0x04024 w.toNat ∧
    (b.hostIgnored p = true → exec (.timRateWrite p w) s = .next (b.bump TIM_ERRCNT1.HOST_IGN 1)) ∧
    (b.hostIgnored p = false → ∃ u : State, Only [TIM_RATE.ADJ] b.reanchor u ∧ u.get TIM_RATE.ADJ = w.toNat ∧
      exec (.timRateWrite p w) s = .next (if p = .foreman then u else u.onTim fun t => { t with lastHost := some b.fwc }).reviewTime)) ∧
  (∀ (p : Path) (w : Word) (s : State), s.takes p 0x04030 w.toNat = true → ∃ b u : State, b = s.booked p 0x04030 w.toNat ∧ Only [TIM_STEP2.NS] b u ∧
    u.get TIM_STEP2.NS = w.toNat ∧
    (b.hostIgnored p = true → exec (.timStepCommit p w) s = .next (b.bump TIM_ERRCNT1.HOST_IGN 1)) ∧
    (b.hostIgnored p = false →
      exec (.timStepCommit p w) s = .next ((if p = .foreman then u else u.onTim fun t => { t with lastHost := some b.fwc }).applyStep u.stepDelta))) ∧
  (∀ (x : Int) (s : State), ∃ a : State, a = s.dropSlew ∧ a.tim.slew = none ∧ a.on TIM_STATUS.SLEWING = false ∧
    (s.get TIM_STATUS.STATE = 0 ∨ s.get TIM_STATUS.STATE = 3 →
      ∃ u : State, Only [TIM_STATUS.STATE] (a.onTim fun t => { t with anchor := t.anchor + x }) u ∧ u.get TIM_STATUS.STATE = 1 ∧
        s.applyStep x = (u.raise 0x0401 [unsigned 80 x, s.fwc]).skipAll.reviewTime) ∧
    (s.get TIM_STATUS.STATE = 1 ∨ s.get TIM_STATUS.STATE = 2 → (x.natAbs : Int) ≤ (s.get TIM_JUMP.US : Int) * 1000 * 65536 →
      s.applyStep x = ((a.onTim fun t => { t with anchor := t.anchor + x }).raise 0x0402 [unsigned 80 x]).skipAll.reviewTime) ∧
    (s.get TIM_STATUS.STATE = 1 ∨ s.get TIM_STATUS.STATE = 2 → (s.get TIM_JUMP.US : Int) * 1000 * 65536 < (x.natAbs : Int) →
      ∃ u : State, Only [TIM_STATUS.STEP_REFUSED, TIM_STATUS.SLEWING] (a.onTim fun t => { t with slew := some (x, s.fwc) }) u ∧
        u.get TIM_STATUS.STEP_REFUSED = 1 ∧ u.get TIM_STATUS.SLEWING = 1 ∧
        s.applyStep x = (u.raise 0x0403 [unsigned 80 x, s.get TIM_JUMP.US]).skipAll.reviewTime)) ∧
  (∀ (p : Path) (w : Word) (s : State), TIM_STEP_CMD.ACCEPT.of w.toNat = 1 → s.takes p 0x04034 w.toNat = true →
    (s.booked p 0x04034 w.toNat).mayWrite p TIM_STEP_CMD.ACCEPT = true → ∃ b : State, b = s.booked p 0x04034 w.toNat ∧
    (b.hostIgnored p = true → exec (.timStepAccept p w) s = .next (b.bump TIM_ERRCNT1.HOST_IGN 1)) ∧
    (b.hostIgnored p = false → b.on TIM_STATUS.SLEWING = false → exec (.timStepAccept p w) s = .next b) ∧
    (b.hostIgnored p = false → b.on TIM_STATUS.SLEWING = true →
      exec (.timStepAccept p w) s = .next (((((b.dropSlew).onTim fun t => { t with anchor := t.anchor + b.slewLeft }).raise 0x0405
        [unsigned 80 b.slewLeft]).skipAll).reviewTime))) ∧
  (∀ (r : Int) (f : Nat) (s : State), s.tim.slew = some (r, f) → ∃ u,
    u = s.advance (f + (r.natAbs * 1000000 + (32768 * s.get TIM_SLEW.PPM - 1)) / (32768 * s.get TIM_SLEW.PPM)) ∧
    exec .timeSlewDone s = .next ((u.dropSlew.raise 0x0404 [u.fwc]).reviewTime)) ∧
  (∀ (f : Nat) (s : State), s.tim.lastHost = some f → s.get CHN_STATE.TALLY = 1 →
    exec .hostDisciplineLapse s = .next (s.advance (f + s.get TIM_HOLD.HOST_S * 2000000000)).reviewTime) ∧
  (∀ (f : Nat) (s : State), s.tim.holdAt = some f → s.get TIM_STATUS.STATE = 2 → s.get TIM_HOLD.MAX_S ≠ 0 →
    ∃ a u : State, a = s.advance (f + s.get TIM_HOLD.MAX_S * 2000000000) ∧ Only [TIM_STATUS.STATE] (a.onTim fun t => { t with holdAt := none }) u ∧
      u.get TIM_STATUS.STATE = 3 ∧ exec .timeInvalid s = .next ((u.raise 0x0408 [a.holdSeconds]).endPulses.reviewTime))

/-- O33. A pulse output is enabled with legal settings, rises at its edges and falls after its width. TP_ENABLE with EN 1 on a path that may write it: a
width below 10 ns gives RESULT 1, in periodic mode a period below 100 ns gives 2 and one below twice the width plus 20 ns gives 3; the output then
stays as it was. Else EN is 1, RESULT 0, MODE as written, and the next edge is the first one at least 1 microsecond ahead; once mode with a start
already passed raises TP_MISSED. With EN 0 the output ends at once. TPULSE_RISE at the edge that is due, with COARSE on the next CANARY cycle: while
time is VALID or HOLDOVER and the unit is in IDLE or above the output goes high until twice WIDTH ticks later, twice that in holdover or while the
origin holds over; the next edge is the following one in periodic mode and none in once mode. TPULSE_FALL takes a high output low at its fall. Without
an edge due, or low, nothing changes. -/
def Obligations.PulseOutputs : Prop :=
  (∀ (n : Nat) (m : Nat) (s : State), ∃ r : Nat, r = s.tpResult n m ∧ (s.get (TIM_TP_WIDTH.NS n) < 10 → r = 1) ∧
    (10 ≤ s.get (TIM_TP_WIDTH.NS n) → m = 1 → s.get (TIM_TP_PERIOD.NS n) < 100 → r = 2) ∧
    (10 ≤ s.get (TIM_TP_WIDTH.NS n) → m = 1 → 100 ≤ s.get (TIM_TP_PERIOD.NS n) → s.get (TIM_TP_PERIOD.NS n) < 2 * s.get (TIM_TP_WIDTH.NS n) + 20 → r = 3) ∧
    (10 ≤ s.get (TIM_TP_WIDTH.NS n) → m = 0 → r = 0)) ∧
  (∀ (p : Path) (n : Fin 4) (w : Word) (s : State), s.takes p (0x04100 + 32 * n.val) w.toNat = true →
    (s.booked p (0x04100 + 32 * n.val) w.toNat).mayWrite p (TIM_TP_CFG.EN n.val) = true →
    ∃ (b : State) (m : Nat), b = s.booked p (0x04100 + 32 * n.val) w.toNat ∧ m = (TIM_TP_CFG.MODE n.val).of w.toNat ∧
      ((TIM_TP_CFG.EN n.val).of w.toNat = 0 →
        ∃ t : State, exec (.tpEnable p n w) s = .next t ∧ t.get (TIM_TP_CFG.EN n.val) = 0 ∧ t.tpulse n.val = {} ∧ (∀ k, k ≠ n.val → t.tpulse k = b.tpulse k) ∧
          Only [TIM_TP_CFG.EN n.val, TIM_TP_CFG.MODE n.val] ({ b with tim := { b.tim with tp := t.tim.tp } }) t) ∧
      ((TIM_TP_CFG.EN n.val).of w.toNat = 1 → b.tpResult n.val m ≠ 0 →
        ∃ t : State, exec (.tpEnable p n w) s = .next t ∧ t.get (TIM_TP_CFG.RESULT n.val) = b.tpResult n.val m ∧ Only [TIM_TP_CFG.RESULT n.val] b t) ∧
      ((TIM_TP_CFG.EN n.val).of w.toNat = 1 → b.tpResult n.val m = 0 → b.on (TIM_TP_CFG.EN n.val) = false →
        ∃ t : State, (t.tpulse n.val).next = t.firstEdge n.val (t.timeNow + 1000 * 65536) ∧ t.get (TIM_TP_CFG.EN n.val) = 1 ∧ t.get (TIM_TP_CFG.RESULT n.val) = 0 ∧
          t.get (TIM_TP_CFG.MODE n.val) = m % 2 ^ (TIM_TP_CFG.MODE n.val).width ∧
          Only [TIM_TP_CFG.EN n.val, TIM_TP_CFG.MODE n.val, TIM_TP_CFG.RESULT n.val] ({ b with tim := { b.tim with tp := t.tim.tp } }) t ∧
          exec (.tpEnable p n w) s = .next (if m = 0 ∧ t.edgeTime n.val 0 ≤ t.timeNow then t.raise 0x040D [n.val] else t))) ∧
  (∀ (n : Fin 4) (k : Nat) (s : State), (s.tpulse n.val).next = some k →
    ∃ (c : Nat) (a t : State), c = (s.countAt (s.edgeTime n.val k)).toNat ∧
      a = s.advance (if s.coarse = true then s.fwc + (c - s.fwc + 79) / 80 * 80 else c) ∧ exec (.tpulseRise n) s = .next t ∧
      (t.tpulse n.val).next = (if s.on (TIM_TP_CFG.MODE n.val) then some (k + 1) else none) ∧
      (s.pulsesRun = true → (t.tpulse n.val).high = true ∧ (t.tpulse n.val).fall = a.fwc +
        (if s.get TIM_STATUS.STATE = 2 ∨ s.on TIM_STATUS.ORIGIN_HOLD = true then 4 else 2) * s.get (TIM_TP_WIDTH.NS n.val)) ∧
      (s.pulsesRun = false → (t.tpulse n.val).high = (s.tpulse n.val).high) ∧ (∀ j, j ≠ n.val → t.tpulse j = s.tpulse j) ∧
      t = { a with tim := { a.tim with tp := t.tim.tp } }) ∧
  (∀ (n : Fin 4) (s : State), (s.tpulse n.val).next = none → exec (.tpulseRise n) s = .next s) ∧
  (∀ (n : Fin 4) (s : State), (s.tpulse n.val).high = true →
    ∃ t : State, exec (.tpulseFall n) s = .next t ∧ (t.tpulse n.val).high = false ∧ (∀ j, j ≠ n.val → t.tpulse j = s.tpulse j) ∧
      t = { (s.advance (s.tpulse n.val).fall) with tim := { s.tim with tp := t.tim.tp } }) ∧
  (∀ (n : Fin 4) (s : State), (s.tpulse n.val).high = false → exec (.tpulseFall n) s = .next s)

/-- O34. Link delay exchanges, Sync and Follow_Up, and publications as they leave and arrive. A link delay exchange on an ACTIVE port takes the next
number, remembers the departure and sends the request; on another port nothing is sent. A request that arrives in time is answered with a response and
the turn-around of that unit; a response to the exchange under way has its arrival remembered; the information completes it with half of arrival minus
departure minus turn-around, plus the asymmetry (kept in halves of an eighth of a tick). A delay more than 2 ns (4 ticks) from the mean of those
accepted is counted and raised as an outlier and changes nothing else; else it joins the last eight, the register shows their mean, and DLY_OK is 1
from the eighth on. SYNC_SEND on a pithead that sends takes the next number and sends a Sync by each port; FOLLOW_UP_SEND sends the matching message
with each departure time. A Sync that arrives on a crew unit is passed on and remembered when its fields are right, and counted as dropped when not;
one that still waits for its Follow_Up is dropped then. A Follow_Up passes on with the path added, and a right pair is used; one without its Sync is
dropped alone, else both messages of a pair that is not used are dropped. Messages of another data type or channel count in TAG_DROP, those an
OFFSCHED frame brought in the port's TIME_DROP, and a Sync or Follow_Up of them as dropped too. CHAIN_TIME_LOST clears CHAIN_OK and raises the event.
PUBLISH_SEND on tally 1 sends what is published and takes it; PUBLISH passes on and is taken by a joined crew unit. -/
def Obligations.ChainTimeMessages : Prop :=
  (∀ (d : Bool) (f : Nat) (s : State), (s.portActive d = true →
      ∃ u : State, (u.delay d).seq = ((s.delay d).seq + 1) % 65536 ∧ (u.delay d).t1 = some f ∧ (u.delay d).t4 = none ∧ u.delay (!d) = s.delay (!d) ∧
        u = { (s.advance (f / 8)) with tim := u.tim } ∧ exec (.delayExchangeStart d f) s = .next (u.delayPacket d 0 (((s.delay d).seq + 1) % 65536) 0)) ∧
    (s.portActive d = false → exec (.delayExchangeStart d f) s = .next (s.advance (f / 8)))) ∧
  (∀ (d : Bool) (k : Packet) (a b : Nat) (s : State), ∃ v : State, v = (s.advance (a / 8)).setPort d (fun p => { p with stamps := p.stamps.drop 1 }) ∧
    (k.fits 0x33 = true → (s.port d).stamps.headD false = false → s.portActive d = true → k.at_ 0 1 = 0 →
      exec (.delayReq d k a b) s = .next ((v.delayPacket d 1 (k.at_ 2 2) 0).delayPacket d 2 (k.at_ 2 2) (unsigned 32 ((b : Int) - a)))) ∧
    (k.fits 0x33 = true → (s.port d).stamps.headD false = true → exec (.delayReq d k a b) s = .next (v.bump (LNK_ERRCNT1.TIME_DROP (px d)) 1)) ∧
    (k.fits 0x33 = false → exec (.delayReq d k a b) s = .next ((s.advance (a / 8)).bump CHN_ERRCNT1.TAG_DROP 1)) ∧
    (k.fits 0x33 = true → (s.port d).stamps.headD false = false → s.portActive d = true → k.at_ 0 1 = 1 → k.at_ 2 2 = (s.delay d).seq →
      (s.delay d).t1.isSome = true →
      ∃ t : State, exec (.delayResp d k a) s = .next t ∧ (t.delay d).t4 = some a ∧ (t.delay d).t1 = (s.delay d).t1 ∧ t = { v with tim := t.tim })) ∧
  (∀ (d : Bool) (k : Packet) (a b : Nat) (s : State), k.fits 0x33 = true → (s.port d).stamps.headD false = false → s.portActive d = true → k.at_ 0 1 = 2 →
    k.at_ 2 2 = (s.delay d).seq → (s.delay d).t1 = some a → (s.delay d).t4 = some b →
    exec (.delayInfo d k) s = .next (((s.setPort d fun p => { p with stamps := p.stamps.drop 1 }).setDelay d fun x => { x with t1 := none, t4 := none }).takeDelay d
      ((b : Int) - a - (k.at_ 4 4 : Int) + 2 * s.asym d))) ∧
  (∀ (d : Bool) (v : Int) (s : State), ∃ l : List Int, l = (s.delay d).last ∧
    (64 * l.length < (v * (l.length : Int) - l.foldl (· + ·) 0).natAbs →
      ∃ u : State, Only [TIM_ERRCNT1.DELAY_OUTLIER] s u ∧ s.takeDelay d v = u.raise 0x040C [px d, unsigned 32 (v / 2)]) ∧
    ((v * (l.length : Int) - l.foldl (· + ·) 0).natAbs ≤ 64 * l.length →
      ∃ t : State, t = s.takeDelay d v ∧ (t.delay d).last = (v :: l).take 8 ∧
        t.get (TIM_DELAY.DELAY (px d)) = unsigned 32 (meanOf ((v :: l).take 8)) ∧
        t.get (dlyOk d) = (if 7 ≤ (s.delay d).count then 1 else 0) ∧ Only [TIM_DELAY.DELAY (px d), dlyOk d] ({ s with tim := t.tim }) t)) ∧
  (∀ (a b : Nat) (s : State), (s.advance (max a b / 8)).sendsSync = true →
    ∃ u t : State, u = s.advance (max a b / 8) ∧ exec (.syncSend a b) s = .next t ∧ t.tim.syncSeq = (s.tim.syncSeq + 1) % 65536 ∧
      t.tim.syncOut = (s.portsTo 63).map (fun d => (px d, if d then b else a))) ∧
  (∀ (f : Nat) (s : State), s.tim.syncOut = [(0, f)] →
    exec .followUpSend s = .next ((s.sendOn false (s.packet 0x31 1 63 (s.ptpMessage true 0 ((s.tim.syncSeq + 65535) % 65536)
      (timeFrac (s.timeAt8 f)) (s.timeAt8 f)))).onTim fun x => { x with syncOut := [] })) ∧
  (∀ (d : Bool) (k : Packet) (a : Nat) (s : State), s.isPithead = false →
    ∃ u v : State, u = s.advance (a / 8) ∧ v = u.setPort d (fun p => { p with stamps := p.stamps.drop 1 }) ∧
      (k.fits 0x30 = false → exec (.sync d k a) s = .next (u.bump CHN_ERRCNT1.TAG_DROP 1)) ∧
      (k.fits 0x30 = true → (s.port d).stamps.headD false = true → exec (.sync d k a) s =
        .next (if s.isCrew = true then (v.bump (LNK_ERRCNT1.TIME_DROP (px d)) 1).dropSync 10 1 else v.bump (LNK_ERRCNT1.TIME_DROP (px d)) 1)) ∧
      (∀ w : State, w = (if (v.relay d k).tim.sync = none then v.relay d k
          else ((v.relay d k).onTim fun x => { x with sync := none }).dropSync 6 1) → k.fits 0x30 = true → (s.port d).stamps.headD false = false →
        (v.relay d k).isCrew = true →
        (w.messageFails false k.payload = none →
          exec (.sync d k a) s = .next (w.onTim fun x => { x with sync := some (px d, beAt k.payload 30 2, a) })) ∧
        (∀ c, w.messageFails false k.payload = some c → exec (.sync d k a) s = .next (w.dropSync c 1))) ∧
      (∀ w : State, w = (v.forwardFollow d k).put TIM_STATUS.ORIGIN_HOLD (!bit (beAt k.payload 7 1) 4) → k.fits 0x31 = true →
        (s.port d).stamps.headD false = false → (v.forwardFollow d k).isCrew = true →
        (∀ c, (v.forwardFollow d k).messageFails true k.payload = some c → exec (.followUp d k a) s = .next ((v.forwardFollow d k).dropSync c 1)) ∧
        ((v.forwardFollow d k).messageFails true k.payload = none →
          (w.pairFails d k.payload a = none → exec (.followUp d k a) s = .next (w.usePair d k.payload)) ∧
          (w.pairFails d k.payload a = some 6 → exec (.followUp d k a) s = .next (w.dropSync 6 1)) ∧
          (∀ c, w.pairFails d k.payload a = some c → c ≠ 6 →
            exec (.followUp d k a) s = .next ((w.onTim fun x => { x with sync := none }).dropSync c 2))))) ∧
  (∀ s : State, s.isPithead = false → s.on TIM_STATUS.CHAIN_OK = true →
    ∃ u v : State, u = s.advance (s.tim.pairAt + s.get TIM_HOLD.SYNC_LOSS * s.get TIM_SYNC.INTERVAL_MS * 2000000) ∧
      Only [TIM_STATUS.CHAIN_OK] (u.onTim fun x => { x with goodPairs := 0 }) v ∧ v.get TIM_STATUS.CHAIN_OK = 0 ∧
      exec .chainTimeLost s = .next ((v.raise 0x040A [1, u.fwc]).reviewTime)) ∧
  (∀ (m : Bool) (s : State), s.isPithead = true →
    (s.publication m = none → exec (.publishSend m) s = .next s) ∧
    (∀ fl b, s.publication m = some (fl, b) → exec (.publishSend m) s = .next ((s.sendCtl 0x32 1 63 (pubPayload m fl b)).takePub m b))) ∧
  (∀ (d : Bool) (k : Packet) (s : State), s.isPithead = false → k.fits 0x32 = true → (s.port d).stamps.headD false = false →
    ∃ v : State, v = (s.setPort d fun p => { p with stamps := p.stamps.drop 1 }).relay d k ∧
      exec (.publish d k) s = .next (if v.isCrew then v.takePub (decide (k.at_ 0 1 = 1)) (readPub k.payload v.fwc) else v))

/-- O35. What every packet row does before its own effect: data type, incarnation, address, and the M path to the other port. For each of the 21 packet
rows of ROLL_REPORT to EVENT, and every packet and port: a packet whose data type or channel is not the row's own changes only TAG_DROP, by one,
saturating; a packet of a superseded incarnation at the pithead goes the way of R317 (a ROLL_REPORT is heard all the same: the model's reading, log
entry 22); a packet for another unit only crosses; a broadcast does what the same packet addressed to the unit does, after it has crossed every unit
but the pithead. Crossing appends the packet, with the block from which it may leave, to the M path of the opposite port and changes nothing else
where that port is ACTIVE; where it is not, it counts one in PORT_DROP and changes no other register. A superseded packet counts one in SUPERSEDED; a
tally that is not declared dead, or one benched less than 1 ms ago, gets no more; otherwise BENCH goes out with the incarnation, the instant is kept
and the event is raised. -/
def Obligations.PacketsMeetThePorts : Prop :=
  (∀ r ∈ ([(0x04, .rollReport), (0x05, .grant), (0x06, .rollDoneReceive), (0x07, .bench), (0x08, .recover), (0x09, .stopes), (0x0A, .arm),
      (0x0B, .armAck), (0x0C, .commit), (0x0D, .cancel), (0x0E, .keyRefreshReq), (0x0F, .mirror), (0x10, .beat), (0x11, .sweepState),
      (0x12, .ringNotice), (0x18, .event), (0x20, .sweepHdr), (0x21, .key), (0x22, .delta), (0x23, .stat), (0x24, .aux)] :
      List (Nat × (Bool → Packet → Instr))),
    ∀ (d : Bool) (k : Packet) (s : State),
      (k.fits r.1 = false → ∃ t : State, exec (r.2 d k) s = .next t ∧ Only [CHN_ERRCNT1.TAG_DROP] s t ∧
        t.get CHN_ERRCNT1.TAG_DROP = min (2 ^ CHN_ERRCNT1.TAG_DROP.width - 1) (s.get CHN_ERRCNT1.TAG_DROP + 1)) ∧
      (k.fits r.1 = true → s.stale k = true → r.1 ≠ 0x04 → exec (r.2 d k) s = .next (s.supersede k.src k.inc)) ∧
      (k.fits r.1 = true → s.stale k = false ∨ r.1 = 0x04 → k.dst ≠ 63 → k.dst ≠ s.get CHN_STATE.TALLY → exec (r.2 d k) s = .next (s.cross d k)) ∧
      (k.fits r.1 = true → s.stale k = false ∨ r.1 = 0x04 → k.dst = 63 → s.get CHN_STATE.TALLY ≠ 63 →
        exec (r.2 d k) s = exec (r.2 d { k with dst := s.get CHN_STATE.TALLY }) (if s.get CHN_STATE.TALLY = 1 then s else s.cross d k))) ∧
  (∀ (d : Bool) (k : Packet) (s : State),
    (s.get (LNK_STATE.STATE (px (!d))) = 5 →
      s.cross d k = { s with chn := { s.chn with passed := (s.cross d k).chn.passed } } ∧
        Tbl.get [] (s.cross d k).chn.passed (px (!d)) = Tbl.get [] s.chn.passed (px (!d)) ++ [(k, (s.port (!d)).blocks + (s.port (!d)).depth)] ∧
        Tbl.get [] (s.cross d k).chn.passed (px d) = Tbl.get [] s.chn.passed (px d)) ∧
    (s.get (LNK_STATE.STATE (px (!d))) ≠ 5 → Only [CHN_ERRCNT4.PORT_DROP] s (s.cross d k) ∧
      (s.cross d k).get CHN_ERRCNT4.PORT_DROP = min (2 ^ CHN_ERRCNT4.PORT_DROP.width - 1) (s.get CHN_ERRCNT4.PORT_DROP + 1))) ∧
  (∀ (src inc : Nat) (s : State),
    ∃ u : State, Only [CHN_ERRCNT1.SUPERSEDED] s u ∧
      u.get CHN_ERRCNT1.SUPERSEDED = min (2 ^ CHN_ERRCNT1.SUPERSEDED.width - 1) (s.get CHN_ERRCNT1.SUPERSEDED + 1) ∧
      ((s.peer src).dead = false ∨ (∃ f : Nat, Tbl.get none s.chn.benchAt src = some f ∧ s.fwc < f + 2000000) → s.supersede src inc = u) ∧
      ((s.peer src).dead = true → Tbl.get none s.chn.benchAt src = none →
        ∃ v : State, v = { u with chn := v.chn } ∧ v.chn = { u.chn with benchAt := v.chn.benchAt } ∧ Tbl.get none v.chn.benchAt src = some s.fwc ∧
          s.supersede src inc = (v.sendCtl 0x07 0 src ([inc, 1] ++ zeroBytes 6)).raise 0x0B05 [src, inc]))

/-- O36. Roll calls: the token at a unit and at the pithead, its timeout, the reports, and the commands that start a call. (FULL_CALL and JOIN_CALL: with
settings in their widths.) ROLL at a unit other than the pithead: HOPS of the side it came from is its count plus one, the other 63, both BROKEN marks
clear, the pithead's serial is kept; a full call gives it the token's tally and makes it SOLO with incarnation and role 0, a join call leaves the
tally; a claimant stops; the token goes on by the other port with the next tally (up or down by its way) and the count, and ROLL_REPORT is sent. At
the pithead only its own token at port U on its way out counts: the ring is whole and the call ends when the reports are in. ROLL_TIMEOUT sends the
second token out of port U with tally 62 at 10 ms, and ends the call at 20 ms; without a call it changes nothing. ROLL_REPORT at the pithead in a full
call records serial, hops, priority, strap, power and gear of its tally; in a join call an unknown serial raises JOIN_REFUSED, a known one without its
grant is granted again. FULL_CALL and JOIN_CALL are taken on tally 1 alone; while a derailleur is ARMED they wait; a call that starts notes its
beginning and sends the token out of port D with tally 2, a full one with no other unit joined. JOIN_CALL_DELAY starts the join call 10 ms after its
notice, and without one changes nothing. -/
def Obligations.RollCallsRun : Prop :=
  (∀ (d : Bool) (k : Packet) (s : State), k.fits 0x03 = false →
    exec (.roll d k) s = .next (s.bump CHN_ERRCNT1.TAG_DROP 1)) ∧
  (∀ (d : Bool) (k : Packet) (s : State), k.fits 0x03 = true → s.get CHN_STATE.TALLY ≠ 1 →
    let way := bit (k.at_ 2 1) 1
    let next := k.at_ 0 1
    let hops := k.at_ 1 1 + 1
    let join := bit (k.at_ 2 1) 0
    ∃ u : State, exec (.roll d k) s = .next ((u.cross way { k with payload :=
        [if join then next else if way then next - 1 else next + 1, hops, k.at_ 2 1, 0] ++ k.payload.drop 4 }).sendReport) ∧
      Only [CHN_STATE.BROKEN_U, CHN_STATE.BROKEN_D, CHN_RING.HOPS_U, CHN_RING.HOPS_D, CHN_STATE.TALLY, CHN_STATE.INC, CHN_STATE.STATE, CHN_STATE.ROLE]
        { s with chn := u.chn } u ∧
      u.chn = { s.chn with heard := true, joinCall := join, pitheadSerial := k.at_ 8 8, claimAt := u.chn.claimAt } ∧
      u.get CHN_STATE.BROKEN_U = 0 ∧ u.get CHN_STATE.BROKEN_D = 0 ∧
      u.get CHN_RING.HOPS_U = (if way then 63 else hops % 2 ^ CHN_RING.HOPS_U.width) ∧ u.get CHN_RING.HOPS_D = (if way then hops % 2 ^ CHN_RING.HOPS_D.width else 63) ∧
      (join = false → u.get CHN_STATE.TALLY = next % 64 ∧ u.get CHN_STATE.INC = 0 ∧ u.get CHN_STATE.STATE = 0 ∧ u.get CHN_STATE.ROLE = 0) ∧
      (join = true → u.get CHN_STATE.TALLY = s.get CHN_STATE.TALLY ∧ u.get CHN_STATE.INC = s.get CHN_STATE.INC ∧ u.get CHN_STATE.ROLE = s.get CHN_STATE.ROLE ∧
        u.get CHN_STATE.STATE = (if s.get CHN_STATE.STATE = 1 then 0 else s.get CHN_STATE.STATE))) ∧
  (∀ (d : Bool) (k : Packet) (s : State), k.fits 0x03 = true → s.get CHN_STATE.TALLY = 1 →
    (∀ r : RollCall, d = false → k.at_ 8 8 = s.serial → bit (k.at_ 2 1) 1 = false → s.chn.roll = some r →
      ∃ u : State, u = s.onChn (fun c => { c with roll := some { r with expect := some (k.at_ 1 1), whole := true } }) ∧
        exec (.roll d k) s = .next (if k.at_ 1 1 ≤ r.reports then u.endCall else u)) ∧
    (d = true ∨ k.at_ 8 8 ≠ s.serial ∨ bit (k.at_ 2 1) 1 = true ∨ s.chn.roll = none → exec (.roll d k) s = .next s)) ∧
  (∀ s : State, s.chn.roll = none → exec .rollTimeout s = .next s) ∧
  (∀ (r : RollCall) (s : State), s.chn.roll = some r →
    (r.second = true ∨ r.expect.isSome = true → exec .rollTimeout s = .next ((s.advance (r.began + 40000000)).endCall)) ∧
    (r.second = false → r.expect = none →
      ∃ u : State, u = (s.advance (r.began + 20000000)).onChn (fun c => { c with roll := some { r with second := true } }) ∧
        exec .rollTimeout s = .next (u.sendOn false (u.packet 0x03 0 63 ([62, 0, ofBool r.join + 2, 0] ++ zeroBytes 4 ++ leBytes s.serial 8))))) ∧
  (∀ (d : Bool) (k : Packet) (r : RollCall) (s : State), k.fits 0x04 = true → k.dst = 1 → s.get CHN_STATE.TALLY = 1 → s.chn.roll = some r →
    ∃ u : State, exec (.rollReport d k) s = .next u.reviewCall ∧
      (r.join = false → u = { s with chn := u.chn } ∧ u.chn = { s.chn with roll := some { r with reports := r.reports + 1 }, peers := u.chn.peers } ∧
        (∀ g : Nat, g ≠ k.at_ 8 1 % 64 → u.peer g = s.peer g) ∧
        u.peer (k.at_ 8 1 % 64) = { s.peer (k.at_ 8 1 % 64) with
          serial := k.at_ 0 8, hopsU := k.at_ 9 1, hopsD := k.at_ 10 1, strap := bit (k.at_ 11 1) 0, priority := k.at_ 11 1 / 16, power := k.at_ 12 1
          gear := k.at_ 14 2, reported := true }) ∧
      (r.join = true → (∀ e ∈ s.chn.peers, 2 ≤ e.1 → e.2.serial ≠ k.at_ 0 8) →
        u = (s.onChn fun c => { c with roll := some { r with reports := r.reports + 1 } }).raise 0x0B03 [k.at_ 0 8])) ∧
  (∀ (d : Bool) (k : Packet) (s : State), k.fits 0x04 = true → k.dst = s.get CHN_STATE.TALLY → k.dst ≠ 63 →
    (s.chn.roll = none ∨ s.get CHN_STATE.TALLY ≠ 1) → exec (.rollReport d k) s = .next s) ∧
  (∀ (p : Path) (s : State), s.chnCtrlWord < 2 ^ 30 → s.takes p 0x0B000 (2 ^ 31 + s.chnCtrlWord) = true →
    ∃ b : State, b = (s.booked p 0x0B000 (2 ^ 31 + s.chnCtrlWord)).writeFields p 0x0B000 (2 ^ 31 + s.chnCtrlWord) ∧
      (b.mayWrite p CHN_CTRL.FULL_CALL = true → b.get CHN_STATE.TALLY = 1 →
        (b.get CHN_DRL_STATUS.STATE = 1 → exec (.chnFullCall p) s = .next (b.onChn fun c => { c with waitingCall := 1 })) ∧
        (b.get CHN_DRL_STATUS.STATE ≠ 1 → b.power ≠ stCAPTURE → exec (.chnFullCall p) s = .next (b.startCall false)) ∧
        (b.get CHN_DRL_STATUS.STATE ≠ 1 → b.power = stCAPTURE →
          exec (.chnFullCall p) s = .next ((b.callRecovery 0x0B02 0 3 false false).startCall false))) ∧
      (b.mayWrite p CHN_CTRL.FULL_CALL = true → b.get CHN_STATE.TALLY ≠ 1 → exec (.chnFullCall p) s = .next b)) ∧
  (∀ (p : Path) (s : State), s.chnCtrlWord < 2 ^ 30 → s.takes p 0x0B000 (2 ^ 30 + s.chnCtrlWord) = true →
    ∃ b : State, b = (s.booked p 0x0B000 (2 ^ 30 + s.chnCtrlWord)).writeFields p 0x0B000 (2 ^ 30 + s.chnCtrlWord) ∧
      (b.mayWrite p CHN_CTRL.JOIN_CALL = true → b.get CHN_STATE.TALLY = 1 →
        (b.get CHN_DRL_STATUS.STATE ≠ 1 → exec (.chnJoinCall p) s = .next (b.startCall true)) ∧
        (b.get CHN_DRL_STATUS.STATE = 1 → b.chn.waitingCall = 0 → exec (.chnJoinCall p) s = .next (b.onChn fun c => { c with waitingCall := 2 }))) ∧
      (b.mayWrite p CHN_CTRL.JOIN_CALL = true → b.get CHN_STATE.TALLY ≠ 1 → exec (.chnJoinCall p) s = .next b)) ∧
  (∀ s : State, (∀ j : Bool, s.chn.roll.isSome = true → s.startCall j = s) ∧
    (s.chn.roll = none → s.startCall true = (s.onChn fun c => { c with
        peers := c.peers.map (fun e => (e.1, { e.2 with reported := false })), roll := some ⟨true, false, s.fwc, none, 0, false⟩ }).sendOn true
          (s.packet 0x03 0 63 ([2, 0, 1, 0] ++ zeroBytes 4 ++ leBytes s.serial 8))) ∧
    (s.chn.roll = none → ∃ t : State, t = s.startCall false ∧ t.chn.roll = some ⟨false, false, s.fwc, none, 0, false⟩ ∧
      t.get (CHN_JOINED.MAP 0) = 2 ∧ t.get (CHN_JOINED.MAP 1) = 0 ∧ t.get CHN_RING.UNITS = 1)) ∧
  (∀ s : State, (s.chn.joinAt = none → exec .joinCallDelay s = .next s) ∧
    ∀ f : Nat, s.chn.joinAt = some f →
      exec .joinCallDelay s = .next (((s.advance (f + 20000000)).onChn fun c => { c with joinAt := none }).wantCall true))

/-- O37. GRANT and ROLL_DONE at a unit, claims between claimants and a standing pithead, and the election. A GRANT with the unit's serial gives it the
tally, incarnation and role it carries and makes it JOINED; one with another serial changes nothing. ROLL_DONE sets UNITS, WHOLE, BREAK_AFTER and the
standby, gives a joined unit role 1 or 0 as it is the standby, and in a whole ring sets the hop count that is unknown to UNITS less the other, after a
join call to that and a free number of units refused (log entry 56). A CLAIM of the unit's own is absorbed; another's crosses, and then: a pithead
answers a claim without STANDING with its own standing one; a standing claim stops a claimant, which raises LATE_CLAIM, and its serial is kept; a
better claim (higher PRIORITY, then lower serial) makes a claimant SOLO; a worse one changes nothing more. CLAIM_INTERVAL sends a claimant's CLAIM and
does nothing else in other states. ELECTION_TIMEOUT of a claimant, ELECT_MS after its first claim: it takes tally 1 with the next incarnation, role 2,
state PITHEAD, raises the event with serial and priority and starts a full roll call; with no election running nothing changes. -/
def Obligations.UnitsAreGrantedAndElected : Prop :=
  (∀ (d : Bool) (k : Packet) (s : State), k.fits 0x05 = true → k.dst = s.get CHN_STATE.TALLY → k.dst ≠ 63 → s.stale k = false → s.get CHN_STATE.TALLY ≠ 1 →
    (k.at_ 0 8 ≠ s.serial → exec (.grant d k) s = .next s) ∧
    (k.at_ 0 8 = s.serial → ∃ u : State, exec (.grant d k) s = .next u.reviewTime ∧
      Only [CHN_STATE.TALLY, CHN_STATE.INC, CHN_STATE.ROLE, CHN_STATE.STATE] { s with chn := u.chn, cad := u.cad } u ∧
      u.get CHN_STATE.TALLY = k.at_ 8 1 % 64 ∧ u.get CHN_STATE.INC = k.at_ 9 1 % 256 ∧ u.get CHN_STATE.ROLE = min 1 (k.at_ 10 1) ∧ u.get CHN_STATE.STATE = 2 ∧
      u.chn = { s.chn with rejoin := false, beatMissed := 0, beatSeen := true, claimAt := none, heard := true } ∧
      u.cad = { s.cad with everJoined := true, published := false })) ∧
  (∀ (d : Bool) (k : Packet) (s : State), k.fits 0x06 = true → k.dst = s.get CHN_STATE.TALLY → k.dst ≠ 63 → s.get CHN_STATE.TALLY ≠ 1 →
    ∃ (r : Nat × State) (t : State), r = (if k.at_ 1 1 % 2 = 1 ∧ s.chn.joinCall = true then s.free else (0, s)) ∧
      exec (.rollDoneReceive d k) s = .next t ∧ t.get CHN_RING.UNITS = k.at_ 0 1 % 2 ^ CHN_RING.UNITS.width ∧ t.get CHN_RING.WHOLE = k.at_ 1 1 % 2 ∧
      t.get CHN_RING.BREAK_AFTER = k.at_ 2 1 % 2 ^ CHN_RING.BREAK_AFTER.width ∧ t.chn = { s.chn with standby := k.at_ 3 1 } ∧
      Only [CHN_RING.UNITS, CHN_RING.WHOLE, CHN_RING.BREAK_AFTER, CHN_RING.HOPS_U, CHN_RING.HOPS_D, CHN_STATE.ROLE] { r.2 with chn := t.chn } t ∧
      (s.get CHN_STATE.STATE = 2 ∨ s.get CHN_STATE.STATE = 3 → t.get CHN_STATE.ROLE = if s.get CHN_STATE.TALLY = k.at_ 3 1 then 1 else 0) ∧
      (s.get CHN_STATE.STATE ≠ 2 → s.get CHN_STATE.STATE ≠ 3 → t.get CHN_STATE.ROLE = s.get CHN_STATE.ROLE) ∧
      (k.at_ 1 1 % 2 = 0 → t.get CHN_RING.HOPS_U = s.get CHN_RING.HOPS_U ∧ t.get CHN_RING.HOPS_D = s.get CHN_RING.HOPS_D) ∧
      (k.at_ 1 1 % 2 = 1 → s.get CHN_RING.HOPS_U < 63 →
        t.get CHN_RING.HOPS_U = s.get CHN_RING.HOPS_U ∧ t.get CHN_RING.HOPS_D = (k.at_ 0 1 + r.1 - s.get CHN_RING.HOPS_U) % 2 ^ CHN_RING.HOPS_D.width) ∧
      (k.at_ 1 1 % 2 = 1 → s.get CHN_RING.HOPS_U = 63 → s.get CHN_RING.HOPS_D < 63 →
        t.get CHN_RING.HOPS_D = s.get CHN_RING.HOPS_D ∧ t.get CHN_RING.HOPS_U = (k.at_ 0 1 + r.1 - s.get CHN_RING.HOPS_D) % 2 ^ CHN_RING.HOPS_U.width)) ∧
  (∀ (d : Bool) (k : Packet) (s : State), k.fits 0x01 = true →
    let serial := k.at_ 0 8
    let standing := bit (k.at_ 9 1) 0
    (serial = s.serial → exec (.claim d k) s = .next s) ∧
    (serial ≠ s.serial →
      (s.get CHN_STATE.TALLY = 1 → standing = false → exec (.claim d k) s = .next ((s.cross d k).sendClaim true)) ∧
      (s.get CHN_STATE.TALLY = 1 → standing = true → exec (.claim d k) s = .next (s.cross d k)) ∧
      (s.get CHN_STATE.TALLY ≠ 1 → standing = true →
        ∃ t : State, t = (s.cross d k).onChn (fun c => { c with heard := true, pitheadSerial := serial }) ∧
          (s.get CHN_STATE.STATE ≠ 1 → exec (.claim d k) s = .next t) ∧
          (s.get CHN_STATE.STATE = 1 → exec (.claim d k) s = .next (((t.set CHN_STATE.STATE 0).onChn fun c => { c with claimAt := none }).raise 0x0B12 [serial]))) ∧
      (s.get CHN_STATE.TALLY ≠ 1 → standing = false → s.get CHN_STATE.STATE = 1 →
        s.get CHN_CTRL.PRIORITY < k.at_ 8 1 % 16 ∨ (k.at_ 8 1 % 16 = s.get CHN_CTRL.PRIORITY ∧ serial < s.serial) →
        exec (.claim d k) s = .next (((s.cross d k).set CHN_STATE.STATE 0).onChn fun c => { c with claimAt := none })) ∧
      (s.get CHN_STATE.TALLY ≠ 1 → standing = false → s.get CHN_STATE.STATE ≠ 1 ∨ k.at_ 8 1 % 16 < s.get CHN_CTRL.PRIORITY ∨
        (k.at_ 8 1 % 16 = s.get CHN_CTRL.PRIORITY ∧ s.serial < serial) → exec (.claim d k) s = .next (s.cross d k)))) ∧
  (∀ s : State, (s.get CHN_STATE.STATE = 1 →
      exec .claimInterval s = .next (s.sendCtl 0x01 0 63 (leBytes s.serial 8 ++ [s.get CHN_CTRL.PRIORITY, 0] ++ zeroBytes 6))) ∧
    (s.get CHN_STATE.STATE ≠ 1 → exec .claimInterval s = .next s)) ∧
  (∀ s : State, s.chn.claimAt = none ∨ s.get CHN_STATE.STATE ≠ 1 → exec .electionTimeout s = .next s) ∧
  (∀ (f : Nat) (s : State), s.chn.claimAt = some f → s.get CHN_STATE.STATE = 1 →
    ∃ u : State, u = (s.advance (f + s.get CHN_CTRL.ELECT_MS * 2000000)).takeHead ∧
      exec .electionTimeout s = .next ((u.raise 0x0B01 [s.serial, s.get CHN_CTRL.PRIORITY]).fullCall)) ∧
  (∀ s : State, ∃ u : State, s.takeHead = u.reviewTime.reviewMreq.startRings ∧
    Only [CHN_STATE.TALLY, CHN_STATE.INC, CHN_STATE.STATE, CHN_STATE.ROLE, CHN_RING.HOPS_U, CHN_RING.HOPS_D, CHN_RING.UNITS, CHN_JOINED.MAP 0, CHN_JOINED.MAP 1]
      { s with chn := u.chn, cad := u.cad } u ∧
    u.get CHN_STATE.TALLY = 1 ∧ u.get CHN_STATE.STATE = 4 ∧ u.get CHN_STATE.ROLE = 2 ∧ u.get CHN_STATE.INC = (Tbl.get 0 s.chn.incs 1 % 255 + 1) % 256 ∧
    u.get CHN_RING.UNITS = 1 ∧ u.get (CHN_JOINED.MAP 0) = 2 ∧ u.get (CHN_JOINED.MAP 1) = 0 ∧ (u.peer 1).serial = s.serial ∧ (u.peer 1).joined = true)

/-- O38. GO at the pithead, ARM, ARM_ACK, COMMIT, CANCEL, STOPES and MIRROR at a unit, and the entries of the next bank. GO_GEAR and GO_ASSIGN keep AHEAD;
outside tally 1 they do no more; while a derailleur is not idle or outside CAPTURE RESULT is 5; a next bank in which two entries own one slot gives
RESULT 6; otherwise the derailleur begins. The smallest multiple of m at or above n is a multiple of m, at least n, and less than n + m. STOPES keeps
its epoch and mask. ARM at a joined crew unit is validated (5 for epochs that do not succeed, 4 in a recovery, 0 with nothing pending), a refused
table or mode is reported as at a swap, and the ARM is kept with its result and acknowledged with number, result and detail; elsewhere it does
nothing. ARM_ACK of the present number at the pithead with an ARMED derailleur: result 0 marks the tally; any other ends it with RESULT 2, the tally
and result kept, CANCEL sent. COMMIT of the number the unit acknowledged with 0 keeps its sweep K; any other changes nothing. CANCEL of the number
drops the ARM, the COMMIT and the mask. MIRROR is kept by a standby alone. CHN_ASG_HI writes the selected entry of the next bank from the staged
words; CLEAR empties the next bank, COPY makes it the bank in force; all three change nothing while the bank is frozen. -/
def Obligations.DerailleurRuns : Prop :=
  (∀ (a : Bool) (p : Path) (s : State),
    let w := (if a then 2 else 1) + s.get CHN_DRL_CMD.AHEAD * 256
    s.takes p 0x0B014 w = true →
    ∃ b : State, b = (s.booked p 0x0B014 w).writeFields p 0x0B014 w ∧
      (b.get CHN_STATE.TALLY ≠ 1 → exec (if a then .goAssign p else .goGear p) s = .next b) ∧
      (b.get CHN_STATE.TALLY = 1 → b.mayWrite p CHN_DRL_CMD.GO_GEAR = true → b.mayWrite p CHN_DRL_CMD.GO_ASSIGN = true →
        (b.get CHN_DRL_STATUS.STATE ≠ 0 ∨ b.power ≠ stCAPTURE → exec (if a then .goAssign p else .goGear p) s = .next (b.set CHN_DRL_STATUS.RESULT 5)) ∧
        (b.get CHN_DRL_STATUS.STATE = 0 → b.power = stCAPTURE →
          (slotTwice b.chn.next = true → exec (if a then .goAssign p else .goGear p) s = .next (b.set CHN_DRL_STATUS.RESULT 6)) ∧
          (a = true → slotTwice b.chn.next = false → exec (.goAssign p) s = .next (b.beginDerail false true)) ∧
          (a = false → slotTwice b.chn.next = false → exec (.goGear p) s = .next (b.beginDerail true false))))) ∧
  (∀ m n : Nat, 0 < m → m ∣ multipleFrom m n ∧ n ≤ multipleFrom m n ∧ multipleFrom m n < n + m) ∧
  (∀ (d : Bool) (k : Packet) (s : State), k.fits 0x09 = true → k.dst = s.get CHN_STATE.TALLY → k.dst ≠ 63 → s.stale k = false →
    exec (.stopes d k) s = .next (s.onChn fun c => { c with stopes := some (k.at_ 0 2, ofLeBytes ((k.payload.drop 4).take 32)) })) ∧
  (∀ (d : Bool) (k : Packet) (s : State), k.fits 0x0A = true → k.dst = s.get CHN_STATE.TALLY → k.dst ≠ 63 → s.stale k = false →
    (s.isCrew = false → exec (.arm d k) s = .next s) ∧
    (s.isCrew = true → ∃ (r : Nat × Nat × Nat) (v u : State),
      r = s.armResult (k.at_ 0 2) (k.at_ 2 2) (bit (k.at_ 9 1) 0) (bit (k.at_ 9 1) 1) ∧
      v = (if r.1 = 1 then s.refuseTable r.2 else if r.1 = 2 then s.refuseMode r.2 else s) ∧
      u = v.onChn (fun c => { c with armed := some ⟨k.at_ 8 1, k.at_ 0 2, k.at_ 2 2, k.at_ 4 4, bit (k.at_ 9 1) 0, bit (k.at_ 9 1) 1, r.1⟩ }) ∧
      exec (.arm d k) s = .next (u.sendCtl 0x0B 0 1 ([k.at_ 8 1, r.1] ++ leBytes r.2.1 2 ++ zeroBytes 4)))) ∧
  (∀ (gear assign : Nat) (g a : Bool) (s : State),
    (s.successors gear assign g a = false → s.armResult gear assign g a = (5, 0, 0)) ∧
    (s.successors gear assign g a = true → s.get SAF_STATUS.LEVEL ≠ 0 → s.armResult gear assign g a = (4, 0, 0)) ∧
    (s.successors gear assign g a = true → s.get SAF_STATUS.LEVEL = 0 → a = false → s.gearPending = false → s.armResult gear assign g a = (0, 0, 0))) ∧
  (∀ (d : Bool) (k : Packet) (x : Derail) (s : State), k.fits 0x0B = true → k.dst = 1 → s.get CHN_STATE.TALLY = 1 → s.stale k = false →
    k.at_ 0 1 = s.get CHN_DRL_STATUS.NUMBER → s.get CHN_DRL_STATUS.STATE = 1 → s.chn.drl = some x →
    (k.at_ 1 1 = 0 → k.src < 64 → ∃ t : State, exec (.armAck d k) s = .next t ∧ Only [CHN_ACKED.MAP (k.src / 32)] s t ∧
      t.get (CHN_ACKED.MAP (k.src / 32)) = setBit (s.get (CHN_ACKED.MAP (k.src / 32))) (k.src % 32) true % 2 ^ 32) ∧
    (k.at_ 1 1 ≠ 0 → ∃ u v : State, u = (s.set CHN_DRL_STATUS.NACK_TALLY k.src).set CHN_DRL_STATUS.NACK_RESULT (k.at_ 1 1) ∧
      v = u.sendCtl 0x0D 0 63 ([u.get CHN_DRL_STATUS.NUMBER, 0, 0, 0] ++ leBytes x.k 4) ∧
      exec (.armAck d k) s = .next ((((v.set CHN_DRL_STATUS.STATE 0).set CHN_DRL_STATUS.RESULT 2).onChn fun c =>
        { c with drl := none, armed := none, stopes := none }).raise 0x0B0A [2, k.src]))) ∧
  (∀ (d : Bool) (k : Packet) (s : State), k.fits 0x0B = true → k.dst = s.get CHN_STATE.TALLY → k.dst ≠ 63 → s.stale k = false →
    s.get CHN_STATE.TALLY ≠ 1 ∨ k.at_ 0 1 ≠ s.get CHN_DRL_STATUS.NUMBER ∨ s.get CHN_DRL_STATUS.STATE ≠ 1 → exec (.armAck d k) s = .next s) ∧
  (∀ (d : Bool) (k : Packet) (s : State), k.fits 0x0C = true → k.dst = s.get CHN_STATE.TALLY → k.dst ≠ 63 → s.get CHN_STATE.TALLY ≠ 1 →
    (s.chn.armed = none → exec (.commit d k) s = .next s) ∧
    ∀ a : Armed, s.chn.armed = some a →
      (a.number = k.at_ 0 1 → a.result = 0 → exec (.commit d k) s = .next (s.onChn fun c => { c with commit := some (k.at_ 4 4) })) ∧
      (a.number ≠ k.at_ 0 1 ∨ a.result ≠ 0 → exec (.commit d k) s = .next s)) ∧
  (∀ (d : Bool) (k : Packet) (s : State), k.fits 0x0D = true → k.dst = s.get CHN_STATE.TALLY → k.dst ≠ 63 → s.get CHN_STATE.TALLY ≠ 1 →
    (s.chn.armed = none → exec (.cancel d k) s = .next s) ∧
    ∀ a : Armed, s.chn.armed = some a →
      (a.number = k.at_ 0 1 → exec (.cancel d k) s = .next (s.onChn fun c => { c with armed := none, commit := none, stopes := none })) ∧
      (a.number ≠ k.at_ 0 1 → exec (.cancel d k) s = .next s)) ∧
  (∀ (d : Bool) (k : Packet) (s : State), k.fits 0x0F = true → k.dst = s.get CHN_STATE.TALLY → k.dst ≠ 63 → s.stale k = false →
    exec (.mirror d k) s = .next (if s.get CHN_STATE.ROLE = 1 then s.onChn fun c => { c with mirror := k.payload } else s)) ∧
  (∀ (p : Path) (w : Word) (s : State), s.takes p 0x0B03C w.toNat = true →
    ∃ b : State, b = s.booked p 0x0B03C w.toNat ∧
      (b.mayWrite p CHN_ASG_HI.VALID = true → b.on CHN_ASG_SEL.BANK = true → b.bankFrozen = false →
        ∃ t : State, exec (.chnAsgHiWrite p w) s = .next t ∧ t = { b with chn := { b.chn with next := t.chn.next } } ∧
          (∀ g : Nat, g ≠ asgKey (b.get CHN_ASG_SEL.TALLY) (b.get CHN_ASG_SEL.STOPE) → Tbl.get {} t.chn.next g = Tbl.get {} b.chn.next g) ∧
          Tbl.get {} t.chn.next (asgKey (b.get CHN_ASG_SEL.TALLY) (b.get CHN_ASG_SEL.STOPE)) =
            ⟨bit w.toNat 31, b.chn.stageLo, CHN_ASG_HI.OWN_HI.of w.toNat, b.chn.stageBase⟩) ∧
      (b.mayWrite p CHN_ASG_HI.VALID = false ∨ b.on CHN_ASG_SEL.BANK = false ∨ b.bankFrozen = true → exec (.chnAsgHiWrite p w) s = .next b)) ∧
  (∀ (p : Path) (s : State), s.takes p 0x0B040 1 = true →
    ∃ b : State, b = s.booked p 0x0B040 1 ∧
      (b.mayWrite p CHN_ASG_CMD.COPY = true → b.bankFrozen = false → exec (.chnAsgClear p) s = .next (b.onChn fun c => { c with next := [] })) ∧
      (b.mayWrite p CHN_ASG_CMD.COPY = false ∨ b.bankFrozen = true → exec (.chnAsgClear p) s = .next b)) ∧
  (∀ (p : Path) (s : State), s.takes p 0x0B040 2 = true →
    ∃ b : State, b = s.booked p 0x0B040 2 ∧
      (b.mayWrite p CHN_ASG_CMD.COPY = true → b.bankFrozen = false → exec (.chnAsgCopy p) s = .next (b.onChn fun c => { c with next := c.bank })) ∧
      (b.mayWrite p CHN_ASG_CMD.COPY = false ∨ b.bankFrozen = true → exec (.chnAsgCopy p) s = .next b))

/-- O39. BEAT and its window, BENCH, RECOVER, RING_NOTICE, SWEEP_STATE and EVENT. The pithead's BEAT at a unit makes an ORPHAN JOINED again and clears the
missed count; at a joined crew unit level 3 holds it with the chain and level 0 ends that hold. A BEAT at the pithead of a tally not joined changes
nothing; of a joined one without REJOIN, outside a chain restart, it clears its missed count, keeps power and gear and marks it heard. BEAT_WINDOW
moves to the next whole millisecond; a unit that is SOLO or claiming, that boots or is held by SYSRST_N does no more; a JOINED or ORPHAN unit sends
its BEAT and counts the window. A counted window with the pithead's BEAT resets the count; DEAD_THRESH windows without it make a JOINED unit of role 0
an ORPHAN with its event. BENCH for the unit's incarnation benches it, for another does nothing; benching outside READY, CAPTURE and HOLD clears
tally, incarnation, role and state and looks at time and MREQ again. RECOVER of level 2 calls an L2; of another level nothing. RING_NOTICE at a unit
marks or clears its arrival port as broken; at the pithead it raises the event, and a port lost sets the break, one ACTIVE again with JOIN_AUTO asks
for the join call. SWEEP_STATE brings ring and request state and the chain's epochs (kept: log entry 57). EVENT at the pithead joins the event queue
as raised, and ENG_REMAPPED from a unit in CAPTURE is noted as a remap; elsewhere it changes nothing. A remap noted starts, on a pithead in CAPTURE
with no derailleur under way, a derailleur of the assignment with the bank in force, waits while one is under way, and is forgotten on any other unit
or outside CAPTURE. -/
def Obligations.BeatsAndNoticesAreHeard : Prop :=
  (∀ (d : Bool) (k : Packet) (s : State), k.fits 0x10 = true → k.dst = s.get CHN_STATE.TALLY → k.dst ≠ 63 → s.get CHN_STATE.TALLY ≠ 1 →
    (k.src ≠ 1 → exec (.beat d k) s = .next s) ∧
    (k.src = 1 → ∃ u : State, Only [CHN_STATE.STATE] { s with chn := { s.chn with beatSeen := true, beatMissed := 0, incs := u.chn.incs } } u ∧
      Tbl.get 0 u.chn.incs 1 = k.inc ∧ u.get CHN_STATE.STATE = (if s.get CHN_STATE.STATE = 3 then 2 else s.get CHN_STATE.STATE) ∧
      (u.isCrew = false → exec (.beat d k) s = .next u) ∧
      (u.isCrew = true → k.at_ 2 1 ≠ 3 ∨ s.on SAF_STATUS.CHAIN_HOLD = true → k.at_ 2 1 ≠ 0 ∨ s.on SAF_STATUS.CHAIN_HOLD = false →
        exec (.beat d k) s = .next u) ∧
      (u.isCrew = true → k.at_ 2 1 = 0 → s.on SAF_STATUS.CHAIN_HOLD = true → exec (.beat d k) s = .next u.endChainHold) ∧
      (u.isCrew = true → k.at_ 2 1 = 3 → s.on SAF_STATUS.CHAIN_HOLD = false →
        ∃ v : State, v = u.callRecovery 0x030B 0 3 false false ∧
          exec (.beat d k) s = .next (if 2 ≤ u.power ∧ u.power ≤ 5 then v.raise 0x030B [v.fwc] else v)))) ∧
  (∀ (d : Bool) (k : Packet) (s : State), k.fits 0x10 = true → k.dst = 1 → s.get CHN_STATE.TALLY = 1 → s.stale k = false → 2 ≤ k.src →
    (bit s.joinedMap k.src = false → exec (.beat d k) s = .next s) ∧
    (bit s.joinedMap k.src = true → bit (k.at_ 3 1) 1 = false → s.saf.restart = none →
      ∃ t : State, exec (.beat d k) s = .next t ∧ t = { s with chn := { s.chn with peers := t.chn.peers, seen := setBit s.chn.seen k.src true } } ∧
        t.peer k.src = { s.peer k.src with missed := 0, power := k.at_ 1 1, gear := k.gear } ∧ ∀ g : Nat, g ≠ k.src → t.peer g = s.peer g)) ∧
  (∀ s : State, ∃ t : State, t = s.advance ((s.fwc / 2000000 + 1) * 2000000) ∧
    (s.pwr.boot ≠ 0 ∨ s.pwr.sysrst = true ∨ s.get CHN_STATE.STATE = 0 ∨ s.get CHN_STATE.STATE = 1 → exec .beatWindow s = .next t) ∧
    (s.pwr.boot = 0 → s.pwr.sysrst = false → s.get CHN_STATE.STATE = 2 ∨ s.get CHN_STATE.STATE = 3 → exec .beatWindow s = .next t.sendBeat.countHead) ∧
    (s.pwr.boot = 0 → s.pwr.sysrst = false → s.get CHN_STATE.STATE = 4 → exec .beatWindow s = .next t.sendBeat.countMissed.serveCall.serveSpare.serveRemap)) ∧
  (∀ s : State, (s.chn.remapped = false → s.serveRemap = s) ∧
    (s.chn.remapped = true → s.get CHN_STATE.TALLY ≠ 1 ∨ s.power ≠ stCAPTURE → s.serveRemap = s.onChn fun c => { c with remapped := false }) ∧
    (s.chn.remapped = true → s.get CHN_STATE.TALLY = 1 → s.power = stCAPTURE → s.get CHN_DRL_STATUS.STATE ≠ 0 → s.serveRemap = s) ∧
    (s.chn.remapped = true → s.get CHN_STATE.TALLY = 1 → s.power = stCAPTURE → s.get CHN_DRL_STATUS.STATE = 0 →
      s.serveRemap = (s.onChn fun c => { c with remapped := false, next := c.bank }).tryDerail false true)) ∧
  (∀ s : State, 0 < s.get CHN_CTRL.DEAD_THRESH →
    (s.chn.beatSeen = true → s.countHead = s.onChn fun c => { c with beatSeen := false, beatMissed := 0 }) ∧
    (s.chn.beatSeen = false → s.chn.beatMissed + 1 < s.get CHN_CTRL.DEAD_THRESH →
      s.countHead = s.onChn fun c => { c with beatSeen := false, beatMissed := c.beatMissed + 1 }) ∧
    (s.chn.beatSeen = false → s.get CHN_CTRL.DEAD_THRESH ≤ s.chn.beatMissed + 1 → s.get CHN_STATE.ROLE ≠ 1 → s.get CHN_STATE.STATE = 2 →
      s.countHead = ((s.onChn fun c => { c with beatSeen := false, beatMissed := c.beatMissed + 1 }).set CHN_STATE.STATE 3).raise 0x0B06 [s.fwc])) ∧
  (∀ (d : Bool) (k : Packet) (s : State), k.fits 0x07 = true → k.dst = s.get CHN_STATE.TALLY → k.dst ≠ 63 → s.stale k = false →
    (k.at_ 0 1 ≠ s.get CHN_STATE.INC ∨ s.get CHN_STATE.TALLY = 0 → exec (.bench d k) s = .next s) ∧
    (k.at_ 0 1 = s.get CHN_STATE.INC → s.get CHN_STATE.TALLY ≠ 0 → exec (.bench d k) s = .next s.bench ∧
      ∃ u : State, Only [CHN_STATE.TALLY, CHN_STATE.INC, CHN_STATE.STATE, CHN_STATE.ROLE] s u ∧ u.get CHN_STATE.TALLY = 0 ∧ u.get CHN_STATE.INC = 0 ∧
        u.get CHN_STATE.STATE = 0 ∧ u.get CHN_STATE.ROLE = 0 ∧
        (u.reviewTime.reviewMreq.power < 3 ∨ u.reviewTime.reviewMreq.power = 6 → s.bench = u.reviewTime.reviewMreq) ∧
        (u.reviewTime.reviewMreq.power = stREADY → s.bench = u.reviewTime.reviewMreq.intoIdle) ∧
        (u.reviewTime.reviewMreq.power = stCAPTURE → s.bench = u.reviewTime.reviewMreq.cadHold.sealAll.intoIdle) ∧
        (u.reviewTime.reviewMreq.power = stHOLD → s.bench = u.reviewTime.reviewMreq.commandEnds true stIDLE))) ∧
  (∀ (d : Bool) (k : Packet) (s : State), k.fits 0x08 = true → k.dst = s.get CHN_STATE.TALLY → k.dst ≠ 63 → s.stale k = false →
    exec (.recover d k) s = .next (if k.at_ 0 1 = 2 then s.callRecovery 0x0B0B (k.at_ 1 1) 2 false false else s)) ∧
  (∀ (d : Bool) (k : Packet) (s : State), k.fits 0x12 = true → k.dst = s.get CHN_STATE.TALLY → k.dst ≠ 63 → s.stale k = false →
    (s.get CHN_STATE.TALLY ≠ 1 → ∃ t : State, exec (.ringNotice d k) s = .next t ∧ Only [if d then CHN_STATE.BROKEN_D else CHN_STATE.BROKEN_U] s t ∧
      t.get (if d then CHN_STATE.BROKEN_D else CHN_STATE.BROKEN_U) = if bit (k.at_ 1 1) 1 then 0 else 1) ∧
    (s.get CHN_STATE.TALLY = 1 →
      ∃ t : State, t = s.raise 0x0B0F [k.at_ 0 1, ofBool (bit (k.at_ 1 1) 0), ofBool (bit (k.at_ 1 1) 1)] ∧
        (bit (k.at_ 1 1) 1 = true → s.get CHN_CFG.JOIN_AUTO = 1 → exec (.ringNotice d k) s = .next (t.onChn fun c => { c with joinAt := some s.fwc })) ∧
        (bit (k.at_ 1 1) 1 = true → s.get CHN_CFG.JOIN_AUTO ≠ 1 → exec (.ringNotice d k) s = .next t) ∧
        (bit (k.at_ 1 1) 1 = false → exec (.ringNotice d k) s =
          .next (t.breakAfter (if bit (k.at_ 1 1) 0 then k.at_ 0 1 else k.at_ 0 1 - 1))))) ∧
  (∀ (d : Bool) (k : Packet) (s : State), k.fits 0x11 = true → k.dst = s.get CHN_STATE.TALLY → k.dst ≠ 63 → s.get CHN_STATE.TALLY ≠ 1 →
    ∃ u : State, Only [CHN_RING.WHOLE, CHN_RING.BREAK_AFTER] { s with chn := { s.chn with chainEpochs := some (k.at_ 8 2, k.at_ 10 2) } } u ∧ u.get CHN_RING.WHOLE = (if bit (k.at_ 4 1) 1 then 1 else 0) ∧
      u.get CHN_RING.BREAK_AFTER = k.at_ 5 1 % 2 ^ CHN_RING.BREAK_AFTER.width ∧
      exec (.sweepState d k) s = .next (u.learnRequest (k.at_ 0 4) (bit (k.at_ 4 1) 0))) ∧
  (∀ (d : Bool) (k : Packet) (s : State), k.fits 0x18 = true → k.dst = s.get CHN_STATE.TALLY → k.dst ≠ 63 → s.stale k = false →
    (s.get CHN_STATE.TALLY ≠ 1 → exec (.event d k) s = .next s) ∧
    (s.get CHN_STATE.TALLY = 1 → s.events.length < 1024 →
      ∃ u : State, u = ({ s with events := s.events ++ [Event.mk (k.at_ 0 2) [] k.src k.inc (k.at_ 8 8) (some (k.at_ 2 6))] }).pump ∧
        exec (.event d k) s = .next (if k.at_ 0 2 = 0x0A02 ∧ (u.peer k.src).power = 4 then u.reportRemap else u)))

/-- O40. SWEEP_HDR, KEY, DELTA, STAT and AUX build a stope sweep at the pithead, which the ledger checks; KEY_REFRESH_REQ. SWEEP_HDR at the pithead opens
the build of its source with the packet's tags and header; a sweep of that source still being built is first counted INCOMPLETE and its stope marked
STALE. KEY, DELTA, STAT and AUX of the build's sweep and incarnation append their bytes; with no such build, or other tags, they change nothing; on a
unit that is not the pithead none of the five changes anything. A build whose streams hold what its header counts leaves the table and goes to the
ledger, any other stays. Above the intake mark nothing new is taken in: the arriving sweep is dropped and counted in INTAKE_DROP. Of a whole sweep the
first check of R332 that fails decides: superseded as in R317; quarantined nothing; an old epoch of an acknowledged derailleur calls level 2 on its
source, quarantines it and raises the event; a wrong gear epoch counts in TAG_DROP, a wrong assignment epoch in GRACE_DROP, an entry that is not valid
in NOT_OWNED; a sweep that passes is written. KEY_REFRESH_REQ gives its stope's engine the refresh message. -/
def Obligations.LedgerTakesSweeps : Prop :=
  (∀ (d : Bool) (k : Packet) (s : State), k.fits 0x20 = true → k.dst = 1 → s.get CHN_STATE.TALLY = 1 → s.stale k = false →
    ∃ u w : State, exec (.sweepHdr d k) s = .next (w.intake fun v => (v.usesKibble.onChn fun c => { c with
        build := Tbl.set none c.build k.src (some ⟨k.inc, k.sweep, k.gear, k.assign, k.payload, [], [], [], []⟩) }).finishBuild k.src) ∧
      (Tbl.get none s.chn.build k.src = none → u = s) ∧
      (∀ b : Build, Tbl.get none s.chn.build k.src = some b →
        u = (s.bump CHN_ERRCNT3.INCOMPLETE 1).markStale k.src (bytesAt b.hdr 8 1) b.sweep) ∧
      w = { u with chn := { u.chn with build := w.chn.build } } ∧ Tbl.get none w.chn.build k.src = none ∧
      ∀ g : Nat, g ≠ k.src → Tbl.get none w.chn.build g = Tbl.get none u.chn.build g) ∧
  (∀ (d : Bool) (k : Packet) (b : Build) (s : State), k.dst = 1 → s.get CHN_STATE.TALLY = 1 → s.stale k = false → Tbl.get none s.chn.build k.src = some b →
    let takes := fun (v : State) (x : Build) => v = { s with chn := { s.chn with build := v.chn.build } } ∧ Tbl.get none v.chn.build k.src = some x ∧
      ∀ g : Nat, g ≠ k.src → Tbl.get none v.chn.build g = Tbl.get none s.chn.build g
    (b.sweep = k.sweep → b.inc = k.inc →
      (k.fits 0x21 = true → ∃ v : State, exec (.key d k) s = .next (v.finishBuild k.src) ∧ takes v { b with keys := b.keys ++ k.payload }) ∧
      (k.fits 0x22 = true → ∃ v : State, exec (.delta d k) s = .next (v.finishBuild k.src) ∧ takes v { b with deltas := b.deltas ++ k.payload }) ∧
      (k.fits 0x23 = true → ∃ v : State, exec (.stat d k) s = .next (v.finishBuild k.src) ∧ takes v { b with stat := b.stat ++ k.payload }) ∧
      (k.fits 0x24 = true → ∃ v : State, exec (.aux d k) s = .next (v.finishBuild k.src) ∧ takes v { b with aux := b.aux ++ k.payload })) ∧
    (b.sweep ≠ k.sweep ∨ b.inc ≠ k.inc →
      (k.fits 0x21 = true → exec (.key d k) s = .next s) ∧ (k.fits 0x22 = true → exec (.delta d k) s = .next s) ∧
      (k.fits 0x23 = true → exec (.stat d k) s = .next s) ∧ (k.fits 0x24 = true → exec (.aux d k) s = .next s))) ∧
  (∀ (d : Bool) (k : Packet) (s : State), k.dst = s.get CHN_STATE.TALLY → k.dst ≠ 63 → s.get CHN_STATE.TALLY ≠ 1 →
    (k.fits 0x20 = true → exec (.sweepHdr d k) s = .next s) ∧ (k.fits 0x21 = true → exec (.key d k) s = .next s) ∧
    (k.fits 0x22 = true → exec (.delta d k) s = .next s) ∧ (k.fits 0x23 = true → exec (.stat d k) s = .next s) ∧
    (k.fits 0x24 = true → exec (.aux d k) s = .next s)) ∧
  (∀ (src : Nat) (b : Build) (s : State), Tbl.get none s.chn.build src = some b →
    let whole := 24 * bytesAt b.hdr 10 3 ≤ b.keys.length ∧ 8 * bytesAt b.hdr 13 3 ≤ b.deltas.length ∧ bytesAt b.hdr 32 4 ≤ b.stat.length ∧
      bytesAt b.hdr 36 4 ≤ b.aux.length
    (¬ whole → s.finishBuild src = s) ∧
    (whole → ∃ u : State, u = { s with chn := { s.chn with build := u.chn.build } } ∧ Tbl.get none u.chn.build src = none ∧
      (∀ g : Nat, g ≠ src → Tbl.get none u.chn.build g = Tbl.get none s.chn.build g) ∧
      s.finishBuild src = (u.ledgerJudge ⟨src, b.inc, b.sweep, b.gear, b.assign, b.hdr.take 32, b.keys.take (24 * bytesAt b.hdr 10 3),
        b.deltas.take (8 * bytesAt b.hdr 13 3), b.stat.take (bytesAt b.hdr 32 4), b.aux.take (bytesAt b.hdr 36 4)⟩).reviewIntake)) ∧
  (∀ (f : State → State) (s : State), ∃ v : State, v = s.reviewIntake ∧
    (s.get CHN_INTAKE.HWM_MIB * 1048576 < s.heldIntake → s.chn.hwmRaised = true → s.intake f = v.bump CHN_ERRCNT4.INTAKE_DROP 1) ∧
    (s.get CHN_INTAKE.HWM_MIB * 1048576 < s.heldIntake → s.chn.hwmRaised = false →
      s.intake f = (((v.bump CHN_ERRCNT4.INTAKE_DROP 1).onChn fun c => { c with hwmRaised := true })).raise 0x0B0D [s.heldIntake / 1048576]) ∧
    (s.heldIntake ≤ s.get CHN_INTAKE.HWM_MIB * 1048576 → s.intake f = f v)) ∧
  (∀ (x : StopeSweep) (t : State),
    (t.ledgerCheck x = none → t.ledgerJudge x = t.writeSweep x) ∧
    (t.ledgerCheck x = some .superseded → t.ledgerJudge x = t.supersede x.src x.inc) ∧
    (t.ledgerCheck x = some .quarantined → t.ledgerJudge x = t) ∧
    (t.ledgerCheck x = some .gear → t.ledgerJudge x = t.bump CHN_ERRCNT1.TAG_DROP 1) ∧
    (t.ledgerCheck x = some .assign → t.ledgerJudge x = t.bump CHN_ERRCNT2.GRACE_DROP 1) ∧
    (t.ledgerCheck x = some .owner → t.ledgerJudge x = t.bump CHN_ERRCNT2.NOT_OWNED 1) ∧
    (t.ledgerCheck x = some .late →
      ∃ u : State, u = (t.sendCtl 0x08 0 x.src ([2, 1] ++ zeroBytes 6)).setPeer x.src (fun p => { p with quarantined := true }) ∧
        t.ledgerJudge x = u.raise 0x0B0B [x.src, x.sweep])) ∧
  (∀ (d : Bool) (k : Packet) (s : State), k.fits 0x0E = true → k.dst = s.get CHN_STATE.TALLY → k.dst ≠ 63 → s.stale k = false →
    exec (.keyRefreshReq d k) s = .next (s.toStope (k.at_ 0 1) (message 0x0001 []
      ((s.get CAD_SWEEP.SWEEP + s.lockN) % 2 ^ 32))))

/-- O41. What a transmitter composes, a receiver reads: lane blocks, link frames and packets, for every content. A lane block composed of 62 payload words
with any keystream words, any KEY_SEL and any stuff slot has 64 words, a header word with SYNC, a good CHK and a stuff slot, and reading it with the
same keystream words gives the payload back. A link frame at a width N of 1 or more has 62 N words, the last of which is the CRC-32 of the bytes
before it, and its first two are the header and control words given. A well-formed packet (its data type on the channel R303 gives it, every field in
its width, its payload bytes less than 256) stands at the head of a packet stream as one packet of 16 bytes, its payload, and 4 more where the payload
is not empty, whatever follows it in the stream. A frame dealt out to the lanes of a map as their payload words is put together again from the lanes'
blocks of that count. -/
def Obligations.BlocksFramesAndPacketsReadBack : Prop :=
  (∀ (payload keys : List Nat) (k p : Nat), payload.length = 62 → k < 4 → 0 < p → p < 64 →
    (composeBlock payload keys k p).length = 64 ∧ hasSync ((composeBlock payload keys k p).getD 0 0) = true ∧
      headerGood ((composeBlock payload keys k p).getD 0 0) = true ∧ readBlock (composeBlock payload keys k p) keys = payload) ∧
  (∀ (n hdr ctrl : Nat) (bytes : List Nat), 0 < n →
    (frameWords n hdr ctrl bytes).length = 62 * n ∧ (frameWords n hdr ctrl bytes).take 2 = [hdr, ctrl] ∧
      (frameWords n hdr ctrl bytes).getD (62 * n - 1) 0 = crc32 (bytesOfWords (frameWords n hdr ctrl bytes).dropLast)) ∧
  (∀ (k : Packet) (rest : List Nat), k.wf = true → vcOf k.dt = some k.vc →
    parseHead (k.bytes ++ rest) = .packet (16 + k.payload.length + if k.payload.length = 0 then 0 else 4)) ∧
  (∀ (d : Bool) (c : Nat) (frame lanes : List Nat) (s : State), lanes = bitsOf (s.rxMap d) 8 → lanes ≠ [] → frame.length = 62 * lanes.length →
    (∀ j, j < lanes.length → s.blockAt d c (lanes.getD j 0) = some (laneWords lanes.length j frame)) → s.frameAt d c = some frame)

/-- O42. TX_BLOCK, LANE_BLOCK_RECEIVE, LANE_STUCK and LANE_SIGNAL_LOSS. TX_BLOCK on a DISABLED port changes nothing; in LOOP with no control message
waiting the lanes loop; else a direction ready to sleep does, and then a silent one sends nothing while its keystreams move on, an untrained one sends
training words with keystream 0 on all lanes, and a keyed one its frame with the keystreams on the lanes of the map and training words on the others
(log entry 61); each moves the block count on by one. A block received on a port that is DISABLED or in DETECT, or on a lane without lock and signal,
changes nothing. In search: a block without SYNC slips the alignment by one bit; found once, the lock is gained at the fourth confirming block. In
lock the block count moves on; the keystream runs from the far end's START_BC; a header without SYNC counts in HDR_ERR and gives no payload, and the
fourth in a row takes the lock away (LOCK_LOSS; in ACTIVE a lane of the map is FAILED and lost); with SYNC but a bad CHK or stuff slot it counts in
HDR_ERR; a good one gives its payload; while the far end sleeps a missing SYNC is no error, and after one two blocks with SYNC come before the first
that counts. LANE_STUCK on a lane of an ACTIVE map: FAILED, STUCK counted, LANE_STUCK raised, level 1 called, the lane lost; otherwise nothing. A lane
lost with others left asks for a narrower map by WIDTH_REQ with OFFSET 32; the last one takes the port to DETECT. LANE_SIGNAL_LOSS without a SLEEP
takes an ACTIVE port to DETECT; otherwise nothing. -/
def Obligations.LanesSendReceiveAndLock : Prop :=
  (∀ (d : Bool) (s : State),
    (s.portState d = 0 → exec (.txBlock d) s = .next s) ∧
    (s.portState d = 6 → (s.port d).ctls = [] → exec (.txBlock d) s = .next (s.sendLoop d)) ∧
    (s.portState d ≠ 0 → s.portState d ≠ 6 ∨ (s.port d).ctls ≠ [] → ∃ u : State,
      ((s.port d).sleeping = true → (s.port d).ctls = [] → (s.port d).replay = [] → u = (s.setPort d fun p => { p with sleeping := false }).set (LNK_STATE.TX_SLEEP (px d)) 1) ∧
      ((s.port d).sleeping = false ∨ (s.port d).ctls ≠ [] ∨ (s.port d).replay ≠ [] → u = s) ∧
      (u.get (LNK_STATE.TX_SLEEP (px d)) = 1 ∨ u.dataForced = true → exec (.txBlock d) s = .next (u.sendSilence d)) ∧
      (u.get (LNK_STATE.TX_SLEEP (px d)) ≠ 1 → u.dataForced = false → (s.port d).keyed = true → exec (.txBlock d) s = .next (u.sendFrame d)) ∧
      (u.get (LNK_STATE.TX_SLEEP (px d)) ≠ 1 → u.dataForced = false → (s.port d).keyed = false → exec (.txBlock d) s = .next (u.sendTraining d)))) ∧
  (∀ (d : Bool) (s : State), ∃ t u : State, t = s.sendTraining d ∧ u = s.sendSilence d ∧
    (t.port d).blocks = (s.port d).blocks + 1 ∧ (u.port d).blocks = (s.port d).blocks + 1 ∧ ∀ n, n < 8 →
      (t.lane d n).sent = (composeRun (s.trainWords d n) (List.replicate 64 0) (s.lane d n).txRun 4 0).1 ∧ (t.lane d n).txKey = (s.lane d n).txKey ∧
      (u.lane d n).sent = [] ∧ (u.lane d n).txKey = if (s.port d).keyed then (keyWords 64 (s.lane d n).txKey).2 else (s.lane d n).txKey) ∧
  (∀ (d : Bool) (s : State), ∃ (t u : State) (m : Nat) (w : List Nat), t = (s.nextFrame d).1 ∧ m = (t.port d).txMap ∧ w = t.wordsOfFrame d (s.nextFrame d).2 ∧
    (u.port d).blocks = (t.port d).blocks + 1 ∧ (u.port d).unacked = 0 ∧
    (∀ n, n < 8 → (u.lane d n).txKey = (keyWords 64 (t.lane d n).txKey).2 ∧
      (bit m n = true → (u.lane d n).sent =
        (composeRun (laneWords (popCount m 8) (popCount (m % 2 ^ n) 8) w) (keyWords 64 (t.lane d n).txKey).1 (t.lane d n).txRun 4 0).1) ∧
      (bit m n = false → (u.lane d n).sent = (composeRun (t.trainWords d n) (List.replicate 64 0) (t.lane d n).txRun 4 0).1)) ∧
    ((s.nextFrame d).2 = none → s.sendFrame d = u) ∧ ∀ f : LinkFrame, (s.nextFrame d).2 = some f → s.sendFrame d = u.sentCtrl d f.ctrl) ∧
  (∀ (d : Bool) (n : Nat) (s : State),
    (∀ m : Nat, (s.port d).loopFar = some m → s.dataForced = false → ((s.loopLane d n).lane d n).sent = if bit m n then (s.lane d n).back else []) ∧
    ((s.port d).loopFar = none → s.get (LNK_LOOP.MODE (px d)) = 3 → s.dataForced = false → bit (s.get (LNK_LOOP.LANES (px d))) n = true →
      ((s.loopLane d n).lane d n).sent = (s.loopWords d n).1) ∧
    ((s.port d).loopFar = none → s.get (LNK_LOOP.MODE (px d)) ≠ 3 → ((s.loopLane d n).lane d n).sent = [])) ∧
  (∀ (d : Bool) (n : Fin 8) (ws : List Word) (s : State),
    let x := px d
    let w := ws.map BitVec.toNat
    let l := s.lane d n.val
    (s.portState d ≤ 1 → exec (.laneBlockReceive d n ws) s = .next s) ∧
    (s.portState d = 6 → exec (.laneBlockReceive d n ws) s = .next (s.loopBlock d n.val w)) ∧
    (2 ≤ s.portState d → s.portState d ≤ 5 → bit (s.locked d) n.val = false →
      (bit (s.port d).signal n.val = false → exec (.laneBlockReceive d n ws) s = .next s) ∧
      (bit (s.port d).signal n.val = true →
        (l.confirm = 0 → (w.take 65).any hasSync = true → exec (.laneBlockReceive d n ws) s = .next (s.setLane d n.val fun l => { l with confirm := 1 })) ∧
        (l.confirm = 0 → (w.take 65).any hasSync = false →
          exec (.laneBlockReceive d n ws) s = .next (s.setLane d n.val fun l => { l with confirm := 0, align := (l.align + 1) % 32 })) ∧
        (l.confirm ≠ 0 → hasSync (w.getD 0 0) = false →
          exec (.laneBlockReceive d n ws) s = .next (s.setLane d n.val fun l => { l with confirm := 0, align := (l.align + 1) % 32 })) ∧
        (l.confirm ≠ 0 → l.confirm ≠ 4 → hasSync (w.getD 0 0) = true →
          exec (.laneBlockReceive d n ws) s = .next (s.setLane d n.val fun l => { l with confirm := l.confirm + 1 })) ∧
        (l.confirm = 4 → hasSync (w.getD 0 0) = true → exec (.laneBlockReceive d n ws) s = .next (s.gainLock d n.val)))) ∧
    (2 ≤ s.portState d → s.portState d ≤ 5 → bit (s.locked d) n.val = true →
      ∃ (on quiet : Bool) (keys : List Nat × Nat) (t : State), on = (l.rxOn || s.rxStarts d (l.count + 1)) ∧
        quiet = (s.on (LNK_STATE.PEER_SLEEP x) && (s.port d).peerQuiet) ∧
        keys = (if on then keyWords 64 l.rxKey else (List.replicate 64 0, l.rxKey)) ∧
        t = s.setLane d n.val (fun l => { l with rxKey := keys.2, rxOn := on, count := l.count + 1 }) ∧
        (hasSync (w.getD 0 0) = true →
          ∃ u : State, u = t.setLane d n.val (fun l => { l with miss := 0, confirm := if quiet then l.confirm + 1 else 0 }) ∧
            (on = false ∨ (quiet = true ∧ l.confirm < 2) → exec (.laneBlockReceive d n ws) s =
              .next (if headerGood (w.getD 0 0) then u else u.bump (LNK_ERRCNT1.HDR_ERR x) 1)) ∧
            (on = true → quiet = false ∨ 2 ≤ l.confirm → headerGood (w.getD 0 0) = true →
              exec (.laneBlockReceive d n ws) s = .next (u.setLane d n.val fun l => l.keep (some (readBlock w keys.1)))) ∧
            (on = true → quiet = false ∨ 2 ≤ l.confirm → headerGood (w.getD 0 0) = false →
              exec (.laneBlockReceive d n ws) s = .next ((u.bump (LNK_ERRCNT1.HDR_ERR x) 1).setLane d n.val fun l => l.keep none))) ∧
        (hasSync (w.getD 0 0) = false → s.get (LNK_STATE.PEER_SLEEP x) = 1 → exec (.laneBlockReceive d n ws) s =
          .next ((t.setLane d n.val fun l => { l with confirm := 0 }).setPort d fun p => { p with peerQuiet := true })) ∧
        (hasSync (w.getD 0 0) = false → s.get (LNK_STATE.PEER_SLEEP x) ≠ 1 →
          ∃ v : State, v = (t.bump (LNK_ERRCNT1.HDR_ERR x) 1).setLane d n.val (fun l => { (if on then l.keep none else l) with miss := l.miss + 1 }) ∧
            (l.miss ≠ 3 → exec (.laneBlockReceive d n ws) s = .next v) ∧
            (l.miss = 3 → ∃ u : State, u = ((v.bump (LNK_ERRCNT2.LOCK_LOSS x) 1).putBit (LNK_LOCK.BLOCK_LOCK x) n.val false).setLane d n.val
                (fun l => { l with miss := 0, confirm := 0 }) ∧
              exec (.laneBlockReceive d n ws) s = .next (if s.portState d = 5 ∧ bit (s.rxMap d) n.val = true then
                (u.putBit (LNK_STATE.FAILED x) n.val true).loseLane d n.val else u))))) ∧
  (∀ (d : Bool) (n : Fin 8) (s : State),
    let x := px d
    (s.portState d = 5 → bit (s.rxMap d) n.val = true → bit (s.get (LNK_STATE.FAILED x)) n.val = false →
      ∃ u : State, Only [LNK_STATE.FAILED x, LNK_ERRCNT2.STUCK x] s u ∧ u.get (LNK_STATE.FAILED x) = setBit (s.get (LNK_STATE.FAILED x)) n.val true % 256 ∧
        u.get (LNK_ERRCNT2.STUCK x) = min 255 (s.get (LNK_ERRCNT2.STUCK x) + 1) ∧
        exec (.laneStuck d n) s = .next (((u.raise 0x0C03 [x, n.val]).callRecovery 0x0C03 x 1 false false).loseLane d n.val)) ∧
    (s.portState d ≠ 5 ∨ bit (s.rxMap d) n.val = false ∨ bit (s.get (LNK_STATE.FAILED x)) n.val = true → exec (.laneStuck d n) s = .next s)) ∧
  (∀ (d : Bool) (n : Nat) (s : State), (s.port d).laterMap = none →
    ((s.port d).newRx = none → setBit (s.rxMap d) n false = 0 → s.loseLane d n = s.retrain d 3 1) ∧
    ((s.port d).newRx = none → setBit (s.rxMap d) n false ≠ 0 →
      s.loseLane d n = (s.sendCtrl d 1 (setBit (s.rxMap d) n false) 32).setPort d fun p => { p with
        newRx := some (setBit (s.rxMap d) n false, none), laterMap := none
        requests := p.requests.filter (fun r => decide (r.1 ≠ 1)) ++ [(1, setBit (s.rxMap d) n false)] }) ∧
    (∀ (m : Nat) (o : Option Nat), (s.port d).newRx = some (m, o) → setBit m n false ≠ 0 →
      s.loseLane d n = s.setPort d fun p => { p with laterMap := some (setBit m n false) })) ∧
  (∀ (d : Bool) (s : State),
    exec (.laneSignalLoss d) s = .next (if s.portState d = 5 ∧ s.get (LNK_STATE.PEER_SLEEP (px d)) ≠ 1 then s.retrain d 3 1 else s))

/-- O43. Training from CLOCK_RECOVERED to LINK_UP, its timeout and retry, EN and RETRAIN, and a port that goes down. CLOCK_RECOVERED on a training port
gives the lane signal and takes DETECT to LOCK. A training block with its mark and CRC on a locked lane brings peer serial, keystream seed, block
count, locked lanes, proposed map, START_BC, tally and hops of the far end, counts up to 16, and then agreement is looked at; in EQ its request is
answered and its answer taken: taps that R275 allows stay so, those of a FIXED lane stay as they are, and a lane that has settled asks no more. One
without mark or CRC ends the count. With 16 blocks on every locked lane the lanes that both ends propose are the map; valid taps are used again, else
EQ begins. EQ_COMPLETE in EQ with every lane settled keeps the taps for the peer and map and chooses START_BC, a free value; KEYSTREAM_START at that
block puts the map in force; LINK_UP with keystreams running makes the port ACTIVE, counts a retraining after the first, clears FAILED, gives the
residences, raises LINK_UP, ends the port's L1, tells the ring and may start a claim. TRAIN_TIMEOUT, 2 ms after DETECT, counts a retraining, raises
the event and makes the port wait; TRAIN_RETRY_DELAY starts training again in DETECT. ELASTIC_BUFFER_SLIP retrains an ACTIVE port. Each changes
nothing where its condition does not hold. A port that leaves ACTIVE raises LINK_DOWN with its cause, drops the packets that wait for it and tells the
ring; a write of LNK_x_CTRL writes the fields, makes the port follow EN, and with RETRAIN 1 on an ACTIVE port that does not ask for it yet sends
RETRAIN_REQ. -/
def Obligations.PortsTrain : Prop :=
  (∀ (d : Bool) (n : Fin 8) (s : State),
    (s.training d = true → ∃ u : State, u = s.setPort d (fun p => { p with signal := setBit p.signal n.val true }) ∧
      exec (.clockRecovered d n) s = .next (if s.portState d = 1 then u.set (LNK_STATE.STATE (px d)) 2 else u)) ∧
    (s.training d = false → exec (.clockRecovered d n) s = .next s)) ∧
  (∀ (d : Bool) (n : Fin 8) (ws : List Word) (h v : Byte) (s : State),
    let w := ws.map BitVec.toNat
    (s.training d = false ∨ bit (s.locked d) n.val = false → exec (.trainingBlockReceive d n ws h v) s = .next s) ∧
    (s.training d = true → bit (s.locked d) n.val = true →
      (w.getD 0 0 / 65536 ≠ 0x7CE2 ∨ crc32 (bytesOfWords (w.take 9)) ≠ w.getD 9 0 →
        exec (.trainingBlockReceive d n ws h v) s = .next (s.setLane d n.val fun l => { l with trained := 0 })) ∧
      (w.getD 0 0 / 65536 = 0x7CE2 → crc32 (bytesOfWords (w.take 9)) = w.getD 9 0 →
        ∃ u t : State, Only [LNK_PEER_LO.SERIAL (px d), LNK_PEER_HI.SERIAL (px d)] s u ∧ u.get (LNK_PEER_LO.SERIAL (px d)) = w.getD 6 0 % 2 ^ 32 ∧
          u.get (LNK_PEER_HI.SERIAL (px d)) = w.getD 7 0 % 2 ^ 32 ∧
          t = ((u.setLane d n.val fun l => { l with
              rxKey := w.getD 1 0 + w.getD 2 0 % 2 ^ 26 * 2 ^ 32, count := w.getD 3 0, trained := min 16 (l.trained + 1) }).setPort d
            (fun p => { p with farLocked := bits (w.getD 5 0) 24 8, farMap := bits (w.getD 5 0) 16 8, farStart := some (bits (w.getD 5 0) 0 16)
                               farTally := bits (w.getD 8 0) 26 6, farHops := bits (w.getD 8 0) 20 6 })).agree d ∧
          exec (.trainingBlockReceive d n ws h v) s = .next (if s.portState d = 4 then
            (t.takeEq d n.val (bits (w.getD 4 0) 24 8)).stepEq d n.val (bits (w.getD 4 0) 16 8) h.toNat v.toNat else t)))) ∧
  (∀ (d : Bool) (n req : Nat) (s : State),
    ((s.lane d n).eq.taken = some req → s.takeEq d n req = s) ∧ ((s.takeEq d n req).lane d n).eq.taken = some req ∧
    (tapsGood (s.tapsOf d n) = true → tapsGood ((s.takeEq d n req).tapsOf d n) = true) ∧
    (s.get (LNK_PE.FIXED (px d) n) = 1 → (s.takeEq d n req).tapsOf d n = s.tapsOf d n) ∧
    ∀ ack h v : Nat, 13 ≤ (s.lane d n).eq.stage → s.stepEq d n ack h v = s) ∧
  (∀ (d : Bool) (s : State), ∃ m : Nat, m = lowestLanes (s.locked d &&& (s.port d).farLocked) (s.port d).widthMax &&& (s.port d).farMap ∧
    (s.portState d ≠ 3 ∨ (s.port d).agreed ≠ 0 ∨ m = 0 → s.agree d = s) ∧
    (s.portState d = 3 → (s.port d).agreed = 0 → m ≠ 0 → (∀ n ∈ bitsOf (s.locked d) 8, 16 ≤ (s.lane d n).trained) →
      ∃ u : State, u = ({ s with freeIx := s.freeIx + 1 }).setPort d (fun p => { p with
          agreed := m, trainedMap := s.locked d &&& p.farLocked, depth := Config.freeValue s.freeIx }) ∧
        (u.tapsValid d m = true → s.agree d = (u.reuseTaps d).chooseStart d) ∧ (u.tapsValid d m = false → s.agree d = u.set (LNK_STATE.STATE (px d)) 4))) ∧
  (∀ (d : Bool) (s : State), s.chooseStart d = ({ s with freeIx := s.freeIx + 1 }).setPort d fun p => { p with startBc := some (Config.freeValue s.freeIx % 65536) }) ∧
  (∀ (d : Bool) (s : State),
    (s.portState d ≠ 4 ∨ (s.port d).startBc ≠ none ∨ (∃ n ∈ bitsOf (s.port d).agreed 8, (s.lane d n).eq.stage < 13) → exec (.eqComplete d) s = .next s) ∧
    (s.portState d = 4 → (s.port d).startBc = none → (∀ n ∈ bitsOf (s.port d).agreed 8, 13 ≤ (s.lane d n).eq.stage) →
      ∃ taps : Tbl (Nat × Nat × Nat), (∀ n, n < 8 → bit (s.port d).agreed n = true →
          Tbl.get (0, 0, 0) taps n = (s.get (LNK_PE.PRESET (px d) n), s.get (LNK_PE.C_PRE (px d) n), s.get (LNK_PE.C_POST (px d) n))) ∧
        exec (.eqComplete d) s = .next ((s.setPort d fun p => { p with
          tapsPeer := some (s.get (LNK_PEER_LO.SERIAL (px d)) + s.get (LNK_PEER_HI.SERIAL (px d)) * 2 ^ 32), tapsMap := p.agreed, taps }).chooseStart d))) ∧
  (∀ (d : Bool) (s : State),
    (s.training d = true → (s.port d).keyed = false → (s.port d).startBc = some ((s.port d).blocks % 65536) →
      ∃ u : State, Only [LNK_STATE.MAP (px d), LNK_STATE.WIDTH (px d)] s u ∧ u.get (LNK_STATE.MAP (px d)) = (s.port d).agreed % 256 ∧
        u.get (LNK_STATE.WIDTH (px d)) = popCount (s.port d).agreed 8 % 2 ^ (LNK_STATE.WIDTH (px d)).width ∧
        exec (.keystreamStart d) s = .next (u.setPort d fun p => { p with keyed := true, txMap := p.agreed })) ∧
    (s.training d = false ∨ (s.port d).keyed = true ∨ (s.port d).startBc ≠ some ((s.port d).blocks % 65536) →
      exec (.keystreamStart d) s = .next s)) ∧
  (∀ (d : Bool) (ud du : Nat) (s : State),
    let x := px d
    (s.training d = false ∨ (s.port d).keyed = false → exec (.linkUp d ud du) s = .next s) ∧
    (s.training d = true → (s.port d).keyed = true →
      ∃ u v : State, Only [LNK_ERRCNT2.RETRAINS x, LNK_STATE.STATE x, LNK_STATE.FAILED x, LNK_RES_UD.RES, LNK_RES_DU.RES] s u ∧
        u.get (LNK_STATE.STATE x) = 5 ∧ u.get (LNK_STATE.FAILED x) = 0 ∧ u.get LNK_RES_UD.RES = ud % 2 ^ 32 ∧ u.get LNK_RES_DU.RES = du % 2 ^ 32 ∧
        u.get (LNK_ERRCNT2.RETRAINS x) = (if (s.port d).everTrained then min 255 (s.get (LNK_ERRCNT2.RETRAINS x) + 1) else s.get (LNK_ERRCNT2.RETRAINS x)) ∧
        v = (u.setPort d fun p => { p with everTrained := true, detectAt := none, lastByte := s.fwc }).raise 0x0C01
          [x, s.get (LNK_STATE.WIDTH x), s.get (LNK_PEER_LO.SERIAL x) + s.get (LNK_PEER_HI.SERIAL x) * 2 ^ 32] ∧
        exec (.linkUp d ud du) s = .next (((v.portServed d).portChanged d true).startClaim))) ∧
  (∀ (d : Bool) (s : State),
    ((s.port d).detectAt = none ∨ s.training d = false → exec (.trainTimeout d) s = .next s) ∧
    ∀ f : Nat, (s.port d).detectAt = some f → s.training d = true →
      exec (.trainTimeout d) s = .next ((((s.advance (f + 4000000)).bump (LNK_ERRCNT2.RETRAINS (px d)) 1).raise 0x0C06 [px d, s.portState d]).setPort d fun p =>
        { p with waiting := true, detectAt := none })) ∧
  (∀ (d : Bool) (s : State),
    ((s.port d).waiting = true → 1 ≤ s.portState d → s.portState d ≤ 4 → exec (.trainRetryDelay d) s = .next (s.startTraining d 1)) ∧
    ((s.port d).waiting = false → exec (.trainRetryDelay d) s = .next s)) ∧
  (∀ (d : Bool) (s : State), exec (.elasticBufferSlip d) s = .next (if s.portState d = 5 then (s.linkDown d 4 2).startTraining d 2 else s)) ∧
  (∀ (d : Bool) (cause nx : Nat) (s : State), nx < 8 →
    ∃ u : State, u = (s.set (LNK_STATE.STATE (px d)) nx).dropDelay d ∧ u.get (LNK_STATE.STATE (px d)) = nx ∧
      (s.portState d ≠ 5 → s.linkDown d cause nx = u) ∧
      (s.portState d = 5 → s.linkDown d cause nx = ((u.raise 0x0C02 [px d, cause, s.fwc]).dropQueued d).portChanged d false)) ∧
  (∀ (p : Path) (d : Bool) (w : Word) (s : State), s.takes p (0x0C000 + 0x400 * px d) w.toNat = true →
    ∃ b t : State, b = s.booked p (0x0C000 + 0x400 * px d) w.toNat ∧ t = (b.writeFields p (0x0C000 + 0x400 * px d) w.toNat).reviewPort d ∧
      exec (.lnkEnWrite p d w) s = exec (.lnkRetrainWrite p d w) s ∧
      (bit w.toNat 24 = false → exec (.lnkEnWrite p d w) s = .next t) ∧
      (bit w.toNat 24 = true → b.mayWrite p (LNK_CTRL.RETRAIN (px d)) = true → t.portState d = 5 → (t.port d).asks 3 = false →
        exec (.lnkRetrainWrite p d w) s = .next ((t.sendCtrl d 3 0 0).setPort d fun q => { q with requests := q.requests ++ [(3, 0)] })) ∧
      (t.portState d ≠ 5 ∨ (t.port d).asks 3 = true → exec (.lnkRetrainWrite p d w) s = .next t))

/-- O44. WIDTH_REQ to FE_LOOP_END, the change of width at its boundary, and the loop register. A request on a port that is not ACTIVE changes nothing, nor
does a WIDTH_REQ of a map R278 does not allow (log entry 59). With no request of its own of the same kind the port follows: WIDTH_REQ is acknowledged
with its lanes and offset and its map kept for its boundary; RETRAIN_REQ is acknowledged, and as the acknowledgement leaves the port goes to LOCK;
FE_LOOP_REQ, with FE_ALLOW 1 alone, is acknowledged, and as that leaves the port enters LOOP with the lanes asked for. In a collision the inner end
ignores it; the outer end sends WITHDRAW, drops its own request, keeps its narrowing for later, raises COLLISION_YIELD and follows. WIDTH_ACK ends a
width request; RETRAIN_ACK and FE_LOOP_ACK of the port's own request retrain it, enter the loop; an acknowledgement of nothing changes nothing.
WITHDRAW drops the map to come. SLEEP marks the far end as sleeping on an ACTIVE port. FE_LOOP_END ends a LOOP: training starts in DETECT; elsewhere
nothing. At its boundary a new receive map with every lane in lock, and a new transmit map, take effect, each with WIDTH_CHANGED, the unacknowledged
bytes are repacked, the residences taken, and a narrowing kept for later is asked for; with no boundary reached nothing changes. LNK_x_LOOP: RUN 0
leaves a near-end loop, and a far-end one by FE_LOOP_END; RUN 1 with mode 1 or 2 enters it once R44 holds, with mode 3 on an ACTIVE port asks the far
end; an unfinished request is dropped with RUN 0. -/
def Obligations.LinkControlMessages : Prop :=
  (∀ (d : Bool) (l : Byte) (o t h : Nat) (s : State), s.portState d ≠ 5 →
    exec (.widthReq d l o t h) s = .next s ∧ exec (.retrainReq d t h) s = .next s ∧ exec (.feLoopReq d l t h) s = .next s) ∧
  (∀ (d : Bool) (l : Byte) (o t h : Nat) (s : State), s.mapAllowed d l.toNat = false → exec (.widthReq d l o t h) s = .next s) ∧
  (∀ (d : Bool) (m : Nat) (s : State), (m = 0 ∨ (s.port d).widthMax < popCount m 8 → s.mapAllowed d m = false) ∧
    ∀ i : Nat, bit m i = true → bit (s.port d).txMap i = false → bit (s.port d).trainedMap i = false → s.mapAllowed d m = false) ∧
  (∀ (d : Bool) (l : Byte) (o t h : Nat) (s : State), s.portState d = 5 →
    (s.mapAllowed d l.toNat = true → (s.port d).asks 1 = false →
      exec (.widthReq d l o t h) s = .next ((s.sendCtrl d 2 l.toNat o).setPort d fun p => { p with newTx := some (l.toNat, o) })) ∧
    ((s.port d).asks 3 = false → exec (.retrainReq d t h) s = .next (s.sendCtrl d 4 0 0)) ∧
    (s.get (LNK_CTRL.FE_ALLOW (px d)) ≠ 1 → exec (.feLoopReq d l t h) s = .next s) ∧
    (s.get (LNK_CTRL.FE_ALLOW (px d)) = 1 → (s.port d).asks 7 = false → exec (.feLoopReq d l t h) s = .next (s.sendCtrl d 8 l.toNat 0)) ∧
    (s.mapAllowed d l.toNat = true → (s.port d).asks 1 = true →
      (s.inner d t h = true → exec (.widthReq d l o t h) s = .next s) ∧
      (s.inner d t h = false →
        ∃ u : State, u = (((s.sendCtrl d 5 0 0).setPort d fun p => { p with
            requests := p.requests.filter (fun r => decide (r.1 ≠ 1)), newRx := none, laterMap := p.laterMap.or (p.newRx.map (·.1)) }).raise 0x0C07 [px d, 1]) ∧
          exec (.widthReq d l o t h) s = .next ((u.sendCtrl d 2 l.toNat o).setPort d fun p => { p with newTx := some (l.toNat, o) }))) ∧
    ((s.port d).asks 3 = true →
      (s.inner d t h = true → exec (.retrainReq d t h) s = .next s) ∧
      (s.inner d t h = false → exec (.retrainReq d t h) s =
        .next ((((s.sendCtrl d 5 0 0).setPort d fun p => { p with requests := p.requests.filter (fun r => decide (r.1 ≠ 3)) }).raise 0x0C07 [px d, 3]).sendCtrl d 4 0 0))) ∧
    (s.get (LNK_CTRL.FE_ALLOW (px d)) = 1 → (s.port d).asks 7 = true →
      (s.inner d t h = true → exec (.feLoopReq d l t h) s = .next s) ∧
      (s.inner d t h = false → exec (.feLoopReq d l t h) s =
        .next ((((s.sendCtrl d 5 0 0).setPort d fun p => { p with requests := p.requests.filter (fun r => decide (r.1 ≠ 7)) }).raise 0x0C07 [px d, 7]).sendCtrl d 8
          l.toNat 0)))) ∧
  (∀ (d : Bool) (lanes offset t h : Nat) (s : State), lanes < 256 → offset < 256 → t < 64 → h < 64 →
    s.sentCtrl d (ctrlWord 4 lanes offset t h) = s.retrain d 4 2 ∧ s.sentCtrl d (ctrlWord 8 lanes offset t h) = s.enterLoop d (some lanes) ∧
    s.sentCtrl d (ctrlWord 9 lanes offset t h) = s.endLoop d ∧
    s.sentCtrl d (ctrlWord 1 lanes offset t h) = s.setPort d fun p => { p with newRx := p.newRx.map fun e => (e.1, some offset) }) ∧
  (∀ (d : Bool) (s : State),
    (s.get CHN_STATE.TALLY = 1 → ∀ t h : Nat, s.inner d t h = true) ∧
    (s.get CHN_STATE.TALLY ≠ 1 → ∀ h : Nat, s.inner d 1 h = false) ∧
    (s.get CHN_STATE.TALLY ≠ 1 → ∀ t h : Nat, t ≠ 1 → s.hops ≠ h → s.inner d t h = decide (s.hops < h))) ∧
  (∀ (d : Bool) (s : State),
    exec (.widthAck d) s = .next (s.setPort d fun p => { p with requests := p.requests.filter fun r => decide (r.1 ≠ 1) }) ∧
    ((s.port d).asks 3 = true → exec (.retrainAck d) s = .next (s.retrain d 4 2)) ∧
    ((s.port d).asks 3 = false → exec (.retrainAck d) s = .next s) ∧
    ((s.port d).asks 7 = true → exec (.feLoopAck d) s = .next (s.enterLoop d none)) ∧
    ((s.port d).asks 7 = false → exec (.feLoopAck d) s = .next s) ∧
    exec (.withdraw d) s = .next (s.setPort d fun p => { p with newTx := none }) ∧
    (s.portState d ≠ 5 → exec (.sleep d) s = .next s) ∧
    (s.portState d = 5 → ∃ t : State, exec (.sleep d) s = .next t ∧ Only [LNK_STATE.PEER_SLEEP (px d)] (s.setPort d fun p => { p with peerQuiet := false }) t ∧
      t.get (LNK_STATE.PEER_SLEEP (px d)) = 1) ∧
    (s.portState d ≠ 6 → exec (.feLoopEnd d) s = .next s) ∧
    (s.portState d = 6 → ∃ u : State, Only [LNK_LOOP.RUN (px d)] s u ∧ u.get (LNK_LOOP.RUN (px d)) = 0 ∧ exec (.feLoopEnd d) s = .next (u.startTraining d 1))) ∧
  (∀ (d : Bool) (ud du : Nat) (s : State),
    (s.portState d ≠ 5 ∨ ((∀ m : Nat, (s.port d).newRx ≠ some (m, some 0)) ∧ ∀ m : Nat, (s.port d).newTx ≠ some (m, 0)) →
      exec (.widthChangeBoundary d ud du) s = .next s) ∧
    (∀ m : Nat, s.portState d = 5 → (s.port d).newRx = some (m, some 0) → m &&& s.locked d = m → (∀ k : Nat, (s.port d).newTx ≠ some (k, 0)) →
      ∃ u t : State, Only [LNK_STATE.MAP (px d), LNK_STATE.WIDTH (px d)] s u ∧ u.get (LNK_STATE.MAP (px d)) = m % 256 ∧
        Only [LNK_RES_UD.RES, LNK_RES_DU.RES] (((u.raise 0x0C04 [px d, s.rxMap d, m]).setPort d fun p => { p with newRx := none }).actionDone 0x0C03 (px d)) t ∧
        t.get LNK_RES_UD.RES = ud % 2 ^ 32 ∧ t.get LNK_RES_DU.RES = du % 2 ^ 32 ∧
        exec (.widthChangeBoundary d ud du) s = .next (match (t.port d).newRx, (t.port d).laterMap with
          | none, some l => t.askWidth d l
          | _, _ => t)) ∧
    (∀ m : Nat, s.portState d = 5 → (s.port d).newRx = some (m, some 0) → m &&& s.locked d ≠ m → (∀ k : Nat, (s.port d).newTx ≠ some (k, 0)) →
      ∃ t : State, Only [LNK_RES_UD.RES, LNK_RES_DU.RES] (s.setPort d fun p => { p with newRx := none, laterMap := some (m &&& s.locked d) }) t ∧
        exec (.widthChangeBoundary d ud du) s = .next (t.askWidth d (m &&& s.locked d))) ∧
    (∀ m : Nat, s.portState d = 5 → (s.port d).newRx = none → (s.port d).newTx = some (m, 0) →
      ∃ (t : State) (gone : Nat), gone = ((s.port d).txMap ||| m) ^^^ m ∧
        Only [LNK_RES_UD.RES, LNK_RES_DU.RES] (((s.repack d m).raise 0x0C04 [px d, (s.port d).txMap, m]).setPort d fun p => { p with
          newTx := none, trainedMap := (p.trainedMap ||| gone) ^^^ gone }) t ∧ t.get LNK_RES_UD.RES = ud % 2 ^ 32 ∧ t.get LNK_RES_DU.RES = du % 2 ^ 32 ∧
        ((s.port d).laterMap = none → exec (.widthChangeBoundary d ud du) s = .next t) ∧
        ∀ l : Nat, (s.port d).laterMap = some l → exec (.widthChangeBoundary d ud du) s = .next ((t.sendCtrl d 1 l 32).setPort d fun p => { p with
          newRx := some (l, none), laterMap := none, requests := p.requests.filter (fun r => decide (r.1 ≠ 1)) ++ [(1, l)] }))) ∧
  (∀ (p : Path) (d : Bool) (w : Word) (s : State), s.takes p (0x0C00C + 0x400 * px d) w.toNat = true →
    ∃ b : State, b = s.booked p (0x0C00C + 0x400 * px d) w.toNat ∧
      (b.mayWrite p (LNK_LOOP.RUN (px d)) = false → exec (.lnkLoopRunWrite p d w) s = .next b) ∧
      (b.mayWrite p (LNK_LOOP.RUN (px d)) = true → bit w.toNat 31 = false →
        ∃ u t : State, exec (.lnkLoopRunWrite p d w) s = .next t ∧ Only [LNK_LOOP.MODE (px d), LNK_LOOP.PATTERN (px d), LNK_LOOP.LANES (px d)] u t ∧
          t.get (LNK_LOOP.MODE (px d)) = (LNK_LOOP.MODE (px d)).of w.toNat ∧ t.get (LNK_LOOP.LANES (px d)) = (LNK_LOOP.LANES (px d)).of w.toNat ∧
          (b.portState d ≠ 6 → u = (b.set (LNK_LOOP.RUN (px d)) 0).setPort d fun q => { q with requests := q.requests.filter fun r => decide (r.1 ≠ 7) }) ∧
          (b.portState d = 6 → (b.port d).loopFar.isSome = true ∨ b.get (LNK_LOOP.MODE (px d)) = 3 → u = (b.set (LNK_LOOP.RUN (px d)) 0).sendCtrl d 9 0 0) ∧
          (b.portState d = 6 → (b.port d).loopFar = none → b.get (LNK_LOOP.MODE (px d)) ≠ 3 → u = (b.set (LNK_LOOP.RUN (px d)) 0).endLoop d)) ∧
      (b.mayWrite p (LNK_LOOP.RUN (px d)) = true → bit w.toNat 31 = true →
        ∃ u : State, Only [LNK_LOOP.MODE (px d), LNK_LOOP.PATTERN (px d), LNK_LOOP.LANES (px d)] b u ∧
          u.get (LNK_LOOP.MODE (px d)) = (LNK_LOOP.MODE (px d)).of w.toNat ∧ u.get (LNK_LOOP.LANES (px d)) = (LNK_LOOP.LANES (px d)).of w.toNat ∧
          (b.get (LNK_LOOP.RUN (px d)) = 1 ∨ b.saf.r44 = false ∨ b.portState d = 0 ∨ b.portState d = 6 ∨ (LNK_LOOP.MODE (px d)).of w.toNat ∉ [1, 2, 3] →
            exec (.lnkLoopRunWrite p d w) s = .next u) ∧
          (b.get (LNK_LOOP.RUN (px d)) ≠ 1 → b.saf.r44 = true → b.portState d ≠ 0 → b.portState d ≠ 6 → (LNK_LOOP.MODE (px d)).of w.toNat ∈ [1, 2] →
            exec (.lnkLoopRunWrite p d w) s = .next ((u.set (LNK_LOOP.RUN (px d)) 1).enterLoop d none)) ∧
          (b.get (LNK_LOOP.RUN (px d)) ≠ 1 → b.saf.r44 = true → b.portState d = 5 → (LNK_LOOP.MODE (px d)).of w.toNat = 3 → (b.port d).asks 7 = false →
            exec (.lnkLoopRunWrite p d w) s = .next (((u.set (LNK_LOOP.RUN (px d)) 1).sendCtrl d 7 (u.get (LNK_LOOP.LANES (px d))) 0).setPort d fun q =>
              { q with requests := q.requests ++ [(7, u.get (LNK_LOOP.LANES (px d)))] }))))

/-- O45. LINK_FRAME_RECEIVE, the frames sent and sent again, REPLAY_TIMEOUT, sleep and waking, PACKET_FORWARD and PACKET_TRANSMIT. A frame is received
once every lane of the map has brought its block of it; else nothing changes. One with a lane's block missing or bad, or a wrong CRC, is counted in
CRC_ERR and NAK is set. A good IDLE frame takes its ACK: frames up to it leave the replay buffer, and the count of replays is cleared where the ACK
moved; one with NAK counts in NAK_RX and replays unless it goes on from a NAK that a replay has answered. A good DATA frame wakes the far end's mark;
out of order it fails; in order its bytes and control word are taken. A new frame, with room in the replay buffer and something to send, has the next
SEQ, the oldest control message and the oldest bytes; frames to be sent again go first, in order and with OFFSCHED. REPLAY_TIMEOUT of an ACTIVE port
replays: below LIMIT the frames leave again and REPLAYS counts; at LIMIT RETRY_FAIL is raised, level 1 called and the port retrains. TX_SLEEP_ENTRY
with SLEEP_EN, nothing unacknowledged, requested or waiting and the direction awake sends SLEEP, SLEEP_US after the last byte; otherwise nothing.
TX_WAKE clears TX_SLEEP where a byte or message waits, 16 frames are unacknowledged or one for 1 microsecond. PACKET_FORWARD crosses a packet for
another unit, a time message only where it came on schedule. PACKET_TRANSMIT on an ACTIVE port whose bytes do not fill a frame takes the oldest
passing packet once its M depth is over, else the first local packet of the channel served next; a port without packets changes nothing. -/
def Obligations.FramesAndPacketsLeaveAndArrive : Prop :=
  (∀ (d : Bool) (s : State),
    (s.dueFrame d = none → exec (.linkFrameReceive d) s = .next s) ∧
    ∀ c : Nat, s.dueFrame d = some c →
      (s.frameAt d c = none → exec (.linkFrameReceive d) s = .next ((s.dropBlocks d c).failFrame d)) ∧
      ∀ w : List Nat, s.frameAt d c = some w →
        (crc32 (bytesOfWords w.dropLast) ≠ w.getLastD 0 → exec (.linkFrameReceive d) s = .next ((s.dropBlocks d c).failFrame d)) ∧
        (crc32 (bytesOfWords w.dropLast) = w.getLastD 0 → exec (.linkFrameReceive d) s = .next ((s.dropBlocks d c).goodFrame d w))) ∧
  (∀ (d : Bool) (s : State), ∃ u : State, Only [LNK_ERRCNT0.CRC_ERR (px d)] s u ∧
    u.get (LNK_ERRCNT0.CRC_ERR (px d)) = min (2 ^ (LNK_ERRCNT0.CRC_ERR (px d)).width - 1) (s.get (LNK_ERRCNT0.CRC_ERR (px d)) + 1) ∧
    s.failFrame d = u.setPort d fun p => { p with nak := true }) ∧
  (∀ (d : Bool) (w : List Nat) (s : State), ∃ u v : State,
    u = (if (s.port d).peerQuiet = true ∨ bits (w.getD 0 0) 4 2 = 0 then (s.set (LNK_STATE.PEER_SLEEP (px d)) 0).setPort d fun p => { p with peerQuiet := false } else s) ∧
    v = u.takeLinkAck d (bits (w.getD 0 0) 8 12) ∧
    (bit (w.getD 0 0) 7 = false →
      ∃ t : State, t = v.setPort d (fun p => { p with peerNak := false }) ∧
        (bits (w.getD 0 0) 4 2 ≠ 0 ∨ (s.port d).keyed = false → s.goodFrame d w = t) ∧
        (bits (w.getD 0 0) 4 2 = 0 → (s.port d).keyed = true → bits (w.getD 0 0) 20 12 ≠ ((s.port d).rxSeq + 1) % 4096 → s.goodFrame d w = t.failFrame d) ∧
        (bits (w.getD 0 0) 4 2 = 0 → (s.port d).keyed = true → bits (w.getD 0 0) 20 12 = ((s.port d).rxSeq + 1) % 4096 →
          ∃ q : State, q = (t.setPort d fun p => { p with
              rxSeq := bits (w.getD 0 0) 20 12, nak := false, rxLate := bit (w.getD 0 0) 6 || (!p.rxBytes.isEmpty && p.rxLate)
              rxBytes := p.rxBytes ++ bytesOfWords ((w.drop 2).take (w.length - 3)), unacked := p.unacked + 1
              unackedAt := some (p.unackedAt.getD s.fwc) }).takeCtrl d (w.getD 1 0) ∧
            s.goodFrame d w = State.readStream (bit (w.getD 0 0) 6) (q.port d).rxBytes.length d q)) ∧
    (bit (w.getD 0 0) 7 = true → bits (w.getD 0 0) 4 2 ≠ 0 →
      ∃ t : State, t = (v.bump (LNK_ERRCNT0.NAK_RX (px d)) 1).setPort d (fun p => { p with peerNak := true }) ∧
        ((s.port d).peerNak = false ∨ (v.port d).replays = 0 → s.goodFrame d w = t.replay d) ∧
        ((s.port d).peerNak = true → (v.port d).replays ≠ 0 → s.goodFrame d w = t))) ∧
  (∀ (d : Bool) (ack : Nat) (s : State),
    ((s.takeLinkAck d ack).port d).replay = (s.port d).replay.filter (fun f => serialLater 12 f.seq ack) ∧
    ((∀ f ∈ (s.port d).replay, serialLater 12 f.seq ack = true) → s.takeLinkAck d ack = s) ∧
    (¬ (∀ f ∈ (s.port d).replay, serialLater 12 f.seq ack = true) → ((s.takeLinkAck d ack).port d).replays = 0)) ∧
  (∀ (d : Bool) (s : State), s.backlog d = false → (s.port d).replay.length < 128 → (s.port d).ctls ≠ [] ∨ (takeOut (s.room d) (s.port d).out).1 ≠ [] →
    ∃ (f : LinkFrame) (t : State), s.newFrame d true = (t, some f) ∧
      f = ⟨(s.port d).txSeq, (s.port d).ctls.headD 0, (takeOut (s.room d) (s.port d).out).1, s.fwc, false⟩ ∧
      t = s.setPort d (fun _ => t.port d) ∧ (t.port d).txSeq = ((s.port d).txSeq + 1) % 4096 ∧ (t.port d).replay = (s.port d).replay ++ [f] ∧
      (t.port d).ctls = (s.port d).ctls.drop 1 ∧ (t.port d).out = (takeOut (s.room d) (s.port d).out).2) ∧
  (∀ (d : Bool) (f : LinkFrame) (s : State), (s.port d).replay[(s.port d).sentTo]? = some f → (s.port d).newTx = none →
    s.nextFrame d = (s.setPort d fun p => { p with sentTo := p.sentTo + 1 }, some { f with late := true })) ∧
  (∀ (n : Nat) (l : List OutBytes), ∃ r : List Nat × List OutBytes, r = takeOut n l ∧
    r.1 ++ (r.2.flatMap fun o => o.bytes) = l.flatMap (fun o => o.bytes) ∧ r.1.length = min n (l.flatMap fun o => o.bytes).length) ∧
  (∀ (d : Bool) (s : State),
    ((s.port d).replay = [] ∨ s.portState d ≠ 5 → exec (.replayTimeout d) s = .next s) ∧
    ∀ (f : LinkFrame) (fs : List LinkFrame), (s.port d).replay = f :: fs → s.portState d = 5 →
      ∃ t : State, t = s.advance (f.born + s.get (LNK_RETRY.TIMEOUT (px d)) * 2000) ∧
        ((s.port d).replays < s.get (LNK_RETRY.LIMIT (px d)) → exec (.replayTimeout d) s =
          .next ((t.bump (LNK_ERRCNT1.REPLAYS (px d)) 1).setPort d fun p => { p with
            replays := p.replays + 1, sentTo := 0, replay := p.replay.map fun g => { g with born := t.fwc } })) ∧
        (s.get (LNK_RETRY.LIMIT (px d)) ≤ (s.port d).replays → exec (.replayTimeout d) s =
          .next (((t.raise 0x0C05 [px d, f.seq]).callRecovery 0x0C05 (px d) 1 false false).retrain d 4 2))) ∧
  (∀ (d : Bool) (s : State),
    (s.portState d = 5 → s.get (LNK_CTRL.SLEEP_EN (px d)) = 1 → (s.port d).replay = [] → (s.port d).out = [] → (s.port d).ctls = [] → s.packetsFor d = 0 →
      (s.port d).requests = [] → (s.port d).sleeping = false → s.get (LNK_STATE.TX_SLEEP (px d)) ≠ 1 →
      exec (.txSleepEntry d) s = .next (((s.advance ((s.port d).lastByte + s.get (LNK_CTRL.SLEEP_US (px d)) * 2000)).sendCtrl d 6 0 0).setPort d fun p =>
        { p with sleeping := true })) ∧
    (s.portState d ≠ 5 ∨ s.get (LNK_CTRL.SLEEP_EN (px d)) ≠ 1 ∨ (s.port d).replay ≠ [] ∨ (s.port d).out ≠ [] ∨ (s.port d).ctls ≠ [] ∨ s.packetsFor d ≠ 0 ∨
      (s.port d).requests ≠ [] ∨ (s.port d).sleeping = true ∨ s.get (LNK_STATE.TX_SLEEP (px d)) = 1 → exec (.txSleepEntry d) s = .next s) ∧
    (s.get (LNK_STATE.TX_SLEEP (px d)) ≠ 1 → exec (.txWake d) s = .next s) ∧
    (s.get (LNK_STATE.TX_SLEEP (px d)) = 1 →
      ((s.port d).out ≠ [] ∨ (s.port d).ctls ≠ [] ∨ s.packetsFor d ≠ 0 ∨ 16 ≤ (s.port d).unacked →
        exec (.txWake d) s = .next (s.set (LNK_STATE.TX_SLEEP (px d)) 0)) ∧
      ((s.port d).out = [] → (s.port d).ctls = [] → s.packetsFor d = 0 → (s.port d).unacked < 16 →
        ((s.port d).unackedAt = none → exec (.txWake d) s = .next s) ∧
        ∀ f : Nat, (s.port d).unackedAt = some f → exec (.txWake d) s = .next ((s.advance (f + 2000)).set (LNK_STATE.TX_SLEEP (px d)) 0)))) ∧
  (∀ (d : Bool) (k : Packet) (s : State),
    (k.dst ≠ 63 → k.dst ≠ s.get CHN_STATE.TALLY ∨ s.get CHN_STATE.TALLY = 0 → k.dt ≠ 0x33 →
      (k.vc ≠ 1 → exec (.packetForward d k) s = .next (s.cross d k)) ∧
      (k.vc = 1 → (s.port d).stamps.headD false = false →
        exec (.packetForward d k) s = .next ((s.setPort d fun p => { p with stamps := p.stamps.drop 1 }).cross d k)) ∧
      (k.vc = 1 → (s.port d).stamps.headD false = true →
        exec (.packetForward d k) s = .next ((s.setPort d fun p => { p with stamps := p.stamps.drop 1 }).bump (LNK_ERRCNT1.TIME_DROP (px d)) 1))) ∧
    (k.dst = 63 ∨ (k.dst = s.get CHN_STATE.TALLY ∧ s.get CHN_STATE.TALLY ≠ 0) ∨ k.dt = 0x33 → exec (.packetForward d k) s = .next s)) ∧
  (∀ (d : Bool) (s : State),
    (s.portState d ≠ 5 ∨ s.room d ≤ (s.port d).outBytes → exec (.packetTransmit d) s = .next s) ∧
    (s.portState d = 5 → (s.port d).outBytes < s.room d →
      (Tbl.get [] s.chn.passed (px d) = [] → Tbl.get [] s.chn.queue (px d) = [] → exec (.packetTransmit d) s = .next s) ∧
      (∀ (k : Packet) (due : Nat) (ks : List (Packet × Nat)), Tbl.get [] s.chn.passed (px d) = (k, due) :: ks → due ≤ (s.port d).blocks →
        ∃ t : State, t = { s with chn := { s.chn with passed := t.chn.passed } } ∧ Tbl.get [] t.chn.passed (px d) = ks ∧
          Tbl.get [] t.chn.passed (px (!d)) = Tbl.get [] s.chn.passed (px (!d)) ∧
          exec (.packetTransmit d) s = .next (t.setPort d fun p => { p with out := p.out ++ [⟨k.bytes, some due, decide (k.vc = 1), true⟩] })) ∧
      (∀ (v : Nat) (k : Packet), (∀ e ∈ Tbl.get [] s.chn.passed (px d), (s.port d).blocks < e.2) → v ≤ 5 →
        (Tbl.get [] s.chn.queue (px d)).find? (fun k => decide (k.vc = v)) = some k →
        (∀ k' ∈ Tbl.get [] s.chn.queue (px d), k'.vc = v ∨ (v ≠ 1 ∧ k'.vc ≠ 1 ∧ v < k'.vc) ∨ (v = 1 ∧ k'.vc ≠ 1)) →
        ∃ t : State, t = { s with chn := { s.chn with queue := t.chn.queue } } ∧
          Tbl.get [] t.chn.queue (px d) = (Tbl.get [] s.chn.queue (px d)).eraseP (fun k => decide (k.vc = v)) ∧
          Tbl.get [] t.chn.queue (px (!d)) = Tbl.get [] s.chn.queue (px (!d)) ∧
          exec (.packetTransmit d) s = .next (t.setPort d fun p => { p with out := p.out ++ [⟨k.bytes, none, decide (k.vc = 1), true⟩] }))))

/-- O46. Program instructions that stay in the engine: results, the next address, WAIT, undefined registers and faulty fetches. An engine that is not
RUNNING, is in WAIT, stands in a quadrant that does not run, or has no such number issues nothing. One that goes on and fetches beyond instruction
memory faults BUS_ERR, at an address that is not aligned ILLEGAL, a word with two errors ECC_INSTR; a one-bit error in it is corrected and counted. A
scalar result goes to its register (s0 takes nothing), the sum and the difference modulo 2^32, the address moves on by 4 or round a loop. A taken
branch goes to its target, a call leaves the next address in rs, a return goes to rs, a loop runs from the next instruction; a third nested loop, a
misaligned target and a register number of 32 or more are ILLEGAL. Vector sums and differences wrap lane by lane; a multiply-accumulate adds 16-bit
products to 48-bit lanes; a broadcast fills every lane, a horizontal sum is taken on 32 bits. Results of the other operations are the model's
uninterpreted Config.sakonu of their operands. WAIT with no source selected is ILLEGAL, otherwise the engine waits unless a selected source holds;
FENCE only moves on. Every other engine and everything outside the engine stays as it is. A fault of an engine without a stope stops it with its code
and address, discards its claims, counts, and raises ENG_FAULT. -/
def Obligations.ProgramsCompute : Prop :=
  (∀ (e f : Nat) (op : ScalarOp) (bo : BranchOp) (vo : VectorOp) (po : PermOp) (m : VectorMem) (ld sx w : Bool) (n a b c d : Nat) (er : List Nat),
    ∀ i ∈ [Instr.engScalarAlu e f op a b c, .engBranch e f bo a b c, .engScalarLoadStore e f ld n sx a b c d, .engVectorAlu e f vo w a b c d,
      .engVectorMac e f w sx a b c, .engVectorLoadStore e f ld m w a b c er, .engPermuteReduce e f po w sx a b c, .wait e f, .fence e f, .trap e f a],
    ∀ s : State,
      (264 ≤ e ∨ (s.engine e).st ≠ 1 ∨ (s.engine e).waiting = true ∨ s.quadrantRuns e = false → exec i s = .next s) ∧
      (s.goesOn e = true →
        (0x10000 ≤ (s.engine e).pc → exec i s = .next (s.engFault e 4)) ∧
        ((s.engine e).pc < 0x10000 → (s.engine e).pc % 4 ≠ 0 → exec i s = .next (s.engFault e 5)) ∧
        ((s.engine e).pc < 0x10000 → (s.engine e).pc % 4 = 0 → 2 ≤ (s.engine e).errorAt (s.engine e).pc 4 [f] →
          ∃ u : State, OnlyEngine e s u ∧ u.engine e = s.fetched e f ∧ exec i s = .next (u.engFault e 3)))) ∧
  (∀ (e f : Nat) (s : State), s.issues e f → (Tbl.get 0 (s.engine e).bad ((s.engine e).pc / 8) = 0 ∧ f = 0 → s.fetched e f = s.engine e) ∧
    (f = 1 → s.fetched e f = { s.engine e with corr := min 65535 ((s.engine e).corr + 1), bad := Tbl.set 0 (s.engine e).bad ((s.engine e).pc / 8) 0 })) ∧
  (∀ (e f : Nat) (op : ScalarOp) (rd rs rt : Nat) (s : State), s.issues e f → ∃ g : Eng, g = s.fetched e f ∧
    (rd < 32 → rs < 32 → rt < 32 → ∃ t : State, exec (.engScalarAlu e f op rd rs rt) s = .next t ∧ OnlyEngine e s t ∧
      t.engine e = (g.setS rd (scalarResult op (g.sreg rs) (g.sreg rt))).stepPc) ∧
    (32 ≤ rd ∨ 32 ≤ rs ∨ 32 ≤ rt → ∃ u : State, OnlyEngine e s u ∧ u.engine e = g ∧ exec (.engScalarAlu e f op rd rs rt) s = .next (u.engFault e 5))) ∧
  (∀ (g : Eng) (r v : Nat), (0 < r → r < 32 → (g.setS r v).sreg r = v % 2 ^ 32) ∧ (g.setS r v).sreg 0 = 0 ∧
    (∀ q : Nat, q ≠ r → (g.setS r v).sreg q = g.sreg q) ∧
    (g.loops = [] → g.stepPc.pc = g.pc + 4) ∧
    (∀ (st en c : Nat) (l : List (Nat × Nat × Nat)), g.loops = (st, en, c) :: l → g.pc + 4 = en → 1 < c →
      g.stepPc.pc = st ∧ g.stepPc.loops = (st, en, c - 1) :: l)) ∧
  (∀ (e f rs rt k target : Nat) (s : State), s.issues e f → rs < 32 → rt < 32 → ∃ g : Eng, g = s.fetched e f ∧
    (target % 4 ≠ 0 → ∃ u : State, OnlyEngine e s u ∧ u.engine e = g ∧ exec (.engBranch e f .call rs rt target) s = .next (u.engFault e 5)) ∧
    (2 ≤ g.loops.length → ∃ u : State, OnlyEngine e s u ∧ u.engine e = g ∧ exec (.engBranch e f .loop rs rt target) s = .next (u.engFault e 5)) ∧
    (target % 4 = 0 →
      ∃ a b c d : State, OnlyEngine e s a ∧ OnlyEngine e s b ∧ OnlyEngine e s c ∧ OnlyEngine e s d ∧
        exec (.engBranch e f .call rs rt target) s = .next a ∧ a.engine e = { g.setS rs (g.pc + 4) with pc := target } ∧
        exec (.engBranch e f .ret rs rt target) s = .next b ∧ b.engine e = { g with pc := g.sreg rs } ∧
        (g.loops.length < 2 → exec (.engBranch e f .loop rs rt target) s = .next c ∧
          c.engine e = { g with pc := g.pc + 4, loops := (g.pc + 4, target, g.sreg rs) :: g.loops }) ∧
        exec (.engBranch e f (.cond k) rs rt target) s = .next d ∧
        d.engine e = if Config.sakonu (16 + k) [g.sreg rs, g.sreg rt] % 2 = 1 then { g with pc := target } else g.stepPc)) ∧
  (∀ (e f : Nat) (op : VectorOp) (wide : Bool) (d a b c : Nat) (s : State), s.issues e f → d < 32 → a < 32 → b < 32 → c < 32 →
    ∃ (g : Eng) (t : State), g = s.fetched e f ∧ exec (.engVectorAlu e f op wide d a b c) s = .next t ∧ OnlyEngine e s t ∧
      t.engine e = (g.setV d ((t.engine e).vreg d)).stepPc ∧
      (op = .add → ∀ i : Nat, i < 512 / laneBits wide → lane ((t.engine e).vreg d) (laneBits wide) i =
        (lane (g.vreg a) (laneBits wide) i + lane (g.vreg b) (laneBits wide) i) % 2 ^ laneBits wide) ∧
      (op = .sub → ∀ i : Nat, i < 512 / laneBits wide → lane ((t.engine e).vreg d) (laneBits wide) i =
        (lane (g.vreg a) (laneBits wide) i + 2 ^ laneBits wide - lane (g.vreg b) (laneBits wide) i) % 2 ^ laneBits wide)) ∧
  (∀ (e f d a b : Nat) (wide sx : Bool) (s : State), s.issues e f → d < 4 → a < 32 → b < 32 →
    ∃ (g : Eng) (t : State), g = s.fetched e f ∧ exec (.engVectorMac e f wide sx d a b) s = .next t ∧ OnlyEngine e s t ∧
      t.engine e = { g.stepPc with a := (t.engine e).a } ∧
      (∀ k : Nat, k < 64 * d ∨ 64 * d + (if wide then 16 else 32) ≤ k → Tbl.get 0 (t.engine e).a k = Tbl.get 0 g.a k) ∧
      (wide = false → ∀ i : Nat, i < 32 → Tbl.get 0 (t.engine e).a (64 * d + i) = unsigned 48 (((Tbl.get 0 g.a (64 * d + i) : Nat) : Int) +
        if sx then signed 16 (lane (g.vreg a) 16 i) * signed 16 (lane (g.vreg b) 16 i)
        else ((lane (g.vreg a) 16 i * lane (g.vreg b) 16 i : Nat) : Int)))) ∧
  (∀ (e f d a b : Nat) (wide sx : Bool) (s : State), s.issues e f → d < 32 → a < 32 → b < 32 →
    ∃ (g : Eng) (t u v : State), g = s.fetched e f ∧ exec (.engPermuteReduce e f .broadcast wide sx d a b) s = .next t ∧
      exec (.engPermuteReduce e f .sum wide sx d a b) s = .next u ∧
      exec (.engPermuteReduce e f .shuffle wide sx d a b) s = .next v ∧ OnlyEngine e s t ∧ OnlyEngine e s u ∧ OnlyEngine e s v ∧
      t.engine e = (g.setV d ((t.engine e).vreg d)).stepPc ∧
      (∀ i : Nat, i < 512 / laneBits wide → lane ((t.engine e).vreg d) (laneBits wide) i = g.sreg a % 2 ^ laneBits wide) ∧
      u.engine e = (g.setS d (unsigned 32 ((List.range (512 / laneBits wide)).foldl (fun z i =>
        z + if sx then signed (laneBits wide) (lane (g.vreg a) (laneBits wide) i) else (lane (g.vreg a) (laneBits wide) i : Int)) 0))).stepPc ∧
      v.engine e = (g.setV d (Config.sakonu 64 [laneBits wide, g.vreg a, g.vreg b])).stepPc) ∧
  (∀ (e f : Nat) (s : State), s.issues e f → ∃ g : Eng, g = s.fetched e f ∧
    (g.l 0x38 = 0 → ∃ u : State, OnlyEngine e s u ∧ u.engine e = g ∧ exec (.wait e f) s = .next (u.engFault e 5)) ∧
    (g.l 0x38 ≠ 0 → ∃ t : State, exec (.wait e f) s = .next t ∧ OnlyEngine e s t ∧
      t.engine e = { g.stepPc with waiting := !g.awake s.fwc, waitAt := s.fwc }) ∧
    (∃ t : State, exec (.fence e f) s = .next t ∧ OnlyEngine e s t ∧ t.engine e = g.stepPc) ∧
    ∀ c : Nat, ∃ u : State, OnlyEngine e s u ∧ u.engine e = g ∧
      exec (.trap e f c) s = .next ((u.onEng fun q => { q with log := q.log ++ [(e, s.fwc, [c])] }).engFault e 8)) ∧
  (∀ (e c : Nat) (s : State), ((s.engine e).st ≠ 1 → s.engFault e c = s) ∧
    ((s.engine e).claimed = [] → OnlyEngine e s (s.dropClaims e)) ∧
    ((s.engine e).st = 1 → s.stopeOf e = none → s.secondFault e = false → ∃ u v : State, OnlyEngine e (s.dropClaims e) u ∧
      u.engine e = { s.engine e with st := 2, fault := c, stopPc := (s.engine e).pc, waiting := false, claimed := [] } ∧
      Only [ENG_ERRCNT1.FAULTS] u v ∧ v.get ENG_ERRCNT1.FAULTS = min (2 ^ ENG_ERRCNT1.FAULTS.width - 1) (s.get ENG_ERRCNT1.FAULTS + 1) ∧
      s.engFault e c = v.raise 0x0A01 [e, c, (s.engine e).pc, s.fwc]))

/-- O47. Loads, stores and local registers of a program, the mailbox, pushes, items, the scrubber and the watchdog. A scalar store of 1, 2, 4 or 8 bytes,
aligned, to data SRAM changes exactly the stored bytes; a load gives the bytes read, extended where asked, one-bit errors corrected and counted;
misaligned is ILLEGAL, an address of no kind BUS_ERR, a word with two errors ECC_DATA. A vector load brings its elements (one block, strided or
gathered) into a vector register, a vector store writes them in order; a gather across 4 KiB blocks, or a store by one, is ILLEGAL. Commands of a
program that does not go on change nothing; else LCL_IN_RD moves on within what is published, a write beyond it faults RING_PROTO; a push refused with
3, 2 or 1 leaves its code and counts, an accepted one appends the window's bytes; a seal seals the sweep; LCL_PET restarts the watchdog; a trap logs
its code and faults; an event is raised; outbox and inbox indices move on. The timer at 0 ends its WAIT; PUSH_COPY_DONE clears BUSY; READY and LOG
leave the outbox. KEY_REFRESH, MAP_CHANGED and STAT_REQ go to the stope's engine, held while it is remapped; a program of the kit takes them (log
entry 53). The watchdog faults. ITEM_PUBLISH publishes the oldest item claimed while the engine takes items; a program of the kit takes it and
releases the slot. The scrubber corrects one-bit errors, counts and notes two-bit ones, in data SRAM and instruction memory. -/
def Obligations.ProgramsUseMemoryAndThePorts : Prop :=
  (∀ (m : List Host.Cell) (a b : Nat) (bs : List Nat),
    memByte (memWrite m a bs) b = if a ≤ b ∧ b < a + bs.length then bs.getD (b - a) 0 % 256 else memByte m b) ∧
  (∀ (e f n reg base off : Nat) (sx : Bool) (err : Nat) (s : State), s.issues e f → n ∈ [1, 2, 4, 8] → reg < 32 → (n = 8 → reg < 31) → base < 32 →
    ∃ (g : Eng) (a : Nat), g = s.fetched e f ∧ a = (g.sreg base + off) % 2 ^ 32 ∧
      (a % n = 0 → dsram ≤ a → a + n ≤ dsram + 0x400000 →
        (∃ t : State, exec (.engScalarLoadStore e f false n sx reg base off err) s = .next t ∧ OnlyEngine e s t ∧
          t.engine e = { g.stepPc with mem := (t.engine e).mem, bad := (t.engine e).bad } ∧
          ∀ b : Nat, memByte (t.engine e).mem b = if a ≤ b ∧ b < a + n then
            (if b - a < 4 then g.sreg reg / 256 ^ (b - a) else g.sreg (reg + 1) / 256 ^ (b - a - 4)) % 256 else memByte g.mem b) ∧
        (g.errorAt a n [err] ≤ 1 → ∃ (h : Eng) (t : State), h = g.noteErrors a n [err] ∧
          exec (.engScalarLoadStore e f true n sx reg base off err) s = .next t ∧ OnlyEngine e s t ∧
          (n < 4 → sx = true → t.engine e = (h.setS reg (unsigned 32 (signed (8 * n) (ofLeBytes (memBytes g.mem a n))))).stepPc) ∧
          (n ≤ 4 → n = 4 ∨ sx = false → t.engine e = (h.setS reg (ofLeBytes (memBytes g.mem a n))).stepPc) ∧
          (n = 8 → t.engine e = ((h.setS reg (ofLeBytes (memBytes g.mem a 8))).setS (reg + 1) (ofLeBytes (memBytes g.mem a 8) / 2 ^ 32)).stepPc)) ∧
        (2 ≤ g.errorAt a n [err] → ∃ u : State, OnlyEngine e s u ∧ u.engine e = g.noteErrors a n [err] ∧
          exec (.engScalarLoadStore e f true n sx reg base off err) s = .next (u.engFault e 2))) ∧
      (a % n ≠ 0 → ∃ u : State, OnlyEngine e s u ∧ u.engine e = g ∧ exec (.engScalarLoadStore e f true n sx reg base off err) s = .next (u.engFault e 5) ∧
        exec (.engScalarLoadStore e f false n sx reg base off err) s = .next (u.engFault e 5)) ∧
      (a % n = 0 → addrKind a n = 0 → ∃ u : State, OnlyEngine e s u ∧ u.engine e = g ∧
        exec (.engScalarLoadStore e f true n sx reg base off err) s = .next (u.engFault e 4) ∧
        exec (.engScalarLoadStore e f false n sx reg base off err) s = .next (u.engFault e 4)) ∧
      (a % n = 0 → addrKind a n = 2 → n ≤ 4 → ∃ u : State, OnlyEngine e s u ∧ u.engine e = g ∧
        exec (.engScalarLoadStore e f false n sx reg base off err) s =
          .next (let t := u.lclWrite e (a % 256 / 4 * 4) (g.sreg reg % 256 ^ n); if (t.engine e).st = 1 then t.setEngine e Eng.stepPc else t))) ∧
  (∀ (e f vr base off : Nat) (mode : VectorMem) (wide : Bool) (errs : List Nat) (s : State), s.issues e f → vr < 32 → base < 32 →
    ∃ (g : Eng) (l : List Nat) (n : Nat), g = s.fetched e f ∧ l = g.vaddrs mode wide ((g.sreg base + off) % 2 ^ 32) ∧ n = vsize mode wide ∧
      (gatherOk mode true l = true → (∀ a ∈ l, a % n = 0 ∧ dsram ≤ a ∧ a + n ≤ dsram + 0x400000 ∧ g.errorAt a n [] = 0) →
        ∃ t : State, exec (.engVectorLoadStore e f true mode wide vr base off []) s = .next t ∧ OnlyEngine e s t ∧
          t.engine e = (g.setV vr (ofLeBytes (l.flatMap fun a => memBytes g.mem a n))).stepPc) ∧
      (∀ a : Nat, mode = .block → a = (g.sreg base + off) % 2 ^ 32 → a % 64 = 0 → dsram ≤ a → a + 64 ≤ dsram + 0x400000 →
        (g.errorAt a 64 errs ≤ 1 → ∃ t : State, exec (.engVectorLoadStore e f true mode wide vr base off errs) s = .next t ∧ OnlyEngine e s t ∧
          t.engine e = ((g.noteErrors a 64 errs).setV vr (ofLeBytes (memBytes g.mem a 64))).stepPc) ∧
        (2 ≤ g.errorAt a 64 errs → ∃ u : State, OnlyEngine e s u ∧ u.engine e = g.noteErrors a 64 errs ∧
          exec (.engVectorLoadStore e f true mode wide vr base off errs) s = .next (u.engFault e 2))) ∧
      (gatherOk mode false l = true → (∀ a ∈ l, a % n = 0 ∧ dsram ≤ a ∧ a + n ≤ dsram + 0x400000) →
        ∃ t : State, exec (.engVectorLoadStore e f false mode wide vr base off errs) s = .next t ∧ OnlyEngine e s t ∧
          t.engine e = { g.stepPc with mem := (t.engine e).mem, bad := (t.engine e).bad } ∧
          (t.engine e).mem = (List.range l.length).foldl (fun m i => memWrite m (l.getD i 0) (((leBytes (g.vreg vr) 64).drop (n * i)).take n)) g.mem) ∧
      (∀ ld : Bool, gatherOk mode ld l = false → ∃ u : State, OnlyEngine e s u ∧ u.engine e = g ∧
        exec (.engVectorLoadStore e f ld mode wide vr base off errs) s = .next (u.engFault e 5))) ∧
  (∀ (e v st n c : Nat) (s : State), 264 ≤ e ∨ (s.engine e).st ≠ 1 ∨ (s.engine e).waiting = true ∨ s.quadrantRuns e = false →
    ∀ i ∈ [Instr.lclInRdWrite e v, .lclPush e st n, .lclPushSeal e, .lclPetWrite e, .lclTrapWrite e c, .lclEventWrite e c, .lclOutboxPost e v,
      .lclInboxRdWrite e v, .engWatchdog e], exec i s = .next s) ∧
  (∀ (e : Nat) (s : State), s.goesOn e = true → ∃ g : Eng, g = s.engine e ∧
    (∀ v : Nat, serialDiff 16 (v % 65536) (g.l 0x10) ≤ serialDiff 16 (g.l 0x0C) (g.l 0x10) →
      ∃ t : State, exec (.lclInRdWrite e v) s = .next t ∧ OnlyEngine e s t ∧ t.engine e = g.setL 0x10 (v % 65536)) ∧
    (∀ v : Nat, serialDiff 16 (g.l 0x0C) (g.l 0x10) < serialDiff 16 (v % 65536) (g.l 0x10) →
      exec (.lclInRdWrite e v) s = .next (if serialLater 16 (v % 65536) (g.l 0x10) then s.engFault e 6 else s)) ∧
    (∀ st n : Nat, n = 0 ∨ 16384 < n ∨ n % 8 ≠ 0 ∨ 3 < st → bit (g.l 0x20) 31 = true →
      exec (.lclPush e st n) s = .next (((s.pushDone e).setEngine e fun h => h.setL 0x20 3).bump ENG_ERRCNT1.PUSH_REFUSED 1)) ∧
    (∀ st n : Nat, bit (g.l 0x20) 31 = false →
      (n = 0 ∨ 16384 < n ∨ n % 8 ≠ 0 ∨ 3 < st → ∃ u : State, OnlyEngine e s u ∧ u.engine e = g.setL 0x20 3 ∧
        exec (.lclPush e st n) s = .next (u.bump ENG_ERRCNT1.PUSH_REFUSED 1)) ∧
      (0 < n → n ≤ 16384 → n % 8 = 0 → st ≤ 3 →
        (s.openFor e (g.l 0x18) = none → ∃ u : State, OnlyEngine e s u ∧ u.engine e = g.setL 0x20 2 ∧
          exec (.lclPush e st n) s = .next (u.bump ENG_ERRCNT1.PUSH_REFUSED 1)) ∧
        (∀ o : OutSweep, s.openFor e (g.l 0x18) = some o → s.poolFree < n → ∃ u v : State, OnlyEngine e s u ∧ u.engine e = g.setL 0x20 1 ∧
          v = (u.bump ENG_ERRCNT1.PUSH_REFUSED 1).setOut o.stope o.sweep (fun q => { q with refused := true, cond := setBit q.cond 9 true }) ∧
          exec (.lclPush e st n) s = .next (if o.refused then v else v.raise 0x0A07 [o.stope, 1])) ∧
        (∀ o : OutSweep, s.openFor e (g.l 0x18) = some o → n ≤ s.poolFree → ∃ t : State, exec (.lclPush e st n) s = .next t ∧
          t = { s with
            pipe := { s.pipe with blank := false }
            eng := { s.eng with
              engs := t.eng.engs
              out := s.eng.out.map fun q => if q.is o.stope o.sweep then { q with
                streams := Tbl.set [] q.streams st (q.stream st ++ memBytes g.mem windowBase n), copying := some (st, n) } else q } } ∧
          t.engine e = g.setL 0x20 (2 ^ 31) ∧ ∀ x : Nat, x ≠ e → t.engine x = s.engine x))) ∧
    (s.openFor e (g.l 0x18) = none → exec (.lclPushSeal e) s = .next s) ∧
    (∀ o : OutSweep, s.openFor e (g.l 0x18) = some o → ∃ u : State, exec (.lclPushSeal e) s = .next u.releaseReady ∧
      u = { s with eng := { s.eng with engs := u.eng.engs, out := s.eng.out.map fun q => if q.is o.stope o.sweep then { q with sealed := true } else q } } ∧
      u.engine e = { g with late := 0 } ∧ ∀ x : Nat, x ≠ e → u.engine x = s.engine x) ∧
    (∃ t : State, exec (.lclPetWrite e) s = .next t ∧ OnlyEngine e s t ∧ t.engine e = { g with pet := s.fwc }) ∧
    (∀ c : Nat, exec (.lclTrapWrite e c) s = .next ((s.onEng fun q => { q with log := q.log ++ [(e, s.fwc, [c % 65536])] }).engFault e 8) ∧
      exec (.lclEventWrite e c) s = .next (s.raise (0x0A80 + c % 128) [e, (s.stopeOf e).getD 0])) ∧
    (∀ v : Nat, ∃ u : State, OnlyEngine e s u ∧ u.engine e = g.setL 0x30 (v % 16) ∧ exec (.lclOutboxPost e v) s = .next (State.takeProgram 16 e u)) ∧
    (∀ v : Nat, ∃ t : State, exec (.lclInboxRdWrite e v) s = .next t ∧ OnlyEngine e s t ∧ t.engine e = Eng.flushAll s.fwc 16 (g.setL 0x2C (v % 16))) ∧
    exec (.engWatchdog e) s = .next ((s.advance (g.pet + s.get ENG_WD.LIMIT_US * 2000)).engFault e 1)) ∧
  (∀ (e : Nat) (s : State),
    ((s.engine e).timer = 0 → exec (.lclTimerZero e) s = .next s) ∧
    ((s.engine e).timer ≠ 0 → ∃ t : State, exec (.lclTimerZero e) s = .next t ∧ OnlyEngine e (s.advance (((s.engine e).timer + 4) / 5)) t ∧
      t.engine e = (if (s.engine e).waiting = true ∧ bit ((s.engine e).l 0x38) 2 = true then
          { s.engine e with timer := 0, waiting := false, pet := (s.engine e).pet + (t.fwc - (s.engine e).waitAt) }
        else { s.engine e with timer := 0 })) ∧
    (bit ((s.engine e).l 0x20) 31 = false → exec (.pushCopyDone e) s = .next s) ∧
    (bit ((s.engine e).l 0x20) 31 = true → ∃ u : State, exec (.pushCopyDone e) s = .next u.releaseReady ∧
      u = { s with eng := { s.eng with engs := u.eng.engs, out := s.eng.out.map fun o => if o.engine = e then { o with copying := none } else o } } ∧
      u.engine e = (s.engine e).setL 0x20 ((s.engine e).l 0x20 % 4) ∧ ∀ x : Nat, x ≠ e → u.engine x = s.engine x) ∧
    ((s.engine e).outMessage = none → exec (.engineReadyMessage e) s = .next s ∧ exec (.logMessage e) s = .next s) ∧
    (∀ m : List Nat, (s.engine e).outMessage = some m →
      (messageType m = 0x8001 → e ∉ s.eng.ready → ∃ u : State, exec (.engineReadyMessage e) s = .next (State.takeProgram 16 e u) ∧
        u = { s with eng := { s.eng with engs := u.eng.engs, ready := s.eng.ready ++ [e] } } ∧
        u.engine e = (s.engine e).setL 0x34 (((s.engine e).l 0x34 + 1) % 16) ∧ ∀ x : Nat, x ≠ e → u.engine x = s.engine x) ∧
      (messageType m = 0x8002 → ∃ u : State, exec (.logMessage e) s = .next (State.takeProgram 16 e u) ∧
        u = { s with eng := { s.eng with engs := u.eng.engs, log := s.eng.log ++ [(e, s.fwc, messagePayload m)] } } ∧
        u.engine e = (s.engine e).setL 0x34 (((s.engine e).l 0x34 + 1) % 16) ∧ ∀ x : Nat, x ≠ e → u.engine x = s.engine x) ∧
      (messageType m ≠ 0x8001 → exec (.engineReadyMessage e) s = .next s) ∧ (messageType m ≠ 0x8002 → exec (.logMessage e) s = .next s))) ∧
  (∀ (x b l n e : Nat) (s : State) (g : Eng), s.engineOf x = some e → g = s.engine e →
    (g.runsKit = false → ∃ (a c d : State) (put : Eng → List Nat → Eng), OnlyEngine e s a ∧ OnlyEngine e s c ∧ OnlyEngine e s d ∧
      exec (.keyRefresh x) s = .next a ∧ exec (.mapChanged x b l n) s = .next c ∧ exec (.statReq x n) s = .next d ∧
      a.engine e = put g (message 0x0001 [] ((s.get CAD_SWEEP.SWEEP + s.lockN) % 2 ^ 32)) ∧
      c.engine e = put g (message 0x0002 (leBytes b 4 ++ leBytes l 4 ++ leBytes n 4) n) ∧ d.engine e = put g (message 0x0003 [] n) ∧
      ((∀ r : Remap, s.eng.remap = some r → r.stope ≠ x) → ∀ m : List Nat, put g m = g.post m s.fwc) ∧
      (∀ r : Remap, s.eng.remap = some r → r.stope = x → ∀ m : List Nat, put g m = { g with inbox := g.inbox ++ [m] })) ∧
    (∀ k : Std, g.st = 1 → g.std = some k → s.eng.remap = none → g.inbox = [] → g.l 0x28 = g.l 0x2C → g.l 0x28 < 16 →
      ∃ a c d : State, exec (.keyRefresh x) s = .next a ∧ exec (.mapChanged x b l n) s = .next c ∧ exec (.statReq x n) s = .next d ∧
        (a.engine e).std = some { k with refresh := (s.get CAD_SWEEP.SWEEP + s.lockN) % 2 ^ 32 :: k.refresh } ∧
        (d.engine e).std = some { k with stats := n % 2 ^ 32 :: k.stats } ∧
        (c.engine e).std = some { k with next := some (n % 2 ^ 32, mapSound (tablesOf g.mem), tablesOf g.mem) } ∧
        (a.engine e).l 0x2C = (g.l 0x28 + 1) % 16 ∧ (a.engine e).l 0x28 = (g.l 0x28 + 1) % 16) ∧
    (g.takes = false ∨ g.claimed = [] → exec (.itemPublish x) s = .next s) ∧
    (∀ (i : RingItem) (q : List RingItem), g.claimed = i :: q → g.takes = true →
      (g.runsKit = false → ∃ t : State, exec (.itemPublish x) s = .next t ∧ OnlyEngine e s t ∧ t.engine e = g.publish s.fwc) ∧
      (g.runsKit = true → ∃ u t : State, OnlyEngine e s u ∧ u.engine e = g.publish s.fwc ∧ exec (.itemPublish x) s = .next t ∧ t = u.kitItem e i ∧
        (t.engine e).l 0x10 = (t.engine e).l 0x0C ∧ (t.engine e).pet = s.fwc))) ∧
  (∀ (x b l n : Nat) (s : State), s.engineOf x = none →
    ∀ i ∈ [Instr.keyRefresh x, .mapChanged x b l n, .statReq x n, .itemPublish x], exec i s = .next s) ∧
  (∀ (e a x : Nat) (s : State),
    (e < 264 → (dsram ≤ a ∧ a + 8 ≤ dsram + 0x400000) ∨ a + 8 ≤ 0x10000 → a % 8 = 0 → ∃ (g : Eng) (m : Nat) (t : State), g = s.engine e ∧
      m = max (Tbl.get 0 g.bad (a / 8)) x ∧ exec (.scrubRead e a x) s = .next t ∧ OnlyEngine e s t ∧
      t.engine e = if m = 0 then g else if m = 1 then { g with corr := min 65535 (g.corr + 1), bad := Tbl.set 0 g.bad (a / 8) 0 }
        else { g with uncorr := min 65535 (g.uncorr + 1), bad := Tbl.set 0 g.bad (a / 8) 2 }) ∧
    (264 ≤ e ∨ a % 8 ≠ 0 ∨ (addrKind a 8 ≠ 1 ∧ 0x10000 < a + 8) → exec (.scrubRead e a x) s = .next s))

/-- O48. Start, halt and clear, the memory window, deadlines, remaps and quadrants. START of a HALTED engine of a running quadrant that holds no staged
lines and runs no BIST puts it in RUNNING at address 0 with its registers 0; a program of the kit (Config.kitProgram, log entry 53) checks its map,
sets its rings and window and says READY. HALT stops a RUNNING one at its address and discards its claims, CLEAR of one that is not RUNNING, staged or
in BIST empties its memory; otherwise each changes nothing beside the bookkeeping; without the role's session the write is rejected. ENG_MEM_ADDR sets
the address and starts the CRC anew; ENG_MEM_DATA written stores its word where the engine, or each engine of the broadcast mask, takes it; a word not
taken is counted and raised once a second; read, it answers the window's word; both move the address on by 4. Sweeps at their deadline are sealed,
with a strike. REMAP_START retires a faulted engine and begins a copy to the free engine chosen, or raises ENG_NO_SPARE; REMAP_COPY_DONE copies memory
outside the rings and the local registers and notes bad words; REMAP_COMPLETE writes the map, moves held messages and starts the target with cause 2,
in HOLD as HOLD ends, after a bad word not at all; a pithead in CAPTURE notes it for a new epoch. ENG_REMAP with GO begins a remap, or gives RESULT 3
in CAPTURE and HOLD, 2 for an engine not free. QEN starts quadrants and stops those not busy, else ENG_DENIED; a first enable clears the engines and
then shows in QRUN. -/
def Obligations.EnginesAreRunFromOutside : Prop :=
  (∀ s : State, s.answers .foreman 0x0A00C = true →
    ∃ (e : Nat) (g : Eng), e = s.get ENG_SEL.ENGINE ∧ g = s.engine e ∧
      (g.st = 0 → g.staged = false → s.bistOn e = false → s.bitOf ENG_STATUS.QRUN (quadrantOf e) = true →
        exec (.engStart .foreman) s = .next (s.startWith e 0).reviewEngines) ∧
      (g.st ≠ 0 ∨ g.staged = true ∨ s.bistOn e = true ∨ s.bitOf ENG_STATUS.QRUN (quadrantOf e) = false → exec (.engStart .foreman) s = .next s) ∧
      (g.st = 1 → ∃ u : State, exec (.engHalt .foreman) s = .next u.reviewEngines ∧ OnlyEngine e (s.dropClaims e) u ∧
        u.engine e = { g with st := 0, stopPc := g.pc, waiting := false, claimed := [] }) ∧
      (g.st ≠ 1 → exec (.engHalt .foreman) s = .next s) ∧
      (g.st ≠ 1 → g.staged = false → s.bistOn e = false → ∃ u : State, exec (.engClear .foreman) s = .next u.reviewEngines ∧ OnlyEngine e s u ∧
        u.engine e = { g with st := 0, fault := 0, mem := [], bad := [] }) ∧
      (g.st = 1 ∨ g.staged = true ∨ s.bistOn e = true → exec (.engClear .foreman) s = .next s)) ∧
  (∀ (e c : Nat) (s : State), ∃ (g : Eng) (k : Nat) (v : State), g = { s.engine e with
      st := 1, pc := 0, cause := c, ran := false, waiting := false, s := [], v := [], a := [], loops := [], startAt := s.fwc, pet := s.fwc } ∧
    k = Config.kitProgram (g.mem.filter fun q => decide (q.1 < 0x10000)) ∧ OnlyEngine e s v ∧
    v.engine e = (if k = 0 ∨ 2 < k then { g with std := none } else { ((g.kitRings).kitWindow s.power).sayReady with
      std := some { survey := decide (k = 2), map := tablesOf g.mem, sound := mapSound (tablesOf g.mem) } }) ∧
    s.startWith e c = (if k = 1 ∧ mapSound (tablesOf g.mem) = false then v.raise 0x0A80 [e, (s.stopeOf e).getD 0] else v) ∧
    ((g.kitRings).l 0x04 = Config.kitRing.2.2 + 2 ^ 31 ∧ (g.kitRings).l 0x10 = g.l 0x0C ∧ (g.kitWindow s.power).l 0x58 = 0 ∧
      (g.kitWindow s.power).l 0x5C = if s.power = stIDLE ∨ s.power = stREADY then 0x241000 else 0)) ∧
  (∀ (e : Nat) (s : State), ∃ d : State, d = s.dropClaims e ∧ d = { s with eng := { s.eng with engs := d.eng.engs, out := d.eng.out } } ∧
    d.engine e = { s.engine e with claimed := [] } ∧ (∀ o : Nat, o ≠ e → d.engine o = s.engine o) ∧
    ((∀ i ∈ (s.engine e).claimed, i.tag.headD 0 ≠ 1) → d.eng.out = s.eng.out) ∧
    (∀ i ∈ (s.engine e).claimed, i.tag.headD 0 = 1 → ∀ o ∈ d.eng.out, o.engine = e → o.sweep = ofLeBytes ((i.tag.drop 8).take 4) → o.opened = false)) ∧
  (∀ (p : Path) (s : State), s.answers p 0x0A00C = false ∨ (s.power = stSAFETALK ∧ p ≠ .foreman) →
    exec (.engStart p) s = .next s ∧ exec (.engHalt p) s = .next s ∧ exec (.engClear p) s = .next s) ∧
  (∀ (p : Path) (s : State), p ≠ .foreman → s.answers p 0x0A00C = true → s.power ≠ stSAFETALK →
    (s.holds p .installer = false → exec (.engStart p) s = .next (s.sbReject p .installer 0x0A00C 1) ∧ exec (.engHalt p) s = .next (s.sbReject p .installer 0x0A00C 2)) ∧
    (s.holds p .maker = false → exec (.engClear p) s = .next (s.sbReject p .maker 0x0A00C 3)) ∧
    (s.holds p .installer = true → s.sbRoom = true →
      ∃ b c : State, b = ((s.sbWrite p .installer 0x0A00C 1).touchSession p .installer).noteFirstWrite p 0x0A00C ∧
        c = ((s.sbWrite p .installer 0x0A00C 2).touchSession p .installer).noteFirstWrite p 0x0A00C ∧
        exec (.engStart p) s = .next (b.startEngine b.selEngine) ∧ exec (.engHalt p) s = .next (c.haltEngine c.selEngine)) ∧
    (s.holds p .maker = true → s.sbRoom = true → ∃ b : State, b = ((s.sbWrite p .maker 0x0A00C 3).touchSession p .maker).noteFirstWrite p 0x0A00C ∧
      exec (.engClear p) s = .next (b.clearEngine b.selEngine))) ∧
  (∀ (p : Path) (w : Word) (s : State), s.takes p 0x0A018 w.toNat = true → (s.booked p 0x0A018 w.toNat).mayWrite p ENG_MEM_ADDR.ADDR = true →
    ∃ b t : State, b = s.booked p 0x0A018 w.toNat ∧ exec (.engMemAddrWrite p w) s = .next t ∧
      Only [ENG_MEM_ADDR.ADDR, ENG_MEM_CRC.CRC] { b with eng := { b.eng with crc := none } } t ∧ t.get ENG_MEM_CRC.CRC = ENG_MEM_CRC.CRC.reset % 2 ^ 32 ∧
      t.get ENG_MEM_ADDR.ADDR = ENG_MEM_ADDR.ADDR.of w.toNat) ∧
  (∀ (p : Path) (w : Word) (s : State), s.takes p 0x0A01C w.toNat = true → (s.booked p 0x0A01C w.toNat).mayWrite p ENG_MEM_DATA.DATA = true →
    ∃ (b : State) (e a : Nat), b = s.booked p 0x0A01C w.toNat ∧ e = b.get ENG_SEL.ENGINE ∧ a = b.get ENG_MEM_ADDR.ADDR ∧
      (b.get ENG_BCAST_CTRL.EN ≠ 1 → (b.engine e).windowTakes a = true →
        ∃ u t : State, exec (.engMemDataWrite p w) s = .next t ∧ OnlyEngine e b u ∧ u.engine e = (b.engine e).store a (leBytes w.toNat 4) ∧
          Only [ENG_MEM_CRC.CRC, ENG_MEM_ADDR.ADDR] { u with eng := { u.eng with crc := some (crc32Run (b.eng.crc.getD 0xFFFFFFFF) (leBytes w.toNat 4)) } } t ∧
          t.get ENG_MEM_ADDR.ADDR = (a + 4) % 2 ^ ENG_MEM_ADDR.ADDR.width ∧
          t.get ENG_MEM_CRC.CRC = (crc32Run (b.eng.crc.getD 0xFFFFFFFF) (leBytes w.toNat 4) ^^^ 0xFFFFFFFF) % 2 ^ 32) ∧
      (b.get ENG_BCAST_CTRL.EN ≠ 1 → (b.engine e).windowTakes a = false →
        ∃ u v t : State, u = b.bump ENG_ERRCNT1.HWIN_REJECT 1 ∧ exec (.engMemDataWrite p w) s = .next t ∧ Only [ENG_MEM_ADDR.ADDR] v t ∧
          t.get ENG_MEM_ADDR.ADDR = (a + 4) % 2 ^ ENG_MEM_ADDR.ADDR.width ∧
          (b.eng.rejectAt = none → v = (u.onEng fun q => { q with rejectAt := some u.fwc }).raise 0x0A08 [e, a]) ∧
          (∀ f : Nat, b.eng.rejectAt = some f → v = if f + 2000000000 ≤ u.fwc then (u.onEng fun q => { q with rejectAt := some u.fwc }).raise 0x0A08 [e, a] else u)) ∧
      (b.get ENG_BCAST_CTRL.EN = 1 → ∃ t : State, exec (.engMemDataWrite p w) s = .next t ∧
        ∀ i : Nat, t.engine i = if decide (i < 264) && b.bitOf (ENG_BCAST.MASK (i / 32)) (i % 32) && (b.engine i).windowTakes a
          then (b.engine i).store a (leBytes w.toNat 4) else b.engine i)) ∧
  (∀ (p : Path) (s : State),
    (s.answers p 0x0A01C = true → ∃ t : State, exec (.engMemDataRead p) s = .next t ∧ t.answer = s.windowWord p (s.get ENG_SEL.ENGINE) (s.get ENG_MEM_ADDR.ADDR) ∧
      Only [ENG_MEM_ADDR.ADDR] { s with answer := t.answer } t ∧ t.get ENG_MEM_ADDR.ADDR = (s.get ENG_MEM_ADDR.ADDR + 4) % 2 ^ ENG_MEM_ADDR.ADDR.width) ∧
    (s.answers p 0x0A01C = false → exec (.engMemDataRead p) s = .next { s with answer := 0 })) ∧
  (∀ s : State, (∀ o ∈ s.eng.out, o.starts < s.get ENG_DEADLINE.SWEEPS) → exec .sweepDeadline s = .next s) ∧
  (∀ (o : OutSweep) (s : State), s.eng.out = [o] → s.get ENG_DEADLINE.SWEEPS ≤ o.starts →
    (o.sealed = true → exec .sweepDeadline s = .next (s.release o 0 false)) ∧
    (o.sealed = false → o.opened = false →
      exec .sweepDeadline s = .next (((s.bump ENG_ERRCNT0.LATE_SWEEPS 1).release o 256 true).raise 0x0A06 [o.stope, o.sweep])) ∧
    (o.sealed = false → o.opened = true → o.engine < 264 → ∃ v u : State,
      v = ((s.bump ENG_ERRCNT0.LATE_SWEEPS 1).release o 256 true).raise 0x0A06 [o.stope, o.sweep] ∧
      u = v.setEngine o.engine (fun g => { g with late := (v.engine o.engine).late + 1 }) ∧
      exec .sweepDeadline s = .next (if u.get ENG_DEADLINE.STRIKES ≤ (v.engine o.engine).late + 1 then u.engFault o.engine 9 else u))) ∧
  (∀ s : State, s.eng.remap.isSome = true ∨ s.eng.faulted = [] → exec .remapStart s = .next s) ∧
  (∀ (e : Nat) (l : List Nat) (s : State), s.eng.remap = none → s.eng.faulted = e :: l → ∃ b : State, b = s.onEng (fun q => { q with faulted := l }) ∧
    (s.stopeOf e = none ∨ (s.engine e).st ≠ 2 → exec .remapStart s = .next (b.actionDone 0x0A01 e)) ∧
    (∀ x : Nat, s.stopeOf e = some x → (s.engine e).st = 2 →
      (b.chooseTarget e = none → exec .remapStart s = .next (((b.raise 0x0A03 [x]).reviewEngines).actionDone 0x0A01 e)) ∧
      (∀ g : Nat, b.chooseTarget e = some g → ∃ u : State, exec .remapStart s = .next u.reviewEngines ∧ u.eng.remap = some ⟨x, e, g, false, [], true⟩ ∧
        u.engine e = { s.engine e with st := 3 } ∧ (∀ o : Nat, o ≠ e → u.engine o = s.engine o) ∧ u.get ENG_REMAP_STATUS.BUSY = 1 ∧
        u.get ENG_REMAP_STATUS.ENGINE = g % 2 ^ ENG_REMAP_STATUS.ENGINE.width ∧ u.get ENG_REMAP_STATUS.STOPE = x % 2 ^ ENG_REMAP_STATUS.STOPE.width ∧
        Only [ENG_REMAP_STATUS.BUSY, ENG_REMAP_STATUS.ENGINE, ENG_REMAP_STATUS.STOPE] { b with eng := { b.eng with engs := u.eng.engs, remap := u.eng.remap } } u))) ∧
  (∀ (bad : List Nat) (s : State), s.eng.remap = none → exec (.remapCopyDone bad) s = .next s ∧ exec .remapComplete s = .next s) ∧
  (∀ (r : Remap) (bad : List Nat) (s : State), s.eng.remap = some r →
    (r.copied = true → exec (.remapCopyDone bad) s = .next s) ∧
    (r.copied = false → exec .remapComplete s = .next s) ∧
    (r.copied = false → (s.engine r.old).bad = [] → ∃ t : State,
      exec (.remapCopyDone bad) s = .next (if bad = [] then t else t.raise 0x0A04 [r.target, bad.foldl min (bad.headD 0), bad.length]) ∧
      t = { s with eng := { s.eng with engs := t.eng.engs, remap := some { r with copied := true, bad := bad } } } ∧
      t.engine r.target = (if r.old < 264 then copiedEngine (s.engine r.old) (s.engine r.target) bad else s.engine r.target) ∧
      ∀ o : Nat, o ≠ r.target → t.engine o = s.engine o)) ∧
  (∀ (g h : Eng) (l : List Nat), ∃ c : Eng, c = copiedEngine g h l ∧ c.st = h.st ∧ c.timer = g.timer ∧
    (∀ o : Nat, c.l o = if o ∈ [0x0C, 0x10, 0x28, 0x2C, 0x30, 0x34] then 0 else g.l o) ∧
    (memWf g.mem = true → memWf h.mem = true → ∀ a : Nat, memByte c.mem a =
      if (a < 0x10000 ∨ (dsram ≤ a ∧ a < dsram + 0x400000)) ∧ g.inRings a = false then memByte g.mem a else memByte h.mem a)) ∧
  (∀ (r : Remap) (s : State), s.eng.remap = some r → r.copied = true → r.stope < 256 → r.old ≠ r.target → ∃ (m u v w : State) (g h : Eng),
    g = s.engine r.old ∧ h = s.engine r.target ∧
    Only [mapField r.stope, ENG_REMAP_STATUS.BUSY, ENG_REMAP_STATUS.RESULT]
      { s with eng := { s.eng with engs := m.eng.engs, remap := none, fresh := if r.fault then r.target :: s.eng.fresh else s.eng.fresh } } m ∧
    m.get (mapField r.stope) = r.target % 2 ^ (mapField r.stope).width ∧ m.get ENG_REMAP_STATUS.BUSY = 0 ∧
    m.get ENG_REMAP_STATUS.RESULT = (if r.bad = [] then 0 else 1) ∧
    m.engine r.target = Eng.flushAll s.fwc 16 { h with inbox := h.inbox ++ if r.old < 264 then g.inbox else [] } ∧
    (r.old < 264 → m.engine r.old = { g with inbox := [] }) ∧ (∀ o : Nat, o ≠ r.old → o ≠ r.target → m.engine o = s.engine o) ∧
    (r.bad ≠ [] → u = m.setEngine r.target fun q => { q with st := 0 }) ∧
    (r.bad = [] → s.power = stHOLD → u = m.setEngine r.target fun q => { q with st := 0, ran := true, again := 2 }) ∧
    (r.bad = [] → s.power ≠ stHOLD → u = if m.quadrantRuns r.target then m.startWith r.target 2 else m.setEngine r.target fun q => { q with st := 0 }) ∧
    v = (u.reviewEngines).raise 0x0A02 [r.stope, r.old, r.target] ∧ w = (if r.fault then v.actionDone 0x0A01 r.old else v) ∧
    exec .remapComplete s = .next (if s.power = stCAPTURE ∧ s.get CHN_STATE.TALLY = 1 then w.reportRemap else w)) ∧
  (∀ (p : Path) (w : Word) (s : State), s.takes p 0x0A058 w.toNat = true →
    ∃ b : State, b = s.booked p 0x0A058 w.toNat ∧
      (bit w.toNat 31 = false ∨ b.mayWrite p ENG_REMAP.GO = false ∨ b.get ENG_REMAP_STATUS.BUSY = 1 → exec (.engRemapGo p w) s = .next b) ∧
      (bit w.toNat 31 = true → b.mayWrite p ENG_REMAP.GO = true → b.get ENG_REMAP_STATUS.BUSY ≠ 1 →
        (b.power = stCAPTURE ∨ b.power = stHOLD → exec (.engRemapGo p w) s = .next (b.set ENG_REMAP_STATUS.RESULT 3)) ∧
        (b.power ≠ stCAPTURE → b.power ≠ stHOLD → 264 ≤ ENG_REMAP.ENGINE.of w.toNat ∨ b.freeEngine (ENG_REMAP.ENGINE.of w.toNat) = false →
          exec (.engRemapGo p w) s = .next (b.set ENG_REMAP_STATUS.RESULT 2)) ∧
        (b.power ≠ stCAPTURE → b.power ≠ stHOLD → ENG_REMAP.ENGINE.of w.toNat < 264 → b.freeEngine (ENG_REMAP.ENGINE.of w.toNat) = true →
          ∃ (u : State) (e x o : Nat), e = ENG_REMAP.ENGINE.of w.toNat ∧ x = ENG_REMAP.STOPE.of w.toNat ∧ o = (b.engineOf x).getD 0x1FF ∧
            exec (.engRemapGo p w) s = .next u ∧ u.eng.remap = some ⟨x, o, e, false, [], false⟩ ∧ u.get ENG_REMAP_STATUS.BUSY = 1 ∧
            u.get ENG_REMAP_STATUS.ENGINE = e ∧ u.get ENG_REMAP_STATUS.STOPE = x ∧
            (o < 264 → (u.engine o).st = if (b.engine o).st = 1 then 0 else if (b.engine o).st = 2 then 3 else (b.engine o).st) ∧
            (∀ q : Nat, q ≠ o → u.engine q = b.engine q) ∧
            Only [ENG_REMAP_STATUS.BUSY, ENG_REMAP_STATUS.ENGINE, ENG_REMAP_STATUS.STOPE, ENG_STATUS.UNSERVED, ENG_STATUS.FREE]
              { b with eng := { b.eng with engs := u.eng.engs, out := u.eng.out, remap := u.eng.remap } } u))) ∧
  (∀ (p : Path) (w : Word) (s : State), s.takes p 0x0A000 w.toNat = true → (s.booked p 0x0A000 w.toNat).mayWrite p ENG_CTRL.QEN = false →
    (s.booked p 0x0A000 w.toNat).mayWrite p ENG_CTRL.SPARE_AUTO = false → exec (.engQenWrite p w) s = .next (s.booked p 0x0A000 w.toNat)) ∧
  (∀ (v q : Nat) (s : State), q < 4 →
    (bit v q = s.bitOf ENG_CTRL.QEN q → s.writeQen v q = (s, false)) ∧
    (bit v q = false → s.bitOf ENG_CTRL.QEN q = true → s.quadrantBusy q = true → s.writeQen v q = (s, true)) ∧
    (bit v q = false → s.bitOf ENG_CTRL.QEN q = true → s.quadrantBusy q = false →
      s.writeQen v q = ((s.putBit ENG_CTRL.QEN q false).putBit ENG_STATUS.QRUN q false, false)) ∧
    (bit v q = true → s.bitOf ENG_CTRL.QEN q = false → bit s.eng.inited q = false →
      s.writeQen v q = ((s.putBit ENG_CTRL.QEN q true).onEng fun g => { g with initing := setBit g.initing q true }, false)) ∧
    (bit v q = true → s.bitOf ENG_CTRL.QEN q = false → bit s.eng.inited q = true →
      s.writeQen v q = ((s.putBit ENG_CTRL.QEN q true).putBit ENG_STATUS.QRUN q true, false))) ∧
  (∀ (p : Path) (w : Word) (s : State), s.takes p 0x0A000 w.toNat = true → (s.booked p 0x0A000 w.toNat).mayWrite p ENG_CTRL.QEN = true →
    ∃ (b u : State) (v : Nat) (r : State × Bool), b = s.booked p 0x0A000 w.toNat ∧ v = ENG_CTRL.QEN.of w.toNat ∧ Only [ENG_CTRL.SPARE_AUTO] b u ∧
      u.get ENG_CTRL.SPARE_AUTO = (if b.mayWrite p ENG_CTRL.SPARE_AUTO then ENG_CTRL.SPARE_AUTO.of w.toNat else b.get ENG_CTRL.SPARE_AUTO) ∧
      r = [0, 1, 2, 3].foldl (fun (r : State × Bool) q => ((r.1.writeQen v q).1, r.2 || (r.1.writeQen v q).2)) (u, false) ∧
      exec (.engQenWrite p w) s = .next ((if r.2 then r.1.raise 0x0A09 [v] else r.1).reviewEngines)) ∧
  (∀ (q : Nat) (s : State),
    (4 ≤ q ∨ bit s.eng.initing q = false → exec (.quadrantInitDone q) s = .next s) ∧
    (q < 4 → bit s.eng.initing q = true → ∃ u : State, exec (.quadrantInitDone q) s = .next u.reviewEngines ∧
      u.bitOf ENG_STATUS.QRUN q = s.bitOf ENG_CTRL.QEN q ∧ bit u.eng.inited q = true ∧ bit u.eng.initing q = false ∧
      (∀ e ∈ enginesOf q, u.engine e = { s.engine e with mem := [], bad := [] }) ∧ (∀ e : Nat, e ∉ enginesOf q → u.engine e = s.engine e) ∧
      Only [ENG_STATUS.QRUN] { s with eng := { s.eng with engs := u.eng.engs, initing := u.eng.initing, inited := u.eng.inited } } u))

/-- O49. NOP, REG_READ, REG_WRITE, BULK_WRITE and the session commands of a submission ring. The descriptor of a command arrives for the read outstanding
on its ring: the read is gone, the consumer index moves on, the command begins, and the rings are settled; with no such read, or while the function
may not issue requests, nothing changes. A command whose ring has one waiting, or that must wait under R420, joins the waiting ones; otherwise it
starts. A command with an error completes with status 1 opcode, 2 field, 3 role or 4 unreachable, in that order, and without effect (a BULK_WRITE
refused for its role is entered in the shift book). NOP completes with 0. REG_READ of the unit itself completes with 0 and its words, read in rising
order; REG_WRITE with 3 where a word was rejected, 8 where one was not taken, else 0, and the mask of rejected words. For a crew unit both leave as a
packet with TAG, COUNT, ROLES and OFFSET and stay in flight. BULK_WRITE stays in flight and asks for its data; with a full shift book it completes
with 3. SESSION_CLOSE completes with 0, the others with 9 on a locked role, SESSION_CHALLENGE with nonce and counter, SESSION_OPEN with 0 or 9 as the
response is right. -/
def Obligations.HostCommandsComplete : Prop :=
  (∀ (d : Desc) (s : State), s.canIssue = false ∨ (∀ q ∈ s.hst.reads, q.kind ≠ 0 ∨ q.ring ≠ d.sq) →
    exec (.nop d) s = .next s ∧ exec (.regRead d) s = .next s ∧ exec (.regWrite d) s = .next s ∧ exec (.bulkWrite d) s = .next s ∧
    exec (.sessionChallenge d) s = .next s ∧ exec (.sessionOpen d) s = .next s ∧ exec (.sessionClose d) s = .next s) ∧
  (∀ (d : Desc) (q : HostRead) (a b : List HostRead) (s : State), s.canIssue = true → s.hst.reads = a ++ q :: b → q.kind = 0 → q.ring = d.sq →
    (∀ x ∈ a, x.kind ≠ 0 ∨ x.ring ≠ d.sq) →
    ∃ u : State, u = (s.onHst fun h => { h with reads := a ++ b, sqFetched := Tbl.erase h.sqFetched d.sq }).stepIndex 0 d.sq ∧
      exec (.nop d) s = .next (u.beginCommand 0x00 d).settleRings ∧ exec (.regRead d) s = .next (u.beginCommand 0x01 d).settleRings ∧
      exec (.regWrite d) s = .next (u.beginCommand 0x02 d).settleRings ∧ exec (.bulkWrite d) s = .next (u.beginCommand 0x03 d).settleRings ∧
      exec (.sessionChallenge d) s = .next (u.beginCommand 0x10 d).settleRings ∧ exec (.sessionOpen d) s = .next (u.beginCommand 0x11 d).settleRings ∧
      exec (.sessionClose d) s = .next (u.beginCommand 0x12 d).settleRings ∧
      ((∀ c ∈ s.hst.held, c.2.sq ≠ d.sq) → u.waitsBehind d = false →
        (u.commandError 0x00 d = none → exec (.nop d) s = .next (u.complete d.sq d.cid 0x00 0 []).settleRings) ∧
        (u.commandError 0x01 d = none → d.tally ≤ 1 → ∃ r : State × List Nat, r = readWords .bar0 d.count d.offset u ∧
          exec (.regRead d) s = .next (r.1.complete d.sq d.cid 0x01 0 ((r.2.map fun w => leBytes w 4).flatten)).settleRings) ∧
        (u.commandError 0x02 d = none → d.tally ≤ 1 → ∃ r : State × Nat × Nat, r = writeWords .bar0 d.words 0 d.offset (u, 0, 0) ∧
          exec (.regWrite d) s = .next (r.1.complete d.sq d.cid 0x02 (if r.2.1 ≠ 0 then 3 else if r.2.2 ≠ 0 then 8 else 0) (leBytes r.2.1 2)).settleRings) ∧
        (u.commandError 0x03 d = none → u.sbRoom = true → ∃ v : State,
          v = u.onHst (fun h => { h with tag := (h.tag + 1) % 65536, flight := h.flight ++ [⟨0x03, d, u.hst.tag, none, 0, 0, 0, 0xFFFFFFFF⟩] }) ∧
          exec (.bulkWrite d) s = .next ((v.touchSession .bar0 .installer).pumpBulks).settleRings) ∧
        (u.commandError 0x10 d = none → u.lockedOut 0 d.role = false → exec (.sessionChallenge d) s =
          .next ((u.challenge 0 d.role).1.complete d.sq d.cid 0x10 0 ((u.challenge 0 d.role).2.nonce ++ leBytes (u.challenge 0 d.role).2.ctr 8)).settleRings) ∧
        (u.commandError 0x11 d = none → u.lockedOut 0 d.role = false → ∃ r : State × Bool, r = u.respond 0 d.role ((d.operands.drop 8).take 32) ∧
          exec (.sessionOpen d) s = .next (r.1.complete d.sq d.cid 0x11 (if r.2 then 0 else 9) []).settleRings) ∧
        (u.commandError 0x12 d = none → exec (.sessionClose d) s = .next ((u.closeSession 0 d.role 0).complete d.sq d.cid 0x12 0 []).settleRings))) ∧
  (∀ (opc : Nat) (d : Desc) (s : State),
    ((∃ c ∈ s.hst.held, c.2.sq = d.sq) ∨ s.waitsBehind d = true → s.beginCommand opc d = s.onHst fun h => { h with held := h.held ++ [(opc, d)] }) ∧
    ((∀ c ∈ s.hst.held, c.2.sq ≠ d.sq) → s.waitsBehind d = false → s.beginCommand opc d = s.startCommand opc d) ∧
    (∀ e : Nat, s.commandError opc d = some e → opc ≠ 0x03 ∨ e ≠ 3 → s.startCommand opc d = s.complete d.sq d.cid opc e []) ∧
    (s.commandError 0x03 d = some 3 → s.startCommand 0x03 d = (s.bookBulk 0 d.tally d.engine 3 0 0).complete d.sq d.cid 0x03 3 [])) ∧
  (∀ (opc : Nat) (d : Desc) (s : State),
    (opc ∉ [0x00, 0x01, 0x02, 0x03, 0x10, 0x11, 0x12] → s.commandError opc d = some 1) ∧
    (opc ∈ [0x00, 0x01, 0x02, 0x03, 0x10, 0x11, 0x12] → s.operandsFit opc d = false → s.commandError opc d = some 2) ∧
    (s.operandsFit 0x03 d = true → s.holds .bar0 .installer = false → s.commandError 0x03 d = some 3) ∧
    (opc ∈ [0x00, 0x01, 0x02, 0x03, 0x10, 0x11, 0x12] → s.operandsFit opc d = true → (opc = 0x03 → s.holds .bar0 .installer = true) → 1 < d.tally →
      bit s.joinedMap d.tally = false ∨ (s.peer d.tally).dead = true → s.commandError opc d = some 4) ∧
    (opc ∈ [0x00, 0x01, 0x02, 0x03, 0x10, 0x11, 0x12] → s.operandsFit opc d = true → (opc = 0x03 → s.holds .bar0 .installer = true) → d.tally ≤ 1 → s.commandError opc d = none)) ∧
  (∀ (d : Desc) (s : State),
    (s.commandError 0x00 d = none → s.startCommand 0x00 d = s.complete d.sq d.cid 0x00 0 []) ∧
    (s.commandError 0x01 d = none → d.tally ≤ 1 → ∃ r : State × List Nat, r = readWords .bar0 d.count d.offset s ∧
      s.startCommand 0x01 d = r.1.complete d.sq d.cid 0x01 0 ((r.2.map fun w => leBytes w 4).flatten)) ∧
    (s.commandError 0x02 d = none → d.tally ≤ 1 → ∃ r : State × Nat × Nat, r = writeWords .bar0 d.words 0 d.offset (s, 0, 0) ∧
      s.startCommand 0x02 d = r.1.complete d.sq d.cid 0x02 (if r.2.1 ≠ 0 then 3 else if r.2.2 ≠ 0 then 8 else 0) (leBytes r.2.1 2)) ∧
    (s.commandError 0x01 d = none → 1 < d.tally → ∃ u : State,
      u = s.onHst (fun h => { h with tag := (h.tag + 1) % 65536, flight := h.flight ++ [⟨0x01, d, s.hst.tag, some s.fwc, 0, 0, 0, 0xFFFFFFFF⟩] }) ∧
      s.startCommand 0x01 d = u.sendCtl 0x14 4 d.tally (leBytes s.hst.tag 2 ++ [d.count, s.rolesByte] ++ leBytes d.offset 4)) ∧
    (s.commandError 0x02 d = none → 1 < d.tally → ∃ u : State,
      u = s.onHst (fun h => { h with tag := (h.tag + 1) % 65536, flight := h.flight ++ [⟨0x02, d, s.hst.tag, some s.fwc, 0, 0, 0, 0xFFFFFFFF⟩] }) ∧
      s.startCommand 0x02 d = u.sendCtl 0x15 4 d.tally (leBytes s.hst.tag 2 ++ [d.count, s.rolesByte] ++ leBytes d.offset 4 ++
        (d.words.map fun w => leBytes w 4).flatten)) ∧
    (s.commandError 0x03 d = none → s.sbRoom = false → s.startCommand 0x03 d = (s.bump NVS_ERRCNT1.SB_REFUSED 1).complete d.sq d.cid 0x03 3 []) ∧
    (s.commandError 0x03 d = none → s.sbRoom = true → ∃ u : State,
      u = s.onHst (fun h => { h with tag := (h.tag + 1) % 65536, flight := h.flight ++ [⟨0x03, d, s.hst.tag, none, 0, 0, 0, 0xFFFFFFFF⟩] }) ∧
      s.startCommand 0x03 d = (u.touchSession .bar0 .installer).pumpBulks) ∧
    (s.commandError 0x12 d = none → s.startCommand 0x12 d = (s.closeSession 0 d.role 0).complete d.sq d.cid 0x12 0 []) ∧
    (∀ opc ∈ [0x10, 0x11], s.commandError opc d = none → s.lockedOut 0 d.role = true → s.startCommand opc d = s.complete d.sq d.cid opc 9 []) ∧
    (s.commandError 0x10 d = none → s.lockedOut 0 d.role = false →
      s.startCommand 0x10 d = (s.challenge 0 d.role).1.complete d.sq d.cid 0x10 0 ((s.challenge 0 d.role).2.nonce ++ leBytes (s.challenge 0 d.role).2.ctr 8)) ∧
    (s.commandError 0x11 d = none → s.lockedOut 0 d.role = false → ∃ r : State × Bool, r = s.respond 0 d.role ((d.operands.drop 8).take 32) ∧
      s.startCommand 0x11 d = r.1.complete d.sq d.cid 0x11 (if r.2 then 0 else 9) [])) ∧
  (∀ (sq cid opc st : Nat) (res : List Nat) (s : State),
    (s.canIssue = false ∨ s.get (HST_CQ_CFG.EN (s.get (HST_SQ_CFG.CQ sq))) ≠ 1 ∨ s.get CHN_STATE.TALLY ≠ 1 → s.complete sq cid opc st res = s) ∧
    (s.canIssue = true → s.get (HST_CQ_CFG.EN (s.get (HST_SQ_CFG.CQ sq))) = 1 → s.get CHN_STATE.TALLY = 1 → ∃ (n : Nat) (u : State), n = s.get (HST_SQ_CFG.CQ sq) ∧
      s.complete sq cid opc st res = u.signalCq n ∧
      u.hst.writes = s.hst.writes ++ [⟨s.ringAddr 1 n (s.get (HST_CQ_STATUS.INDEX n)), leBytes cid 2 ++ [sq, opc] ++ leBytes st 2 ++
        leBytes (s.get (HST_SQ_STATUS.INDEX sq)) 2 ++ (res ++ zeroBytes 48).take 48 ++ leBytes (s.fwc / 64) 4 ++ zeroBytes 3 ++ [s.get (HST_CQ_STATUS.PHASE n)]⟩] ∧
      Only [HST_CQ_STATUS.INDEX n, HST_CQ_STATUS.PHASE n] ({ s with hst := u.hst }) u ∧
      u.get (HST_CQ_STATUS.INDEX n) = (s.get (HST_CQ_STATUS.INDEX n) + 1) % s.ringSize 1 n % 65536))

/-- O50. Completions of host reads, and the proxy and bulk packets at both ends. HOST_READ_COMPLETION or COMPLETION_TIMEOUT of no outstanding read changes
nothing. A completion that arrives while the function may not issue requests is dropped and counted in CPL_DROP (a descriptor fetch is issued again
after the canary's forcing; bulk data stay awaited); a failed one, and a timeout, counts HOST_RD_ERR and halts the ring with CAUSE 2, or ends its
BULK_WRITE with status 7; one with the bytes asked for is used: a submission descriptor begins its command, a data ring descriptor waits as a buffer,
bulk data go to their transfer. PROXY_RD and PROXY_WR are taken by a joined crew unit from tally 1, else counted in TAG_DROP: words are read or
written on the proxy path with the ROLES byte, and PROXY_RSP answers with TAG, COUNT, status and OFFSET. BULK is taken the same way; a packet of a
transfer not open changes nothing. PROXY_RSP at the pithead completes the command in flight of its TAG and tally; one for none is discarded.
PROXY_TIMEOUT, MS ms after the oldest request, counts, raises its event and completes it with status 5; with none in flight it changes nothing. -/
def Obligations.HostReadsProxiesAndBulk : Prop :=
  (∀ (i st : Nat) (bs : List Byte) (s : State), s.hst.reads.length ≤ i →
    exec (.hostReadCompletion i st bs) s = .next s ∧ exec (.completionTimeout i) s = .next s) ∧
  (∀ (i st : Nat) (bs : List Byte) (r : HostRead) (s : State), s.hst.reads[i]? = some r → s.canIssue = false →
    ∃ b : State, Only [HST_ERRCNT0.CPL_DROP] s b ∧ b.get HST_ERRCNT0.CPL_DROP = min (2 ^ HST_ERRCNT0.CPL_DROP.width - 1) (s.get HST_ERRCNT0.CPL_DROP + 1) ∧
      (2 ≤ r.kind → exec (.hostReadCompletion i st bs) s = .next b) ∧
      (r.kind ≤ 1 → s.dataForced = true →
        exec (.hostReadCompletion i st bs) s = .next (b.onHst fun h => { h with reads := s.hst.reads.eraseIdx i, refetch := h.refetch ++ [r] })) ∧
      (r.kind ≤ 1 → s.dataForced = false → exec (.hostReadCompletion i st bs) s = .next (b.onHst fun h => { h with
        reads := s.hst.reads.eraseIdx i, sqFetched := if r.kind = 0 then Tbl.erase h.sqFetched r.ring else h.sqFetched }))) ∧
  (∀ (i st : Nat) (bs : List Byte) (r : HostRead) (s : State), s.hst.reads[i]? = some r →
    ∃ t : State, t = s.onHst (fun h => { h with reads := s.hst.reads.eraseIdx i }) ∧
      exec (.completionTimeout i) s = .next (t.readFailed r) ∧
      (s.canIssue = true → st ≠ 0 → exec (.hostReadCompletion i st bs) s = .next (t.readFailed r)) ∧
      (s.canIssue = true → st = 0 → bs.length ≠ r.len → exec (.hostReadCompletion i st bs) s = .next s) ∧
      (s.canIssue = true → st = 0 → bs.length = r.len → exec (.hostReadCompletion i st bs) s = .next (t.readDone r (bs.map BitVec.toNat)))) ∧
  (∀ (r : HostRead) (bs : List Nat) (s : State),
    (r.kind = 0 → s.readDone r bs = (((s.onHst fun h => { h with sqFetched := Tbl.erase h.sqFetched r.ring }).stepIndex 0 r.ring).beginCommand
      (bytesAt bs 0 1) ⟨r.ring, bytesAt bs 1 1 + 256 * bytesAt bs 5 3, bytesAt bs 2 2, bytesAt bs 4 1, (bs.drop 8).take 56⟩).settleRings) ∧
    (r.kind = 1 → ∃ u : State, s.readDone r bs = u.pump ∧ u = { s with hst := { s.hst with drReady := u.hst.drReady } } ∧
      Tbl.get [] u.hst.drReady r.ring = Tbl.get [] s.hst.drReady r.ring ++ [(bytesAt bs 0 8, bytesAt bs 8 8)]) ∧
    (2 ≤ r.kind → (∀ f ∈ s.hst.flight, f.tag ≠ r.index) → s.readDone r bs = s ∧ s.readFailed r = s) ∧
    (∀ (f : Flight) (l : List Flight), 2 ≤ r.kind → s.hst.flight = f :: l → f.tag = r.index →
      s.readDone r bs = (s.bulkData f bs).settleRings ∧ s.readFailed r = (s.endBulk f 7 f.written f.refused (f.crc ^^^ 0xFFFFFFFF)).settleRings) ∧
    (r.kind = 0 → s.readFailed r = ((s.onHst fun h => { h with sqFetched := Tbl.erase h.sqFetched r.ring }).bump HST_ERRCNT0.HOST_RD_ERR 1).halt 0 r.ring 2) ∧
    (r.kind = 1 → s.readFailed r = (s.bump HST_ERRCNT0.HOST_RD_ERR 1).halt 2 r.ring 2)) ∧
  (∀ (d : Bool) (k : Packet) (s : State), k.dst = s.get CHN_STATE.TALLY → k.dst ≠ 63 → s.stale k = false →
    (s.isCrew = false ∨ k.src ≠ 1 → ∀ r ∈ ([(0x14, .proxyRd), (0x15, .proxyWr), (0x2C, .bulk)] : List (Nat × (Bool → Packet → Instr))), k.fits r.1 = true →
      exec (r.2 d k) s = .next (s.bump CHN_ERRCNT1.TAG_DROP 1)) ∧
    (s.isCrew = true → k.src = 1 →
      (k.fits 0x14 = true → ∃ r : State × List Nat, r = readWords (.proxy (k.at_ 3 1)) (k.at_ 2 1) (k.at_ 4 4) s ∧
        exec (.proxyRd d k) s = .next (r.1.sendCtl 0x16 4 1 (leBytes (k.at_ 0 2) 2 ++ [k.at_ 2 1, 0] ++ leBytes (k.at_ 4 4) 4 ++ (r.2.map fun w => leBytes w 4).flatten))) ∧
      (k.fits 0x15 = true → ∃ r : State × Nat × Nat,
        r = writeWords (.proxy (k.at_ 3 1)) ((List.range (k.at_ 2 1)).map fun i => k.at_ (8 + 4 * i) 4) 0 (k.at_ 4 4) (s, 0, 0) ∧
        exec (.proxyWr d k) s = .next (r.1.sendCtl 0x16 4 1 (leBytes (k.at_ 0 2) 2 ++
          [k.at_ 2 1, if r.2.1 ≠ 0 then 1 else if r.2.2 ≠ 0 then 2 else 0] ++ leBytes (k.at_ 4 4) 4))) ∧
      (k.fits 0x2C = true → exec (.bulk d k) s = .next (s.bulkPacket k)))) ∧
  (∀ (k : Packet) (s : State),
    (bit (k.at_ 2 1) 0 = false → s.hst.bulkIn = none → s.bulkPacket k = s) ∧
    (∀ b : BulkIn, bit (k.at_ 2 1) 0 = false → s.hst.bulkIn = some b → b.xfer ≠ k.at_ 0 2 → s.bulkPacket k = s) ∧
    (bit (k.at_ 2 1) 0 = true → bit (k.at_ 2 1) 1 = false → ∃ (r : State × BulkSum),
      r = bulkEngine (bit (k.at_ 3 1) 1 && decide (s.power ≠ stSAFETALK) && s.sbRoom) (bit (k.at_ 2 1) 2) (k.at_ 4 2) (toWords (k.payload.drop 16)) (k.at_ 8 4)
        (s, ⟨0, 0, 0xFFFFFFFF⟩) ∧
      s.bulkPacket k = r.1.onHst fun h => { h with bulkIn := some ⟨k.at_ 0 2, r.2.written, r.2.refused, r.2.crc⟩ })) ∧
  (∀ (d : Bool) (k : Packet) (s : State), k.fits 0x16 = true → k.dst = s.get CHN_STATE.TALLY → k.dst ≠ 63 → s.stale k = false →
    (s.get CHN_STATE.TALLY ≠ 1 ∨ (∀ f ∈ s.hst.flight, f.tag ≠ k.at_ 0 2 ∨ f.desc.tally ≠ k.src ∨ f.sent = none) → exec (.proxyRsp d k) s = .next s) ∧
    (∀ (f : Flight) (l : List Flight), s.get CHN_STATE.TALLY = 1 → s.hst.flight = f :: l → f.tag = k.at_ 0 2 → f.desc.tally = k.src → f.sent.isSome = true →
      (f.opc = 0x01 → exec (.proxyRsp d k) s = .next (s.endFlight f (statusOf (k.at_ 3 1)) (k.payload.drop 8)).settleRings) ∧
      (f.opc = 0x02 → k.at_ 3 1 ≠ 1 → exec (.proxyRsp d k) s = .next (s.endFlight f (statusOf (k.at_ 3 1)) [0, 0]).settleRings) ∧
      (f.opc = 0x02 → k.at_ 3 1 = 1 → exec (.proxyRsp d k) s =
        .next ((({ s with freeIx := s.freeIx + 1 }).endFlight f 3 (leBytes (Config.freeValue s.freeIx % 65536) 2)).settleRings)) ∧
      (f.opc = 0x03 → exec (.proxyRsp d k) s = .next (s.endBulk f (statusOf (k.at_ 3 1)) (k.at_ 8 4) (k.at_ 12 4) (k.at_ 16 4)).settleRings))) ∧
  (∀ s : State, (∀ f ∈ s.hst.flight, f.sent = none) → exec .proxyTimeout s = .next s) ∧
  (∀ (f : Flight) (t0 : Nat) (s : State), s.hst.flight = [f] → f.sent = some t0 →
    ∃ t : State, t = ((s.advance (t0 + s.get HST_PROXY.MS * 2000000)).bump HST_ERRCNT2.PROXY_TIMEOUT 1).raise 0x0E0A [f.desc.tally, f.tag] ∧
      (f.opc = 0x03 → exec .proxyTimeout s = .next (t.endBulk f 5 0 0 0).settleRings) ∧
      (f.opc ≠ 0x03 → exec .proxyTimeout s = .next (t.endFlight f 5 []).settleRings))

/-- O51. PERST_N, resets, the data link, Bus Master Enable, D3hot, the grace, the timers of the rings, and BAR2. An event of R412 above STANDBY returns
every ring register and doorbell to its reset value, clears BME, D3HOT and ARMED, keeps host writes, waiting items, TAG and PET, closes the sessions
of BAR0, does the rest of R412's list and notes the instant for FLR_DONE, which raises its event once; in STANDBY a hot reset clears DL_UP alone.
PERST_N asserted once also clears DL_UP; released from STANDBY with PERST_EN it commands IDLE. DL_UP needs a state above STANDBY, PERST_N released and
no fatal rail fault. LINK_CHANGED of a legal speed and width stores them and raises its event where either changed. BME_CLEAR clears BME, notes the
instant, halts every enabled ring with CAUSE 1 and raises BME_CLEARED; D3hot likewise with CAUSE 5; neither does anything twice; their ends let what
waits go on. HOST_GRACE_EXPIRED, MS ms after the earlier of the two, ends the grace once with its event. On tally 1 the moderation timer signals its
ring MOD_US after the first entry, the flush timer closes its buffer FLUSH ms after it began. BAR2, where page 0x0E answers on BAR0: on the pithead a
read with a maker session answers the bytes held below 96 MiB (of the table area or what an area of the store holds; where none, 0 while the store is
blank, else free: log entries 1, 63) and 0 beyond, else 0, counted and raised; a write is only counted. -/
def Obligations.LinkAndFunctionEventsReachTheHostInterface : Prop :=
  (∀ s : State, ∃ u v : State,
    Only [HST_STATUS.BME, HST_STATUS.D3HOT, HST_STATUS.ARMED] u v ∧ v.get HST_STATUS.BME = 0 ∧ v.get HST_STATUS.D3HOT = 0 ∧ v.get HST_STATUS.ARMED = 0 ∧
    u = { s with regs := u.regs, hst := u.hst } ∧ (∀ f : Field, f.lo < 32 → 0x0E100 ≤ f.off → f.off < 0x0EB00 → u.get f = f.reset) ∧
    (∀ f : Field, f.lo < 32 → f.off < 0x0E100 ∨ 0x0EB00 ≤ f.off → u.get f = s.get f) ∧
    u.hst = { writes := s.hst.writes, waiting := s.hst.waiting, sent := s.hst.sent, tag := s.hst.tag, pet := s.hst.pet, bar2Denied := s.hst.bar2Denied
              eventLost := s.hst.eventLost, bulkIn := s.hst.bulkIn, drLost := s.hst.drLost } ∧
    s.functionReset = ((v.reviewHost.closePath 0 3).resetRest).onHst fun h => { h with flrAt := some ((v.reviewHost.closePath 0 3).resetRest).fwc }) ∧
  (∀ s : State,
    (stSTANDBY < s.power → exec .functionLevelReset s = .next s.functionReset ∧ exec .hotReset s = .next (s.set HST_LINK.DL_UP 0).functionReset) ∧
    (s.power ≤ stSTANDBY → exec .functionLevelReset s = .next s ∧ exec .hotReset s = .next (s.set HST_LINK.DL_UP 0)) ∧
    (s.pwr.perst = true → exec .perstNAssert s = .next s) ∧
    (s.pwr.perst = false → stSTANDBY < s.power → exec .perstNAssert s = .next ((s.onPwr fun p => { p with perst := true }).set HST_LINK.DL_UP 0).functionReset) ∧
    (s.pwr.perst = false → s.power ≤ stSTANDBY → exec .perstNAssert s = .next ((s.onPwr fun p => { p with perst := true }).set HST_LINK.DL_UP 0)) ∧
    (s.pwr.perst = false → exec .perstNRelease s = .next s) ∧
    (s.pwr.perst = true → s.power = stSTANDBY → s.get PWR_WAKE.PERST_EN = 1 →
      exec .perstNRelease s = .next ((s.onPwr fun p => { p with perst := false }).command true stIDLE)) ∧
    (s.pwr.perst = true → s.power ≠ stSTANDBY ∨ s.get PWR_WAKE.PERST_EN ≠ 1 → exec .perstNRelease s = .next (s.onPwr fun p => { p with perst := false })) ∧
    (s.hst.flrAt = none → exec .flrDone s = .next s) ∧
    (s.hst.flrAt.isSome = true → exec .flrDone s = .next ((s.onHst fun h => { h with flrAt := none }).raise 0x0E03 [s.fwc])) ∧
    (s.power ≤ stSTANDBY ∨ s.pwr.perst = true ∨ s.saf.railFatal = true → exec .dlUp s = .next s) ∧
    (stSTANDBY < s.power → s.pwr.perst = false → s.saf.railFatal = false → exec .dlUp s = .next (((s.set HST_LINK.DL_UP 1).reviewHost).settleRings.pump))) ∧
  (∀ (sp wd : Nat) (fl : Bool) (s : State),
    (sp = 0 ∨ 6 < sp ∨ wd ∉ [1, 2, 4, 8] → exec (.linkChanged sp wd fl) s = .next s) ∧
    (1 ≤ sp → sp ≤ 6 → wd ∈ [1, 2, 4, 8] → ∃ u : State, Only [HST_LINK.SPEED, HST_LINK.WIDTH, HST_LINK.FLIT] s u ∧ u.get HST_LINK.SPEED = sp ∧
      u.get HST_LINK.WIDTH = wd ∧ u.get HST_LINK.FLIT = (if fl then 1 else 0) ∧
      exec (.linkChanged sp wd fl) s = .next (if s.get HST_LINK.SPEED = sp ∧ s.get HST_LINK.WIDTH = wd then u else
        u.raise 0x0E0B [s.get HST_LINK.SPEED, s.get HST_LINK.WIDTH, sp, wd]))) ∧
  (∀ s : State,
    (s.get HST_STATUS.BME ≠ 1 → exec .bmeClear s = .next s) ∧
    (s.get HST_STATUS.BME = 1 → exec .bmeClear s =
      .next ((((s.set HST_STATUS.BME 0).onHst fun h => { h with bmeCleared := some s.fwc }).haltAll 1).raise 0x0E02 [s.fwc]).reviewHost) ∧
    (s.get HST_STATUS.D3HOT = 1 → exec .d3hotEntry s = .next s) ∧
    (s.get HST_STATUS.D3HOT ≠ 1 → exec .d3hotEntry s =
      .next ((((s.set HST_STATUS.D3HOT 1).onHst fun h => { h with d3Entered := some s.fwc }).haltAll 5).raise 0x0E02 [s.fwc]).reviewHost) ∧
    (∃ u : State, Only [HST_STATUS.BME] { s with hst := { s.hst with bmeCleared := none, graceOver := u.hst.graceOver } } u ∧ u.get HST_STATUS.BME = 1 ∧
      u.hst.graceOver = (s.hst.graceOver && s.on HST_STATUS.D3HOT) ∧ exec .bmeSet s = .next u.reviewHost.pumpBulks) ∧
    (∃ u : State, Only [HST_STATUS.D3HOT] { s with hst := { s.hst with d3Entered := none, graceOver := u.hst.graceOver } } u ∧ u.get HST_STATUS.D3HOT = 0 ∧
      u.hst.graceOver = (s.hst.graceOver && !s.on HST_STATUS.BME) ∧ exec .d0Return s = .next u.reviewHost.pumpBulks)) ∧
  (∀ (k n cause : Nat) (s : State),
    (s.get (ringHalted k n) = 1 ∨ s.get CHN_STATE.TALLY ≠ 1 → s.haltRing k n cause = s) ∧
    (s.get (ringHalted k n) ≠ 1 → s.get CHN_STATE.TALLY = 1 → cause < 8 → (ringHalted k n).width = 1 → (ringCause k n).width = 3 ∨ (ringCause k n).width = 4 → (ringCause k n).key ≠ (ringHalted k n).key →
      ∃ u : State, Only [ringHalted k n, ringCause k n] s u ∧ u.get (ringHalted k n) = 1 ∧ u.get (ringCause k n) = cause ∧
        (k = 0 → s.haltRing k n cause = u.raise 0x0E01 [k, n, cause, s.get (ringIndex k n)]) ∧
        (k = 1 → s.haltRing k n cause = (u.raise 0x0E01 [k, n, cause, s.get (ringIndex k n)]).vector (s.get (HST_CQ_CFG.VECTOR n))) ∧
        (k = 2 → s.haltRing k n cause = (u.raise 0x0E01 [k, n, cause, s.get (ringIndex k n)]).vector (s.get (HST_DR_CFG.VECTOR n))))) ∧
  (∀ (v : Nat) (s : State),
    (bit (s.msixWord (0x0EC00 + 16 * v + 12)) 0 = true → s.vector v = s.onHst fun h => { h with msixPending := setBit h.msixPending v true }) ∧
    (bit (s.msixWord (0x0EC00 + 16 * v + 12)) 0 = false → s.canIssue = true → s.vector v = s.onHst fun h => { h with
      writes := h.writes ++ [⟨s.msixWord (0x0EC00 + 16 * v) + s.msixWord (0x0EC00 + 16 * v + 4) * 2 ^ 32, leBytes (s.msixWord (0x0EC00 + 16 * v + 8)) 4⟩]
      sent := h.sent ++ [v] }) ∧
    (bit (s.msixWord (0x0EC00 + 16 * v + 12)) 0 = false → s.canIssue = false → s.vector v = s)) ∧
  (∀ s : State,
    (s.hst.bmeCleared = none → s.hst.d3Entered = none → exec .hostGraceExpired s = .next s) ∧
    (s.hst.graceOver = true ∨ s.get CHN_STATE.TALLY ≠ 1 → exec .hostGraceExpired s = .next s) ∧
    (∀ f : Nat, s.hst.graceOver = false → s.get CHN_STATE.TALLY = 1 → s.hst.bmeCleared = some f → (∀ g : Nat, s.hst.d3Entered = some g → f ≤ g) → exec .hostGraceExpired s =
      .next ((((s.advance (f + s.get HST_GRACE.MS * 2000000)).onHst fun h => { h with graceOver := true }).raise 0x0E04 [0]).reviewHost)) ∧
    (∀ f : Nat, s.hst.graceOver = false → s.get CHN_STATE.TALLY = 1 → s.hst.bmeCleared = none → s.hst.d3Entered = some f → exec .hostGraceExpired s =
      .next ((((s.advance (f + s.get HST_GRACE.MS * 2000000)).onHst fun h => { h with graceOver := true }).raise 0x0E04 [1]).reviewHost))) ∧
  (∀ (n : Fin 32) (s : State),
    (Tbl.get none s.hst.firstUnsignalled n.val = none ∨ s.get (HST_CQ_CFG.MOD_US n.val) = 0 ∨ s.get CHN_STATE.TALLY ≠ 1 → exec (.cqModerationTimer n) s = .next s) ∧
    (∀ f : Nat, Tbl.get none s.hst.firstUnsignalled n.val = some f → s.get (HST_CQ_CFG.MOD_US n.val) ≠ 0 → s.get CHN_STATE.TALLY = 1 →
      exec (.cqModerationTimer n) s = .next ((s.advance (f + s.get (HST_CQ_CFG.MOD_US n.val) * 2000)).signalCq n.val))) ∧
  (∀ (n : Fin 16) (s : State),
    (Tbl.get none s.hst.dr n.val = none ∨ s.get (HST_DR_CFG.FLUSH n.val) = 0 ∨ s.get CHN_STATE.TALLY ≠ 1 → exec (.drFlushTimeout n) s = .next s) ∧
    (∀ b : DrBuf, Tbl.get none s.hst.dr n.val = some b → s.get (HST_DR_CFG.FLUSH n.val) ≠ 0 → s.get CHN_STATE.TALLY = 1 →
      exec (.drFlushTimeout n) s = .next ((s.advance (b.since + s.get (HST_DR_CFG.FLUSH n.val) * 2000000)).closeBuffer n.val true).pump)) ∧
  (∀ (off : Nat) (s : State),
    (s.answers .bar0 0x0E020 = false → exec (.bar2Read off true) s = .next s ∧ exec (.bar2Read off false) s = .next s) ∧
    (s.answers .bar0 0x0E020 = true →
      exec (.bar2Read off true) s = .next (s.bump HST_ERRCNT1.BAR2_DENIED 1) ∧
      (s.holds .bar0 .maker = true → s.isPithead = true → off + 0x2000000 * s.get HST_BAR2.BASE < 0x6000000 →
        ∃ (o : Nat) (a b c d : Nat × State), o = off + 0x2000000 * s.get HST_BAR2.BASE ∧ a = s.kibbleByte o ∧ b = a.2.kibbleByte (o + 1) ∧
          c = b.2.kibbleByte (o + 2) ∧ d = c.2.kibbleByte (o + 3) ∧
          exec (.bar2Read off false) s = .next { d.2 with answer := a.1 + 256 * (b.1 + 256 * (c.1 + 256 * d.1)) }) ∧
      (s.holds .bar0 .maker = true → s.isPithead = true → 0x6000000 ≤ off + 0x2000000 * s.get HST_BAR2.BASE → exec (.bar2Read off false) s = .next { s with answer := 0 }) ∧
      (s.holds .bar0 .maker = false ∨ s.isPithead = false → ∃ t : State, exec (.bar2Read off false) s = .next t ∧ t.answer = 0) ∧
      (∀ f : Nat, s.holds .bar0 .maker = false ∨ s.isPithead = false → s.hst.bar2Denied = some f → s.fwc < f + 2000000000 →
        exec (.bar2Read off false) s = .next { s.bump HST_ERRCNT1.BAR2_DENIED 1 with answer := 0 }))) ∧
  (∀ (o : Nat) (s : State), ∃ p : Nat × Nat,
    p = Config.kibblePlace [s.get PIPE_MEM.SPOT_MIB, s.get PIPE_MEM.TBL_MIB, s.get ENG_POOL.MIB, s.get CHN_INTAKE.HWM_MIB] o ∧
    s.kibbleByte o = if p.1 = 5 then (memByte s.pipe.table p.2, s)
      else if p.2 < (s.kibbleArea p.1).length then ((s.kibbleArea p.1).getD p.2 0 % 256, s)
      else if s.pipe.blank then (0, s)
      else (Config.freeValue s.freeIx % 256, { s with freeIx := s.freeIx + 1 }))

/-- O52. The CFG register of a ring, RESUME, doorbells, the host watchdog and re-arming. A write of a ring's CFG on a path that may write EN takes its
settings, then EN: from 0 to 1 the ring's index, doorbell, HALTED and CAUSE are 0 and its phase is 1 on a completion or data ring, and the ring goes
on; from 1 to 0 it stops; with RESUME 1 it then resumes where it is enabled, halted and its cause is over, which clears HALTED and CAUSE; elsewhere
RESUME changes nothing. RING_RESUME is the CFG write of the settings as they stand with RESUME. A doorbell of a ring that is not enabled is stored; of
an enabled one a value below the size (and for a completion ring not beyond its tail) is stored and the ring goes on; an invalid one halts the ring
with CAUSE 3 on tally 1 and is not stored. PET notes the instant; the watchdog is looked at: WDOG_EXP is 0 exactly while MS is 0 or a PET lies less
than MS ms back, its event is raised as it becomes 1, and REQ_OK follows. HOST_WDOG_EXPIRED with MS 0, or when it has expired already, changes
nothing. HST_REARM sets ARMED. -/
def Obligations.RingsAreSetUpAndRung : Prop :=
  (∀ (p : Path) (k : Fin 3) (n : Fin 32) (w : Word) (s : State), s.takes p (ringOff k.val n.val + 8) w.toNat = true →
    ∃ b : State, b = s.booked p (ringOff k.val n.val + 8) w.toNat ∧
      (b.mayWrite p (ringEn k.val n.val) = false → exec (.ringEnable p k n w) s = .next b) ∧
      (b.mayWrite p (ringEn k.val n.val) = true → ∃ u v : State, Only (fieldsAt (ringOff k.val n.val + 8)) b u ∧ u.get (ringEn k.val n.val) = (if bit w.toNat 31 then 1 else 0) ∧
        (bit w.toNat 31 = true → b.get (ringEn k.val n.val) ≠ 1 → v = u.enableRing k.val n.val) ∧
        (bit w.toNat 31 = false → b.get (ringEn k.val n.val) = 1 → v = u.disableRing k.val n.val) ∧
        (bit w.toNat 31 = true → b.get (ringEn k.val n.val) = 1 → v = u) ∧ (bit w.toNat 31 = false → b.get (ringEn k.val n.val) ≠ 1 → v = u) ∧
        exec (.ringEnable p k n w) s = .next (if bit w.toNat 30 then v.resumeRing k.val n.val else v))) ∧
  (∀ (p : Path) (k : Fin 3) (n : Fin 32) (s : State), s.resumeWord k.val n.val < 2 ^ 32 →
    exec (.ringResume p k n) s = exec (.ringEnable p k n (BitVec.ofNat 32 (s.resumeWord k.val n.val))) s ∧
    (s.takes p (ringOff k.val n.val + 8) (s.resumeWord k.val n.val) = true → ∃ b : State, b = s.booked p (ringOff k.val n.val + 8) (s.resumeWord k.val n.val) ∧
      (bit (s.resumeWord k.val n.val) 31 = true → bit (s.resumeWord k.val n.val) 30 = true → b.mayWrite p (ringEn k.val n.val) = true → b.get (ringEn k.val n.val) = 1 →
        ∃ u : State, Only (fieldsAt (ringOff k.val n.val + 8)) b u ∧ u.get (ringEn k.val n.val) = 1 ∧ exec (.ringResume p k n) s = .next (u.resumeRing k.val n.val)))) ∧
  (∀ (k : Fin 3) (n : Fin 32) (s : State), (k.val = 2 → n.val < 16) →
    (∃ (r : State) (u : State), r = s.dropRing k.val n.val ∧ s.enableRing k.val n.val = u.goRing k.val n.val ∧
      u.get (ringIndex k.val n.val) = 0 ∧ u.get (ringDb k.val n.val) = 0 ∧ u.get (ringHalted k.val n.val) = 0 ∧ u.get (ringCause k.val n.val) = 0 ∧
      (k.val ≠ 0 → u.get (ringPhase k.val n.val) = 1) ∧
      Only [ringIndex k.val n.val, ringDb k.val n.val, ringHalted k.val n.val, ringCause k.val n.val, ringPhase k.val n.val] { r with hst := u.hst } u ∧
      u.hst = { r.hst with stopping := u.hst.stopping }) ∧
    (s.get (ringEn k.val n.val) ≠ 1 ∨ s.get (ringHalted k.val n.val) ≠ 1 ∨ s.causeOver k.val n.val = false → s.resumeRing k.val n.val = s) ∧
    (s.get (ringEn k.val n.val) = 1 → s.get (ringHalted k.val n.val) = 1 → s.causeOver k.val n.val = true →
      ∃ u : State, Only [ringHalted k.val n.val, ringCause k.val n.val] s u ∧ u.get (ringHalted k.val n.val) = 0 ∧ u.get (ringCause k.val n.val) = 0 ∧
        s.resumeRing k.val n.val = (u.goRing k.val n.val).pump)) ∧
  (∀ (p : Path) (n : Fin 32) (w : Word) (s : State), s.takes p (doorbellOff 0 n.val) w.toNat = true →
    ∃ (b : State) (v : Nat), b = s.booked p (doorbellOff 0 n.val) w.toNat ∧ v = w.toNat % 65536 ∧
      (b.mayWrite p (ringDb 0 n.val) = false → exec (.sqDoorbell p n w) s = .next b) ∧
      (b.mayWrite p (ringDb 0 n.val) = true →
        (b.get (ringEn 0 n.val) ≠ 1 → exec (.sqDoorbell p n w) s = .next (b.set (ringDb 0 n.val) v)) ∧
        (b.get (ringEn 0 n.val) = 1 → b.doorbellFits 0 n.val v = true → exec (.sqDoorbell p n w) s = .next ((b.set (ringDb 0 n.val) v).goRing 0 n.val)) ∧
        (b.get (ringEn 0 n.val) = 1 → b.doorbellFits 0 n.val v = false →
          exec (.sqDoorbell p n w) s = .next (if b.get CHN_STATE.TALLY = 1 then b.halt 0 n.val 3 else b)))) ∧
  (∀ (p : Path) (n : Fin 32) (w : Word) (s : State), s.takes p (doorbellOff 1 n.val) w.toNat = true →
    ∃ (b : State) (v : Nat), b = s.booked p (doorbellOff 1 n.val) w.toNat ∧ v = w.toNat % 65536 ∧
      (b.mayWrite p (ringDb 1 n.val) = false → exec (.cqDoorbell p n w) s = .next b) ∧
      (b.mayWrite p (ringDb 1 n.val) = true →
        (b.get (ringEn 1 n.val) ≠ 1 → exec (.cqDoorbell p n w) s = .next (b.set (ringDb 1 n.val) v)) ∧
        (b.get (ringEn 1 n.val) = 1 → b.doorbellFits 1 n.val v = true → exec (.cqDoorbell p n w) s = .next ((b.set (ringDb 1 n.val) v).goRing 1 n.val)) ∧
        (b.get (ringEn 1 n.val) = 1 → b.doorbellFits 1 n.val v = false →
          exec (.cqDoorbell p n w) s = .next (if b.get CHN_STATE.TALLY = 1 then b.halt 1 n.val 3 else b)))) ∧
  (∀ (p : Path) (n : Fin 16) (w : Word) (s : State), s.takes p (doorbellOff 2 n.val) w.toNat = true →
    ∃ (b : State) (v : Nat), b = s.booked p (doorbellOff 2 n.val) w.toNat ∧ v = w.toNat % 65536 ∧
      (b.mayWrite p (ringDb 2 n.val) = false → exec (.drDoorbell p n w) s = .next b) ∧
      (b.mayWrite p (ringDb 2 n.val) = true →
        (b.get (ringEn 2 n.val) ≠ 1 → exec (.drDoorbell p n w) s = .next (b.set (ringDb 2 n.val) v)) ∧
        (b.get (ringEn 2 n.val) = 1 → b.doorbellFits 2 n.val v = true → exec (.drDoorbell p n w) s = .next ((b.set (ringDb 2 n.val) v).goRing 2 n.val)) ∧
        (b.get (ringEn 2 n.val) = 1 → b.doorbellFits 2 n.val v = false →
          exec (.drDoorbell p n w) s = .next (if b.get CHN_STATE.TALLY = 1 then b.halt 2 n.val 3 else b)))) ∧
  (∀ (k n v : Nat) (s : State), s.doorbellFits k n v = true → v < s.ringSize k n) ∧
  (∀ (p : Path) (s : State), s.get HST_WDOG.MS < 65536 → s.takes p 0x0E010 (s.get HST_WDOG.MS * 65536 + 1) = true →
    ∃ u : State, u = ((s.booked p 0x0E010 (s.get HST_WDOG.MS * 65536 + 1)).writeFields p 0x0E010 (s.get HST_WDOG.MS * 65536 + 1)) ∧
      exec (.hostWdogPet p) s = .next (u.onHst fun h => { h with pet := some u.fwc }).reviewWdog) ∧
  (∀ s : State, ∃ u : State, Only [HST_STATUS.WDOG_EXP] s u ∧
    (u.get HST_STATUS.WDOG_EXP = 0 ↔ s.get CHN_STATE.TALLY ≠ 1 ∨ s.get HST_WDOG.MS = 0 ∨ ∃ f : Nat, s.hst.pet = some f ∧ s.fwc < f + s.get HST_WDOG.MS * 2000000) ∧
    (u.get HST_STATUS.WDOG_EXP = 1 → s.get HST_STATUS.WDOG_EXP ≠ 1 → s.reviewWdog = (u.raise 0x0E05 [s.fwc]).reviewHost) ∧
    (u.get HST_STATUS.WDOG_EXP = 0 ∨ s.get HST_STATUS.WDOG_EXP = 1 → s.reviewWdog = u.reviewHost)) ∧
  (∀ s : State, (s.get CHN_STATE.TALLY ≠ 1 ∨ s.get HST_WDOG.MS = 0 ∨ s.get HST_STATUS.WDOG_EXP = 1 → exec .hostWdogExpired s = .next s) ∧
    (∀ f : Nat, s.get CHN_STATE.TALLY = 1 → s.get HST_WDOG.MS ≠ 0 → s.get HST_STATUS.WDOG_EXP ≠ 1 → s.hst.pet = some f →
      exec .hostWdogExpired s = .next (s.advance (f + s.get HST_WDOG.MS * 2000000)).reviewWdog)) ∧
  (∀ (p : Path) (s : State), s.takes p 0x0E008 1 = true → ∃ u : State, exec (.hstRearm p) s = .next u.reviewHost ∧ Only [HST_STATUS.ARMED] (s.booked p 0x0E008 1) u ∧
    u.get HST_STATUS.ARMED = 1) ∧
  (∀ s : State, ∃ u : State, s.reviewHost = u.reviewMreq ∧ Only [HST_STATUS.REQ_OK] s u ∧
    (u.get HST_STATUS.REQ_OK = 1 ↔ s.get HST_LINK.DL_UP = 1 ∧ (s.get HST_STATUS.BME = 1 ∨ (s.hst.bmeCleared.isSome = true ∧ s.hst.graceOver = false)) ∧
      (s.get HST_STATUS.D3HOT ≠ 1 ∨ s.hst.graceOver = false) ∧ s.get HST_STATUS.ARMED = 1 ∧ s.get HST_STATUS.WDOG_EXP ≠ 1))

/-- O53. Whole-word writes with roles and ranges, reads with their latches, and the ERRCLR registers. A write on BAR0 that carries no whole word is
counted and raised and writes nothing; where page 0x0E does not answer on BAR0 it changes nothing. A whole write that its register does not answer,
that names an offset without a register, or a per-path register on another path than BAR0 or I2C, changes nothing; one that SAFE-TALK does not take is
only logged where a role is missing; a gated one with the shift book full is counted as refused. A write of one of 27 plain registers that is carried
out changes, beside the bookkeeping, no other register: a field whose role is not held, or that is RO, keeps its value; a W1C field drops the bits
written 1; any other takes its bits of the word where they lie in the range its map names, if it names one, and keeps its value elsewhere. A read of a
register that does not answer answers 0 and changes nothing; a read of a plain word answers the word, as latched where a read of the lowest word
latched it, and a read of the lowest word of a wide value latches its higher words as they stand. An ERRCLR register with CLEAR 0 does nothing beside
the bookkeeping; with CLEAR 1 every counter it names is 0 and no other register changes (MON also clears the overrun mark, ENG also the ECC counts of
every engine). The MSI-X table takes no write in SAFE-TALK. Configuration space holds the identifiers of R404. -/
def Obligations.RegisterWordsAreWrittenReadAndCleared : Prop :=
  (∀ (off : Nat) (w : Word) (s : State),
    (s.answers .bar0 0x0E020 = false → exec (.registerWrite .bar0 off w false) s = .next s) ∧
    (s.answers .bar0 0x0E020 = true → ∃ u : State, exec (.registerWrite .bar0 off w false) s = .next (u.raise 0x0E08 [off]) ∧
      Only [HST_ERRCNT1.BAR0_PARTIAL] s u ∧ u.get HST_ERRCNT1.BAR0_PARTIAL = min 255 (s.get HST_ERRCNT1.BAR0_PARTIAL + 1))) ∧
  (∀ (p : Path) (off : Nat) (w : Word) (full : Bool) (s : State), (p = .bar0 → full = true) →
    (s.answers p off = false → exec (.registerWrite p off w full) s = .next s) ∧
    (isMsix off = true → s.answers p off = true → exec (.registerWrite p off w full) s = .next (if s.power = stSAFETALK then s else s.writeMsix off w.toNat)) ∧
    (∀ f g : Field, s.attempts p off w.toNat = [f, g] → s.logAttempts p off w.toNat =
      (s.sbReject p (f.role.getD .operator) off w.toNat).sbReject p (g.role.getD .operator) off w.toNat) ∧
    (isMsix off = false → off ≠ 0x0A00C → fieldsAt off = [] → exec (.registerWrite p off w full) s = .next s) ∧
    (0x10008 ≤ off → off ≤ 0x10074 → (∃ x : Nat, p = .proxy x) ∨ p = .foreman → exec (.registerWrite p off w full) s = .next s) ∧
    (∀ o ∈ [0x03010, 0x05010, 0x0B030, 0x0E018], off = o → s.answers p off = true → s.power = stSAFETALK → p ≠ .foreman →
      exec (.registerWrite p off w full) s = .next (s.logAttempts p off w.toNat)) ∧
    (∀ o ∈ [0x03010, 0x05010, 0x0B030, 0x0E018], off = o → s.answers p off = true → s.power ≠ stSAFETALK → p ≠ .foreman → s.rolesUsed p off ≠ [] →
      (s.logAttempts p off w.toNat).sbRoom = false → exec (.registerWrite p off w full) s = .next ((s.logAttempts p off w.toNat).bump NVS_ERRCNT1.SB_REFUSED 1)) ∧
    (∀ o ∈ [0x01008, 0x01010, 0x03010, 0x05010, 0x05018, 0x05020, 0x06020, 0x06404, 0x06874, 0x07008, 0x08000, 0x08004, 0x09014, 0x09080, 0x0A008, 0x0A04C,
        0x0B030, 0x0B048, 0x0B04C, 0x0C010, 0x0E00C, 0x0E014, 0x0E018, 0x0F020, 0x0F030, 0x10004, 0x11000], off = o → s.takes p off w.toNat = true →
      ∃ b u : State, b = s.booked p off w.toNat ∧ exec (.registerWrite p off w full) s = .next u ∧ Only (fieldsAt off) b u ∧
        ∀ f ∈ fieldsAt off,
          (b.mayWrite p f = false ∨ f.acc = .ro → u.get f = b.get f) ∧
          (b.mayWrite p f = true → f.acc = .w1c → u.get f = (b.get f - (b.get f &&& f.of w.toNat)) % 2 ^ f.width) ∧
          (b.mayWrite p f = true → f.acc = .rw ∨ f.acc = .rws →
            (fieldRange f = none → u.get f = f.of w.toNat) ∧
            (∀ lo hi : Nat, fieldRange f = some (lo, hi) → u.get f = if lo ≤ f.of w.toNat ∧ f.of w.toNat ≤ hi then f.of w.toNat else b.get f)))) ∧
  (∀ (p : Path) (off : Nat) (s : State),
    (s.answers p off = false → exec (.wideRegisterRead p off) s = .next { s with answer := 0 }) ∧
    (0x10008 ≤ off → off ≤ 0x10074 → (∃ x : Nat, p = .proxy x) ∨ p = .foreman → exec (.wideRegisterRead p off) s = .next { s with answer := 0 }) ∧
    (s.answers p off = true → isMsix off = false → isPerPath off = false ∨ p = .bar0 ∨ p = .i2c → off ∉ [0x05074, 0x05078, 0x0A01C, 0x0F024, 0x0F028] →
      ∃ t : State, exec (.wideRegisterRead p off) s = .next t ∧ t = { s with latched := t.latched, answer := s.shownWord p off } ∧
        (∀ o ∈ higherWords off, Tbl.get 0 t.latched (pathOffset p o) = s.liveWord p o + 1) ∧
        (∀ k : Nat, k ∉ (higherWords off).map (pathOffset p) → Tbl.get 0 t.latched k = Tbl.get 0 s.latched k)) ∧
    (∀ v : Nat, Tbl.get 0 s.latched (pathOffset p off) = v + 1 → s.shownWord p off = v) ∧
    (Tbl.get 0 s.latched (pathOffset p off) = 0 → s.shownWord p off = s.liveWord p off)) ∧
  (∀ (p : Path) (w : Word) (s : State),
    (s.takes p 0x01018 w.toNat = true → ∃ u : State, exec (.pwrErrclr p w) s = .next u ∧ Cleared (([0x01014] : List Nat).flatMap fieldsAt) w (s.booked p 0x01018 w.toNat) u) ∧
    (s.takes p 0x0204C w.toNat = true → ∃ u : State, exec (.pllErrclr p w) s = .next u ∧ Cleared [PLL_CNT.LOSS_CNT 0, PLL_CNT.LOSS_CNT 1, PLL_CNT.LOSS_CNT 2] w (s.booked p 0x0204C w.toNat) u) ∧
    (s.takes p 0x03040 w.toNat = true → ∃ u : State, exec (.safErrclr p w) s = .next u ∧ Cleared (([0x03038, 0x0303C] : List Nat).flatMap fieldsAt) w (s.booked p 0x03040 w.toNat) u) ∧
    (s.takes p 0x0408C w.toNat = true → ∃ u : State, exec (.timErrclr p w) s = .next u ∧ Cleared (([0x04084, 0x04088] : List Nat).flatMap fieldsAt) w (s.booked p 0x0408C w.toNat) u) ∧
    (s.takes p 0x050A8 w.toNat = true → ∃ u : State, exec (.cadErrclr p w) s = .next u ∧ Cleared (([0x050A0, 0x050A4] : List Nat).flatMap fieldsAt) w (s.booked p 0x050A8 w.toNat) u) ∧
    (s.takes p 0x06034 w.toNat = true → ∃ u : State, exec (.expModeErrclr p w) s = .next u ∧ Cleared (([0x06030] : List Nat).flatMap fieldsAt) w (s.booked p 0x06034 w.toNat) u) ∧
    (s.takes p 0x06410 w.toNat = true → ∃ u : State, exec (.expSpotErrclr p w) s = .next u ∧ Cleared (([0x0640C] : List Nat).flatMap fieldsAt) w (s.booked p 0x06410 w.toNat) u) ∧
    (s.takes p 0x06884 w.toNat = true → ∃ u : State, exec (.expArrayErrclr p w) s = .next u ∧ Cleared (([0x0687C, 0x06880] : List Nat).flatMap fieldsAt) w (s.booked p 0x06884 w.toNat) u) ∧
    (s.takes p 0x08040 w.toNat = true → ∃ u : State, exec (.calErrclr p w) s = .next u ∧ Cleared (([0x0802C, 0x08030, 0x08034, 0x08038, 0x0803C] : List Nat).flatMap fieldsAt) w (s.booked p 0x08040 w.toNat) u) ∧
    (s.takes p 0x0B074 w.toNat = true → ∃ u : State, exec (.chnErrclr p w) s = .next u ∧ Cleared (([0x0B060, 0x0B064, 0x0B068, 0x0B06C, 0x0B070] : List Nat).flatMap fieldsAt) w (s.booked p 0x0B074 w.toNat) u) ∧
    (s.takes p 0x0D080 w.toNat = true → ∃ u : State, exec (.pipeErrclr p w) s = .next u ∧ Cleared (([0x0D074, 0x0D078, 0x0D07C] : List Nat).flatMap fieldsAt) w (s.booked p 0x0D080 w.toNat) u) ∧
    (s.takes p 0x0E028 w.toNat = true → ∃ u : State, exec (.hstErrclr p w) s = .next u ∧ Cleared (([0x0E01C, 0x0E020, 0x0E024] : List Nat).flatMap fieldsAt) w (s.booked p 0x0E028 w.toNat) u) ∧
    (s.takes p 0x0F040 w.toNat = true → ∃ u : State, exec (.nvsErrclr p w) s = .next u ∧ Cleared (([0x0F038, 0x0F03C] : List Nat).flatMap fieldsAt) w (s.booked p 0x0F040 w.toNat) u) ∧
    (s.takes p 0x100C8 w.toNat = true → ∃ u : State, exec (.rolErrclr p w) s = .next u ∧ Cleared (([0x100C4] : List Nat).flatMap fieldsAt) w (s.booked p 0x100C8 w.toNat) u) ∧
    (s.takes p 0x11014 w.toNat = true → ∃ u : State, exec (.i2cErrclr p w) s = .next u ∧ Cleared (([0x1100C, 0x11010] : List Nat).flatMap fieldsAt) w (s.booked p 0x11014 w.toNat) u) ∧
    (∀ d : Bool, s.takes p (0x0C02C + 0x400 * px d) w.toNat = true → ∃ u : State, exec (.lnkErrclr d p w) s = .next u ∧
      Cleared ((([0x20, 0x24, 0x28] ++ (List.range 8).map fun n => 0x80 + 4 * n) : List Nat).flatMap fun o => fieldsAt (0x0C000 + 0x400 * px d + o)) w
        (s.booked p (0x0C02C + 0x400 * px d) w.toNat) u) ∧
    (s.takes p 0x09018 w.toNat = true → ∃ b u v : State, b = s.booked p 0x09018 w.toNat ∧ exec (.monErrclr p w) s = .next u ∧
      Cleared [MON_STATUS.OVERRUN_CNT] w b v ∧ u = if bit w.toNat 0 then v.onMon fun m => { m with overrun := false } else v) ∧
    (s.takes p 0x0A06C w.toNat = true → ∃ b u v : State, b = s.booked p 0x0A06C w.toNat ∧ exec (.engErrclr p w) s = .next u ∧
      Cleared (fieldsAt 0x0A064 ++ fieldsAt 0x0A068) w b v ∧ u = { v with eng := { v.eng with engs := u.eng.engs } } ∧
      ∀ e : Nat, u.engine e = if bit w.toNat 0 then { b.engine e with corr := 0, uncorr := 0 } else b.engine e)) ∧
  (State.reset.cfgRead .vendorId = 0x1F7D ∧ State.reset.cfgRead .deviceId = 0x0201 ∧ State.reset.cfgRead .classCode = 0x118000 ∧
    State.reset.cfgRead .subsystemVendorId = 0x1F7D ∧ State.reset.cfgRead .subsystemId = 0x0201 ∧ 1 ≤ State.reset.cfgRead .revisionId ∧
    ∀ s : State, s.cfgRead .deviceSerialNumber = s.serial)

/-- O54. In STANDBY pages 0x01 and 0x11 answer on I2C and no other page answers anywhere. In STANDBY, with no start-up running (a start-up in progress is
R560's case): a read of a word of page 0x01 or 0x11 on I2C answers the word as it stands and changes nothing; a write of one of their registers
without a role takes its fields (shown for I2C_CFG.FILT and PWR_RAIL.FAULT), so these pages answer. On every other page, and on every other path, a
read answers 0 and changes nothing, and a write changes nothing at all, the shift book among it. -/
def Obligations.StandbyAnswersOnlyTheAlwaysOnPages : Prop :=
  ∀ s : State, s.power = stSTANDBY → s.pwr.startup = 0 →
    (∀ off : Nat, pageOf off = 0x01 ∨ pageOf off = 0x11 → Tbl.get 0 s.latched off = 0 →
      exec (.wideRegisterRead .i2c off) s = .next { s with answer := s.liveWord .i2c off }) ∧
    (∀ (w : Word) (full : Bool),
      (∃ u : State, exec (.registerWrite .i2c 0x11000 w full) s = .next u ∧ Only [I2C_CFG.FILT] s u ∧ u.get I2C_CFG.FILT = w.toNat % 8) ∧
      (∃ u : State, exec (.registerWrite .i2c 0x01008 w full) s = .next u ∧ Only [PWR_RAIL.FAULT] s u ∧
        u.get PWR_RAIL.FAULT = (s.get PWR_RAIL.FAULT - (s.get PWR_RAIL.FAULT &&& w.toNat % 512)) % 512)) ∧
    (∀ (p : Path) (off : Nat) (w : Word) (full : Bool), p ≠ .i2c ∨ (pageOf off ≠ 0x01 ∧ pageOf off ≠ 0x11) →
      exec (.wideRegisterRead p off) s = .next { s with answer := 0 } ∧ exec (.registerWrite p off w full) s = .next s)

/-- O55. The I2C commands, words of four bytes, reads, the hold, and both timers. With VAON good a write transfer ends what was going on (a word of 1 to 3
bytes is discarded and counted in PARTIAL) and sets BUSY; FILT takes effect at each start (R524). A command byte the table does not list counts BADCMD
and is not acknowledged. ACCESS_INC and ACCESS_FIXED set FIXED and PTR and take their data: a first, second or third byte is kept, a fourth completes
the word b0 + 256 b1 + 65536 b2 + 2^24 b3, which is written as one access at offset PAGE x 4096 + WIN x 1024 + PTR x 4; SCL is held for a page other
than 0x01, 0x03 and 0x11; then PTR becomes (PTR + 1) mod 256 unless FIXED. SELECT sets PAGE, WIN (its low two bits) and PTR 0, and does not
acknowledge further bytes. A read transfer reads the word at that offset, the next one after PTR has advanced, and sends its four bytes least
significant first. A stop or repeated start ends the transfer, advancing PTR first after a whole word read. HOLD_TIMEOUT, 1 ms after the hold began,
counts LATE; a write's byte is not acknowledged, a read sends 0xFF bytes; with nothing held it changes nothing. STUCK_TIMEOUT ends a transfer, counts
SDA_REL or BUS_RST and raises its event; with none in progress it changes nothing. Without VAON the four access commands change nothing. -/
def Obligations.I2cTransfersReachTheWordAddressed : Prop :=
  (∀ (k f : Bool) (ptr page win : Byte) (data : List Byte) (s : State), s.pwr.vaon = false →
    exec (.accessInc k ptr data) s = .next s ∧ exec (.accessFixed k ptr data) s = .next s ∧ exec (.select k page win f) s = .next s ∧ exec .i2cWordRead s = .next s) ∧
  (∀ s : State, ∃ u : State, s.i2cEnd = u ∧
    Only [I2C_ERRCNT1.PARTIAL, I2C_STATUS.BUSY] { s with i2c := { s.i2c with partialBytes := [], reading := false, hold := 0 } } u ∧ u.get I2C_STATUS.BUSY = 0 ∧
    u.get I2C_ERRCNT1.PARTIAL = if s.i2c.partialBytes = [] then s.get I2C_ERRCNT1.PARTIAL else min 65535 (s.get I2C_ERRCNT1.PARTIAL + 1)) ∧
  (∀ (f : Bool) (ptr page win : Byte) (data : List Byte) (s : State), s.pwr.vaon = true →
    ∃ b u : State, b = s.i2cEnd ∧ exec (.accessInc false ptr data) s = .next u ∧ exec (.accessFixed false ptr data) s = .next u ∧ exec (.select false page win f) s = .next u ∧
      Only [I2C_STATUS.BUSY, I2C_ERRCNT1.BADCMD] { b with i2c := { b.i2c with nack := true, filt := s.get I2C_CFG.FILT } } u ∧ u.get I2C_STATUS.BUSY = 1 ∧
      u.get I2C_ERRCNT1.BADCMD = min 255 (s.get I2C_ERRCNT1.BADCMD + 1)) ∧
  (∀ (ptr : Byte) (data : List Byte) (s : State), s.pwr.vaon = true →
    ∃ b u v : State, b = s.i2cEnd ∧ exec (.accessInc true ptr data) s = .next (i2cData (data.map BitVec.toNat) u) ∧
      exec (.accessFixed true ptr data) s = .next (i2cData (data.map BitVec.toNat) v) ∧
      Only [I2C_STATUS.BUSY, I2C_SEL.FIXED, I2C_SEL.PTR] { b with i2c := { b.i2c with nack := false, filt := s.get I2C_CFG.FILT } } u ∧
      u.get I2C_STATUS.BUSY = 1 ∧ u.get I2C_SEL.FIXED = 0 ∧ u.get I2C_SEL.PTR = ptr.toNat ∧
      Only [I2C_STATUS.BUSY, I2C_SEL.FIXED, I2C_SEL.PTR] { b with i2c := { b.i2c with nack := false, filt := s.get I2C_CFG.FILT } } v ∧
      v.get I2C_STATUS.BUSY = 1 ∧ v.get I2C_SEL.FIXED = 1 ∧ v.get I2C_SEL.PTR = ptr.toNat) ∧
  (∀ (b : Nat) (bs : List Nat) (s : State), i2cData [] s = s ∧
    (s.i2c.partialBytes.length < 3 → i2cData (b :: bs) s = i2cData bs (s.onI2c fun x => { x with partialBytes := s.i2c.partialBytes ++ [b] })) ∧
    (∀ b0 b1 b2 : Nat, s.i2c.partialBytes = [b0, b1, b2] → b0 < 256 → b1 < 256 → b2 < 256 → b < 256 →
      ∃ (off w : Nat) (t : State), off = s.get I2C_SEL.PAGE * 4096 + s.get I2C_SEL.WIN * 1024 + s.get I2C_SEL.PTR * 4 ∧
        w = b0 + 256 * b1 + 65536 * b2 + 16777216 * b ∧ t = (s.onI2c fun x => { x with partialBytes := [] }).writeWord .i2c off w ∧
        i2cData (b :: bs) s = i2cData bs ((t.i2cHold 1 off).i2cAdvance))) ∧
  (∀ (kind off : Nat) (s : State),
    (s.get I2C_SEL.FIXED = 1 → s.i2cAdvance = s) ∧
    (s.get I2C_SEL.FIXED ≠ 1 → ∃ u : State, s.i2cAdvance = u ∧ Only [I2C_SEL.PTR] s u ∧ u.get I2C_SEL.PTR = (s.get I2C_SEL.PTR + 1) % 256) ∧
    (pageOf off ∈ [0x01, 0x03, 0x11] → s.i2cHold kind off = { s with i2c := { s.i2c with hold := 0 } }) ∧
    (pageOf off ∉ [0x01, 0x03, 0x11] → s.i2cHold kind off = { s with i2c := { s.i2c with hold := kind, holdAt := s.fwc } })) ∧
  (∀ (page win : Byte) (further : Bool) (s : State), s.pwr.vaon = true →
    ∃ b u : State, b = s.i2cEnd ∧ exec (.select true page win further) s = .next u ∧
      Only [I2C_STATUS.BUSY, I2C_SEL.PAGE, I2C_SEL.WIN, I2C_SEL.PTR] { b with i2c := { b.i2c with nack := further, filt := s.get I2C_CFG.FILT } } u ∧
      u.get I2C_STATUS.BUSY = 1 ∧ u.get I2C_SEL.PAGE = page.toNat ∧ u.get I2C_SEL.WIN = win.toNat % 4 ∧ u.get I2C_SEL.PTR = 0) ∧
  (∀ s : State, s.pwr.vaon = true →
    ∃ (t : State) (off : Nat) (r : State × Nat), t = (if s.i2c.reading then s.i2cAdvance
        else ((s.i2cEnd).set I2C_STATUS.BUSY 1).onI2c fun x => { x with filt := s.get I2C_CFG.FILT }) ∧
      off = t.get I2C_SEL.PAGE * 4096 + t.get I2C_SEL.WIN * 1024 + t.get I2C_SEL.PTR * 4 ∧ r = t.readWord .i2c off ∧
      exec .i2cWordRead s = .next { ((r.1.onI2c fun x => { x with reading := true, sent := leBytes r.2 4 }).i2cHold 2 off) with answer := r.2 }) ∧
  (∀ s : State, s.i2cSuppression = if stSTANDBY < s.power then 50 + 40 * s.i2c.filt else 50) ∧
  (∀ (whole : Bool) (s : State),
    (s.i2c.reading = true → whole = true → exec (.i2cTransferEnd whole) s = .next (s.i2cAdvance).i2cEnd) ∧
    (s.i2c.reading = false ∨ whole = false → exec (.i2cTransferEnd whole) s = .next s.i2cEnd)) ∧
  (∀ s : State,
    (s.i2c.hold = 0 → exec .i2cHoldTimeout s = .next s) ∧
    (s.i2c.hold ≠ 0 → ∃ b u : State, b = s.advance (s.i2c.holdAt + 2000000) ∧ Only [I2C_ERRCNT1.LATE] b u ∧ u.get I2C_ERRCNT1.LATE = min 255 (s.get I2C_ERRCNT1.LATE + 1) ∧
      (s.i2c.hold = 1 → exec .i2cHoldTimeout s = .next { u with i2c := { u.i2c with hold := 0, nack := true } }) ∧
      (s.i2c.hold ≠ 1 → exec .i2cHoldTimeout s = .next { u with i2c := { u.i2c with hold := 0, sent := [255, 255, 255, 255] }, answer := 0xFFFFFFFF }))) ∧
  (∀ s : State,
    (s.get I2C_STATUS.BUSY ≠ 1 → ∀ sda : Bool, exec (.i2cStuckTimeout sda) s = .next s) ∧
    (s.get I2C_STATUS.BUSY = 1 → ∃ b u v : State, b = s.i2cEnd ∧
      exec (.i2cStuckTimeout true) s = .next (u.raise 0x1101 [s.fwc]) ∧ Only [I2C_ERRCNT0.SDA_REL] b u ∧ u.get I2C_ERRCNT0.SDA_REL = min 65535 (s.get I2C_ERRCNT0.SDA_REL + 1) ∧
      exec (.i2cStuckTimeout false) s = .next (v.raise 0x1102 [s.fwc]) ∧ Only [I2C_ERRCNT0.BUS_RST] b v ∧ v.get I2C_ERRCNT0.BUS_RST = min 65535 (s.get I2C_ERRCNT0.BUS_RST + 1)))

/-- O56. The spotlight source: sending, control and clearing; the pithead's intake and PIPE_MEM. SPOT_PACKET_SEND takes the first item of the spot queue,
else the first of a STAGED frame that is complete, else changes nothing. The item leaves at the next instant the rate limit allows, and the next may
follow after 16 x bytes / GBPS ticks, rounded up (GBPS in force, 0 taken as 1); a crew unit sends it as its packet, the pithead puts it in the in-line
buffer (with EN 0 nowhere; where its values fit in 262144, at the end, else dropped, counted and raised once a sweep); with a CLOSE item FRAMES
counts. A write of EXP_SPOT_CTRL takes its fields, and where it leaves EN 0 or changes METHOD stops STAGED: a staged frame is dropped, and CLEARING is
1 where an engine holds staged lines. SPOT_CLEAR_DONE with CLEARING 1 makes the staging regions of each such engine 0 and free of errors and ends
CLEARING, changing no other byte and no other engine; with CLEARING 0 it changes nothing. A SPOT packet delivered to the pithead joins the spot buffer
with its size where EN is 1, SPOT_MIB is not 0 and it fits; with EN 0 or SPOT_MIB 0, or where it does not fit, it is dropped and counted, a lost line
noted, and PIPE_SPOT_FULL raised once. PIPE_MEM is refused, with its event and no change, while EN is 1 or where the four parts exceed 96 MiB; else it
takes its fields. -/
def Obligations.SpotlightFramesLeaveAndArrive : Prop :=
  (∀ s : State,
    (∀ (it : SpotItem) (rest : List SpotItem), s.spot.queue = it :: rest →
      exec .spotPacketSend s = .next (({ s with spot := { s.spot with queue := rest, queued := s.spot.queued - it.packet.size } } : State).sendSpot it).reviewSpot) ∧
    (∀ (f : SpotFrame) (it : SpotItem) (rest : List SpotItem), s.spot.queue = [] → s.spot.frame = some f → f.staged = true → f.complete = true → f.items = it :: rest →
      exec .spotPacketSend s = .next
        (({ s with spot := { s.spot with frame := if rest.isEmpty then none else some { f with items := rest } } } : State).sendSpot it).reviewSpot) ∧
    (s.spot.queue = [] → (∀ f : SpotFrame, s.spot.frame = some f → f.staged = false ∨ f.complete = false) → exec .spotPacketSend s = .next s)) ∧
  (∀ (it : SpotItem) (s : State), ∃ b u : State, b = s.advance s.spot.nextAt ∧
    u = { b with spot := { b.spot with nextAt := b.fwc +
      (16 * it.packet.size + max 1 (s.spotNow EXP_SPOT_RATE.GBPS) - 1) / max 1 (s.spotNow EXP_SPOT_RATE.GBPS) } } ∧
    (it.kind ≠ 4 → s.get CHN_STATE.TALLY = 1 → s.sendSpot it = u.toInline it) ∧ (it.kind ≠ 4 → s.get CHN_STATE.TALLY ≠ 1 → s.sendSpot it = u.send it.packet) ∧
    (it.kind = 4 → Only [EXP_SPOT_STATUS.FRAMES] (if s.get CHN_STATE.TALLY = 1 then u.toInline it else u.send it.packet) (s.sendSpot it) ∧
      (s.sendSpot it).get EXP_SPOT_STATUS.FRAMES = (s.get EXP_SPOT_STATUS.FRAMES + 1) % 65536)) ∧
  (∀ (it : SpotItem) (s : State),
    (s.get PIPE_CTRL.EN ≠ 1 → s.toInline it = s) ∧
    (s.get PIPE_CTRL.EN = 1 → s.inlineCount + it.count ≤ 262144 → s.toInline it = { s with pipe := { s.pipe with inline := s.pipe.inline ++ [it] } }) ∧
    (s.get PIPE_CTRL.EN = 1 → 262144 < s.inlineCount + it.count → ∃ u : State, u = (s.bump PIPE_ERRCNT1.INLINE_DROP 1).loseLine it.src it.sweep ∧
      s.toInline it = if s.pipe.inlineRaised = it.sweep + 1 then u else (u.onPipe fun p => { p with inlineRaised := it.sweep + 1 }).raise 0x0D04 [it.stope, it.sweep])) ∧
  (∀ s : State, Only [EXP_SPOT_STATUS.RUN, EXP_SPOT_STATUS.SENDING] s s.reviewSpot) ∧
  (∀ (p : Path) (w : Word) (s : State), s.takes p 0x06400 w.toNat = true →
    ∃ b u : State, b = s.booked p 0x06400 w.toNat ∧ Only (fieldsAt 0x06400) b u ∧
      (b.mayWrite p EXP_SPOT_CTRL.EN = false → u = b ∧ exec (.expSpotCtrlWrite p w) s = .next b) ∧
      (b.mayWrite p EXP_SPOT_CTRL.EN = true → u.get EXP_SPOT_CTRL.EN = EXP_SPOT_CTRL.EN.of w.toNat ∧ u.get EXP_SPOT_CTRL.METHOD = EXP_SPOT_CTRL.METHOD.of w.toNat ∧
        (u.get EXP_SPOT_CTRL.EN ≠ 1 ∨ u.get EXP_SPOT_CTRL.METHOD ≠ b.get EXP_SPOT_CTRL.METHOD → exec (.expSpotCtrlWrite p w) s = .next u.stopStaged) ∧
        (u.get EXP_SPOT_CTRL.EN = 1 → u.get EXP_SPOT_CTRL.METHOD = b.get EXP_SPOT_CTRL.METHOD → exec (.expSpotCtrlWrite p w) s = .next u))) ∧
  (∀ s : State, ∃ u : State, s.stopStaged = u.reviewSpot ∧
    Only [EXP_SPOT_STATUS.CLEARING] { s with spot := u.spot } u ∧ u.get EXP_SPOT_STATUS.CLEARING = (if (s.eng.engs.any fun e => e.2.staged) then 1 else s.get EXP_SPOT_STATUS.CLEARING) ∧
    (∀ f : SpotFrame, s.spot.frame = some f → f.staged = true → u.spot = { s.spot with frame := none }) ∧
    ((∀ f : SpotFrame, s.spot.frame = some f → f.staged = false) → u.spot = s.spot)) ∧
  (∀ s : State,
    (s.get EXP_SPOT_STATUS.CLEARING ≠ 1 → exec .spotClearDone s = .next s) ∧
    (s.get EXP_SPOT_STATUS.CLEARING = 1 → ∃ u : State, exec .spotClearDone s = .next u ∧ u.get EXP_SPOT_STATUS.CLEARING = 0 ∧
      Only [EXP_SPOT_STATUS.CLEARING] { s with eng := { s.eng with engs := u.eng.engs } } u ∧
      ∀ e : Nat, ((s.engine e).staged = false → u.engine e = s.engine e) ∧
        ((s.engine e).staged = true → u.engine e = { s.engine e with mem := (u.engine e).mem, bad := (u.engine e).bad, staged := false } ∧
          (∀ a : Nat, Tbl.get (0 : Byte) (u.engine e).mem a = if isStaging a then 0 else Tbl.get (0 : Byte) (s.engine e).mem a) ∧
          (∀ k : Nat, Tbl.get 0 (u.engine e).bad k = if isStaging (8 * k) then 0 else Tbl.get 0 (s.engine e).bad k)))) ∧
  (∀ (d : Bool) (k : Packet) (s : State), k.fits 0x28 = true → s.stale k = false → k.dst = s.get CHN_STATE.TALLY → k.dst ≠ 63 →
    (s.get CHN_STATE.TALLY ≠ 1 → exec (.spot d k) s = .next s) ∧
    (s.get CHN_STATE.TALLY = 1 → s.get PIPE_CTRL.EN = 1 → s.get PIPE_MEM.SPOT_MIB ≠ 0 → s.spotUsed + k.size ≤ s.get PIPE_MEM.SPOT_MIB * 1048576 →
      exec (.spot d k) s = .next ({ s with pipe := { s.pipe with blank := false, spot := s.pipe.spot ++ [spotOf k], level := s.pipe.level + k.size } } : State).reviewPipe) ∧
    (s.get CHN_STATE.TALLY = 1 → ∃ u v : State, u = (if (spotOf k).kind = 3 then s.loseLine k.src k.sweep else s) ∧ Only [PIPE_ERRCNT0.SPOT_DROP] u v ∧
      v.get PIPE_ERRCNT0.SPOT_DROP = min (2 ^ PIPE_ERRCNT0.SPOT_DROP.width - 1) (s.get PIPE_ERRCNT0.SPOT_DROP + 1) ∧
      (s.get PIPE_CTRL.EN ≠ 1 ∨ s.get PIPE_MEM.SPOT_MIB = 0 → exec (.spot d k) s = .next v) ∧
      (s.get PIPE_CTRL.EN = 1 → s.get PIPE_MEM.SPOT_MIB ≠ 0 → s.get PIPE_MEM.SPOT_MIB * 1048576 < s.spotUsed + k.size → exec (.spot d k) s = .next (if s.pipe.full then v
        else (v.onPipe fun p => { p with full := true }).raise 0x0D03 [min 4095 ((s.spotUsed + 65535) / 65536)])))) ∧
  (∀ (d : Bool) (k : Packet) (s : State), k.fits 0x28 = false → exec (.spot d k) s = .next (s.bump CHN_ERRCNT1.TAG_DROP 1)) ∧
  (∀ s : State, Only [PIPE_STATUS.RUN, PIPE_STATUS.CTX_ON, PIPE_STATUS.LEVEL] s s.reviewPipe) ∧
  (∀ (p : Path) (w : Word) (s : State), s.takes p 0x0D004 w.toNat = true →
    ∃ (b : State) (sum : Nat), b = s.booked p 0x0D004 w.toNat ∧
      sum = PIPE_MEM.SPOT_MIB.of w.toNat + PIPE_MEM.TBL_MIB.of w.toNat + b.get ENG_POOL.MIB + b.get CHN_INTAKE.HWM_MIB ∧
      (b.mayWrite p PIPE_MEM.SPOT_MIB = false → exec (.pipeMemWrite p w) s = .next b) ∧
      (b.mayWrite p PIPE_MEM.SPOT_MIB = true → b.get PIPE_CTRL.EN = 1 ∨ 96 < sum → exec (.pipeMemWrite p w) s = .next (b.raise 0x0D06 [w.toNat])) ∧
      (b.mayWrite p PIPE_MEM.SPOT_MIB = true → b.get PIPE_CTRL.EN ≠ 1 → sum ≤ 96 → ∃ u : State, exec (.pipeMemWrite p w) s = .next u ∧
        Only [PIPE_MEM.SPOT_MIB, PIPE_MEM.TBL_MIB] b u ∧ u.get PIPE_MEM.SPOT_MIB = PIPE_MEM.SPOT_MIB.of w.toNat ∧ u.get PIPE_MEM.TBL_MIB = PIPE_MEM.TBL_MIB.of w.toNat))

/-- O57. COMMIT and DISABLE of contexts, items through the pipeline, the frame time limit, and the 16-bit code. COMMIT takes, for the selected context,
RESULT 1 where another context that is ON or pending names the same source and tap, else 2 where a table in use ends beyond the table area, else 3 for
source 0 or 63, and only RESULT changes; else RESULT 0 and the staged values are pending. DISABLE marks a context that is ON or pending. Neither does
anything without its role. PIPE_ITEM_PROCESS with EN 1, while PIPE runs, takes the in-line buffer's first item, else the spot buffer's, else changes
nothing. At an OPEN item a pending copy of its source comes into force with GEN + 1, ON and its event, then a DISABLE turns the context off; contexts
of other sources stay. A CLOSE ends its frame, a BLACK item is kept for its context, a LINE behind its row counts ORDER_DROP, one whose stope the
context's mask excludes does nothing, another is processed, in formats 0 and 1 with one output block, in 2 and 3 with one for each two rows; an item
without an open frame does nothing. A frame that ends is no longer open; ended without CLOSE, or with a lost line or block, it counts INCOMPLETE and
raises its event. PIPE_FRAME_TIMEOUT ends the frame opened first, FRAME_MS ms after its OPEN; with none open it changes nothing. A 16-bit code holds E
and M with 2^(E-1) (2048 + M) <= u < 2^(E-1) (2049 + M), M itself where E is 0. -/
def Obligations.PipelineContextsAndFramesRun : Prop :=
  (∀ (p : Path) (s : State), s.takes p 0x0D06C 1 = true →
    ∃ (b : State) (c : Nat) (k : Tbl Nat), b = s.booked p 0x0D06C 1 ∧ c = b.get PIPE_CTX_SEL.CTX ∧ k = (b.ctx c).staging ∧
      (b.mayWrite p PIPE_CTX_CMD.COMMIT = false → exec (.pipeCtxCommit p) s = .next b) ∧
      (b.mayWrite p PIPE_CTX_CMD.COMMIT = true →
        (b.ctxClash c k = true → exec (.pipeCtxCommit p) s = .next (b.setCtx c fun x => { x with result := 1 })) ∧
        (b.ctxClash c k = false → b.tableBeyond k = true → exec (.pipeCtxCommit p) s = .next (b.setCtx c fun x => { x with result := 2 })) ∧
        (b.ctxClash c k = false → b.tableBeyond k = false → par k PIPE_CTX_CFG.SRC = 0 ∨ par k PIPE_CTX_CFG.SRC = 63 →
          exec (.pipeCtxCommit p) s = .next (b.setCtx c fun x => { x with result := 3 })) ∧
        (b.ctxClash c k = false → b.tableBeyond k = false → par k PIPE_CTX_CFG.SRC ≠ 0 → par k PIPE_CTX_CFG.SRC ≠ 63 →
          exec (.pipeCtxCommit p) s = .next (b.setCtx c fun x => { x with result := 0, pending := some k, disable := false })))) ∧
  (∀ (p : Path) (s : State), s.takes p 0x0D06C 2 = true →
    ∃ (b : State) (c : Nat), b = s.booked p 0x0D06C 2 ∧ c = b.get PIPE_CTX_SEL.CTX ∧
      (b.mayWrite p PIPE_CTX_CMD.DISABLE = false → exec (.pipeCtxDisable p) s = .next b) ∧
      (b.mayWrite p PIPE_CTX_CMD.DISABLE = true → exec (.pipeCtxDisable p) s = .next (b.setCtx c fun x => { x with disable := x.on || x.pending.isSome }))) ∧
  (∀ (c : Nat) (f : Ctx → Ctx) (s : State), ∃ t : State, t = s.setCtx c f ∧ t = { s with pipe := { s.pipe with ctx := t.pipe.ctx } } ∧
    t.ctx c = f (s.ctx c) ∧ ∀ o : Nat, o ≠ c → t.ctx o = s.ctx o) ∧
  (∀ (c : Nat) (k : Tbl Nat) (s : State), s.ctxClash c k = true ↔
    ∃ e ∈ s.pipe.ctx, e.1 ≠ c ∧ ((e.2.on = true ∧ sameSource e.2.force k = true) ∨ ∃ q : Tbl Nat, e.2.pending = some q ∧ sameSource q k = true)) ∧
  (∀ s : State,
    (s.pipeRuns = true ↔ s.get CHN_STATE.TALLY = 1 ∧ s.sysRuns = true ∧ (s.power = stREADY ∨ s.power = stCAPTURE)) ∧
    (s.get PIPE_CTRL.EN ≠ 1 ∨ s.pipeRuns = false → exec .pipeItemProcess s = .next s) ∧
    (s.get PIPE_CTRL.EN = 1 → s.pipeRuns = true →
      (∀ (it : SpotItem) (rest : List SpotItem), s.pipe.inline = it :: rest →
        exec .pipeItemProcess s = .next (({ s with pipe := { s.pipe with inline := rest } } : State).pipeItem it).reviewPipe) ∧
      (∀ (it : SpotItem) (rest : List SpotItem), s.pipe.inline = [] → s.pipe.spot = it :: rest →
        exec .pipeItemProcess s = .next ((({ s with pipe := { s.pipe with spot := rest, level := s.pipe.level - it.packet.size } } : State).reviewSpotLevel.pipeItem it).reviewPipe)) ∧
      (s.pipe.inline = [] → s.pipe.spot = [] → exec .pipeItemProcess s = .next s))) ∧
  (∀ (it : SpotItem) (s : State),
    (it.kind = 1 → s.pipeItem it = s.openFrame it) ∧
    (it.kind ≠ 1 → (∀ g ∈ s.pipe.frames, g.src ≠ it.src ∨ g.sweep ≠ it.sweep) → s.pipeItem it = s) ∧
    (∀ f : Frame, it.kind ≠ 1 → s.frameOf it.src it.sweep = some f →
      (it.kind = 4 → s.pipeItem it = s.endFrame f true (bytesAt it.body 0 4) (bytesAt it.body 8 4) it.time) ∧
      (it.kind = 2 ∨ it.kind = 3 → (∀ x ∈ f.ctxs, par x.2.2 PIPE_CTX_CFG.TAP ≠ it.tap) → s.pipeItem it = s.noCtx it) ∧
      (∀ c : Nat × Nat × Tbl Nat, f.ctxFor it = some c →
        (it.kind = 2 ∨ it.kind = 3 → ctxTakes c.2.2 it.stope = false → s.pipeItem it = s) ∧
        (ctxTakes c.2.2 it.stope = true → it.kind = 2 → ∃ g : Frame, s.pipeItem it = s.setFrame g ∧ g = { f with black := g.black } ∧
          Tbl.get [] g.black (blackKey it) = toWords it.body) ∧
        (ctxTakes c.2.2 it.stope = true → it.kind = 3 → it.row < Tbl.get 0 f.rows (lineKey it) →
          ∃ u : State, Only [PIPE_ERRCNT2.ORDER_DROP] s u ∧
            u.get PIPE_ERRCNT2.ORDER_DROP = min (2 ^ PIPE_ERRCNT2.ORDER_DROP.width - 1) (s.get PIPE_ERRCNT2.ORDER_DROP + 1) ∧
            s.pipeItem it = u.setFrame { f with lost := f.lost + 1 }) ∧
        (ctxTakes c.2.2 it.stope = true → it.kind = 3 → Tbl.get 0 f.rows (lineKey it) ≤ it.row → par c.2.2 PIPE_CTX_CFG.FMT ≤ 1 →
          ∃ (g : Frame) (bytes : List Nat), g = { f with rows := g.rows, stats := g.stats, half := g.half } ∧ Tbl.get 0 g.rows (lineKey it) = it.row + 1 ∧
            bytes = pixelBytes (par c.2.2 PIPE_CTX_CFG.FMT) (s.correct f c.2.2 it).1 ∧
            s.pipeItem it = (s.setFrame g).outBlock f.src f.sweep (par c.2.2 PIPE_CTX_CFG.RING) 1
              (blockHeader f c.1 0 (768 * (it.stope / 16) + firstPixel f.mosaic it.bin it.row) (1024 * (it.stope % 16)) (s.correct f c.2.2 it).1.length
                (par c.2.2 PIPE_CTX_CFG.FMT) it.bin it.tap c.2.1 it.time ++ bytes)) ∧
        (ctxTakes c.2.2 it.stope = true → it.kind = 3 → Tbl.get 0 f.rows (lineKey it) ≤ it.row → 2 ≤ par c.2.2 PIPE_CTX_CFG.FMT →
          ∃ g : Frame, g = { f with rows := g.rows, stats := g.stats, half := g.half } ∧ Tbl.get 0 g.rows (lineKey it) = it.row + 1 ∧
            (it.row % 2 = 0 → Tbl.get [] g.half (lineKey it) = (s.correct f c.2.2 it).1.map (fun v => (v.e, v.flag)) ∧ s.pipeItem it = s.setFrame g) ∧
            (it.row % 2 = 1 → Tbl.get 0 f.rows (lineKey it) = it.row → Tbl.get [] f.half (lineKey it) ≠ [] →
              s.pipeItem it = (s.setFrame g).outBlock f.src f.sweep (par c.2.2 PIPE_CTX_CFG.RING) 1
                (blockHeader f c.1 0 (768 * (it.stope / 16) + firstPixel f.mosaic it.bin (it.row - 1)) (1024 * (it.stope % 16)) ((s.correct f c.2.2 it).1.length / 2)
                  (par c.2.2 PIPE_CTX_CFG.FMT) it.bin it.tap c.2.1 it.time ++
                  colourBytes c.2.2 f.mosaic (Tbl.get [] f.half (lineKey it)) (s.correct f c.2.2 it).1)) ∧
            (it.row % 2 = 1 → Tbl.get 0 f.rows (lineKey it) ≠ it.row → s.pipeItem it = s.setFrame g))))) ∧
  (∀ (src sweep c : Nat) (s : State),
    (par ((s.ctx c).pending.getD (s.ctx c).force) PIPE_CTX_CFG.SRC ≠ src → s.bindCtx src sweep c = s) ∧
    (∀ k : Tbl Nat, (s.ctx c).pending = some k → par k PIPE_CTX_CFG.SRC = src → (s.ctx c).disable = false →
      s.bindCtx src sweep c = (s.setCtx c fun x => { x with pending := none, force := k, on := true, gen := ((s.ctx c).gen + 1) % 65536 }).raise 0x0D01
        [c, ((s.ctx c).gen + 1) % 65536, sweep]) ∧
    ((s.ctx c).pending = none → par (s.ctx c).force PIPE_CTX_CFG.SRC = src → (s.ctx c).disable = false → s.bindCtx src sweep c = s) ∧
    ((s.ctx c).pending = none → par (s.ctx c).force PIPE_CTX_CFG.SRC = src → (s.ctx c).disable = true →
      s.bindCtx src sweep c = s.setCtx c fun x => { x with disable := false, on := false })) ∧
  (∀ (f : Frame) (closed : Bool) (cond dropped time : Nat) (s : State), f.ctxs = [] →
    ∃ (g : Frame) (b : State), g = (s.frameOf f.src f.sweep).getD f ∧
      b = { s with pipe := { s.pipe with frames := s.pipe.frames.filter fun g => decide (¬ (g.src = f.src ∧ g.sweep = f.sweep)) } } ∧
      (closed = true → g.cut = false → g.lost + dropped = 0 → s.endFrame f closed cond dropped time = b) ∧
      (closed = false ∨ g.cut = true ∨ g.lost + dropped ≠ 0 → ∃ u : State, s.endFrame f closed cond dropped time = u.raise 0x0D02 [0, f.src, f.sweep] ∧
        Only [PIPE_ERRCNT2.INCOMPLETE] b u ∧ u.get PIPE_ERRCNT2.INCOMPLETE = min (2 ^ PIPE_ERRCNT2.INCOMPLETE.width - 1) (s.get PIPE_ERRCNT2.INCOMPLETE + 1))) ∧
  (∀ (f : Frame) (cond dropped time : Nat) (c : Nat × Nat × Tbl Nat) (s : State), ∃ g : Frame, g = (s.frameOf f.src f.sweep).getD f ∧
    s.statBlock f true cond dropped time c = ({ s with freeIx := s.freeIx + 1 } : State).outBlock f.src f.sweep (par c.2.2 PIPE_CTX_CFG.RING) 0
      (blockHeader f c.1 1 0 0 0 (par c.2.2 PIPE_CTX_CFG.FMT) 0 (par c.2.2 PIPE_CTX_CFG.TAP) c.2.1 time ++
        statBody (Tbl.get {} f.stats c.1) c.2.2 (g.lost + dropped) cond true (g.broken true dropped) (Config.freeValue s.freeIx))) ∧
  (∀ (src sweep ring lines : Nat) (bytes : List Nat) (s : State), s.get (HST_DR_CFG.STREAM ring) ≠ 2 → s.get (HST_DR_CFG.STREAM ring) ≠ 0 →
    ∃ u : State, s.outBlock src sweep ring lines bytes = u ∧ Only [PIPE_ERRCNT1.OUT_DROP]
      { s with pipe := { s.pipe with frames := s.pipe.frames.map fun g => if g.src = src ∧ g.sweep = sweep then { g with lost := g.lost + lines, cut := true } else g } } u ∧
      u.get PIPE_ERRCNT1.OUT_DROP = min (2 ^ PIPE_ERRCNT1.OUT_DROP.width - 1) (s.get PIPE_ERRCNT1.OUT_DROP + 1)) ∧
  (∀ s : State,
    (s.pipe.frames = [] ∨ s.pipeRuns = false → exec .pipeFrameTimeout s = .next s) ∧
    (s.pipe.frames ≠ [] → s.pipeRuns = true → ∃ g ∈ s.pipe.frames, (∀ h ∈ s.pipe.frames, g.opened ≤ h.opened) ∧
      exec .pipeFrameTimeout s = .next ((s.advance (g.opened + s.get PIPE_CTRL.FRAME_MS * 2000000)).endFrame g false 0 0 0).reviewPipe)) ∧
  (∀ (u : Nat) (flag : Bool), u ≤ 67108863 →
    ∃ e m : Nat, code16 u flag = (if flag then 32768 else 0) + e * 2048 + m ∧ e < 16 ∧ m < 2048 ∧
      (e = 0 → u = m) ∧ (0 < e → 2 ^ (e - 1) * (2048 + m) ≤ u ∧ u < 2 ^ (e - 1) * (2049 + m)))

/-- O58. Challenges, sessions, key replacement and the shift book window, on the BAR0 and I2C copies. Through chain proxy and from the foreman the four
commands change nothing. A challenge on a path (0 BAR0, 1 I2C) for role 0 does nothing, during a lockout gives RESULT 3; else it shows C and the
nonce, holds the challenge with its instant, C counts modulo 2^64, and the stored base advances by 65536 first where C has reached it; the nonce is 16
free bytes (log entry 1). OPEN gives RESULT 1 for role 0, 3 in a lockout, 0 where the response equals HMAC-SHA-256 under the role's key of N, C, ROLE,
PATH and the serial number, for a challenge less than 10 s old, else 2; either way the challenge ends. An opened session holds N, C and the instant,
its failure count is 0, with entry and event; a failure counts FAILED, its count, an entry and an event, and the fifth locks the role out on the path
for 60 s with a further entry. CLOSE ends the session with its entry and event, CAUSE 0. Key replacement: target 0 gives RESULT 4; no session of the
authorising role is a rejection with RESULT 1; a wrong check value or a zero key gives 2; a store that refuses gives 3 with its code; else the
unwrapped key is in force, challenges of the role are gone, and its sessions close with CAUSE 2. The idle time closes with CAUSE 1, IDLE_S s after the
last write; a lockout and a challenge end at their instants; each changes nothing where it does not exist. ROL_SB_SEL shows the 64 bytes of the entry,
zeros and VALID 0 where there is none. -/
def Obligations.RolesChallengeOpenAndReplace : Prop :=
  (∀ (p : Path) (role : Nat) (s : State), (∃ x : Nat, p = .proxy x) ∨ p = .foreman →
    exec (.rolChallenge p role) s = .next s ∧ exec (.rolSessionOpen p role) s = .next s ∧ exec (.rolSessionClose p role) s = .next s ∧ exec (.rolKeyReplace p role) s = .next s) ∧
  (∀ (p : Path) (x role : Nat) (s : State), (p = .bar0 ∧ x = 0) ∨ (p = .i2c ∧ x = 1) → role < 4 →
    (s.takes p 0x10008 (2 ^ 31 + role) = true → ∃ b : State, b = s.booked p 0x10008 (2 ^ 31 + role) ∧
      (role = 0 → exec (.rolChallenge p role) s = .next b) ∧
      (role ≠ 0 → b.lockedOut x role = true → ∃ u : State, exec (.rolChallenge p role) s = .next u ∧ Only [ROL_SESSION_STATUS.RESULT x] b u ∧
        u.get (ROL_SESSION_STATUS.RESULT x) = 3) ∧
      (role ≠ 0 → b.lockedOut x role = false → b.rol.ctr < 2 ^ 64 → ∃ (r : State × Chal) (u : State), r = b.challenge x role ∧ exec (.rolChallenge p role) s = .next u ∧
        Only ([ROL_CTR_LO.C x, ROL_CTR_HI.C x] ++ (List.range 4).map (ROL_NONCE.N x)) r.1 u ∧
        u.get (ROL_CTR_LO.C x) + 2 ^ 32 * u.get (ROL_CTR_HI.C x) = b.rol.ctr ∧
        ∀ k < 4, leBytes (u.get (ROL_NONCE.N x k)) 4 = (r.2.nonce.drop (4 * k)).take 4)) ∧
    (s.takes p 0x10044 (2 ^ 31 + role) = true → ∃ b : State, b = s.booked p 0x10044 (2 ^ 31 + role) ∧
      (role = 0 → exec (.rolSessionOpen p role) s = .next (b.set (ROL_SESSION_STATUS.RESULT x) 1)) ∧
      (role ≠ 0 → b.lockedOut x role = true → exec (.rolSessionOpen p role) s = .next (b.set (ROL_SESSION_STATUS.RESULT x) 3)) ∧
      (role ≠ 0 → b.lockedOut x role = false → ∃ e : State, e = { b with rol := { b.rol with chal := e.rol.chal } } ∧
        (∀ k : Nat, Tbl.get none e.rol.chal k = if k = 4 * x + role then none else Tbl.get none b.rol.chal k) ∧
        (b.chalOf x role = none → exec (.rolSessionOpen p role) s = .next ((e.failSession x role).set (ROL_SESSION_STATUS.RESULT x) 2)) ∧
        (∀ c : Chal, b.chalOf x role = some c →
          (hmacSha256 (b.keyOf role) (c.nonce ++ leBytes c.ctr 8 ++ [role, x] ++ leBytes b.serial 8) = pathBytes b.rol.resp x →
            exec (.rolSessionOpen p role) s = .next ((e.openSession x role c).set (ROL_SESSION_STATUS.RESULT x) 0)) ∧
          (hmacSha256 (b.keyOf role) (c.nonce ++ leBytes c.ctr 8 ++ [role, x] ++ leBytes b.serial 8) ≠ pathBytes b.rol.resp x →
            exec (.rolSessionOpen p role) s = .next ((e.failSession x role).set (ROL_SESSION_STATUS.RESULT x) 2))))) ∧
    (s.takes p 0x10044 (2 ^ 30 + role) = true → ∃ b : State, b = s.booked p 0x10044 (2 ^ 30 + role) ∧
      (role = 0 → exec (.rolSessionClose p role) s = .next (b.set (ROL_SESSION_STATUS.RESULT x) 1)) ∧
      (role ≠ 0 → exec (.rolSessionClose p role) s = .next ((b.closeSession x role 0).set (ROL_SESSION_STATUS.RESULT x) 0))) ∧
    (s.takes p 0x10070 (2 ^ 31 + role) = true → ∃ (b : State) (auth : Nat) (r : Role), b = s.booked p 0x10070 (2 ^ 31 + role) ∧
      auth = (if role = 3 then 3 else 2) ∧ r = (if role = 3 then .maker else .installer) ∧
      (role = 0 → exec (.rolKeyReplace p role) s = .next (b.keyResult x 0 0 4 0)) ∧
      (role ≠ 0 → b.sessOf x auth = none → ∃ u : State, exec (.rolKeyReplace p role) s = .next u ∧
        Only [ROL_KEY_STATUS.RESULT x, ROL_KEY_STATUS.STORE x] (b.sbReject p r 0x10070 (2 ^ 31 + role)) u ∧
        u.get (ROL_KEY_STATUS.RESULT x) = 1 ∧ u.get (ROL_KEY_STATUS.STORE x) = 0) ∧
      (∀ c : Sess, role ≠ 0 → b.sessOf x auth = some c → ∃ (t : State) (nc key : List Nat), t = b.touchSession p r ∧ nc = c.nonce ++ leBytes c.ctr 8 ∧
        key = List.zipWith (fun a b => a ^^^ b) (pathBytes b.rol.keyW x) (hmacSha256 (b.keyOf auth) (0x57 :: nc)) ∧
        ((hmacSha256 key nc).take 4 ≠ leBytes (Tbl.get 0 b.rol.keyChk x) 4 ∨ (∀ v ∈ key, v = 0) → exec (.rolKeyReplace p role) s = .next (t.keyResult x auth role 2 0)) ∧
        ((hmacSha256 key nc).take 4 = leBytes (Tbl.get 0 b.rol.keyChk x) 4 → (∃ v ∈ key, v ≠ 0) →
          (∀ code : Nat, t.storeRefuses = some code → exec (.rolKeyReplace p role) s = .next (t.keyResult x auth role 3 code)) ∧
          (t.storeRefuses = none → Tbl.get false t.nvs.worn 154 = true ∨ Tbl.get false t.nvs.worn 155 = true → exec (.rolKeyReplace p role) s = .next (t.keyResult x auth role 3 2)) ∧
          (t.storeRefuses = none → Tbl.get false t.nvs.worn 154 = false → Tbl.get false t.nvs.worn 155 = false → ∃ u : State, u = { t with rol := { t.rol with keys := u.rol.keys, keySeq := (t.rol.keySeq + 1) % 65536, chal := u.rol.chal } } ∧
            u.keyOf role = key ∧ (∀ o : Nat, o ≠ role → u.keyOf o = t.keyOf o) ∧
            (∀ k : Nat, Tbl.get none u.rol.chal k = if k % 4 = role then none else Tbl.get none t.rol.chal k) ∧
            exec (.rolKeyReplace p role) s =
              .next (((((u.keyResult x auth role 0 0).raise 0x1005 [role, (t.rol.keySeq + 1) % 65536]).closeSession 0 role 2).closeSession 1 role 2))))))) ∧
  (∀ (x role : Nat) (b : State), ∃ (t : State) (c : Chal), b.challenge x role = (t, c) ∧ c.ctr = b.rol.ctr ∧ c.issued = b.fwc ∧
    c.nonce = (List.range 16).map (fun i => Config.freeValue (b.freeIx + i) % 256) ∧
    t = { b with freeIx := b.freeIx + 16, rol := { b.rol with
      base := if b.rol.base ≤ b.rol.ctr then b.rol.base + 65536 else b.rol.base, ctr := (b.rol.ctr + 1) % 2 ^ 64, chal := t.rol.chal } } ∧
    Tbl.get none t.rol.chal (4 * x + role) = some c ∧ ∀ k : Nat, k ≠ 4 * x + role → Tbl.get none t.rol.chal k = Tbl.get none b.rol.chal k) ∧
  (∀ (x role : Nat) (c : Chal) (b : State),
    (b.chalOf x role = some c ↔ Tbl.get none b.rol.chal (4 * x + role) = some c ∧ b.fwc < c.issued + 20000000000) ∧
    (∃ u : State, b.openSession x role c = ((u.showSessions).sbEnter role x 2 0 0 0 [0, 0]).raise 0x1002 [role, x] ∧
      u = { b with rol := { b.rol with sess := u.rol.sess, fails := u.rol.fails } } ∧ u.sessOf x role = some ⟨c.nonce, c.ctr, b.fwc⟩ ∧ u.failsOf x role = 0 ∧
      ∀ k : Nat, k ≠ 4 * x + role → Tbl.get none u.rol.sess k = Tbl.get none b.rol.sess k ∧ Tbl.get 0 u.rol.fails k = Tbl.get 0 b.rol.fails k) ∧
    (∃ (n : Nat) (u t : State), n = b.failsOf x role + 1 ∧ Only [ROL_ERRCNT.FAILED] { b with rol := { b.rol with fails := u.rol.fails } } u ∧ u.failsOf x role = n ∧
      u.get ROL_ERRCNT.FAILED = min 65535 (b.get ROL_ERRCNT.FAILED + 1) ∧ t = (u.sbEnter role x 2 4 0 0 [0, n]).raise 0x1003 [role, x, n] ∧
      (n < 5 → b.failSession x role = t) ∧
      (5 ≤ n → ∃ v : State, v = { t with rol := { t.rol with fails := v.rol.fails, locked := v.rol.locked } } ∧ v.failsOf x role = 0 ∧
        Tbl.get none v.rol.locked (4 * x + role) = some (b.fwc + 120000000000) ∧ b.failSession x role = v.sbEnter role x 2 5 0 0 [0, 0])) ∧
    (b.lockedOut x role = true ↔ ∃ f : Nat, Tbl.get none b.rol.locked (4 * x + role) = some f ∧ b.fwc < f)) ∧
  (∀ (x role cause : Nat) (s : State),
    (s.sessOf x role = none → s.closeSession x role cause = s) ∧
    (s.sessOf x role ≠ none → ∃ u : State, u = { s with rol := { s.rol with sess := u.rol.sess } } ∧ u.sessOf x role = none ∧
      (∀ k : Nat, k ≠ 4 * x + role → Tbl.get none u.rol.sess k = Tbl.get none s.rol.sess k) ∧
      s.closeSession x role cause = ((u.showSessions).sbEnter role x 2 0 0 0 [cause, s.failsOf x role]).raise 0x1004 [role, x, cause])) ∧
  (∀ s : State, Only [ROL_STATUS.BAR0_OPEN, ROL_STATUS.I2C_OPEN] s s.showSessions) ∧
  (∀ (x auth target result store : Nat) (s : State), result < 8 → store < 16 → ∃ u : State, Only [ROL_KEY_STATUS.RESULT x, ROL_KEY_STATUS.STORE x] s u ∧
    u.get (ROL_KEY_STATUS.RESULT x) = result ∧ u.get (ROL_KEY_STATUS.STORE x) = store ∧
    s.keyResult x auth target result store = u.sbEnter auth x 3 (if result = 0 then 0 else 4) 0x10070 0 [target, result, store]) ∧
  (∀ (x role : Nat) (s : State),
    (s.sessOf x role = none → exec (.sessionIdleTimeout x role) s = .next s) ∧
    (∀ c : Sess, s.sessOf x role = some c → exec (.sessionIdleTimeout x role) s = .next ((s.advance (c.used + s.get ROL_CFG.IDLE_S * 2000000000)).closeSession x role 1)) ∧
    (Tbl.get none s.rol.locked (4 * x + role) = none → exec (.lockoutEnd x role) s = .next s) ∧
    (∀ f : Nat, Tbl.get none s.rol.locked (4 * x + role) = some f → ∃ (b u : State), b = s.advance f ∧ exec (.lockoutEnd x role) s = .next u ∧
      u = { b with rol := { b.rol with locked := u.rol.locked } } ∧ u.lockedOut x role = false) ∧
    (Tbl.get none s.rol.chal (4 * x + role) = none → exec (.challengeExpiry x role) s = .next s) ∧
    (∀ c : Chal, Tbl.get none s.rol.chal (4 * x + role) = some c → ∃ (b u : State), b = s.advance (c.issued + 20000000000) ∧ exec (.challengeExpiry x role) s = .next u ∧
      u = { b with rol := { b.rol with chal := u.rol.chal } } ∧ u.chalOf x role = none)) ∧
  (∀ (p : Path) (w : Word) (s : State), s.takes p 0x1007C w.toNat = true →
    ∃ b u : State, b = s.booked p 0x1007C w.toNat ∧ exec (.rolSbSelWrite p w) s = .next u ∧
      Only ([ROL_SB_SEL.ENTRY, ROL_SB_STATUS.VALID] ++ (List.range 16).map ROL_SB_W.DATA) b u ∧ u.get ROL_SB_SEL.ENTRY = w.toNat ∧
      (b.entryOf w.toNat = none → u.get ROL_SB_STATUS.VALID = 0 ∧ ∀ k < 16, u.get (ROL_SB_W.DATA k) = 0) ∧
      (∀ e : SbEntry, b.entryOf w.toNat = some e → u.get ROL_SB_STATUS.VALID = 1 ∧
        ∀ k < 16, u.get (ROL_SB_W.DATA k) = ofLeBytes ((e.bytes.drop (4 * k)).take 4)))

/-- O59. Starting, verifying and ending store operations, images, SAVE_INST, word reads, rewrites and shift book entries. A command that starts an
operation without its role does nothing; refused (BUSY, or before IDLE or in SAFE-TALK) it sets LAST_RESULT to 1 or 6 (the choice of log entry 33);
else BUSY and OP are set, the entry STARTED is made, the bank not in force with the next SEQ becomes invalid and is the target; IMG_OPEN also zeroes
the image address, SAVE_INST takes one value per installer field. IMG_DATA places a 32-bit half and adds 4 to the address, and ends with 2 on a worn
block; it and IMG_COMMIT without an image give LAST_RESULT 5; a wrong CRC ends with 4, a right one writes the records and puts the bank in force.
IMG_OPEN makes word 0 of the target's index block 0. COMMIT_COMPLETE puts the bank in force and ends with 0; with an image open it waits; a set or
goldens with an uncorrectable source word end with 7; where a block of the bank is worn, or at the start its index block, the operation ends with 2. A
worn block takes no shift book entry, which is lost with LAST_RESULT 2. An operation that ends clears BUSY and OP, sets LAST_RESULT and makes its
closing entry. A verify finds: a worn block ends it with 2; no error nothing; one bit counts; else no spare marks it worn and ends with 2, a second
retirement ends with 3, a first replaces it by a spare. Each 512th word lets one queued entry be written. A store word read latches HI and status,
answers LO (0 where uncorrectable); HI advances the address. A rewrite waits while BUSY. The oldest queued entry goes to slot number mod 2048, with
SHIFT_BOOK_WRAPPED where that is 0 after the first. -/
def Obligations.StoreOperationsRunToTheirResult : Prop :=
  (∀ (p : Path) (s : State), s.takes p 0x0F00C 2 = true → ∃ b : State, b = s.booked p 0x0F00C 2 ∧
    (b.mayWrite p NVS_CMD.SAVE_INST = false → exec (.nvsSaveInst p) s = .next b) ∧
    (b.mayWrite p NVS_CMD.SAVE_INST = true →
      (∀ c : Nat, b.storeRefuses = some c → exec (.nvsSaveInst p) s = .next (b.set NVS_STATUS.LAST_RESULT c)) ∧
      (b.storeRefuses = none → ∃ vals : Tbl Nat, exec (.nvsSaveInst p) s = .next (b.startOp 3 3 (pathNo p) 2 vals) ∧
        ∀ g ∈ installerFields, Tbl.get 0 vals g.key = b.get g + 1))) ∧
  (∀ (p : Path) (s : State), s.takes p 0x0F00C 4 = true → ∃ b : State, b = s.booked p 0x0F00C 4 ∧
    (b.mayWrite p NVS_CMD.IMG_OPEN = false → exec (.nvsImgOpen p) s = .next b) ∧
    (b.mayWrite p NVS_CMD.IMG_OPEN = true →
      (∀ c : Nat, b.storeRefuses = some c → exec (.nvsImgOpen p) s = .next (b.set NVS_STATUS.LAST_RESULT c)) ∧
      (b.storeRefuses = none → ∃ (a x : Nat) (t : State), a = (if b.get NVS_IMG_SEL.AREA = 1 then 7 else 1) ∧ x = (areaBlocks a (b.nextBank a).1).1 ∧
        t = b.startOp 2 a (pathNo p) 3 [] ∧ (Tbl.get false b.nvs.worn x = true → exec (.nvsImgOpen p) s = .next t) ∧
        (Tbl.get false b.nvs.worn x = false → ∃ u : State, exec (.nvsImgOpen p) s = .next u ∧
          Only [NVS_IMG_ADDR.ADDR] { t with nvs := { t.nvs with img := some ⟨a, (b.nextBank a).1, (b.nextBank a).2⟩, words := u.nvs.words } } u ∧ u.get NVS_IMG_ADDR.ADDR = 0 ∧
          u.imageWord (4096 * x) = 0 ∧ ∀ k : Nat, k ≠ 4096 * x → u.imageWord k = t.imageWord k)))) ∧
  (∀ (p : Path) (s : State), s.takes p 0x0F00C 8 = true → ∃ b : State, b = s.booked p 0x0F00C 8 ∧
    (b.mayWrite p NVS_CMD.IMG_COMMIT = false → exec (.nvsImgCommit p) s = .next b) ∧
    (b.mayWrite p NVS_CMD.IMG_COMMIT = true →
      (b.nvs.img = none → exec (.nvsImgCommit p) s = .next (b.set NVS_STATUS.LAST_RESULT 5)) ∧
      (∀ g : NvsImg, b.nvs.img = some g → ∃ bytes : List Nat, bytes = b.imgBytes g (b.get NVS_IMG_ADDR.ADDR / 4) ∧
        (crc32 bytes ≠ b.get NVS_IMG_CRC.CRC → exec (.nvsImgCommit p) s = .next (b.endOp 4)) ∧
        (crc32 bytes = b.get NVS_IMG_CRC.CRC → exec (.nvsImgCommit p) s = .next (b.putImage g bytes).closeOp)))) ∧
  (∀ s : State,
    (s.get NVS_STATUS.BUSY = 1 → s.storeRefuses = some 1) ∧
    (s.get NVS_STATUS.BUSY ≠ 1 → s.pwr.startup ≠ 0 ∨ s.power < stIDLE ∨ s.power = stSAFETALK → s.storeRefuses = some 6) ∧
    (s.get NVS_STATUS.BUSY ≠ 1 → s.pwr.startup = 0 → stIDLE ≤ s.power → s.power ≠ stSAFETALK → s.storeRefuses = none)) ∧
  (∀ (a : Nat) (s : State),
    (s.inBank a = none → s.nextBank a = (0, 1)) ∧ (∀ b q : Nat, s.inBank a = some (b, q) → s.nextBank a = (1 - b, (q + 1) % 65536)) ∧
    (s.inBank a = none ↔ Tbl.get 0 s.nvs.banks (2 * a) = 0 ∧ Tbl.get 0 s.nvs.banks (2 * a + 1) = 0)) ∧
  (∀ (code a path role : Nat) (vals : Tbl Nat) (s : State), code < 8 → ∃ (o : NvsOp) (t u : State), o = ⟨code, a, (s.nextBank a).1, (s.nextBank a).2, 0, false, path, role⟩ ∧
    Only [NVS_STATUS.BUSY, NVS_STATUS.OP] s t ∧ t.get NVS_STATUS.BUSY = 1 ∧ t.get NVS_STATUS.OP = code ∧ u = t.commitEntry o 2 0 ∧
    (Tbl.get false s.nvs.worn (areaBlocks a o.bank).1 = true → s.startOp code a path role vals = ({ u with nvs := { u.nvs with op := some o } } : State).endOp 2) ∧
    (Tbl.get false s.nvs.worn (areaBlocks a o.bank).1 = false → s.startOp code a path role vals = { u with nvs := { u.nvs with op := some o, staged := vals, unclosed := some (a, o.bank, o.seq), banks := Tbl.set 0 u.nvs.banks (2 * a + o.bank) 0, content := Tbl.erase u.nvs.content (2 * a + o.bank) } })) ∧
  (∀ (code : Nat) (s : State), code < 16 →
    (s.nvs.op = none → s.endOp code = s ∧ s.finishOp = s) ∧
    (∀ o : NvsOp, s.nvs.op = some o →
      (o.area ≠ 2 → ∃ t u : State, Only [NVS_STATUS.BUSY, NVS_STATUS.OP, NVS_STATUS.LAST_RESULT] s t ∧ t.get NVS_STATUS.BUSY = 0 ∧ t.get NVS_STATUS.OP = 0 ∧
        t.get NVS_STATUS.LAST_RESULT = code ∧ u = t.commitEntry o (if code = 0 then 0 else 4) code ∧
        s.endOp code = { u with nvs := { u.nvs with op := none, staged := [], img := none, unclosed := none } }) ∧
      s.finishOp = ((({ s with nvs := { s.nvs with banks := Tbl.set 0 s.nvs.banks (2 * o.area + o.bank) (o.seq + 1), content := Tbl.set [] s.nvs.content (2 * o.area + o.bank) s.nvs.staged } } : State).endOp 0).showBanks))) ∧
  (∀ (p : Path) (w : Word) (s : State), s.takes p 0x0F018 w.toNat = true →
    ∃ b : State, b = s.booked p 0x0F018 w.toNat ∧
      (b.mayWrite p NVS_IMG_DATA.DATA = false → exec (.nvsImgDataWrite p w) s = .next b) ∧
      (b.mayWrite p NVS_IMG_DATA.DATA = true → b.nvs.img = none → exec (.nvsImgDataWrite p w) s = .next (b.set NVS_STATUS.LAST_RESULT 5)) ∧
      (∀ g : NvsImg, b.mayWrite p NVS_IMG_DATA.DATA = true → b.nvs.img = some g → b.get NVS_IMG_ADDR.ADDR / 32744 + 1 < imgBlocks g.area →
        Tbl.get false b.nvs.worn (imgBlock g.area g.bank + 1 + b.get NVS_IMG_ADDR.ADDR / 32744) = true → exec (.nvsImgDataWrite p w) s = .next (b.endOp 2)) ∧
      (∀ g : NvsImg, b.mayWrite p NVS_IMG_DATA.DATA = true → b.nvs.img = some g →
        imgBlocks g.area ≤ b.get NVS_IMG_ADDR.ADDR / 32744 + 1 ∨ Tbl.get false b.nvs.worn (imgBlock g.area g.bank + 1 + b.get NVS_IMG_ADDR.ADDR / 32744) = false →
        ∃ (o a : Nat) (t u : State), o = b.get NVS_IMG_ADDR.ADDR ∧ a = (imgWord g o).1 ∧
        exec (.nvsImgDataWrite p w) s = .next u ∧ Only [NVS_IMG_ADDR.ADDR] t u ∧ u.get NVS_IMG_ADDR.ADDR = (o + 4) % 2 ^ 21 ∧
        t = { b with nvs := { b.nvs with words := t.nvs.words } } ∧ (∀ k : Nat, k ≠ a → t.imageWord k = b.imageWord k) ∧
        (imgBlocks g.area ≤ o / 32744 + 1 → t.imageWord a = b.imageWord a) ∧
        (o / 32744 + 1 < imgBlocks g.area → b.imageWord a < 2 ^ 64 →
          ((imgWord g o).2 = true → t.imageWord a = b.imageWord a % 2 ^ 32 + w.toNat * 2 ^ 32) ∧
          ((imgWord g o).2 = false → t.imageWord a = b.imageWord a / 2 ^ 32 * 2 ^ 32 + w.toNat)))) ∧
  (∀ s : State,
    (∀ bad : Bool, s.nvs.img.isSome = true → exec (.commitComplete bad) s = .next s) ∧
    (s.nvs.img = none → exec (.commitComplete false) s = .next s.closeOp) ∧
    (s.nvs.img = none → s.nvs.op = none → exec (.commitComplete true) s = .next s) ∧
    (∀ o : NvsOp, s.nvs.img = none → s.nvs.op = some o → exec (.commitComplete true) s = .next (if o.area = 2 ∨ o.area = 5 then s.endOp 7 else s.closeOp)) ∧
    ∀ o : NvsOp, s.nvs.op = some o → ∀ x n : Nat, (x, n) = areaBlocks o.area o.bank →
      ((∃ k : Nat, k < n ∧ Tbl.get false s.nvs.worn (x + k) = true) → s.closeOp = s.endOp 2) ∧
      ((∀ k : Nat, k < n → Tbl.get false s.nvs.worn (x + k) = false) → s.closeOp = s.finishOp)) ∧
  (∀ b : Nat, [1, 2, 3, 5, 7].map (fun a => areaBlocks a b) = [(2 + 48 * b, 48), (98 + 24 * b, 24), (146 + 4 * b, 4), (156 + 8 * b, 8), (176 + 10 * b, 10)]) ∧
  (∀ (blk err : Nat) (s : State),
    (s.nvs.op = none → exec (.storeWordVerify blk err) s = .next (s.verify (blk % 256) err)) ∧
    (∀ o : NvsOp, s.nvs.op = some o → ∃ t : State, t = { s with nvs := { s.nvs with op := some { o with words := o.words + 1 } } } ∧
      ((o.words + 1) % 512 ≠ 0 → exec (.storeWordVerify blk err) s = .next (t.verify (blk % 256) err)) ∧
      ((o.words + 1) % 512 = 0 → exec (.storeWordVerify blk err) s = .next (t.writeEntry.verify (blk % 256) err)))) ∧
  (∀ (x err : Nat) (s : State),
    (Tbl.get false s.nvs.worn x = true → s.verify x err = s.endOp 2) ∧
    (Tbl.get false s.nvs.worn x = false →
      s.verify x 0 = s ∧
      (∃ u : State, s.verify x 1 = u ∧ u = { s with nvs := { s.nvs with corr := u.nvs.corr } } ∧ Tbl.get 0 u.nvs.corr x = min 65535 (Tbl.get 0 s.nvs.corr x + 1)) ∧
      (∀ o : NvsOp, 2 ≤ err → 0 < s.nvs.spares → s.nvs.op = some o → o.retired = true → s.verify x err = s.endOp 3) ∧
      (2 ≤ err → 0 < s.nvs.spares → (∀ o : NvsOp, s.nvs.op = some o → o.retired = false) →
        ∃ t u : State, t = { s with nvs := { s.nvs with spares := s.nvs.spares - 1, phys := t.nvs.phys, moved := t.nvs.moved, headerSeq := (s.nvs.headerSeq + 1) % 65536, op := t.nvs.op } } ∧
          Tbl.get 0 t.nvs.phys x = 272 - s.nvs.spares + 1 ∧ Tbl.get false t.nvs.moved x = true ∧ (∀ o : NvsOp, s.nvs.op = some o → t.nvs.op = some { o with retired := true }) ∧
          (s.nvs.op = none → t.nvs.op = none) ∧ (∀ y : Nat, y ≠ x → Tbl.get 0 t.nvs.phys y = Tbl.get 0 s.nvs.phys y ∧ Tbl.get false t.nvs.moved y = Tbl.get false s.nvs.moved y) ∧
          Only [NVS_STATUS.SPARES] t u ∧ s.verify x err = u.raise 0x0F01 [x, 272 - s.nvs.spares, s.nvs.spares - 1]) ∧
      (2 ≤ err → s.nvs.spares = 0 → ∃ (t : State) (n : Nat), t = { s with nvs := { s.nvs with worn := t.nvs.worn } } ∧ Tbl.get false t.nvs.worn x = true ∧
        (∀ y : Nat, y ≠ x → Tbl.get false t.nvs.worn y = Tbl.get false s.nvs.worn y) ∧ (s.nvs.op = none → n = 6) ∧ (∀ o : NvsOp, s.nvs.op = some o → n = o.op) ∧
        s.verify x err = (t.endOp 2).raise 0x0F02 [x, n]))) ∧
  (∀ (p : Path) (err : Nat) (s : State),
    (s.answers p 0x0F024 = false → exec (.nvsRdDataLoRead p err) s = .next { s with answer := 0 }) ∧
    (s.answers p 0x0F024 = true → ∃ (a v : Nat) (u t : State), a = s.get NVS_RD_ADDR.WORD ∧ v = (if 3 ≤ err then 0 else s.storeWord a) ∧
      Only [NVS_RD_STATUS.KEY, NVS_RD_STATUS.CORR2, NVS_RD_STATUS.UNCORR] { s with nvs := { s.nvs with rdHi := v / 2 ^ 32 } } u ∧
      u.get NVS_RD_STATUS.KEY = (if a / 4096 = 154 ∨ a / 4096 = 155 then 1 else 0) ∧ u.get NVS_RD_STATUS.CORR2 = (if err = 2 then 1 else 0) ∧
      u.get NVS_RD_STATUS.UNCORR = (if 3 ≤ err then 1 else 0) ∧ exec (.nvsRdDataLoRead p err) s = .next { t with answer := v % 2 ^ 32 } ∧
      (err = 0 → t = u) ∧ (err = 1 → t = u.countCorr (a / 4096)) ∧
      (3 ≤ err → t = (u.bump NVS_ERRCNT0.UNCORR_CNT 1).raise 0x0F03 [a / 4096, a % 4096]) ∧
      (err = 2 → t = { (u.countCorr (a / 4096)).bump NVS_ERRCNT0.CORR2_CNT 1 with nvs := t.nvs } ∧
        t.nvs = { (u.countCorr (a / 4096)).nvs with rewrite := t.nvs.rewrite } ∧ a / 4096 ∈ t.nvs.rewrite)) ∧
    (s.answers p 0x0F028 = false → exec (.nvsRdDataHiRead p) s = .next { s with answer := 0 }) ∧
    (s.answers p 0x0F028 = true → ∃ u : State, exec (.nvsRdDataHiRead p) s = .next u ∧ Only [NVS_RD_ADDR.WORD] { s with answer := s.nvs.rdHi } u ∧
      u.get NVS_RD_ADDR.WORD = (s.get NVS_RD_ADDR.WORD + 1) % 2 ^ 20)) ∧
  (∀ (err : Nat) (s : State),
    (s.nvs.rewrite = [] ∨ s.get NVS_STATUS.BUSY = 1 → exec (.storeRewrite err) s = .next s) ∧
    (∀ (x : Nat) (l : List Nat), s.nvs.rewrite = x :: l → s.get NVS_STATUS.BUSY ≠ 1 →
      exec (.storeRewrite err) s = .next (({ s with nvs := { s.nvs with rewrite := l } } : State).verify x err))) ∧
  (∀ s : State,
    (s.nvs.sbOpen = none → exec .shiftBookEntryWrite s = .next s.writeEntry) ∧
    (∀ (e : SbEntry) (f : Nat), s.nvs.sbOpen = some (e, f) →
      exec .shiftBookEntryWrite s = .next (if f + 200000000 ≤ s.fwc ∨ s.nvs.sbQueue = [] then s.sbClose.writeEntry else s.writeEntry)) ∧
    (s.nvs.sbQueue = [] → s.writeEntry = s) ∧
    (∀ (e : SbEntry) (l : List SbEntry), s.nvs.sbQueue = e :: l → Tbl.get false s.nvs.worn (172 + e.number % 2048 / 512) = true →
      s.writeEntry = ({ s with nvs := { s.nvs with sbQueue := l } } : State).set NVS_STATUS.LAST_RESULT 2) ∧
    (∀ (e : SbEntry) (l : List SbEntry), s.nvs.sbQueue = e :: l → Tbl.get false s.nvs.worn (172 + e.number % 2048 / 512) = false → ∃ t : State, t = { s with nvs := { s.nvs with sbQueue := l, sbSlots := t.nvs.sbSlots } } ∧
      Tbl.get none t.nvs.sbSlots (e.number % 2048) = some e ∧ (∀ k : Nat, k ≠ e.number % 2048 → Tbl.get none t.nvs.sbSlots k = Tbl.get none s.nvs.sbSlots k) ∧
      s.writeEntry = if e.number % 2048 = 0 ∧ 0 < e.number then t.raise 0x1006 [e.number] else t))

/-- O60. BIST by command, its end, the effect on its block, and the golden commit. A GO on a target (below 512; KIND 0 for LBIST, 1 for MBIST) that is
carried out does nothing while a run is in progress; else STATUS takes target and kind, and where the target, kind and condition are those of R501's
table BUSY is 1, RESULT 0 and the run is under way, else RESULT is 3. The condition of an engine: not RUNNING, and its quadrant running or SAFE-TALK;
of targets 0x110 to 0x114: IDLE, HOLD or SAFE-TALK, kind 1 for 0x110 and 0 for the others; of 0x115: kind 0 and both ports DISABLED; no other target
has one. A run that ends clears BUSY and shows the signature, or the failing words (saturating) and the first address; RESULT is 1 for an LBIST whose
signature is the golden and an MBIST without failing word, 4 for an LBIST without a golden, else 2, with the event of pass or fail; an engine's MBIST
leaves its memories 0, LBISTs of engines, converters, crossbar and link layer change nothing in their block, that of the pipeline turns every context
off, the march of the kibble store leaves 0 every byte that waits in it and the table of the pipeline, and the LBIST of the trackers leaves both off.
With no run in progress its end changes nothing. A golden commit without its role, during a run, or after anything but an LBIST of RESULT 1 or 2 does
nothing; else it is refused as store commands are, or starts operation 4 with the goldens in force and this target's replaced by the signature. -/
def Obligations.SelfTestsRunAndGoldensAreKept : Prop :=
  (∀ (p : Path) (n : Nat) (s : State), n < 512 → s.takes p 0x12000 (2 ^ 31 + n) = true →
    exec (.bistLbist p n) s = .next ((s.booked p 0x12000 (2 ^ 31 + n)).bistGo n 0)) ∧
  (∀ (p : Path) (n : Nat) (s : State), n < 512 → s.takes p 0x12000 (2 ^ 31 + 2 ^ 24 + n) = true →
    exec (.bistMbist p n) s = .next ((s.booked p 0x12000 (2 ^ 31 + 2 ^ 24 + n)).bistGo n 1)) ∧
  (∀ (n kind : Nat) (b : State), n < 512 → kind < 2 → ∃ u : State, b.bistGo n kind = u ∧
      (b.get BIST_STATUS.BUSY = 1 → u = b) ∧
      (b.get BIST_STATUS.BUSY ≠ 1 → u.get BIST_STATUS.TARGET = n ∧ u.get BIST_STATUS.KIND = kind ∧
        (b.bistAllowed n kind = true → u.get BIST_STATUS.BUSY = 1 ∧ u.get BIST_STATUS.RESULT = 0 ∧
          (0x107 < n ∨ bit (b.get ENG_STATUS.QRUN) (quadrantOf n) = true →
            Only [BIST_STATUS.TARGET, BIST_STATUS.KIND, BIST_STATUS.BUSY, BIST_STATUS.RESULT] { b with nvs := { b.nvs with bist := some (n, kind) } } u) ∧
          (n ≤ 0x107 → bit (b.get ENG_STATUS.QRUN) (quadrantOf n) = false → u.get ENG_STATUS.QRUN = setBit (b.get ENG_STATUS.QRUN) (quadrantOf n) true % 16 ∧
            Only [BIST_STATUS.TARGET, BIST_STATUS.KIND, BIST_STATUS.BUSY, BIST_STATUS.RESULT, ENG_STATUS.QRUN]
              { b with nvs := { b.nvs with bist := some (n, kind), bistQuad := some (quadrantOf n) } } u)) ∧
        (b.bistAllowed n kind = false → u.get BIST_STATUS.RESULT = 3 ∧ Only [BIST_STATUS.TARGET, BIST_STATUS.KIND, BIST_STATUS.RESULT] b u))) ∧
  (∀ (n kind : Nat) (s : State), s.bistAllowed n kind = true ↔
    (n ≤ 0x107 ∧ (s.engine n).st ≠ 1 ∧ (bit (s.get ENG_STATUS.QRUN) (quadrantOf n) = true ∨ s.power = stSAFETALK)) ∨
    ((s.power = stIDLE ∨ s.power = stHOLD ∨ s.power = stSAFETALK) ∧ ((n = 0x110 ∧ kind = 1) ∨ (0x111 ≤ n ∧ n ≤ 0x114 ∧ kind = 0))) ∨
    (n = 0x115 ∧ kind = 0 ∧ s.get (LNK_STATE.STATE 0) = 0 ∧ s.get (LNK_STATE.STATE 1) = 0)) ∧
  (∀ (sig cnt addr : Nat) (s : State),
    (s.nvs.bist = none → exec (.bistDone sig cnt addr) s = .next s) ∧
    (∀ n kind : Nat, s.nvs.bist = some (n, kind) → ∃ (a t u : State) (r : Nat),
      Only [BIST_STATUS.BUSY, ENG_STATUS.QRUN] { s with nvs := { s.nvs with bist := none, bistQuad := none } } a ∧ a.get BIST_STATUS.BUSY = 0 ∧
      (s.nvs.bistQuad = none → a.get ENG_STATUS.QRUN = s.get ENG_STATUS.QRUN) ∧
      (∀ q : Nat, s.nvs.bistQuad = some q → a.get ENG_STATUS.QRUN = setBit (s.get ENG_STATUS.QRUN) q false % 16) ∧ t = a.afterBist n kind ∧ u.get BIST_STATUS.RESULT = r ∧
      exec (.bistDone sig cnt addr) s = .next (if r = 1 then u.raise 0x1202 [n, kind] else u.raise 0x1203 [n, kind, if kind = 1 then cnt else 0]) ∧
      (kind = 0 → Only [BIST_SIG_LO.SIG, BIST_SIG_HI.SIG, BIST_STATUS.RESULT] t u ∧ u.get BIST_SIG_LO.SIG + 2 ^ 32 * u.get BIST_SIG_HI.SIG = sig % 2 ^ 64 ∧
        (t.golden n = none → r = 4) ∧ ∀ g : Nat, t.golden n = some g → r = if g = sig % 2 ^ 64 then 1 else 2) ∧
      (kind = 1 → Only [BIST_FAIL.FAIL_CNT, BIST_FAIL_ADDR.ADDR, BIST_STATUS.RESULT] t u ∧ u.get BIST_FAIL.FAIL_CNT = min 65535 cnt ∧
        u.get BIST_FAIL_ADDR.ADDR = addr % 2 ^ 32 ∧ r = if cnt = 0 then 1 else 2))) ∧
  (∀ (n : Nat) (s : State),
    (n ≤ 0x107 → s.afterBist n 0 = s) ∧ (n = 0x112 ∨ n = 0x113 ∨ n = 0x115 → ∀ kind : Nat, s.afterBist n kind = s) ∧
    (n ≤ 0x107 → ∃ u : State, s.afterBist n 1 = u ∧ OnlyEngine n s u ∧ u.engine n = { s.engine n with mem := [], bad := [] }) ∧
    (∃ u : State, s.afterBist 0x114 0 = u.reviewPipe ∧ u = { s with pipe := { s.pipe with ctx := u.pipe.ctx } } ∧
      ∀ c : Nat, u.ctx c = { s.ctx c with on := false, pending := none, disable := false }) ∧
    s.afterBist 0x110 1 = s.zeroKibble ∧
    s.afterBist 0x111 0 = ((s.setTrk false fun _ => {}).setTrk true fun _ => {}).reviewMeas) ∧
  (∀ s : State, ∃ u : State, s.zeroKibble = u ∧ u = { s with pipe := u.pipe, spot := u.spot, hst := u.hst, eng := u.eng, chn := u.chn } ∧
    u.pipe = { s.pipe with table := [], blank := true, spot := u.pipe.spot } ∧ u.spot = { s.spot with queue := u.spot.queue } ∧ u.hst = { s.hst with waiting := u.hst.waiting } ∧
    u.eng = { s.eng with out := u.eng.out } ∧ u.chn = { s.chn with build := u.chn.build, queue := u.chn.queue } ∧
    u.pipe.spot.map (fun it => { it with body := [] }) = s.pipe.spot.map (fun it => { it with body := [] }) ∧ (∀ it ∈ u.pipe.spot, ∀ v ∈ it.body, v = 0) ∧
    u.spot.queue.map (fun it => { it with body := [] }) = s.spot.queue.map (fun it => { it with body := [] }) ∧ (∀ it ∈ u.spot.queue, ∀ v ∈ it.body, v = 0) ∧
    u.hst.waiting.map (fun it => { it with bytes := [] }) = s.hst.waiting.map (fun it => { it with bytes := [] }) ∧ (∀ it ∈ u.hst.waiting, ∀ v ∈ it.bytes, v = 0) ∧
    u.eng.out.map (fun o => { o with streams := [] }) = s.eng.out.map (fun o => { o with streams := [] }) ∧ (∀ o ∈ u.eng.out, ∀ e ∈ o.streams, ∀ v ∈ e.2, v = 0) ∧
    u.chn.build.map Prod.fst = s.chn.build.map Prod.fst ∧ (∀ e ∈ u.chn.build, ∀ b ∈ e.2, ∀ v ∈ b.hdr ++ b.keys ++ b.deltas ++ b.stat ++ b.aux, v = 0) ∧
    u.chn.queue.map Prod.fst = s.chn.queue.map Prod.fst ∧ ∀ e ∈ u.chn.queue, ∀ k ∈ e.2, k.vc = 6 → ∀ v ∈ k.payload, v = 0) ∧
  (∀ (p : Path) (s : State), s.takes p 0x12024 1 = true →
    ∃ b : State, b = s.booked p 0x12024 1 ∧
      (b.mayWrite p BIST_GOLD_CMD.COMMIT = false ∨ b.get BIST_STATUS.KIND = 1 ∨ b.get BIST_STATUS.BUSY = 1 ∨ (b.get BIST_STATUS.RESULT ≠ 1 ∧ b.get BIST_STATUS.RESULT ≠ 2) →
        exec (.bistGoldCommit p) s = .next b) ∧
      (b.mayWrite p BIST_GOLD_CMD.COMMIT = true → b.get BIST_STATUS.KIND ≠ 1 → b.get BIST_STATUS.BUSY ≠ 1 → b.get BIST_STATUS.RESULT = 1 ∨ b.get BIST_STATUS.RESULT = 2 →
        (∀ c : Nat, b.storeRefuses = some c → exec (.bistGoldCommit p) s = .next (b.set NVS_STATUS.LAST_RESULT c)) ∧
        (b.storeRefuses = none → ∃ vals : Tbl Nat, exec (.bistGoldCommit p) s = .next (b.startOp 4 5 (pathNo p) 3 vals) ∧
          Tbl.get 0 vals (goldOf (b.get BIST_STATUS.TARGET)) = b.get BIST_SIG_LO.SIG + b.get BIST_SIG_HI.SIG * 2 ^ 32 + 1 ∧
          ∀ k : Nat, k ≠ goldOf (b.get BIST_STATUS.TARGET) → Tbl.get 0 vals k = Tbl.get 0 (b.bankContent 5) k)))
end

