-- ==== Sys2Proof/Laws/Maps.lean ====
section
/-!
SUPPORT. The laws of the sparse tables: what a read after a write gives, and that every table operation keeps the canonical form.
-/
namespace Sys2Proof

variable {α : Type}

@[simp] theorem Tbl.get_nil (d : α) (k : Nat) : Tbl.get d [] k = d := rfl

theorem Tbl.get_cons (d : α) (a : Nat) (v : α) (t : Tbl α) (k : Nat) :
    Tbl.get d ((a, v) :: t) k = if a = k then v else Tbl.get d t k := rfl

theorem Tbl.get_erase (d : α) (t : Tbl α) (k j : Nat) :
    Tbl.get d (Tbl.erase t k) j = if k = j then d else Tbl.get d t j := by
  induction t with
  | nil => simp [Tbl.erase]
  | cons e t ih =>
    obtain ⟨a, w⟩ := e
    by_cases h : a = k
    · subst h
      by_cases h2 : a = j
      · subst h2; simpa [Tbl.erase] using ih
      · simp [Tbl.erase, Tbl.get_cons, ih, h2]
    · by_cases h2 : a = j
      · subst h2
        have hk : ¬ k = a := fun e => h e.symm
        simp [Tbl.erase, Tbl.get_cons, h, hk]
      · simp [Tbl.erase, Tbl.get_cons, ih, h, h2]

theorem Tbl.get_insert (d : α) (t : Tbl α) (k : Nat) (v : α) (j : Nat) :
    Tbl.get d (Tbl.insert t k v) j = if k = j then v else Tbl.get d t j := by
  induction t with
  | nil => simp [Tbl.insert, Tbl.get_cons]
  | cons e t ih =>
    obtain ⟨a, w⟩ := e
    unfold Tbl.insert
    split
    · rename_i h
      subst h
      by_cases h2 : a = j <;> simp [Tbl.get_cons, h2]
    · split
      · simp [Tbl.get_cons]
      · rename_i h _
        by_cases h2 : a = j
        · subst h2
          have hk : ¬ k = a := fun e => h e.symm
          simp [Tbl.get_cons, hk]
        · simp [Tbl.get_cons, ih, h2]

/-- A read after a write: the written number gives the value written, every other number what it gave. -/
theorem Tbl.get_set [DecidableEq α] (d : α) (t : Tbl α) (k : Nat) (v : α) (j : Nat) :
    Tbl.get d (Tbl.set d t k v) j = if k = j then v else Tbl.get d t j := by
  unfold Tbl.set
  split
  · rename_i h; subst h; exact Tbl.get_erase v t k j
  · exact Tbl.get_insert d t k v j

@[simp] theorem Tbl.get_set_same [DecidableEq α] (d : α) (t : Tbl α) (k : Nat) (v : α) :
    Tbl.get d (Tbl.set d t k v) k = v := by simp [Tbl.get_set]

theorem Tbl.get_set_other [DecidableEq α] (d d' : α) (t : Tbl α) {k j : Nat} (v : α) (h : k ≠ j) :
    Tbl.get d' (Tbl.set d t k v) j = Tbl.get d' t j := by
  unfold Tbl.set
  split
  · rw [Tbl.get_erase, if_neg h]
  · rw [Tbl.get_insert, if_neg h]

/-! ### The canonical form -/

theorem Tbl.rises_weaken {b c : Nat} (h : c ≤ b) {t : Tbl α} (ht : Tbl.rises (some b) t = true) :
    Tbl.rises (some c) t = true := by
  cases t with
  | nil => rfl
  | cons e t =>
    simp only [Tbl.rises, Bool.and_eq_true, decide_eq_true_eq] at ht ⊢
    exact ⟨by omega, ht.2⟩

theorem Tbl.rises_erase (t : Tbl α) (k : Nat) :
    ∀ b : Nat, Tbl.rises (some b) t = true → Tbl.rises (some b) (Tbl.erase t k) = true := by
  induction t with
  | nil => intro b _; rfl
  | cons e t ih =>
    intro b ht
    simp only [Tbl.rises, Bool.and_eq_true, decide_eq_true_eq] at ht
    unfold Tbl.erase
    split
    · exact ih b (Tbl.rises_weaken (by omega) ht.2)
    · simp only [Tbl.rises, Bool.and_eq_true, decide_eq_true_eq]
      exact ⟨ht.1, ih e.1 ht.2⟩

theorem Tbl.rises_insert (t : Tbl α) (k : Nat) (v : α) :
    ∀ b : Nat, b < k → Tbl.rises (some b) t = true → Tbl.rises (some b) (Tbl.insert t k v) = true := by
  induction t with
  | nil => intro b hb _; simp [Tbl.insert, Tbl.rises, hb]
  | cons e t ih =>
    intro b hb ht
    obtain ⟨a, w⟩ := e
    simp only [Tbl.rises, Bool.and_eq_true, decide_eq_true_eq] at ht
    unfold Tbl.insert
    split
    · rename_i h; subst h
      simp only [Tbl.rises, Bool.and_eq_true, decide_eq_true_eq]; exact ⟨ht.1, ht.2⟩
    · split
      · rename_i h
        simp only [Tbl.rises, Bool.and_eq_true, decide_eq_true_eq]; exact ⟨hb, h, ht.2⟩
      · simp only [Tbl.rises, Bool.and_eq_true, decide_eq_true_eq]
        exact ⟨ht.1, ih a (by omega) ht.2⟩

theorem Tbl.rises_none {t : Tbl α} :
    Tbl.rises none t = true ↔ ∀ e ∈ t.head?, Tbl.rises (some e.1) t.tail = true := by
  cases t with
  | nil => simp [Tbl.rises]
  | cons e t => simp [Tbl.rises]

theorem Tbl.rises_erase_none (t : Tbl α) (k : Nat) (h : Tbl.rises none t = true) :
    Tbl.rises none (Tbl.erase t k) = true := by
  induction t with
  | nil => rfl
  | cons e t ih =>
    unfold Tbl.erase
    split
    · apply ih
      cases t with
      | nil => rfl
      | cons f u => simp only [Tbl.rises, Bool.and_eq_true] at h ⊢; exact h.2
    · exact Tbl.rises_erase t k e.1 h

theorem Tbl.rises_insert_none (t : Tbl α) (k : Nat) (v : α) (h : Tbl.rises none t = true) :
    Tbl.rises none (Tbl.insert t k v) = true := by
  cases t with
  | nil => rfl
  | cons e t =>
    obtain ⟨a, w⟩ := e
    unfold Tbl.insert
    split
    · rename_i e; subst e; exact h
    · split
      · rename_i hk; simp only [Tbl.rises, Bool.and_eq_true, decide_eq_true_eq]; exact ⟨hk, h⟩
      · exact Tbl.rises_insert t k v a (by omega) h

/-- A write keeps the numbers rising. -/
theorem Tbl.rises_set [DecidableEq α] (d : α) (t : Tbl α) (k : Nat) (v : α) (h : Tbl.rises none t = true) :
    Tbl.rises none (Tbl.set d t k v) = true := by
  unfold Tbl.set
  split
  · exact Tbl.rises_erase_none t k h
  · exact Tbl.rises_insert_none t k v h

theorem Tbl.mem_erase {t : Tbl α} {k : Nat} {e : Nat × α} (h : e ∈ Tbl.erase t k) : e ∈ t := by
  induction t with
  | nil => exact h
  | cons x t ih =>
    unfold Tbl.erase at h
    split at h
    · exact List.mem_cons_of_mem _ (ih h)
    · rcases List.mem_cons.mp h with h | h
      · exact List.mem_cons.mpr (.inl h)
      · exact List.mem_cons_of_mem _ (ih h)

theorem Tbl.mem_insert {t : Tbl α} {k : Nat} {v : α} {e : Nat × α} (h : e ∈ Tbl.insert t k v) : e = (k, v) ∨ e ∈ t := by
  induction t with
  | nil => exact .inl (by simpa [Tbl.insert] using h)
  | cons x t ih =>
    obtain ⟨a, w⟩ := x
    unfold Tbl.insert at h
    split at h
    · rcases List.mem_cons.mp h with h | h
      · exact .inl h
      · exact .inr (List.mem_cons_of_mem _ h)
    · split at h
      · rcases List.mem_cons.mp h with h | h
        · exact .inl h
        · exact .inr h
      · rcases List.mem_cons.mp h with h | h
        · exact .inr (List.mem_cons.mpr (.inl h))
        · exact (ih h).imp id (List.mem_cons_of_mem _)

theorem Tbl.sparse_set [DecidableEq α] (d : α) (t : Tbl α) (k : Nat) (v : α) (h : Tbl.sparse d t = true) :
    Tbl.sparse d (Tbl.set d t k v) = true := by
  simp only [Tbl.sparse, List.all_eq_true, decide_eq_true_eq] at h ⊢
  unfold Tbl.set
  split
  · exact fun e he => h e (Tbl.mem_erase he)
  · rename_i hv
    intro e he
    rcases Tbl.mem_insert he with rfl | he
    · exact hv
    · exact h e he

theorem Tbl.rises_filter (p : Nat × α → Bool) (t : Tbl α) :
    ∀ b : Nat, Tbl.rises (some b) t = true → Tbl.rises (some b) (t.filter p) = true := by
  induction t with
  | nil => intro b _; rfl
  | cons e t ih =>
    intro b ht
    simp only [Tbl.rises, Bool.and_eq_true, decide_eq_true_eq] at ht
    by_cases h : p e = true
    · rw [List.filter_cons_of_pos h]
      simp only [Tbl.rises, Bool.and_eq_true, decide_eq_true_eq]
      exact ⟨ht.1, ih e.1 ht.2⟩
    · rw [List.filter_cons_of_neg h]
      exact ih b (Tbl.rises_weaken (by omega) ht.2)

/-- Keeping the entries a test accepts keeps the numbers rising. -/
theorem Tbl.rises_keep (p : Nat → Bool) (t : Tbl α) (h : Tbl.rises none t = true) :
    Tbl.rises none (Tbl.keep p t) = true := by
  unfold Tbl.keep
  induction t with
  | nil => rfl
  | cons e t ih =>
    by_cases hp : p e.1 = true
    · rw [List.filter_cons_of_pos (by simpa using hp)]
      exact Tbl.rises_filter _ t e.1 h
    · rw [List.filter_cons_of_neg (by simpa using hp)]
      apply ih
      cases t with
      | nil => rfl
      | cons f u => simp only [Tbl.rises, Bool.and_eq_true] at h ⊢; exact h.2

/-- A write keeps the canonical form: numbers rising, nothing listed that equals the default. -/
theorem Tbl.wf_set [DecidableEq α] (d : α) (t : Tbl α) (k : Nat) (v : α) (h : Tbl.wf d t = true) :
    Tbl.wf d (Tbl.set d t k v) = true := by
  simp only [Tbl.wf, Bool.and_eq_true] at h ⊢
  exact ⟨Tbl.rises_set d t k v h.1, Tbl.sparse_set d t k v h.2⟩

end Sys2Proof
end

