-- ==== Sys2Proof/Laws/State.lean ====
section
/-!
SUPPORT. The laws of the state: what a read of a register gives after each update, and one lemma per field per update, so that no proof
unfolds a record update.
-/
namespace Sys2Proof.Machine

/-! ### Registers -/

/-- A read after a write gives the low bits of the value written. -/
@[simp] theorem State.get_set_self (s : State) (f : Field) (v : Nat) : (s.set f v).get f = v % 2 ^ f.width :=
  Tbl.get_set_same _ _ _ _

/-- A write leaves every field kept elsewhere as it was. -/
theorem State.get_set_ne (s : State) {f g : Field} (v : Nat) (h : f.key ≠ g.key) : (s.set f v).get g = s.get g :=
  Tbl.get_set_other _ _ _ _ h

/-- What a field reads depends on the register store alone. -/
theorem State.get_congr {s t : State} (h : s.regs = t.regs) (f : Field) : s.get f = t.get f := by
  unfold State.get; rw [h]

/-- A write keeps the register store in its canonical form. -/
theorem State.set_rises (s : State) (f : Field) (v : Nat) (h : Tbl.rises none s.regs = true) :
    Tbl.rises none (s.set f v).regs = true := Tbl.rises_set _ _ _ _ h

@[simp] theorem State.put_eq (s : State) (f : Field) (b : Bool) : s.put f b = s.set f (ofBool b) := rfl
@[simp] theorem State.bump_eq (s : State) (f : Field) (n : Nat) : s.bump f n = s.set f (min (2 ^ f.width - 1) (s.get f + n)) := rfl
@[simp] theorem State.putBit_eq (s : State) (f : Field) (i : Nat) (b : Bool) : s.putBit f i b = s.set f (setBit (s.get f) i b) := rfl
@[simp] theorem State.toReset_eq (s : State) (f : Field) : s.toReset f = s.set f f.reset := rfl
@[simp] theorem State.when_true (s : State) (f : State → State) : s.when true f = f s := rfl
@[simp] theorem State.when_false (s : State) (f : State → State) : s.when false f = s := rfl
@[simp] theorem State.set_pending (s : State) (f : Field) (v : Nat) : (s.set f v).pending = s.pending := rfl
@[simp] theorem State.set_fwc (s : State) (f : Field) (v : Nat) : (s.set f v).fwc = s.fwc := rfl
@[simp] theorem State.set_freeIx (s : State) (f : Field) (v : Nat) : (s.set f v).freeIx = s.freeIx := rfl
@[simp] theorem State.set_serial (s : State) (f : Field) (v : Nat) : (s.set f v).serial = s.serial := rfl
@[simp] theorem State.set_mono (s : State) (f : Field) (v : Nat) : (s.set f v).mono = s.mono := rfl
@[simp] theorem State.set_strap (s : State) (f : Field) (v : Nat) : (s.set f v).strap = s.strap := rfl
@[simp] theorem State.set_answer (s : State) (f : Field) (v : Nat) : (s.set f v).answer = s.answer := rfl
@[simp] theorem State.set_latched (s : State) (f : Field) (v : Nat) : (s.set f v).latched = s.latched := rfl
@[simp] theorem State.set_events (s : State) (f : Field) (v : Nat) : (s.set f v).events = s.events := rfl
@[simp] theorem State.set_heldAon (s : State) (f : Field) (v : Nat) : (s.set f v).heldAon = s.heldAon := rfl
@[simp] theorem State.set_heldCanary (s : State) (f : Field) (v : Nat) : (s.set f v).heldCanary = s.heldCanary := rfl
@[simp] theorem State.set_cfg (s : State) (f : Field) (v : Nat) : (s.set f v).cfg = s.cfg := rfl
@[simp] theorem State.set_pwr (s : State) (f : Field) (v : Nat) : (s.set f v).pwr = s.pwr := rfl
@[simp] theorem State.set_saf (s : State) (f : Field) (v : Nat) : (s.set f v).saf = s.saf := rfl
@[simp] theorem State.set_rol (s : State) (f : Field) (v : Nat) : (s.set f v).rol = s.rol := rfl
@[simp] theorem State.set_nvs (s : State) (f : Field) (v : Nat) : (s.set f v).nvs = s.nvs := rfl
@[simp] theorem State.set_hst (s : State) (f : Field) (v : Nat) : (s.set f v).hst = s.hst := rfl
@[simp] theorem State.set_i2c (s : State) (f : Field) (v : Nat) : (s.set f v).i2c = s.i2c := rfl
@[simp] theorem State.set_tim (s : State) (f : Field) (v : Nat) : (s.set f v).tim = s.tim := rfl
@[simp] theorem State.set_lnk (s : State) (f : Field) (v : Nat) : (s.set f v).lnk = s.lnk := rfl
@[simp] theorem State.set_chn (s : State) (f : Field) (v : Nat) : (s.set f v).chn = s.chn := rfl
@[simp] theorem State.set_cad (s : State) (f : Field) (v : Nat) : (s.set f v).cad = s.cad := rfl
@[simp] theorem State.set_arr (s : State) (f : Field) (v : Nat) : (s.set f v).arr = s.arr := rfl
@[simp] theorem State.set_cnv (s : State) (f : Field) (v : Nat) : (s.set f v).cnv = s.cnv := rfl
@[simp] theorem State.set_mon (s : State) (f : Field) (v : Nat) : (s.set f v).mon = s.mon := rfl
@[simp] theorem State.set_eng (s : State) (f : Field) (v : Nat) : (s.set f v).eng = s.eng := rfl
@[simp] theorem State.set_spot (s : State) (f : Field) (v : Nat) : (s.set f v).spot = s.spot := rfl
@[simp] theorem State.set_pipe (s : State) (f : Field) (v : Nat) : (s.set f v).pipe = s.pipe := rfl

/-! ### One block's record -/

@[simp] theorem State.onPwr_get (s : State) (f : Pwr → Pwr) (g : Field) : (s.onPwr f).get g = s.get g := rfl
@[simp] theorem State.onPwr_pwr (s : State) (f : Pwr → Pwr) : (s.onPwr f).pwr = f s.pwr := rfl
@[simp] theorem State.onPwr_pending (s : State) (f : Pwr → Pwr) : (s.onPwr f).pending = s.pending := rfl
@[simp] theorem State.onPwr_regs (s : State) (f : Pwr → Pwr) : (s.onPwr f).regs = s.regs := rfl
@[simp] theorem State.onPwr_fwc (s : State) (f : Pwr → Pwr) : (s.onPwr f).fwc = s.fwc := rfl
@[simp] theorem State.onPwr_freeIx (s : State) (f : Pwr → Pwr) : (s.onPwr f).freeIx = s.freeIx := rfl
@[simp] theorem State.onPwr_serial (s : State) (f : Pwr → Pwr) : (s.onPwr f).serial = s.serial := rfl
@[simp] theorem State.onPwr_mono (s : State) (f : Pwr → Pwr) : (s.onPwr f).mono = s.mono := rfl
@[simp] theorem State.onPwr_strap (s : State) (f : Pwr → Pwr) : (s.onPwr f).strap = s.strap := rfl
@[simp] theorem State.onPwr_answer (s : State) (f : Pwr → Pwr) : (s.onPwr f).answer = s.answer := rfl
@[simp] theorem State.onPwr_latched (s : State) (f : Pwr → Pwr) : (s.onPwr f).latched = s.latched := rfl
@[simp] theorem State.onPwr_events (s : State) (f : Pwr → Pwr) : (s.onPwr f).events = s.events := rfl
@[simp] theorem State.onPwr_heldAon (s : State) (f : Pwr → Pwr) : (s.onPwr f).heldAon = s.heldAon := rfl
@[simp] theorem State.onPwr_heldCanary (s : State) (f : Pwr → Pwr) : (s.onPwr f).heldCanary = s.heldCanary := rfl
@[simp] theorem State.onPwr_cfg (s : State) (f : Pwr → Pwr) : (s.onPwr f).cfg = s.cfg := rfl
@[simp] theorem State.onPwr_saf (s : State) (f : Pwr → Pwr) : (s.onPwr f).saf = s.saf := rfl
@[simp] theorem State.onPwr_rol (s : State) (f : Pwr → Pwr) : (s.onPwr f).rol = s.rol := rfl
@[simp] theorem State.onPwr_nvs (s : State) (f : Pwr → Pwr) : (s.onPwr f).nvs = s.nvs := rfl
@[simp] theorem State.onPwr_hst (s : State) (f : Pwr → Pwr) : (s.onPwr f).hst = s.hst := rfl
@[simp] theorem State.onPwr_i2c (s : State) (f : Pwr → Pwr) : (s.onPwr f).i2c = s.i2c := rfl
@[simp] theorem State.onPwr_tim (s : State) (f : Pwr → Pwr) : (s.onPwr f).tim = s.tim := rfl
@[simp] theorem State.onPwr_lnk (s : State) (f : Pwr → Pwr) : (s.onPwr f).lnk = s.lnk := rfl
@[simp] theorem State.onPwr_chn (s : State) (f : Pwr → Pwr) : (s.onPwr f).chn = s.chn := rfl
@[simp] theorem State.onPwr_cad (s : State) (f : Pwr → Pwr) : (s.onPwr f).cad = s.cad := rfl
@[simp] theorem State.onPwr_arr (s : State) (f : Pwr → Pwr) : (s.onPwr f).arr = s.arr := rfl
@[simp] theorem State.onPwr_cnv (s : State) (f : Pwr → Pwr) : (s.onPwr f).cnv = s.cnv := rfl
@[simp] theorem State.onPwr_mon (s : State) (f : Pwr → Pwr) : (s.onPwr f).mon = s.mon := rfl
@[simp] theorem State.onPwr_eng (s : State) (f : Pwr → Pwr) : (s.onPwr f).eng = s.eng := rfl
@[simp] theorem State.onPwr_spot (s : State) (f : Pwr → Pwr) : (s.onPwr f).spot = s.spot := rfl
@[simp] theorem State.onPwr_pipe (s : State) (f : Pwr → Pwr) : (s.onPwr f).pipe = s.pipe := rfl
@[simp] theorem State.onSaf_get (s : State) (f : Saf → Saf) (g : Field) : (s.onSaf f).get g = s.get g := rfl
@[simp] theorem State.onSaf_saf (s : State) (f : Saf → Saf) : (s.onSaf f).saf = f s.saf := rfl
@[simp] theorem State.onSaf_pending (s : State) (f : Saf → Saf) : (s.onSaf f).pending = s.pending := rfl
@[simp] theorem State.onSaf_regs (s : State) (f : Saf → Saf) : (s.onSaf f).regs = s.regs := rfl
@[simp] theorem State.onSaf_fwc (s : State) (f : Saf → Saf) : (s.onSaf f).fwc = s.fwc := rfl
@[simp] theorem State.onSaf_freeIx (s : State) (f : Saf → Saf) : (s.onSaf f).freeIx = s.freeIx := rfl
@[simp] theorem State.onSaf_serial (s : State) (f : Saf → Saf) : (s.onSaf f).serial = s.serial := rfl
@[simp] theorem State.onSaf_mono (s : State) (f : Saf → Saf) : (s.onSaf f).mono = s.mono := rfl
@[simp] theorem State.onSaf_strap (s : State) (f : Saf → Saf) : (s.onSaf f).strap = s.strap := rfl
@[simp] theorem State.onSaf_answer (s : State) (f : Saf → Saf) : (s.onSaf f).answer = s.answer := rfl
@[simp] theorem State.onSaf_latched (s : State) (f : Saf → Saf) : (s.onSaf f).latched = s.latched := rfl
@[simp] theorem State.onSaf_events (s : State) (f : Saf → Saf) : (s.onSaf f).events = s.events := rfl
@[simp] theorem State.onSaf_heldAon (s : State) (f : Saf → Saf) : (s.onSaf f).heldAon = s.heldAon := rfl
@[simp] theorem State.onSaf_heldCanary (s : State) (f : Saf → Saf) : (s.onSaf f).heldCanary = s.heldCanary := rfl
@[simp] theorem State.onSaf_cfg (s : State) (f : Saf → Saf) : (s.onSaf f).cfg = s.cfg := rfl
@[simp] theorem State.onSaf_pwr (s : State) (f : Saf → Saf) : (s.onSaf f).pwr = s.pwr := rfl
@[simp] theorem State.onSaf_rol (s : State) (f : Saf → Saf) : (s.onSaf f).rol = s.rol := rfl
@[simp] theorem State.onSaf_nvs (s : State) (f : Saf → Saf) : (s.onSaf f).nvs = s.nvs := rfl
@[simp] theorem State.onSaf_hst (s : State) (f : Saf → Saf) : (s.onSaf f).hst = s.hst := rfl
@[simp] theorem State.onSaf_i2c (s : State) (f : Saf → Saf) : (s.onSaf f).i2c = s.i2c := rfl
@[simp] theorem State.onSaf_tim (s : State) (f : Saf → Saf) : (s.onSaf f).tim = s.tim := rfl
@[simp] theorem State.onSaf_lnk (s : State) (f : Saf → Saf) : (s.onSaf f).lnk = s.lnk := rfl
@[simp] theorem State.onSaf_chn (s : State) (f : Saf → Saf) : (s.onSaf f).chn = s.chn := rfl
@[simp] theorem State.onSaf_cad (s : State) (f : Saf → Saf) : (s.onSaf f).cad = s.cad := rfl
@[simp] theorem State.onSaf_arr (s : State) (f : Saf → Saf) : (s.onSaf f).arr = s.arr := rfl
@[simp] theorem State.onSaf_cnv (s : State) (f : Saf → Saf) : (s.onSaf f).cnv = s.cnv := rfl
@[simp] theorem State.onSaf_mon (s : State) (f : Saf → Saf) : (s.onSaf f).mon = s.mon := rfl
@[simp] theorem State.onSaf_eng (s : State) (f : Saf → Saf) : (s.onSaf f).eng = s.eng := rfl
@[simp] theorem State.onSaf_spot (s : State) (f : Saf → Saf) : (s.onSaf f).spot = s.spot := rfl
@[simp] theorem State.onSaf_pipe (s : State) (f : Saf → Saf) : (s.onSaf f).pipe = s.pipe := rfl
@[simp] theorem State.onRol_get (s : State) (f : Rol → Rol) (g : Field) : (s.onRol f).get g = s.get g := rfl
@[simp] theorem State.onRol_rol (s : State) (f : Rol → Rol) : (s.onRol f).rol = f s.rol := rfl
@[simp] theorem State.onRol_pending (s : State) (f : Rol → Rol) : (s.onRol f).pending = s.pending := rfl
@[simp] theorem State.onRol_regs (s : State) (f : Rol → Rol) : (s.onRol f).regs = s.regs := rfl
@[simp] theorem State.onRol_fwc (s : State) (f : Rol → Rol) : (s.onRol f).fwc = s.fwc := rfl
@[simp] theorem State.onRol_freeIx (s : State) (f : Rol → Rol) : (s.onRol f).freeIx = s.freeIx := rfl
@[simp] theorem State.onRol_serial (s : State) (f : Rol → Rol) : (s.onRol f).serial = s.serial := rfl
@[simp] theorem State.onRol_mono (s : State) (f : Rol → Rol) : (s.onRol f).mono = s.mono := rfl
@[simp] theorem State.onRol_strap (s : State) (f : Rol → Rol) : (s.onRol f).strap = s.strap := rfl
@[simp] theorem State.onRol_answer (s : State) (f : Rol → Rol) : (s.onRol f).answer = s.answer := rfl
@[simp] theorem State.onRol_latched (s : State) (f : Rol → Rol) : (s.onRol f).latched = s.latched := rfl
@[simp] theorem State.onRol_events (s : State) (f : Rol → Rol) : (s.onRol f).events = s.events := rfl
@[simp] theorem State.onRol_heldAon (s : State) (f : Rol → Rol) : (s.onRol f).heldAon = s.heldAon := rfl
@[simp] theorem State.onRol_heldCanary (s : State) (f : Rol → Rol) : (s.onRol f).heldCanary = s.heldCanary := rfl
@[simp] theorem State.onRol_cfg (s : State) (f : Rol → Rol) : (s.onRol f).cfg = s.cfg := rfl
@[simp] theorem State.onRol_pwr (s : State) (f : Rol → Rol) : (s.onRol f).pwr = s.pwr := rfl
@[simp] theorem State.onRol_saf (s : State) (f : Rol → Rol) : (s.onRol f).saf = s.saf := rfl
@[simp] theorem State.onRol_nvs (s : State) (f : Rol → Rol) : (s.onRol f).nvs = s.nvs := rfl
@[simp] theorem State.onRol_hst (s : State) (f : Rol → Rol) : (s.onRol f).hst = s.hst := rfl
@[simp] theorem State.onRol_i2c (s : State) (f : Rol → Rol) : (s.onRol f).i2c = s.i2c := rfl
@[simp] theorem State.onRol_tim (s : State) (f : Rol → Rol) : (s.onRol f).tim = s.tim := rfl
@[simp] theorem State.onRol_lnk (s : State) (f : Rol → Rol) : (s.onRol f).lnk = s.lnk := rfl
@[simp] theorem State.onRol_chn (s : State) (f : Rol → Rol) : (s.onRol f).chn = s.chn := rfl
@[simp] theorem State.onRol_cad (s : State) (f : Rol → Rol) : (s.onRol f).cad = s.cad := rfl
@[simp] theorem State.onRol_arr (s : State) (f : Rol → Rol) : (s.onRol f).arr = s.arr := rfl
@[simp] theorem State.onRol_cnv (s : State) (f : Rol → Rol) : (s.onRol f).cnv = s.cnv := rfl
@[simp] theorem State.onRol_mon (s : State) (f : Rol → Rol) : (s.onRol f).mon = s.mon := rfl
@[simp] theorem State.onRol_eng (s : State) (f : Rol → Rol) : (s.onRol f).eng = s.eng := rfl
@[simp] theorem State.onRol_spot (s : State) (f : Rol → Rol) : (s.onRol f).spot = s.spot := rfl
@[simp] theorem State.onRol_pipe (s : State) (f : Rol → Rol) : (s.onRol f).pipe = s.pipe := rfl
@[simp] theorem State.onNvs_get (s : State) (f : Nvs → Nvs) (g : Field) : (s.onNvs f).get g = s.get g := rfl
@[simp] theorem State.onNvs_nvs (s : State) (f : Nvs → Nvs) : (s.onNvs f).nvs = f s.nvs := rfl
@[simp] theorem State.onNvs_pending (s : State) (f : Nvs → Nvs) : (s.onNvs f).pending = s.pending := rfl
@[simp] theorem State.onNvs_regs (s : State) (f : Nvs → Nvs) : (s.onNvs f).regs = s.regs := rfl
@[simp] theorem State.onNvs_fwc (s : State) (f : Nvs → Nvs) : (s.onNvs f).fwc = s.fwc := rfl
@[simp] theorem State.onNvs_freeIx (s : State) (f : Nvs → Nvs) : (s.onNvs f).freeIx = s.freeIx := rfl
@[simp] theorem State.onNvs_serial (s : State) (f : Nvs → Nvs) : (s.onNvs f).serial = s.serial := rfl
@[simp] theorem State.onNvs_mono (s : State) (f : Nvs → Nvs) : (s.onNvs f).mono = s.mono := rfl
@[simp] theorem State.onNvs_strap (s : State) (f : Nvs → Nvs) : (s.onNvs f).strap = s.strap := rfl
@[simp] theorem State.onNvs_answer (s : State) (f : Nvs → Nvs) : (s.onNvs f).answer = s.answer := rfl
@[simp] theorem State.onNvs_latched (s : State) (f : Nvs → Nvs) : (s.onNvs f).latched = s.latched := rfl
@[simp] theorem State.onNvs_events (s : State) (f : Nvs → Nvs) : (s.onNvs f).events = s.events := rfl
@[simp] theorem State.onNvs_heldAon (s : State) (f : Nvs → Nvs) : (s.onNvs f).heldAon = s.heldAon := rfl
@[simp] theorem State.onNvs_heldCanary (s : State) (f : Nvs → Nvs) : (s.onNvs f).heldCanary = s.heldCanary := rfl
@[simp] theorem State.onNvs_cfg (s : State) (f : Nvs → Nvs) : (s.onNvs f).cfg = s.cfg := rfl
@[simp] theorem State.onNvs_pwr (s : State) (f : Nvs → Nvs) : (s.onNvs f).pwr = s.pwr := rfl
@[simp] theorem State.onNvs_saf (s : State) (f : Nvs → Nvs) : (s.onNvs f).saf = s.saf := rfl
@[simp] theorem State.onNvs_rol (s : State) (f : Nvs → Nvs) : (s.onNvs f).rol = s.rol := rfl
@[simp] theorem State.onNvs_hst (s : State) (f : Nvs → Nvs) : (s.onNvs f).hst = s.hst := rfl
@[simp] theorem State.onNvs_i2c (s : State) (f : Nvs → Nvs) : (s.onNvs f).i2c = s.i2c := rfl
@[simp] theorem State.onNvs_tim (s : State) (f : Nvs → Nvs) : (s.onNvs f).tim = s.tim := rfl
@[simp] theorem State.onNvs_lnk (s : State) (f : Nvs → Nvs) : (s.onNvs f).lnk = s.lnk := rfl
@[simp] theorem State.onNvs_chn (s : State) (f : Nvs → Nvs) : (s.onNvs f).chn = s.chn := rfl
@[simp] theorem State.onNvs_cad (s : State) (f : Nvs → Nvs) : (s.onNvs f).cad = s.cad := rfl
@[simp] theorem State.onNvs_arr (s : State) (f : Nvs → Nvs) : (s.onNvs f).arr = s.arr := rfl
@[simp] theorem State.onNvs_cnv (s : State) (f : Nvs → Nvs) : (s.onNvs f).cnv = s.cnv := rfl
@[simp] theorem State.onNvs_mon (s : State) (f : Nvs → Nvs) : (s.onNvs f).mon = s.mon := rfl
@[simp] theorem State.onNvs_eng (s : State) (f : Nvs → Nvs) : (s.onNvs f).eng = s.eng := rfl
@[simp] theorem State.onNvs_spot (s : State) (f : Nvs → Nvs) : (s.onNvs f).spot = s.spot := rfl
@[simp] theorem State.onNvs_pipe (s : State) (f : Nvs → Nvs) : (s.onNvs f).pipe = s.pipe := rfl
@[simp] theorem State.onHst_get (s : State) (f : Hst → Hst) (g : Field) : (s.onHst f).get g = s.get g := rfl
@[simp] theorem State.onHst_hst (s : State) (f : Hst → Hst) : (s.onHst f).hst = f s.hst := rfl
@[simp] theorem State.onHst_pending (s : State) (f : Hst → Hst) : (s.onHst f).pending = s.pending := rfl
@[simp] theorem State.onHst_regs (s : State) (f : Hst → Hst) : (s.onHst f).regs = s.regs := rfl
@[simp] theorem State.onHst_fwc (s : State) (f : Hst → Hst) : (s.onHst f).fwc = s.fwc := rfl
@[simp] theorem State.onHst_freeIx (s : State) (f : Hst → Hst) : (s.onHst f).freeIx = s.freeIx := rfl
@[simp] theorem State.onHst_serial (s : State) (f : Hst → Hst) : (s.onHst f).serial = s.serial := rfl
@[simp] theorem State.onHst_mono (s : State) (f : Hst → Hst) : (s.onHst f).mono = s.mono := rfl
@[simp] theorem State.onHst_strap (s : State) (f : Hst → Hst) : (s.onHst f).strap = s.strap := rfl
@[simp] theorem State.onHst_answer (s : State) (f : Hst → Hst) : (s.onHst f).answer = s.answer := rfl
@[simp] theorem State.onHst_latched (s : State) (f : Hst → Hst) : (s.onHst f).latched = s.latched := rfl
@[simp] theorem State.onHst_events (s : State) (f : Hst → Hst) : (s.onHst f).events = s.events := rfl
@[simp] theorem State.onHst_heldAon (s : State) (f : Hst → Hst) : (s.onHst f).heldAon = s.heldAon := rfl
@[simp] theorem State.onHst_heldCanary (s : State) (f : Hst → Hst) : (s.onHst f).heldCanary = s.heldCanary := rfl
@[simp] theorem State.onHst_cfg (s : State) (f : Hst → Hst) : (s.onHst f).cfg = s.cfg := rfl
@[simp] theorem State.onHst_pwr (s : State) (f : Hst → Hst) : (s.onHst f).pwr = s.pwr := rfl
@[simp] theorem State.onHst_saf (s : State) (f : Hst → Hst) : (s.onHst f).saf = s.saf := rfl
@[simp] theorem State.onHst_rol (s : State) (f : Hst → Hst) : (s.onHst f).rol = s.rol := rfl
@[simp] theorem State.onHst_nvs (s : State) (f : Hst → Hst) : (s.onHst f).nvs = s.nvs := rfl
@[simp] theorem State.onHst_i2c (s : State) (f : Hst → Hst) : (s.onHst f).i2c = s.i2c := rfl
@[simp] theorem State.onHst_tim (s : State) (f : Hst → Hst) : (s.onHst f).tim = s.tim := rfl
@[simp] theorem State.onHst_lnk (s : State) (f : Hst → Hst) : (s.onHst f).lnk = s.lnk := rfl
@[simp] theorem State.onHst_chn (s : State) (f : Hst → Hst) : (s.onHst f).chn = s.chn := rfl
@[simp] theorem State.onHst_cad (s : State) (f : Hst → Hst) : (s.onHst f).cad = s.cad := rfl
@[simp] theorem State.onHst_arr (s : State) (f : Hst → Hst) : (s.onHst f).arr = s.arr := rfl
@[simp] theorem State.onHst_cnv (s : State) (f : Hst → Hst) : (s.onHst f).cnv = s.cnv := rfl
@[simp] theorem State.onHst_mon (s : State) (f : Hst → Hst) : (s.onHst f).mon = s.mon := rfl
@[simp] theorem State.onHst_eng (s : State) (f : Hst → Hst) : (s.onHst f).eng = s.eng := rfl
@[simp] theorem State.onHst_spot (s : State) (f : Hst → Hst) : (s.onHst f).spot = s.spot := rfl
@[simp] theorem State.onHst_pipe (s : State) (f : Hst → Hst) : (s.onHst f).pipe = s.pipe := rfl
@[simp] theorem State.onI2c_get (s : State) (f : I2c → I2c) (g : Field) : (s.onI2c f).get g = s.get g := rfl
@[simp] theorem State.onI2c_i2c (s : State) (f : I2c → I2c) : (s.onI2c f).i2c = f s.i2c := rfl
@[simp] theorem State.onI2c_pending (s : State) (f : I2c → I2c) : (s.onI2c f).pending = s.pending := rfl
@[simp] theorem State.onI2c_regs (s : State) (f : I2c → I2c) : (s.onI2c f).regs = s.regs := rfl
@[simp] theorem State.onI2c_fwc (s : State) (f : I2c → I2c) : (s.onI2c f).fwc = s.fwc := rfl
@[simp] theorem State.onI2c_freeIx (s : State) (f : I2c → I2c) : (s.onI2c f).freeIx = s.freeIx := rfl
@[simp] theorem State.onI2c_serial (s : State) (f : I2c → I2c) : (s.onI2c f).serial = s.serial := rfl
@[simp] theorem State.onI2c_mono (s : State) (f : I2c → I2c) : (s.onI2c f).mono = s.mono := rfl
@[simp] theorem State.onI2c_strap (s : State) (f : I2c → I2c) : (s.onI2c f).strap = s.strap := rfl
@[simp] theorem State.onI2c_answer (s : State) (f : I2c → I2c) : (s.onI2c f).answer = s.answer := rfl
@[simp] theorem State.onI2c_latched (s : State) (f : I2c → I2c) : (s.onI2c f).latched = s.latched := rfl
@[simp] theorem State.onI2c_events (s : State) (f : I2c → I2c) : (s.onI2c f).events = s.events := rfl
@[simp] theorem State.onI2c_heldAon (s : State) (f : I2c → I2c) : (s.onI2c f).heldAon = s.heldAon := rfl
@[simp] theorem State.onI2c_heldCanary (s : State) (f : I2c → I2c) : (s.onI2c f).heldCanary = s.heldCanary := rfl
@[simp] theorem State.onI2c_cfg (s : State) (f : I2c → I2c) : (s.onI2c f).cfg = s.cfg := rfl
@[simp] theorem State.onI2c_pwr (s : State) (f : I2c → I2c) : (s.onI2c f).pwr = s.pwr := rfl
@[simp] theorem State.onI2c_saf (s : State) (f : I2c → I2c) : (s.onI2c f).saf = s.saf := rfl
@[simp] theorem State.onI2c_rol (s : State) (f : I2c → I2c) : (s.onI2c f).rol = s.rol := rfl
@[simp] theorem State.onI2c_nvs (s : State) (f : I2c → I2c) : (s.onI2c f).nvs = s.nvs := rfl
@[simp] theorem State.onI2c_hst (s : State) (f : I2c → I2c) : (s.onI2c f).hst = s.hst := rfl
@[simp] theorem State.onI2c_tim (s : State) (f : I2c → I2c) : (s.onI2c f).tim = s.tim := rfl
@[simp] theorem State.onI2c_lnk (s : State) (f : I2c → I2c) : (s.onI2c f).lnk = s.lnk := rfl
@[simp] theorem State.onI2c_chn (s : State) (f : I2c → I2c) : (s.onI2c f).chn = s.chn := rfl
@[simp] theorem State.onI2c_cad (s : State) (f : I2c → I2c) : (s.onI2c f).cad = s.cad := rfl
@[simp] theorem State.onI2c_arr (s : State) (f : I2c → I2c) : (s.onI2c f).arr = s.arr := rfl
@[simp] theorem State.onI2c_cnv (s : State) (f : I2c → I2c) : (s.onI2c f).cnv = s.cnv := rfl
@[simp] theorem State.onI2c_mon (s : State) (f : I2c → I2c) : (s.onI2c f).mon = s.mon := rfl
@[simp] theorem State.onI2c_eng (s : State) (f : I2c → I2c) : (s.onI2c f).eng = s.eng := rfl
@[simp] theorem State.onI2c_spot (s : State) (f : I2c → I2c) : (s.onI2c f).spot = s.spot := rfl
@[simp] theorem State.onI2c_pipe (s : State) (f : I2c → I2c) : (s.onI2c f).pipe = s.pipe := rfl
@[simp] theorem State.onTim_get (s : State) (f : Tim → Tim) (g : Field) : (s.onTim f).get g = s.get g := rfl
@[simp] theorem State.onTim_tim (s : State) (f : Tim → Tim) : (s.onTim f).tim = f s.tim := rfl
@[simp] theorem State.onTim_pending (s : State) (f : Tim → Tim) : (s.onTim f).pending = s.pending := rfl
@[simp] theorem State.onTim_regs (s : State) (f : Tim → Tim) : (s.onTim f).regs = s.regs := rfl
@[simp] theorem State.onTim_fwc (s : State) (f : Tim → Tim) : (s.onTim f).fwc = s.fwc := rfl
@[simp] theorem State.onTim_freeIx (s : State) (f : Tim → Tim) : (s.onTim f).freeIx = s.freeIx := rfl
@[simp] theorem State.onTim_serial (s : State) (f : Tim → Tim) : (s.onTim f).serial = s.serial := rfl
@[simp] theorem State.onTim_mono (s : State) (f : Tim → Tim) : (s.onTim f).mono = s.mono := rfl
@[simp] theorem State.onTim_strap (s : State) (f : Tim → Tim) : (s.onTim f).strap = s.strap := rfl
@[simp] theorem State.onTim_answer (s : State) (f : Tim → Tim) : (s.onTim f).answer = s.answer := rfl
@[simp] theorem State.onTim_latched (s : State) (f : Tim → Tim) : (s.onTim f).latched = s.latched := rfl
@[simp] theorem State.onTim_events (s : State) (f : Tim → Tim) : (s.onTim f).events = s.events := rfl
@[simp] theorem State.onTim_heldAon (s : State) (f : Tim → Tim) : (s.onTim f).heldAon = s.heldAon := rfl
@[simp] theorem State.onTim_heldCanary (s : State) (f : Tim → Tim) : (s.onTim f).heldCanary = s.heldCanary := rfl
@[simp] theorem State.onTim_cfg (s : State) (f : Tim → Tim) : (s.onTim f).cfg = s.cfg := rfl
@[simp] theorem State.onTim_pwr (s : State) (f : Tim → Tim) : (s.onTim f).pwr = s.pwr := rfl
@[simp] theorem State.onTim_saf (s : State) (f : Tim → Tim) : (s.onTim f).saf = s.saf := rfl
@[simp] theorem State.onTim_rol (s : State) (f : Tim → Tim) : (s.onTim f).rol = s.rol := rfl
@[simp] theorem State.onTim_nvs (s : State) (f : Tim → Tim) : (s.onTim f).nvs = s.nvs := rfl
@[simp] theorem State.onTim_hst (s : State) (f : Tim → Tim) : (s.onTim f).hst = s.hst := rfl
@[simp] theorem State.onTim_i2c (s : State) (f : Tim → Tim) : (s.onTim f).i2c = s.i2c := rfl
@[simp] theorem State.onTim_lnk (s : State) (f : Tim → Tim) : (s.onTim f).lnk = s.lnk := rfl
@[simp] theorem State.onTim_chn (s : State) (f : Tim → Tim) : (s.onTim f).chn = s.chn := rfl
@[simp] theorem State.onTim_cad (s : State) (f : Tim → Tim) : (s.onTim f).cad = s.cad := rfl
@[simp] theorem State.onTim_arr (s : State) (f : Tim → Tim) : (s.onTim f).arr = s.arr := rfl
@[simp] theorem State.onTim_cnv (s : State) (f : Tim → Tim) : (s.onTim f).cnv = s.cnv := rfl
@[simp] theorem State.onTim_mon (s : State) (f : Tim → Tim) : (s.onTim f).mon = s.mon := rfl
@[simp] theorem State.onTim_eng (s : State) (f : Tim → Tim) : (s.onTim f).eng = s.eng := rfl
@[simp] theorem State.onTim_spot (s : State) (f : Tim → Tim) : (s.onTim f).spot = s.spot := rfl
@[simp] theorem State.onTim_pipe (s : State) (f : Tim → Tim) : (s.onTim f).pipe = s.pipe := rfl
@[simp] theorem State.onLnk_get (s : State) (f : Lnk → Lnk) (g : Field) : (s.onLnk f).get g = s.get g := rfl
@[simp] theorem State.onLnk_lnk (s : State) (f : Lnk → Lnk) : (s.onLnk f).lnk = f s.lnk := rfl
@[simp] theorem State.onLnk_pending (s : State) (f : Lnk → Lnk) : (s.onLnk f).pending = s.pending := rfl
@[simp] theorem State.onLnk_regs (s : State) (f : Lnk → Lnk) : (s.onLnk f).regs = s.regs := rfl
@[simp] theorem State.onLnk_fwc (s : State) (f : Lnk → Lnk) : (s.onLnk f).fwc = s.fwc := rfl
@[simp] theorem State.onLnk_freeIx (s : State) (f : Lnk → Lnk) : (s.onLnk f).freeIx = s.freeIx := rfl
@[simp] theorem State.onLnk_serial (s : State) (f : Lnk → Lnk) : (s.onLnk f).serial = s.serial := rfl
@[simp] theorem State.onLnk_mono (s : State) (f : Lnk → Lnk) : (s.onLnk f).mono = s.mono := rfl
@[simp] theorem State.onLnk_strap (s : State) (f : Lnk → Lnk) : (s.onLnk f).strap = s.strap := rfl
@[simp] theorem State.onLnk_answer (s : State) (f : Lnk → Lnk) : (s.onLnk f).answer = s.answer := rfl
@[simp] theorem State.onLnk_latched (s : State) (f : Lnk → Lnk) : (s.onLnk f).latched = s.latched := rfl
@[simp] theorem State.onLnk_events (s : State) (f : Lnk → Lnk) : (s.onLnk f).events = s.events := rfl
@[simp] theorem State.onLnk_heldAon (s : State) (f : Lnk → Lnk) : (s.onLnk f).heldAon = s.heldAon := rfl
@[simp] theorem State.onLnk_heldCanary (s : State) (f : Lnk → Lnk) : (s.onLnk f).heldCanary = s.heldCanary := rfl
@[simp] theorem State.onLnk_cfg (s : State) (f : Lnk → Lnk) : (s.onLnk f).cfg = s.cfg := rfl
@[simp] theorem State.onLnk_pwr (s : State) (f : Lnk → Lnk) : (s.onLnk f).pwr = s.pwr := rfl
@[simp] theorem State.onLnk_saf (s : State) (f : Lnk → Lnk) : (s.onLnk f).saf = s.saf := rfl
@[simp] theorem State.onLnk_rol (s : State) (f : Lnk → Lnk) : (s.onLnk f).rol = s.rol := rfl
@[simp] theorem State.onLnk_nvs (s : State) (f : Lnk → Lnk) : (s.onLnk f).nvs = s.nvs := rfl
@[simp] theorem State.onLnk_hst (s : State) (f : Lnk → Lnk) : (s.onLnk f).hst = s.hst := rfl
@[simp] theorem State.onLnk_i2c (s : State) (f : Lnk → Lnk) : (s.onLnk f).i2c = s.i2c := rfl
@[simp] theorem State.onLnk_tim (s : State) (f : Lnk → Lnk) : (s.onLnk f).tim = s.tim := rfl
@[simp] theorem State.onLnk_chn (s : State) (f : Lnk → Lnk) : (s.onLnk f).chn = s.chn := rfl
@[simp] theorem State.onLnk_cad (s : State) (f : Lnk → Lnk) : (s.onLnk f).cad = s.cad := rfl
@[simp] theorem State.onLnk_arr (s : State) (f : Lnk → Lnk) : (s.onLnk f).arr = s.arr := rfl
@[simp] theorem State.onLnk_cnv (s : State) (f : Lnk → Lnk) : (s.onLnk f).cnv = s.cnv := rfl
@[simp] theorem State.onLnk_mon (s : State) (f : Lnk → Lnk) : (s.onLnk f).mon = s.mon := rfl
@[simp] theorem State.onLnk_eng (s : State) (f : Lnk → Lnk) : (s.onLnk f).eng = s.eng := rfl
@[simp] theorem State.onLnk_spot (s : State) (f : Lnk → Lnk) : (s.onLnk f).spot = s.spot := rfl
@[simp] theorem State.onLnk_pipe (s : State) (f : Lnk → Lnk) : (s.onLnk f).pipe = s.pipe := rfl
@[simp] theorem State.onChn_get (s : State) (f : Chn → Chn) (g : Field) : (s.onChn f).get g = s.get g := rfl
@[simp] theorem State.onChn_chn (s : State) (f : Chn → Chn) : (s.onChn f).chn = f s.chn := rfl
@[simp] theorem State.onChn_pending (s : State) (f : Chn → Chn) : (s.onChn f).pending = s.pending := rfl
@[simp] theorem State.onChn_regs (s : State) (f : Chn → Chn) : (s.onChn f).regs = s.regs := rfl
@[simp] theorem State.onChn_fwc (s : State) (f : Chn → Chn) : (s.onChn f).fwc = s.fwc := rfl
@[simp] theorem State.onChn_freeIx (s : State) (f : Chn → Chn) : (s.onChn f).freeIx = s.freeIx := rfl
@[simp] theorem State.onChn_serial (s : State) (f : Chn → Chn) : (s.onChn f).serial = s.serial := rfl
@[simp] theorem State.onChn_mono (s : State) (f : Chn → Chn) : (s.onChn f).mono = s.mono := rfl
@[simp] theorem State.onChn_strap (s : State) (f : Chn → Chn) : (s.onChn f).strap = s.strap := rfl
@[simp] theorem State.onChn_answer (s : State) (f : Chn → Chn) : (s.onChn f).answer = s.answer := rfl
@[simp] theorem State.onChn_latched (s : State) (f : Chn → Chn) : (s.onChn f).latched = s.latched := rfl
@[simp] theorem State.onChn_events (s : State) (f : Chn → Chn) : (s.onChn f).events = s.events := rfl
@[simp] theorem State.onChn_heldAon (s : State) (f : Chn → Chn) : (s.onChn f).heldAon = s.heldAon := rfl
@[simp] theorem State.onChn_heldCanary (s : State) (f : Chn → Chn) : (s.onChn f).heldCanary = s.heldCanary := rfl
@[simp] theorem State.onChn_cfg (s : State) (f : Chn → Chn) : (s.onChn f).cfg = s.cfg := rfl
@[simp] theorem State.onChn_pwr (s : State) (f : Chn → Chn) : (s.onChn f).pwr = s.pwr := rfl
@[simp] theorem State.onChn_saf (s : State) (f : Chn → Chn) : (s.onChn f).saf = s.saf := rfl
@[simp] theorem State.onChn_rol (s : State) (f : Chn → Chn) : (s.onChn f).rol = s.rol := rfl
@[simp] theorem State.onChn_nvs (s : State) (f : Chn → Chn) : (s.onChn f).nvs = s.nvs := rfl
@[simp] theorem State.onChn_hst (s : State) (f : Chn → Chn) : (s.onChn f).hst = s.hst := rfl
@[simp] theorem State.onChn_i2c (s : State) (f : Chn → Chn) : (s.onChn f).i2c = s.i2c := rfl
@[simp] theorem State.onChn_tim (s : State) (f : Chn → Chn) : (s.onChn f).tim = s.tim := rfl
@[simp] theorem State.onChn_lnk (s : State) (f : Chn → Chn) : (s.onChn f).lnk = s.lnk := rfl
@[simp] theorem State.onChn_cad (s : State) (f : Chn → Chn) : (s.onChn f).cad = s.cad := rfl
@[simp] theorem State.onChn_arr (s : State) (f : Chn → Chn) : (s.onChn f).arr = s.arr := rfl
@[simp] theorem State.onChn_cnv (s : State) (f : Chn → Chn) : (s.onChn f).cnv = s.cnv := rfl
@[simp] theorem State.onChn_mon (s : State) (f : Chn → Chn) : (s.onChn f).mon = s.mon := rfl
@[simp] theorem State.onChn_eng (s : State) (f : Chn → Chn) : (s.onChn f).eng = s.eng := rfl
@[simp] theorem State.onChn_spot (s : State) (f : Chn → Chn) : (s.onChn f).spot = s.spot := rfl
@[simp] theorem State.onChn_pipe (s : State) (f : Chn → Chn) : (s.onChn f).pipe = s.pipe := rfl
@[simp] theorem State.onCad_get (s : State) (f : Cad → Cad) (g : Field) : (s.onCad f).get g = s.get g := rfl
@[simp] theorem State.onCad_cad (s : State) (f : Cad → Cad) : (s.onCad f).cad = f s.cad := rfl
@[simp] theorem State.onCad_pending (s : State) (f : Cad → Cad) : (s.onCad f).pending = s.pending := rfl
@[simp] theorem State.onCad_regs (s : State) (f : Cad → Cad) : (s.onCad f).regs = s.regs := rfl
@[simp] theorem State.onCad_fwc (s : State) (f : Cad → Cad) : (s.onCad f).fwc = s.fwc := rfl
@[simp] theorem State.onCad_freeIx (s : State) (f : Cad → Cad) : (s.onCad f).freeIx = s.freeIx := rfl
@[simp] theorem State.onCad_serial (s : State) (f : Cad → Cad) : (s.onCad f).serial = s.serial := rfl
@[simp] theorem State.onCad_mono (s : State) (f : Cad → Cad) : (s.onCad f).mono = s.mono := rfl
@[simp] theorem State.onCad_strap (s : State) (f : Cad → Cad) : (s.onCad f).strap = s.strap := rfl
@[simp] theorem State.onCad_answer (s : State) (f : Cad → Cad) : (s.onCad f).answer = s.answer := rfl
@[simp] theorem State.onCad_latched (s : State) (f : Cad → Cad) : (s.onCad f).latched = s.latched := rfl
@[simp] theorem State.onCad_events (s : State) (f : Cad → Cad) : (s.onCad f).events = s.events := rfl
@[simp] theorem State.onCad_heldAon (s : State) (f : Cad → Cad) : (s.onCad f).heldAon = s.heldAon := rfl
@[simp] theorem State.onCad_heldCanary (s : State) (f : Cad → Cad) : (s.onCad f).heldCanary = s.heldCanary := rfl
@[simp] theorem State.onCad_cfg (s : State) (f : Cad → Cad) : (s.onCad f).cfg = s.cfg := rfl
@[simp] theorem State.onCad_pwr (s : State) (f : Cad → Cad) : (s.onCad f).pwr = s.pwr := rfl
@[simp] theorem State.onCad_saf (s : State) (f : Cad → Cad) : (s.onCad f).saf = s.saf := rfl
@[simp] theorem State.onCad_rol (s : State) (f : Cad → Cad) : (s.onCad f).rol = s.rol := rfl
@[simp] theorem State.onCad_nvs (s : State) (f : Cad → Cad) : (s.onCad f).nvs = s.nvs := rfl
@[simp] theorem State.onCad_hst (s : State) (f : Cad → Cad) : (s.onCad f).hst = s.hst := rfl
@[simp] theorem State.onCad_i2c (s : State) (f : Cad → Cad) : (s.onCad f).i2c = s.i2c := rfl
@[simp] theorem State.onCad_tim (s : State) (f : Cad → Cad) : (s.onCad f).tim = s.tim := rfl
@[simp] theorem State.onCad_lnk (s : State) (f : Cad → Cad) : (s.onCad f).lnk = s.lnk := rfl
@[simp] theorem State.onCad_chn (s : State) (f : Cad → Cad) : (s.onCad f).chn = s.chn := rfl
@[simp] theorem State.onCad_arr (s : State) (f : Cad → Cad) : (s.onCad f).arr = s.arr := rfl
@[simp] theorem State.onCad_cnv (s : State) (f : Cad → Cad) : (s.onCad f).cnv = s.cnv := rfl
@[simp] theorem State.onCad_mon (s : State) (f : Cad → Cad) : (s.onCad f).mon = s.mon := rfl
@[simp] theorem State.onCad_eng (s : State) (f : Cad → Cad) : (s.onCad f).eng = s.eng := rfl
@[simp] theorem State.onCad_spot (s : State) (f : Cad → Cad) : (s.onCad f).spot = s.spot := rfl
@[simp] theorem State.onCad_pipe (s : State) (f : Cad → Cad) : (s.onCad f).pipe = s.pipe := rfl
@[simp] theorem State.onArr_get (s : State) (f : Arr → Arr) (g : Field) : (s.onArr f).get g = s.get g := rfl
@[simp] theorem State.onArr_arr (s : State) (f : Arr → Arr) : (s.onArr f).arr = f s.arr := rfl
@[simp] theorem State.onArr_pending (s : State) (f : Arr → Arr) : (s.onArr f).pending = s.pending := rfl
@[simp] theorem State.onArr_regs (s : State) (f : Arr → Arr) : (s.onArr f).regs = s.regs := rfl
@[simp] theorem State.onArr_fwc (s : State) (f : Arr → Arr) : (s.onArr f).fwc = s.fwc := rfl
@[simp] theorem State.onArr_freeIx (s : State) (f : Arr → Arr) : (s.onArr f).freeIx = s.freeIx := rfl
@[simp] theorem State.onArr_serial (s : State) (f : Arr → Arr) : (s.onArr f).serial = s.serial := rfl
@[simp] theorem State.onArr_mono (s : State) (f : Arr → Arr) : (s.onArr f).mono = s.mono := rfl
@[simp] theorem State.onArr_strap (s : State) (f : Arr → Arr) : (s.onArr f).strap = s.strap := rfl
@[simp] theorem State.onArr_answer (s : State) (f : Arr → Arr) : (s.onArr f).answer = s.answer := rfl
@[simp] theorem State.onArr_latched (s : State) (f : Arr → Arr) : (s.onArr f).latched = s.latched := rfl
@[simp] theorem State.onArr_events (s : State) (f : Arr → Arr) : (s.onArr f).events = s.events := rfl
@[simp] theorem State.onArr_heldAon (s : State) (f : Arr → Arr) : (s.onArr f).heldAon = s.heldAon := rfl
@[simp] theorem State.onArr_heldCanary (s : State) (f : Arr → Arr) : (s.onArr f).heldCanary = s.heldCanary := rfl
@[simp] theorem State.onArr_cfg (s : State) (f : Arr → Arr) : (s.onArr f).cfg = s.cfg := rfl
@[simp] theorem State.onArr_pwr (s : State) (f : Arr → Arr) : (s.onArr f).pwr = s.pwr := rfl
@[simp] theorem State.onArr_saf (s : State) (f : Arr → Arr) : (s.onArr f).saf = s.saf := rfl
@[simp] theorem State.onArr_rol (s : State) (f : Arr → Arr) : (s.onArr f).rol = s.rol := rfl
@[simp] theorem State.onArr_nvs (s : State) (f : Arr → Arr) : (s.onArr f).nvs = s.nvs := rfl
@[simp] theorem State.onArr_hst (s : State) (f : Arr → Arr) : (s.onArr f).hst = s.hst := rfl
@[simp] theorem State.onArr_i2c (s : State) (f : Arr → Arr) : (s.onArr f).i2c = s.i2c := rfl
@[simp] theorem State.onArr_tim (s : State) (f : Arr → Arr) : (s.onArr f).tim = s.tim := rfl
@[simp] theorem State.onArr_lnk (s : State) (f : Arr → Arr) : (s.onArr f).lnk = s.lnk := rfl
@[simp] theorem State.onArr_chn (s : State) (f : Arr → Arr) : (s.onArr f).chn = s.chn := rfl
@[simp] theorem State.onArr_cad (s : State) (f : Arr → Arr) : (s.onArr f).cad = s.cad := rfl
@[simp] theorem State.onArr_cnv (s : State) (f : Arr → Arr) : (s.onArr f).cnv = s.cnv := rfl
@[simp] theorem State.onArr_mon (s : State) (f : Arr → Arr) : (s.onArr f).mon = s.mon := rfl
@[simp] theorem State.onArr_eng (s : State) (f : Arr → Arr) : (s.onArr f).eng = s.eng := rfl
@[simp] theorem State.onArr_spot (s : State) (f : Arr → Arr) : (s.onArr f).spot = s.spot := rfl
@[simp] theorem State.onArr_pipe (s : State) (f : Arr → Arr) : (s.onArr f).pipe = s.pipe := rfl
@[simp] theorem State.onCnv_get (s : State) (f : Cnv → Cnv) (g : Field) : (s.onCnv f).get g = s.get g := rfl
@[simp] theorem State.onCnv_cnv (s : State) (f : Cnv → Cnv) : (s.onCnv f).cnv = f s.cnv := rfl
@[simp] theorem State.onCnv_pending (s : State) (f : Cnv → Cnv) : (s.onCnv f).pending = s.pending := rfl
@[simp] theorem State.onCnv_regs (s : State) (f : Cnv → Cnv) : (s.onCnv f).regs = s.regs := rfl
@[simp] theorem State.onCnv_fwc (s : State) (f : Cnv → Cnv) : (s.onCnv f).fwc = s.fwc := rfl
@[simp] theorem State.onCnv_freeIx (s : State) (f : Cnv → Cnv) : (s.onCnv f).freeIx = s.freeIx := rfl
@[simp] theorem State.onCnv_serial (s : State) (f : Cnv → Cnv) : (s.onCnv f).serial = s.serial := rfl
@[simp] theorem State.onCnv_mono (s : State) (f : Cnv → Cnv) : (s.onCnv f).mono = s.mono := rfl
@[simp] theorem State.onCnv_strap (s : State) (f : Cnv → Cnv) : (s.onCnv f).strap = s.strap := rfl
@[simp] theorem State.onCnv_answer (s : State) (f : Cnv → Cnv) : (s.onCnv f).answer = s.answer := rfl
@[simp] theorem State.onCnv_latched (s : State) (f : Cnv → Cnv) : (s.onCnv f).latched = s.latched := rfl
@[simp] theorem State.onCnv_events (s : State) (f : Cnv → Cnv) : (s.onCnv f).events = s.events := rfl
@[simp] theorem State.onCnv_heldAon (s : State) (f : Cnv → Cnv) : (s.onCnv f).heldAon = s.heldAon := rfl
@[simp] theorem State.onCnv_heldCanary (s : State) (f : Cnv → Cnv) : (s.onCnv f).heldCanary = s.heldCanary := rfl
@[simp] theorem State.onCnv_cfg (s : State) (f : Cnv → Cnv) : (s.onCnv f).cfg = s.cfg := rfl
@[simp] theorem State.onCnv_pwr (s : State) (f : Cnv → Cnv) : (s.onCnv f).pwr = s.pwr := rfl
@[simp] theorem State.onCnv_saf (s : State) (f : Cnv → Cnv) : (s.onCnv f).saf = s.saf := rfl
@[simp] theorem State.onCnv_rol (s : State) (f : Cnv → Cnv) : (s.onCnv f).rol = s.rol := rfl
@[simp] theorem State.onCnv_nvs (s : State) (f : Cnv → Cnv) : (s.onCnv f).nvs = s.nvs := rfl
@[simp] theorem State.onCnv_hst (s : State) (f : Cnv → Cnv) : (s.onCnv f).hst = s.hst := rfl
@[simp] theorem State.onCnv_i2c (s : State) (f : Cnv → Cnv) : (s.onCnv f).i2c = s.i2c := rfl
@[simp] theorem State.onCnv_tim (s : State) (f : Cnv → Cnv) : (s.onCnv f).tim = s.tim := rfl
@[simp] theorem State.onCnv_lnk (s : State) (f : Cnv → Cnv) : (s.onCnv f).lnk = s.lnk := rfl
@[simp] theorem State.onCnv_chn (s : State) (f : Cnv → Cnv) : (s.onCnv f).chn = s.chn := rfl
@[simp] theorem State.onCnv_cad (s : State) (f : Cnv → Cnv) : (s.onCnv f).cad = s.cad := rfl
@[simp] theorem State.onCnv_arr (s : State) (f : Cnv → Cnv) : (s.onCnv f).arr = s.arr := rfl
@[simp] theorem State.onCnv_mon (s : State) (f : Cnv → Cnv) : (s.onCnv f).mon = s.mon := rfl
@[simp] theorem State.onCnv_eng (s : State) (f : Cnv → Cnv) : (s.onCnv f).eng = s.eng := rfl
@[simp] theorem State.onCnv_spot (s : State) (f : Cnv → Cnv) : (s.onCnv f).spot = s.spot := rfl
@[simp] theorem State.onCnv_pipe (s : State) (f : Cnv → Cnv) : (s.onCnv f).pipe = s.pipe := rfl
@[simp] theorem State.onMon_get (s : State) (f : Mon → Mon) (g : Field) : (s.onMon f).get g = s.get g := rfl
@[simp] theorem State.onMon_mon (s : State) (f : Mon → Mon) : (s.onMon f).mon = f s.mon := rfl
@[simp] theorem State.onMon_pending (s : State) (f : Mon → Mon) : (s.onMon f).pending = s.pending := rfl
@[simp] theorem State.onMon_regs (s : State) (f : Mon → Mon) : (s.onMon f).regs = s.regs := rfl
@[simp] theorem State.onMon_fwc (s : State) (f : Mon → Mon) : (s.onMon f).fwc = s.fwc := rfl
@[simp] theorem State.onMon_freeIx (s : State) (f : Mon → Mon) : (s.onMon f).freeIx = s.freeIx := rfl
@[simp] theorem State.onMon_serial (s : State) (f : Mon → Mon) : (s.onMon f).serial = s.serial := rfl
@[simp] theorem State.onMon_mono (s : State) (f : Mon → Mon) : (s.onMon f).mono = s.mono := rfl
@[simp] theorem State.onMon_strap (s : State) (f : Mon → Mon) : (s.onMon f).strap = s.strap := rfl
@[simp] theorem State.onMon_answer (s : State) (f : Mon → Mon) : (s.onMon f).answer = s.answer := rfl
@[simp] theorem State.onMon_latched (s : State) (f : Mon → Mon) : (s.onMon f).latched = s.latched := rfl
@[simp] theorem State.onMon_events (s : State) (f : Mon → Mon) : (s.onMon f).events = s.events := rfl
@[simp] theorem State.onMon_heldAon (s : State) (f : Mon → Mon) : (s.onMon f).heldAon = s.heldAon := rfl
@[simp] theorem State.onMon_heldCanary (s : State) (f : Mon → Mon) : (s.onMon f).heldCanary = s.heldCanary := rfl
@[simp] theorem State.onMon_cfg (s : State) (f : Mon → Mon) : (s.onMon f).cfg = s.cfg := rfl
@[simp] theorem State.onMon_pwr (s : State) (f : Mon → Mon) : (s.onMon f).pwr = s.pwr := rfl
@[simp] theorem State.onMon_saf (s : State) (f : Mon → Mon) : (s.onMon f).saf = s.saf := rfl
@[simp] theorem State.onMon_rol (s : State) (f : Mon → Mon) : (s.onMon f).rol = s.rol := rfl
@[simp] theorem State.onMon_nvs (s : State) (f : Mon → Mon) : (s.onMon f).nvs = s.nvs := rfl
@[simp] theorem State.onMon_hst (s : State) (f : Mon → Mon) : (s.onMon f).hst = s.hst := rfl
@[simp] theorem State.onMon_i2c (s : State) (f : Mon → Mon) : (s.onMon f).i2c = s.i2c := rfl
@[simp] theorem State.onMon_tim (s : State) (f : Mon → Mon) : (s.onMon f).tim = s.tim := rfl
@[simp] theorem State.onMon_lnk (s : State) (f : Mon → Mon) : (s.onMon f).lnk = s.lnk := rfl
@[simp] theorem State.onMon_chn (s : State) (f : Mon → Mon) : (s.onMon f).chn = s.chn := rfl
@[simp] theorem State.onMon_cad (s : State) (f : Mon → Mon) : (s.onMon f).cad = s.cad := rfl
@[simp] theorem State.onMon_arr (s : State) (f : Mon → Mon) : (s.onMon f).arr = s.arr := rfl
@[simp] theorem State.onMon_cnv (s : State) (f : Mon → Mon) : (s.onMon f).cnv = s.cnv := rfl
@[simp] theorem State.onMon_eng (s : State) (f : Mon → Mon) : (s.onMon f).eng = s.eng := rfl
@[simp] theorem State.onMon_spot (s : State) (f : Mon → Mon) : (s.onMon f).spot = s.spot := rfl
@[simp] theorem State.onMon_pipe (s : State) (f : Mon → Mon) : (s.onMon f).pipe = s.pipe := rfl
@[simp] theorem State.onEng_get (s : State) (f : Engs → Engs) (g : Field) : (s.onEng f).get g = s.get g := rfl
@[simp] theorem State.onEng_eng (s : State) (f : Engs → Engs) : (s.onEng f).eng = f s.eng := rfl
@[simp] theorem State.onEng_pending (s : State) (f : Engs → Engs) : (s.onEng f).pending = s.pending := rfl
@[simp] theorem State.onEng_regs (s : State) (f : Engs → Engs) : (s.onEng f).regs = s.regs := rfl
@[simp] theorem State.onEng_fwc (s : State) (f : Engs → Engs) : (s.onEng f).fwc = s.fwc := rfl
@[simp] theorem State.onEng_freeIx (s : State) (f : Engs → Engs) : (s.onEng f).freeIx = s.freeIx := rfl
@[simp] theorem State.onEng_serial (s : State) (f : Engs → Engs) : (s.onEng f).serial = s.serial := rfl
@[simp] theorem State.onEng_mono (s : State) (f : Engs → Engs) : (s.onEng f).mono = s.mono := rfl
@[simp] theorem State.onEng_strap (s : State) (f : Engs → Engs) : (s.onEng f).strap = s.strap := rfl
@[simp] theorem State.onEng_answer (s : State) (f : Engs → Engs) : (s.onEng f).answer = s.answer := rfl
@[simp] theorem State.onEng_latched (s : State) (f : Engs → Engs) : (s.onEng f).latched = s.latched := rfl
@[simp] theorem State.onEng_events (s : State) (f : Engs → Engs) : (s.onEng f).events = s.events := rfl
@[simp] theorem State.onEng_heldAon (s : State) (f : Engs → Engs) : (s.onEng f).heldAon = s.heldAon := rfl
@[simp] theorem State.onEng_heldCanary (s : State) (f : Engs → Engs) : (s.onEng f).heldCanary = s.heldCanary := rfl
@[simp] theorem State.onEng_cfg (s : State) (f : Engs → Engs) : (s.onEng f).cfg = s.cfg := rfl
@[simp] theorem State.onEng_pwr (s : State) (f : Engs → Engs) : (s.onEng f).pwr = s.pwr := rfl
@[simp] theorem State.onEng_saf (s : State) (f : Engs → Engs) : (s.onEng f).saf = s.saf := rfl
@[simp] theorem State.onEng_rol (s : State) (f : Engs → Engs) : (s.onEng f).rol = s.rol := rfl
@[simp] theorem State.onEng_nvs (s : State) (f : Engs → Engs) : (s.onEng f).nvs = s.nvs := rfl
@[simp] theorem State.onEng_hst (s : State) (f : Engs → Engs) : (s.onEng f).hst = s.hst := rfl
@[simp] theorem State.onEng_i2c (s : State) (f : Engs → Engs) : (s.onEng f).i2c = s.i2c := rfl
@[simp] theorem State.onEng_tim (s : State) (f : Engs → Engs) : (s.onEng f).tim = s.tim := rfl
@[simp] theorem State.onEng_lnk (s : State) (f : Engs → Engs) : (s.onEng f).lnk = s.lnk := rfl
@[simp] theorem State.onEng_chn (s : State) (f : Engs → Engs) : (s.onEng f).chn = s.chn := rfl
@[simp] theorem State.onEng_cad (s : State) (f : Engs → Engs) : (s.onEng f).cad = s.cad := rfl
@[simp] theorem State.onEng_arr (s : State) (f : Engs → Engs) : (s.onEng f).arr = s.arr := rfl
@[simp] theorem State.onEng_cnv (s : State) (f : Engs → Engs) : (s.onEng f).cnv = s.cnv := rfl
@[simp] theorem State.onEng_mon (s : State) (f : Engs → Engs) : (s.onEng f).mon = s.mon := rfl
@[simp] theorem State.onEng_spot (s : State) (f : Engs → Engs) : (s.onEng f).spot = s.spot := rfl
@[simp] theorem State.onEng_pipe (s : State) (f : Engs → Engs) : (s.onEng f).pipe = s.pipe := rfl
@[simp] theorem State.onSpot_get (s : State) (f : Spot → Spot) (g : Field) : (s.onSpot f).get g = s.get g := rfl
@[simp] theorem State.onSpot_spot (s : State) (f : Spot → Spot) : (s.onSpot f).spot = f s.spot := rfl
@[simp] theorem State.onSpot_pending (s : State) (f : Spot → Spot) : (s.onSpot f).pending = s.pending := rfl
@[simp] theorem State.onSpot_regs (s : State) (f : Spot → Spot) : (s.onSpot f).regs = s.regs := rfl
@[simp] theorem State.onSpot_fwc (s : State) (f : Spot → Spot) : (s.onSpot f).fwc = s.fwc := rfl
@[simp] theorem State.onSpot_freeIx (s : State) (f : Spot → Spot) : (s.onSpot f).freeIx = s.freeIx := rfl
@[simp] theorem State.onSpot_serial (s : State) (f : Spot → Spot) : (s.onSpot f).serial = s.serial := rfl
@[simp] theorem State.onSpot_mono (s : State) (f : Spot → Spot) : (s.onSpot f).mono = s.mono := rfl
@[simp] theorem State.onSpot_strap (s : State) (f : Spot → Spot) : (s.onSpot f).strap = s.strap := rfl
@[simp] theorem State.onSpot_answer (s : State) (f : Spot → Spot) : (s.onSpot f).answer = s.answer := rfl
@[simp] theorem State.onSpot_latched (s : State) (f : Spot → Spot) : (s.onSpot f).latched = s.latched := rfl
@[simp] theorem State.onSpot_events (s : State) (f : Spot → Spot) : (s.onSpot f).events = s.events := rfl
@[simp] theorem State.onSpot_heldAon (s : State) (f : Spot → Spot) : (s.onSpot f).heldAon = s.heldAon := rfl
@[simp] theorem State.onSpot_heldCanary (s : State) (f : Spot → Spot) : (s.onSpot f).heldCanary = s.heldCanary := rfl
@[simp] theorem State.onSpot_cfg (s : State) (f : Spot → Spot) : (s.onSpot f).cfg = s.cfg := rfl
@[simp] theorem State.onSpot_pwr (s : State) (f : Spot → Spot) : (s.onSpot f).pwr = s.pwr := rfl
@[simp] theorem State.onSpot_saf (s : State) (f : Spot → Spot) : (s.onSpot f).saf = s.saf := rfl
@[simp] theorem State.onSpot_rol (s : State) (f : Spot → Spot) : (s.onSpot f).rol = s.rol := rfl
@[simp] theorem State.onSpot_nvs (s : State) (f : Spot → Spot) : (s.onSpot f).nvs = s.nvs := rfl
@[simp] theorem State.onSpot_hst (s : State) (f : Spot → Spot) : (s.onSpot f).hst = s.hst := rfl
@[simp] theorem State.onSpot_i2c (s : State) (f : Spot → Spot) : (s.onSpot f).i2c = s.i2c := rfl
@[simp] theorem State.onSpot_tim (s : State) (f : Spot → Spot) : (s.onSpot f).tim = s.tim := rfl
@[simp] theorem State.onSpot_lnk (s : State) (f : Spot → Spot) : (s.onSpot f).lnk = s.lnk := rfl
@[simp] theorem State.onSpot_chn (s : State) (f : Spot → Spot) : (s.onSpot f).chn = s.chn := rfl
@[simp] theorem State.onSpot_cad (s : State) (f : Spot → Spot) : (s.onSpot f).cad = s.cad := rfl
@[simp] theorem State.onSpot_arr (s : State) (f : Spot → Spot) : (s.onSpot f).arr = s.arr := rfl
@[simp] theorem State.onSpot_cnv (s : State) (f : Spot → Spot) : (s.onSpot f).cnv = s.cnv := rfl
@[simp] theorem State.onSpot_mon (s : State) (f : Spot → Spot) : (s.onSpot f).mon = s.mon := rfl
@[simp] theorem State.onSpot_eng (s : State) (f : Spot → Spot) : (s.onSpot f).eng = s.eng := rfl
@[simp] theorem State.onSpot_pipe (s : State) (f : Spot → Spot) : (s.onSpot f).pipe = s.pipe := rfl
@[simp] theorem State.onPipe_get (s : State) (f : Pipe → Pipe) (g : Field) : (s.onPipe f).get g = s.get g := rfl
@[simp] theorem State.onPipe_pipe (s : State) (f : Pipe → Pipe) : (s.onPipe f).pipe = f s.pipe := rfl
@[simp] theorem State.onPipe_pending (s : State) (f : Pipe → Pipe) : (s.onPipe f).pending = s.pending := rfl
@[simp] theorem State.onPipe_regs (s : State) (f : Pipe → Pipe) : (s.onPipe f).regs = s.regs := rfl
@[simp] theorem State.onPipe_fwc (s : State) (f : Pipe → Pipe) : (s.onPipe f).fwc = s.fwc := rfl
@[simp] theorem State.onPipe_freeIx (s : State) (f : Pipe → Pipe) : (s.onPipe f).freeIx = s.freeIx := rfl
@[simp] theorem State.onPipe_serial (s : State) (f : Pipe → Pipe) : (s.onPipe f).serial = s.serial := rfl
@[simp] theorem State.onPipe_mono (s : State) (f : Pipe → Pipe) : (s.onPipe f).mono = s.mono := rfl
@[simp] theorem State.onPipe_strap (s : State) (f : Pipe → Pipe) : (s.onPipe f).strap = s.strap := rfl
@[simp] theorem State.onPipe_answer (s : State) (f : Pipe → Pipe) : (s.onPipe f).answer = s.answer := rfl
@[simp] theorem State.onPipe_latched (s : State) (f : Pipe → Pipe) : (s.onPipe f).latched = s.latched := rfl
@[simp] theorem State.onPipe_events (s : State) (f : Pipe → Pipe) : (s.onPipe f).events = s.events := rfl
@[simp] theorem State.onPipe_heldAon (s : State) (f : Pipe → Pipe) : (s.onPipe f).heldAon = s.heldAon := rfl
@[simp] theorem State.onPipe_heldCanary (s : State) (f : Pipe → Pipe) : (s.onPipe f).heldCanary = s.heldCanary := rfl
@[simp] theorem State.onPipe_cfg (s : State) (f : Pipe → Pipe) : (s.onPipe f).cfg = s.cfg := rfl
@[simp] theorem State.onPipe_pwr (s : State) (f : Pipe → Pipe) : (s.onPipe f).pwr = s.pwr := rfl
@[simp] theorem State.onPipe_saf (s : State) (f : Pipe → Pipe) : (s.onPipe f).saf = s.saf := rfl
@[simp] theorem State.onPipe_rol (s : State) (f : Pipe → Pipe) : (s.onPipe f).rol = s.rol := rfl
@[simp] theorem State.onPipe_nvs (s : State) (f : Pipe → Pipe) : (s.onPipe f).nvs = s.nvs := rfl
@[simp] theorem State.onPipe_hst (s : State) (f : Pipe → Pipe) : (s.onPipe f).hst = s.hst := rfl
@[simp] theorem State.onPipe_i2c (s : State) (f : Pipe → Pipe) : (s.onPipe f).i2c = s.i2c := rfl
@[simp] theorem State.onPipe_tim (s : State) (f : Pipe → Pipe) : (s.onPipe f).tim = s.tim := rfl
@[simp] theorem State.onPipe_lnk (s : State) (f : Pipe → Pipe) : (s.onPipe f).lnk = s.lnk := rfl
@[simp] theorem State.onPipe_chn (s : State) (f : Pipe → Pipe) : (s.onPipe f).chn = s.chn := rfl
@[simp] theorem State.onPipe_cad (s : State) (f : Pipe → Pipe) : (s.onPipe f).cad = s.cad := rfl
@[simp] theorem State.onPipe_arr (s : State) (f : Pipe → Pipe) : (s.onPipe f).arr = s.arr := rfl
@[simp] theorem State.onPipe_cnv (s : State) (f : Pipe → Pipe) : (s.onPipe f).cnv = s.cnv := rfl
@[simp] theorem State.onPipe_mon (s : State) (f : Pipe → Pipe) : (s.onPipe f).mon = s.mon := rfl
@[simp] theorem State.onPipe_eng (s : State) (f : Pipe → Pipe) : (s.onPipe f).eng = s.eng := rfl
@[simp] theorem State.onPipe_spot (s : State) (f : Pipe → Pipe) : (s.onPipe f).spot = s.spot := rfl

/-! ### Time -/

@[simp] theorem State.advance_get (s : State) (t : Nat) (g : Field) : (s.advance t).get g = s.get g := rfl
@[simp] theorem State.advance_fwc (s : State) (t : Nat) : (s.advance t).fwc = max s.fwc t % 2 ^ 80 := rfl
@[simp] theorem State.advance_pending (s : State) (t : Nat) : (s.advance t).pending = s.pending := rfl
@[simp] theorem State.advance_regs (s : State) (t : Nat) : (s.advance t).regs = s.regs := rfl
@[simp] theorem State.advance_freeIx (s : State) (t : Nat) : (s.advance t).freeIx = s.freeIx := rfl
@[simp] theorem State.advance_serial (s : State) (t : Nat) : (s.advance t).serial = s.serial := rfl
@[simp] theorem State.advance_mono (s : State) (t : Nat) : (s.advance t).mono = s.mono := rfl
@[simp] theorem State.advance_strap (s : State) (t : Nat) : (s.advance t).strap = s.strap := rfl
@[simp] theorem State.advance_answer (s : State) (t : Nat) : (s.advance t).answer = s.answer := rfl
@[simp] theorem State.advance_latched (s : State) (t : Nat) : (s.advance t).latched = s.latched := rfl
@[simp] theorem State.advance_events (s : State) (t : Nat) : (s.advance t).events = s.events := rfl
@[simp] theorem State.advance_heldAon (s : State) (t : Nat) : (s.advance t).heldAon = s.heldAon := rfl
@[simp] theorem State.advance_heldCanary (s : State) (t : Nat) : (s.advance t).heldCanary = s.heldCanary := rfl
@[simp] theorem State.advance_cfg (s : State) (t : Nat) : (s.advance t).cfg = s.cfg := rfl
@[simp] theorem State.advance_pwr (s : State) (t : Nat) : (s.advance t).pwr = s.pwr := rfl
@[simp] theorem State.advance_saf (s : State) (t : Nat) : (s.advance t).saf = s.saf := rfl
@[simp] theorem State.advance_rol (s : State) (t : Nat) : (s.advance t).rol = s.rol := rfl
@[simp] theorem State.advance_nvs (s : State) (t : Nat) : (s.advance t).nvs = s.nvs := rfl
@[simp] theorem State.advance_hst (s : State) (t : Nat) : (s.advance t).hst = s.hst := rfl
@[simp] theorem State.advance_i2c (s : State) (t : Nat) : (s.advance t).i2c = s.i2c := rfl
@[simp] theorem State.advance_tim (s : State) (t : Nat) : (s.advance t).tim = s.tim := rfl
@[simp] theorem State.advance_lnk (s : State) (t : Nat) : (s.advance t).lnk = s.lnk := rfl
@[simp] theorem State.advance_chn (s : State) (t : Nat) : (s.advance t).chn = s.chn := rfl
@[simp] theorem State.advance_cad (s : State) (t : Nat) : (s.advance t).cad = s.cad := rfl
@[simp] theorem State.advance_arr (s : State) (t : Nat) : (s.advance t).arr = s.arr := rfl
@[simp] theorem State.advance_cnv (s : State) (t : Nat) : (s.advance t).cnv = s.cnv := rfl
@[simp] theorem State.advance_mon (s : State) (t : Nat) : (s.advance t).mon = s.mon := rfl
@[simp] theorem State.advance_eng (s : State) (t : Nat) : (s.advance t).eng = s.eng := rfl
@[simp] theorem State.advance_spot (s : State) (t : Nat) : (s.advance t).spot = s.spot := rfl
@[simp] theorem State.advance_pipe (s : State) (t : Nat) : (s.advance t).pipe = s.pipe := rfl

end Sys2Proof.Machine
end

