-- ==== Sys2Proof/Laws/Frames.lean ====
section
/-!
SUPPORT. The laws of frames and of register writes: how the frame predicates compose, everything `raise` can do, and that a register write
that is taken is its effect after its bookkeeping.
-/
namespace Sys2Proof.Machine

theorem SameRegs.refl (fs : List Field) (s : State) : SameRegs fs s s := fun _ _ => rfl

theorem SameRegs.trans {fs : List Field} {s t u : State} (h : SameRegs fs s t) (k : SameRegs fs t u) : SameRegs fs s u :=
  fun g hg => (k g hg).trans (h g hg)

theorem SameRegs.weaken {fs gs : List Field} {s t : State} (h : SameRegs fs s t) (hs : ∀ f ∈ fs, f ∈ gs) : SameRegs gs s t := by
  intro g hg
  refine h g fun hm => hg ?_
  obtain ⟨f, hf, e⟩ := List.mem_map.mp hm
  exact List.mem_map.mpr ⟨f, hs f hf, e⟩

/-- Equal register stores give equal registers. -/
theorem SameRegs.of_regs {fs : List Field} {s t : State} (h : t.regs = s.regs) : SameRegs fs s t :=
  fun g _ => State.get_congr h g

theorem SameRegs.set {fs : List Field} {s t : State} (h : SameRegs fs s t) {f : Field} (v : Nat) (hf : f ∈ fs) :
    SameRegs fs s (t.set f v) := by
  intro g hg
  rw [State.get_set_ne, h g hg]
  intro e
  exact hg (List.mem_map.mpr ⟨f, hf, e⟩)

theorem Only.refl (fs : List Field) (s : State) : Only fs s s := ⟨rfl, .refl fs s⟩

theorem Only.set {fs : List Field} {s t : State} (h : Only fs s t) {f : Field} (v : Nat) (hf : f ∈ fs) :
    Only fs s (t.set f v) := by
  refine ⟨?_, h.2.set v hf⟩
  have e := h.1
  unfold State.set
  conv => lhs; rw [e]

theorem Only.put {fs : List Field} {s t : State} (h : Only fs s t) {f : Field} (b : Bool) (hf : f ∈ fs) :
    Only fs s (t.put f b) := h.set _ hf

theorem Only.bump {fs : List Field} {s t : State} (h : Only fs s t) {f : Field} (n : Nat) (hf : f ∈ fs) :
    Only fs s (t.bump f n) := h.set _ hf

theorem Only.putBit {fs : List Field} {s t : State} (h : Only fs s t) {f : Field} (i : Nat) (b : Bool) (hf : f ∈ fs) :
    Only fs s (t.putBit f i b) := h.set _ hf

/-- Several fields set to 0, as an ERRCLR write does. -/
theorem Only.zeros {gs : List Field} {s : State} (fs : List Field) :
    ∀ t, Only gs s t → (∀ f ∈ fs, f ∈ gs) → Only gs s (t.zeros fs) := by
  induction fs with
  | nil => intro t h _; exact h
  | cons f fs ih =>
    intro t h hs
    exact ih (t.set f 0) (h.set 0 (hs f (List.mem_cons_self ..))) (fun g hg => hs g (List.mem_cons_of_mem _ hg))

/-! ### Events -/

theorem OnlyRaised.refl (s : State) : OnlyRaised s s := ⟨rfl, .refl _ s⟩

theorem OnlyRaised.trans {s t u : State} (h : OnlyRaised s t) (k : OnlyRaised t u) : OnlyRaised s u := by
  refine ⟨?_, h.2.trans k.2⟩
  obtain ⟨h, -⟩ := h
  obtain ⟨k, -⟩ := k
  rw [k, h]

theorem OnlyRaised.set {s t : State} (h : OnlyRaised s t) {f : Field} (v : Nat)
    (hf : f ∈ [HST_ERRCNT2.EVENT_LOST, CHN_ERRCNT4.PORT_DROP]) : OnlyRaised s (t.set f v) := by
  refine h.trans ⟨rfl, (SameRegs.refl _ t).set v hf⟩

theorem State.sendOn_raised (s : State) (d : Bool) (k : Packet) : OnlyRaised s (s.sendOn d k) := by
  unfold State.sendOn
  split
  · exact ⟨rfl, .of_regs rfl⟩
  · exact (OnlyRaised.refl s).set _ (by simp)

theorem State.send_raised (s : State) (k : Packet) : OnlyRaised s (s.send k) := by
  unfold State.send
  generalize s.portsTo k.dst = ds
  have h : ∀ t, OnlyRaised s t → OnlyRaised s (ds.foldl (fun t d => t.sendOn d k) t) := by
    induction ds with
    | nil => exact fun t h => h
    | cons d ds ih => exact fun t h => ih _ (h.trans (t.sendOn_raised d k))
  exact h s (.refl s)

theorem State.enqueueEvent_raised (s : State) (e : Event) : OnlyRaised s (s.enqueueEvent e) := by
  unfold State.enqueueEvent
  split
  · exact ⟨rfl, .of_regs rfl⟩
  · have h : OnlyRaised s ((s.bump HST_ERRCNT2.EVENT_LOST 1).loseItem 4 0) :=
      ((OnlyRaised.refl s).set _ (by simp)).trans ⟨rfl, .of_regs rfl⟩
    simp only
    split
    · exact h
    · exact h.trans ⟨rfl, .of_regs rfl⟩

theorem State.emit_raised (s : State) (e : Event) : OnlyRaised s (s.emit e) := by
  unfold State.emit
  split
  · exact s.send_raised _
  · exact s.enqueueEvent_raised e

/-- Everything a raised event can change: the queues on its way, and the counters of what was lost there. -/
theorem State.raise_raised (s : State) (code : Nat) (data : List Nat) : OnlyRaised s (s.raise code data) := by
  unfold State.raise
  simp only
  split
  · exact s.emit_raised _
  · split
    · split
      · exact ⟨rfl, .of_regs rfl⟩
      · exact .refl s
    · split
      · split
        · exact ⟨rfl, .of_regs rfl⟩
        · exact .refl s
      · exact s.emit_raised _

@[simp] theorem State.raise_pwr (s : State) (c : Nat) (d : List Nat) : (s.raise c d).pwr = s.pwr := by
  have h := congrArg State.pwr (s.raise_raised c d).1; exact h
@[simp] theorem State.raise_saf (s : State) (c : Nat) (d : List Nat) : (s.raise c d).saf = s.saf := by
  have h := congrArg State.saf (s.raise_raised c d).1; exact h
@[simp] theorem State.raise_rol (s : State) (c : Nat) (d : List Nat) : (s.raise c d).rol = s.rol := by
  have h := congrArg State.rol (s.raise_raised c d).1; exact h
@[simp] theorem State.raise_nvs (s : State) (c : Nat) (d : List Nat) : (s.raise c d).nvs = s.nvs := by
  have h := congrArg State.nvs (s.raise_raised c d).1; exact h
@[simp] theorem State.raise_cfg (s : State) (c : Nat) (d : List Nat) : (s.raise c d).cfg = s.cfg := by
  have h := congrArg State.cfg (s.raise_raised c d).1; exact h
@[simp] theorem State.raise_i2c (s : State) (c : Nat) (d : List Nat) : (s.raise c d).i2c = s.i2c := by
  have h := congrArg State.i2c (s.raise_raised c d).1; exact h
@[simp] theorem State.raise_tim (s : State) (c : Nat) (d : List Nat) : (s.raise c d).tim = s.tim := by
  have h := congrArg State.tim (s.raise_raised c d).1; exact h
@[simp] theorem State.raise_lnk (s : State) (c : Nat) (d : List Nat) : (s.raise c d).lnk = s.lnk := by
  have h := congrArg State.lnk (s.raise_raised c d).1; exact h
@[simp] theorem State.raise_cad (s : State) (c : Nat) (d : List Nat) : (s.raise c d).cad = s.cad := by
  have h := congrArg State.cad (s.raise_raised c d).1; exact h
@[simp] theorem State.raise_arr (s : State) (c : Nat) (d : List Nat) : (s.raise c d).arr = s.arr := by
  have h := congrArg State.arr (s.raise_raised c d).1; exact h
@[simp] theorem State.raise_cnv (s : State) (c : Nat) (d : List Nat) : (s.raise c d).cnv = s.cnv := by
  have h := congrArg State.cnv (s.raise_raised c d).1; exact h
@[simp] theorem State.raise_mon (s : State) (c : Nat) (d : List Nat) : (s.raise c d).mon = s.mon := by
  have h := congrArg State.mon (s.raise_raised c d).1; exact h
@[simp] theorem State.raise_eng (s : State) (c : Nat) (d : List Nat) : (s.raise c d).eng = s.eng := by
  have h := congrArg State.eng (s.raise_raised c d).1; exact h
@[simp] theorem State.raise_spot (s : State) (c : Nat) (d : List Nat) : (s.raise c d).spot = s.spot := by
  have h := congrArg State.spot (s.raise_raised c d).1; exact h
@[simp] theorem State.raise_pipe (s : State) (c : Nat) (d : List Nat) : (s.raise c d).pipe = s.pipe := by
  have h := congrArg State.pipe (s.raise_raised c d).1; exact h
@[simp] theorem State.raise_fwc (s : State) (c : Nat) (d : List Nat) : (s.raise c d).fwc = s.fwc := by
  have h := congrArg State.fwc (s.raise_raised c d).1; exact h
@[simp] theorem State.raise_serial (s : State) (c : Nat) (d : List Nat) : (s.raise c d).serial = s.serial := by
  have h := congrArg State.serial (s.raise_raised c d).1; exact h
@[simp] theorem State.raise_mono (s : State) (c : Nat) (d : List Nat) : (s.raise c d).mono = s.mono := by
  have h := congrArg State.mono (s.raise_raised c d).1; exact h
@[simp] theorem State.raise_strap (s : State) (c : Nat) (d : List Nat) : (s.raise c d).strap = s.strap := by
  have h := congrArg State.strap (s.raise_raised c d).1; exact h
@[simp] theorem State.raise_pending (s : State) (c : Nat) (d : List Nat) : (s.raise c d).pending = s.pending := by
  have h := congrArg State.pending (s.raise_raised c d).1; exact h
@[simp] theorem State.raise_answer (s : State) (c : Nat) (d : List Nat) : (s.raise c d).answer = s.answer := by
  have h := congrArg State.answer (s.raise_raised c d).1; exact h
@[simp] theorem State.raise_latched (s : State) (c : Nat) (d : List Nat) : (s.raise c d).latched = s.latched := by
  have h := congrArg State.latched (s.raise_raised c d).1; exact h
@[simp] theorem State.raise_freeIx (s : State) (c : Nat) (d : List Nat) : (s.raise c d).freeIx = s.freeIx := by
  have h := congrArg State.freeIx (s.raise_raised c d).1; exact h

theorem State.raise_get (s : State) (c : Nat) (d : List Nat) {g : Field} (h : g.key ∉ [HST_ERRCNT2.EVENT_LOST.key, CHN_ERRCNT4.PORT_DROP.key]) :
    (s.raise c d).get g = s.get g := (s.raise_raised c d).2 g h

/-! ### Register writes -/

/-- A register write that is taken is its effect after its bookkeeping. -/
theorem State.regWrite_takes {s : State} {p : Path} {off w : Nat} (h : s.takes p off w = true) (e : State → State) :
    s.regWrite p off w e = e (s.booked p off w) := by
  unfold State.takes at h
  simp only [Bool.and_eq_true, Bool.not_eq_true', Bool.or_eq_true] at h
  obtain ⟨⟨⟨⟨h1, h2⟩, h3⟩, h4⟩, h5⟩ := h
  unfold State.booked State.regWrite
  rw [h1, h2, h3, h4]
  rcases h5 with (h5 | h5) | h5
  · have h5 := of_decide_eq_true h5
    simp [h5]
  · have h5 := List.isEmpty_iff.mp h5
    simp [h5]
  · simp [h5]

end Sys2Proof.Machine
end

