-- ==== Sys2Proof/Laws/Memory.lean ====
section
/-!
SUPPORT. The laws of the addressed memories (the engines' memories and the table area of the pipeline): a byte read after a write or a clear,
and that every operation keeps the canonical form.
-/
namespace Sys2Proof.Machine

/-- Bytes outside the written ones are unchanged. -/
theorem memByte_memWrite_outside (bs : List Nat) :
    ∀ (m : List Host.Cell) (a k : Nat), k < a ∨ a + bs.length ≤ k → memByte (memWrite m a bs) k = memByte m k := by
  induction bs with
  | nil => intro m a k _; rfl
  | cons b bs ih =>
    intro m a k h
    simp only [List.length_cons] at h
    rw [memWrite, ih _ _ _ (by omega)]
    unfold memByte
    rw [Tbl.get_set, if_neg (by omega)]

/-- A written byte reads as its low 8 bits. -/
theorem memByte_memWrite_inside (bs : List Nat) :
    ∀ (m : List Host.Cell) (a i : Nat) (h : i < bs.length), memByte (memWrite m a bs) (a + i) = bs[i] % 256 := by
  induction bs with
  | nil => intro m a i h; exact absurd h (Nat.not_lt_zero _)
  | cons b bs ih =>
    intro m a i h
    cases i with
    | zero =>
      rw [memWrite, memByte_memWrite_outside _ _ _ _ (.inl (by omega))]
      unfold memByte
      rw [Tbl.get_set, if_pos (Nat.add_zero a).symm]
      simp
    | succ i =>
      rw [memWrite, show a + (i + 1) = a + 1 + i by omega, ih _ _ _ (by simpa using h)]
      simp

/-- A read of the bytes just written gives them back. -/
theorem memBytes_memWrite (bs : List Nat) (m : List Host.Cell) (a : Nat) :
    memBytes (memWrite m a bs) a bs.length = bs.map (· % 256) := by
  suffices h : ∀ (n j : Nat), j + n = bs.length → memBytes (memWrite m a bs) (a + j) n = (bs.drop j).map (· % 256) by
    simpa using h bs.length 0 (by omega)
  intro n
  induction n with
  | zero => intro j h; simp [memBytes, List.drop_eq_nil_of_le (show bs.length ≤ j by omega)]
  | succ n ih =>
    intro j h
    rw [memBytes, memByte_memWrite_inside _ _ _ _ (show j < bs.length by omega), Nat.add_assoc, ih (j + 1) (by omega),
      List.drop_eq_getElem_cons (show j < bs.length by omega), List.map_cons]

/-- A cleared range reads 0, and the rest as before. -/
theorem memByte_memClear (m : List Host.Cell) (a n k : Nat) :
    memByte (memClear m a n) k = if a ≤ k ∧ k < a + n then 0 else memByte m k := by
  unfold memByte memClear
  induction m with
  | nil => simp [Tbl.get]
  | cons c m ih =>
    by_cases hc : c.1 < a ∨ a + n ≤ c.1
    · rw [List.filter_cons_of_pos (by simpa using hc), Tbl.get_cons, Tbl.get_cons]
      by_cases hk : c.1 = k
      · simp only [hk, if_true]
        rw [if_neg (by omega)]
      · simp only [hk, if_false]
        exact ih
    · rw [List.filter_cons_of_neg (by simpa using hc), Tbl.get_cons]
      by_cases hk : c.1 = k
      · rw [ih, if_pos (by omega), if_pos (by omega)]
      · simp only [hk, if_false]
        exact ih

/-- A write keeps the canonical form. -/
theorem memWrite_wf (bs : List Nat) : ∀ (m : List Host.Cell) (a : Nat), memWf m = true → memWf (memWrite m a bs) = true := by
  induction bs with
  | nil => intro m a h; exact h
  | cons b bs ih => intro m a h; exact ih _ _ (Tbl.wf_set _ _ _ _ h)

/-- A filter on cells keeps the canonical form. -/
theorem memWf_filter (p : Host.Cell → Bool) (m : List Host.Cell) (h : memWf m = true) : memWf (m.filter p) = true := by
  unfold memWf Tbl.wf at h ⊢
  rw [Bool.and_eq_true] at h ⊢
  refine ⟨?_, ?_⟩
  · cases m with
    | nil => rfl
    | cons c m =>
      have hc := h.1
      by_cases hp : p c = true
      · rw [List.filter_cons_of_pos hp]
        exact Tbl.rises_filter p m c.1 hc
      · rw [List.filter_cons_of_neg hp]
        have := Tbl.rises_filter p m c.1 hc
        cases hf : m.filter p with
        | nil => rfl
        | cons d l =>
          rw [hf] at this
          simp only [Tbl.rises, Bool.and_eq_true] at this ⊢
          exact this.2
  · have := h.2
    simp only [Tbl.sparse, List.all_eq_true, decide_eq_true_eq] at this ⊢
    exact fun e he => this e (List.mem_filter.mp he).1

/-- A clear keeps the canonical form. -/
theorem memClear_wf (m : List Host.Cell) (a n : Nat) (h : memWf m = true) : memWf (memClear m a n) = true := memWf_filter _ m h

/-- Setting single bytes keeps the canonical form: the copy of a remap. -/
theorem memFold_wf (cs : List Host.Cell) :
    ∀ m : List Host.Cell, memWf m = true → memWf (cs.foldl (fun m (c : Host.Cell) => Tbl.set (0 : Byte) m c.1 c.2) m) = true := by
  induction cs with
  | nil => intro m h; exact h
  | cons c cs ih => intro m h; exact ih _ (Tbl.wf_set _ _ _ _ h)

/-- The memories of the block right after reset are in canonical form. -/
theorem reset_memories_wf : memWf State.reset.pipe.table = true ∧ ∀ e ∈ State.reset.eng.engs, memWf e.2.mem = true := by decide

end Sys2Proof.Machine
end

