-- ==== Sys2Proof/Laws/Records.lean ====
section
/-!
SUPPORT. The laws of the records that are kept by number (engines, triggers, banks, peers, contexts, ports and lanes): what a read gives after an
update, what an update leaves, and the frame of one engine; what an instruction that issues does.
-/
namespace Sys2Proof.Machine

@[simp] theorem State.engine_setEngine (s : State) (n : Nat) (f : Eng → Eng) : (s.setEngine n f).engine n = f (s.engine n) :=
  Tbl.get_set_same _ _ _ _
theorem State.engine_setEngine_ne (s : State) {n m : Nat} (f : Eng → Eng) (h : n ≠ m) : (s.setEngine n f).engine m = s.engine m :=
  Tbl.get_set_other _ _ _ _ h
@[simp] theorem State.setEngine_regs (s : State) (n : Nat) (f : Eng → Eng) : (s.setEngine n f).regs = s.regs := rfl
@[simp] theorem State.setEngine_get (s : State) (n : Nat) (f : Eng → Eng) (g : Field) : (s.setEngine n f).get g = s.get g := rfl
@[simp] theorem State.engine_set (s : State) (g : Field) (v n : Nat) : (s.set g v).engine n = s.engine n := rfl

@[simp] theorem State.trg_setTrg (s : State) (n : Nat) (f : Trg → Trg) : (s.setTrg n f).trg n = f (s.trg n) :=
  Tbl.get_set_same _ _ _ _
theorem State.trg_setTrg_ne (s : State) {n m : Nat} (f : Trg → Trg) (h : n ≠ m) : (s.setTrg n f).trg m = s.trg m :=
  Tbl.get_set_other _ _ _ _ h
@[simp] theorem State.setTrg_regs (s : State) (n : Nat) (f : Trg → Trg) : (s.setTrg n f).regs = s.regs := rfl
@[simp] theorem State.setTrg_get (s : State) (n : Nat) (f : Trg → Trg) (g : Field) : (s.setTrg n f).get g = s.get g := rfl
@[simp] theorem State.trg_set (s : State) (g : Field) (v n : Nat) : (s.set g v).trg n = s.trg n := rfl

@[simp] theorem State.bank_setBank (s : State) (n : Nat) (f : Bank → Bank) : (s.setBank n f).bank n = f (s.bank n) :=
  Tbl.get_set_same _ _ _ _
theorem State.bank_setBank_ne (s : State) {n m : Nat} (f : Bank → Bank) (h : n ≠ m) : (s.setBank n f).bank m = s.bank m :=
  Tbl.get_set_other _ _ _ _ h
@[simp] theorem State.setBank_regs (s : State) (n : Nat) (f : Bank → Bank) : (s.setBank n f).regs = s.regs := rfl
@[simp] theorem State.setBank_get (s : State) (n : Nat) (f : Bank → Bank) (g : Field) : (s.setBank n f).get g = s.get g := rfl
@[simp] theorem State.bank_set (s : State) (g : Field) (v n : Nat) : (s.set g v).bank n = s.bank n := rfl

@[simp] theorem State.peer_setPeer (s : State) (n : Nat) (f : Peer → Peer) : (s.setPeer n f).peer n = f (s.peer n) :=
  Tbl.get_set_same _ _ _ _
theorem State.peer_setPeer_ne (s : State) {n m : Nat} (f : Peer → Peer) (h : n ≠ m) : (s.setPeer n f).peer m = s.peer m :=
  Tbl.get_set_other _ _ _ _ h
@[simp] theorem State.setPeer_regs (s : State) (n : Nat) (f : Peer → Peer) : (s.setPeer n f).regs = s.regs := rfl
@[simp] theorem State.setPeer_get (s : State) (n : Nat) (f : Peer → Peer) (g : Field) : (s.setPeer n f).get g = s.get g := rfl
@[simp] theorem State.peer_set (s : State) (g : Field) (v n : Nat) : (s.set g v).peer n = s.peer n := rfl

@[simp] theorem State.ctx_setCtx (s : State) (n : Nat) (f : Ctx → Ctx) : (s.setCtx n f).ctx n = f (s.ctx n) :=
  Tbl.get_set_same _ _ _ _
theorem State.ctx_setCtx_ne (s : State) {n m : Nat} (f : Ctx → Ctx) (h : n ≠ m) : (s.setCtx n f).ctx m = s.ctx m :=
  Tbl.get_set_other _ _ _ _ h
@[simp] theorem State.setCtx_regs (s : State) (n : Nat) (f : Ctx → Ctx) : (s.setCtx n f).regs = s.regs := rfl
@[simp] theorem State.setCtx_get (s : State) (n : Nat) (f : Ctx → Ctx) (g : Field) : (s.setCtx n f).get g = s.get g := rfl
@[simp] theorem State.ctx_set (s : State) (g : Field) (v n : Nat) : (s.set g v).ctx n = s.ctx n := rfl

@[simp] theorem State.port_setPort (s : State) (d : Bool) (f : Port → Port) : (s.setPort d f).port d = f (s.port d) := by cases d <;> rfl
@[simp] theorem State.port_setPort_not (s : State) (d : Bool) (f : Port → Port) : (s.setPort d f).port (!d) = s.port (!d) := by cases d <;> rfl
@[simp] theorem State.setPort_regs (s : State) (d : Bool) (f : Port → Port) : (s.setPort d f).regs = s.regs := by cases d <;> rfl
@[simp] theorem State.setPort_get (s : State) (d : Bool) (f : Port → Port) (g : Field) : (s.setPort d f).get g = s.get g :=
  State.get_congr (s.setPort_regs d f) g
@[simp] theorem State.port_set (s : State) (g : Field) (v : Nat) (d : Bool) : (s.set g v).port d = s.port d := by cases d <;> rfl

@[simp] theorem State.lane_setLane (s : State) (d : Bool) (n : Nat) (f : Lane → Lane) : (s.setLane d n f).lane d n = f (s.lane d n) := by
  simp [State.lane, State.setLane]
theorem State.lane_setLane_ne (s : State) (d : Bool) {n m : Nat} (f : Lane → Lane) (h : n ≠ m) : (s.setLane d n f).lane d m = s.lane d m := by
  simp [State.lane, State.setLane, Tbl.get_set_other _ _ _ _ h]
@[simp] theorem State.setLane_get (s : State) (d : Bool) (n : Nat) (f : Lane → Lane) (g : Field) : (s.setLane d n f).get g = s.get g :=
  s.setPort_get d _ g

/-! ### The frame of one engine -/

theorem OnlyEngine.refl (e : Nat) (s : State) : OnlyEngine e s s := ⟨rfl, fun _ _ => rfl⟩

theorem OnlyEngine.trans {e : Nat} {s t u : State} (h : OnlyEngine e s t) (k : OnlyEngine e t u) : OnlyEngine e s u := by
  refine ⟨?_, fun o ho => (k.2 o ho).trans (h.2 o ho)⟩
  rw [k.1, h.1]

theorem OnlyEngine.setEngine {e : Nat} {s t : State} (h : OnlyEngine e s t) (f : Eng → Eng) : OnlyEngine e s (t.setEngine e f) :=
  h.trans ⟨rfl, fun _ ho => t.engine_setEngine_ne f ho.symm⟩

/-- What an instruction that issues does: its effect on the state after the fetch, and the next address where it advances. -/
theorem State.issue_of_issues {s : State} {e ferr : Nat} (h : s.issues e ferr) (adv : Bool) (body : State → State) :
    ∃ u : State, OnlyEngine e s u ∧ u.engine e = s.fetched e ferr ∧
      s.issue e ferr adv body = if adv ∧ ((body u).engine e).st = 1 then (body u).setEngine e Eng.stepPc else body u := by
  obtain ⟨h1, h2, h3, h4⟩ := h
  refine ⟨s.setEngine e fun g => g.noteErrors g.pc 4 [ferr], (OnlyEngine.refl e s).setEngine _, s.engine_setEngine e _, ?_⟩
  unfold State.issue
  rw [if_pos h1, if_neg (by omega), if_neg (by omega)]
  simp only [if_neg (show ¬ 2 ≤ (s.engine e).errorAt (s.engine e).pc 4 [ferr] by omega)]

/-- A program that goes on does what it is to do. -/
theorem State.program_goesOn {s : State} {e : Nat} (h : s.goesOn e = true) (f : State → State) : s.program e f = f s := if_pos h
/-- A program that does not go on changes nothing. -/
theorem State.program_stands {s : State} {e : Nat} (h : s.goesOn e = false) (f : State → State) : s.program e f = s := by
  unfold State.program; rw [h]; rfl

end Sys2Proof.Machine
end

