-- ==== Sys2Proof/Tests/Slice0.lean ====
section
/-!
SUPPORT. Named tests: for each check of WellFormed an ill-formed term it refuses, the worked examples of the spec, and for each obligation with
hypotheses a state and operands that meet them.
-/
open Sys2Proof Sys2Proof.Machine

set_option maxRecDepth 100000

/-! ### Ill-formed terms are refused -/

def Tests.packet : Packet := { dt := 1, vc := 0, inc := 0, src := 0, dst := 0, sweep := 0, gear := 0, assign := 0, payload := [] }
def Tests.desc : Desc := { sq := 0, flags := 0, cid := 0, tally := 0, operands := List.replicate 56 0 }
/-- A proxy path has three role bits; an offset is a word address of 20 bits. -/
theorem test_illFormed_accesses : ([.registerWrite (.proxy 8) 0 0 false,
  .registerWrite .bar0 0x100000 0 false,
  .registerWrite .bar0 2 0 false,
  .wideRegisterRead (.proxy 8) 0,
  .wideRegisterRead .bar0 0x100000,
  .wideRegisterRead .bar0 6] : List Instr).all (fun i => !i.wf) = true := by decide

/-- Every access checks its path. -/
theorem test_illFormed_paths : ([.expArrayErrclr (.proxy 9) 0,
  .cadErrclr (.proxy 9) 0,
  .expModeErrclr (.proxy 9) 0,
  .calErrclr (.proxy 9) 0,
  .monErrclr (.proxy 9) 0,
  .engErrclr (.proxy 9) 0,
  .lnkErrclr false (.proxy 9) 0,
  .chnErrclr (.proxy 9) 0,
  .expSpotErrclr (.proxy 9) 0,
  .pipeErrclr (.proxy 9) 0,
  .timErrclr (.proxy 9) 0,
  .hstErrclr (.proxy 9) 0,
  .pwrErrclr (.proxy 9) 0,
  .pllErrclr (.proxy 9) 0,
  .safErrclr (.proxy 9) 0,
  .nvsErrclr (.proxy 9) 0,
  .rolErrclr (.proxy 9) 0,
  .i2cErrclr (.proxy 9) 0,
  .pwrCmdStandby (.proxy 9),
  .pwrCmdIdle (.proxy 9),
  .pwrCmdReady (.proxy 9),
  .pwrCmdCapture (.proxy 9),
  .pllRelock (.proxy 9) 0 0,
  .pllClkoutEnable (.proxy 9) 0 0,
  .testTrip (.proxy 9),
  .safTripClear (.proxy 9) 0,
  .chainRestart (.proxy 9),
  .cadSrcWrite (.proxy 9) 0,
  .cadShdHiWrite (.proxy 9) 0,
  .cadActHiRead (.proxy 9),
  .cadSwapReq (.proxy 9),
  .expModeWrite (.proxy 9) 0,
  .calBaseCapture (.proxy 9),
  .calBaseValWrite (.proxy 9) 0,
  .calBaseCommit (.proxy 9),
  .monCtrlRunWrite (.proxy 9) 0,
  .engStart (.proxy 9),
  .engHalt (.proxy 9),
  .engClear (.proxy 9),
  .engMemAddrWrite (.proxy 9) 0,
  .engMemDataWrite (.proxy 9) 0,
  .engMemDataRead (.proxy 9),
  .engRemapGo (.proxy 9) 0,
  .engQenWrite (.proxy 9) 0,
  .lnkEnWrite (.proxy 9) false 0,
  .lnkRetrainWrite (.proxy 9) false 0,
  .lnkLoopRunWrite (.proxy 9) false 0,
  .chnFullCall (.proxy 9),
  .chnJoinCall (.proxy 9),
  .goGear (.proxy 9),
  .goAssign (.proxy 9),
  .chnAsgHiWrite (.proxy 9) 0,
  .chnAsgCopy (.proxy 9),
  .chnAsgClear (.proxy 9),
  .expSpotCtrlWrite (.proxy 9) 0,
  .pipeCtxCommit (.proxy 9),
  .pipeCtxDisable (.proxy 9),
  .pipeMemWrite (.proxy 9) 0,
  .timRateWrite (.proxy 9) 0,
  .timStepCommit (.proxy 9) 0,
  .timStepAccept (.proxy 9) 0,
  .tpEnable (.proxy 9) 0 0,
  .sqDoorbell (.proxy 9) 0 0,
  .cqDoorbell (.proxy 9) 0 0,
  .drDoorbell (.proxy 9) 0 0,
  .ringEnable (.proxy 9) 0 0 0,
  .ringResume (.proxy 9) 0 0,
  .hostWdogPet (.proxy 9),
  .hstRearm (.proxy 9),
  .nvsImgOpen (.proxy 9),
  .nvsImgDataWrite (.proxy 9) 0,
  .nvsImgCommit (.proxy 9),
  .nvsSaveInst (.proxy 9),
  .nvsRdDataHiRead (.proxy 9),
  .bistGoldCommit (.proxy 9),
  .rolSbSelWrite (.proxy 9) 0] : List Instr).all (fun i => !i.wf) = true := by decide

/-- Every arriving packet checks its fields. -/
theorem test_illFormed_packetRows : ([.packetForward false { Tests.packet with vc := 16 },
  .claim false { Tests.packet with vc := 16 },
  .roll false { Tests.packet with vc := 16 },
  .rollReport false { Tests.packet with vc := 16 },
  .grant false { Tests.packet with vc := 16 },
  .rollDoneReceive false { Tests.packet with vc := 16 },
  .bench false { Tests.packet with vc := 16 },
  .recover false { Tests.packet with vc := 16 },
  .stopes false { Tests.packet with vc := 16 },
  .arm false { Tests.packet with vc := 16 },
  .armAck false { Tests.packet with vc := 16 },
  .commit false { Tests.packet with vc := 16 },
  .cancel false { Tests.packet with vc := 16 },
  .keyRefreshReq false { Tests.packet with vc := 16 },
  .mirror false { Tests.packet with vc := 16 },
  .ringNotice false { Tests.packet with vc := 16 },
  .beat false { Tests.packet with vc := 16 },
  .sweepState false { Tests.packet with vc := 16 },
  .sweepHdr false { Tests.packet with vc := 16 },
  .key false { Tests.packet with vc := 16 },
  .delta false { Tests.packet with vc := 16 },
  .stat false { Tests.packet with vc := 16 },
  .aux false { Tests.packet with vc := 16 },
  .event false { Tests.packet with vc := 16 },
  .proxyRd false { Tests.packet with vc := 16 },
  .proxyWr false { Tests.packet with vc := 16 },
  .proxyRsp false { Tests.packet with vc := 16 },
  .bulk false { Tests.packet with vc := 16 },
  .spot false { Tests.packet with vc := 16 },
  .delayReq false { Tests.packet with vc := 16 } 0 0,
  .delayResp false { Tests.packet with vc := 16 } 0,
  .delayInfo false { Tests.packet with vc := 16 },
  .sync false { Tests.packet with vc := 16 } 0,
  .followUp false { Tests.packet with vc := 16 } 0,
  .publish false { Tests.packet with vc := 16 }] : List Instr).all (fun i => !i.wf) = true := by decide

/-- Every host command checks its descriptor. -/
theorem test_illFormed_descriptorRows : ([.nop { Tests.desc with sq := 32 },
  .regRead { Tests.desc with sq := 32 },
  .regWrite { Tests.desc with sq := 32 },
  .bulkWrite { Tests.desc with sq := 32 },
  .sessionChallenge { Tests.desc with sq := 32 },
  .sessionOpen { Tests.desc with sq := 32 },
  .sessionClose { Tests.desc with sq := 32 }] : List Instr).all (fun i => !i.wf) = true := by decide

/-- The widths of the packet fields. -/
theorem test_illFormed_packets : ([.beat false { Tests.packet with dt := 0 },
  .beat false { Tests.packet with dt := 64 },
  .beat false { Tests.packet with vc := 16 },
  .beat false { Tests.packet with inc := 256 },
  .beat false { Tests.packet with src := 64 },
  .beat false { Tests.packet with dst := 64 },
  .beat false { Tests.packet with sweep := 2 ^ 32 },
  .beat false { Tests.packet with gear := 65536 },
  .beat false { Tests.packet with assign := 65536 },
  .beat false { Tests.packet with payload := [0] },
  .beat false { Tests.packet with payload := List.replicate 16388 0 },
  .beat false { Tests.packet with payload := [0, 0, 0, 256] }] : List Instr).all (fun i => !i.wf) = true := by decide

/-- The widths of the descriptor fields. -/
theorem test_illFormed_descriptors : ([.nop { Tests.desc with sq := 32 },
  .nop { Tests.desc with cid := 65536 },
  .nop { Tests.desc with tally := 256 },
  .nop { Tests.desc with operands := [] },
  .nop { Tests.desc with operands := 256 :: List.replicate 55 0 }] : List Instr).all (fun i => !i.wf) = true := by decide

/-- Operands out of their ranges. -/
theorem test_illFormed_ranges1 : ([.vaonGood 8 false,
  .linkChanged 0 1 false,
  .linkChanged 7 1 false,
  .linkChanged 1 3 false,
  .triggerEdge 4 0 false,
  .triggerDelayOpen 4,
  .triggerExposureEnd 4,
  .skim 2 0 0 0,
  .skim 0 12384 0 0,
  .skim 0 0 16512 0,
  .rowLatch 0 [⟨2, 0, 0, 0⟩],
  .rowLatch 0 [⟨0, 16384, 0, 0⟩],
  .calKindDue 0,
  .calKindDue 4,
  .sliceStepDone [{ bank := 2048, slice := 0, hcg := [], lcg := [], edge := 0 }],
  .sliceStepDone [{ bank := 0, slice := 5, hcg := [], lcg := [], edge := 0 }],
  .pktCalStepDone [(1024, 0)],
  .pktCalStepDone [(0, 2 ^ 24)],
  .bankRecalDone [{ bank := 2048, slice := 0, hcg := [], lcg := [], edge := 0 }],
  .bankRecalDone [{ bank := 0, slice := 5, hcg := [], lcg := [], edge := 0 }],
  .monTempUpdate 8,
  .itemPublish 256,
  .engScalarAlu 264 0 .add 0 0 0,
  .engScalarAlu 0 3 .add 0 0 0,
  .engScalarAlu 0 0 .add 32 0 0,
  .engScalarAlu 0 0 .add 0 32 0,
  .engScalarAlu 0 0 .add 0 0 32,
  .engBranch 264 0 (.cond 0) 0 0 0,
  .engBranch 0 3 (.cond 0) 0 0 0,
  .engBranch 0 0 (.cond 0) 32 0 0,
  .engBranch 0 0 (.cond 0) 0 32 0,
  .engBranch 0 0 (.cond 0) 0 0 (2 ^ 16),
  .engBranch 0 0 (.cond 0) 0 0 2,
  .engScalarLoadStore 264 0 false 1 false 0 0 0 0,
  .engScalarLoadStore 0 0 false 3 false 0 0 0 0,
  .engScalarLoadStore 0 0 false 1 false 32 0 0 0,
  .engScalarLoadStore 0 0 false 1 false 0 32 0 0,
  .engScalarLoadStore 0 0 false 1 false 0 0 (2 ^ 32) 0,
  .engScalarLoadStore 0 0 false 1 false 0 0 0 3,
  .wait 264 0,
  .wait 0 3,
  .fence 264 0,
  .fence 0 3,
  .trap 264 0 0,
  .trap 0 3 0] : List Instr).all (fun i => !i.wf) = true := by decide

/-- Operands out of their ranges. -/
theorem test_illFormed_ranges2 : ([.trap 0 0 (2 ^ 16),
  .engVectorAlu 264 0 .add false 0 0 0 0,
  .engVectorAlu 0 3 .add false 0 0 0 0,
  .engVectorAlu 0 0 .add false 32 0 0 0,
  .engVectorAlu 0 0 .add false 0 32 0 0,
  .engVectorAlu 0 0 .add false 0 0 32 0,
  .engVectorAlu 0 0 .add false 0 0 0 32,
  .engVectorMac 264 0 false false 0 0 0,
  .engVectorMac 0 3 false false 0 0 0,
  .engVectorMac 0 0 false false 4 0 0,
  .engVectorMac 0 0 false false 0 32 0,
  .engVectorMac 0 0 false false 0 0 32,
  .engVectorLoadStore 264 0 false .block false 0 0 0 [],
  .engVectorLoadStore 0 3 false .block false 0 0 0 [],
  .engVectorLoadStore 0 0 false .block false 32 0 0 [],
  .engVectorLoadStore 0 0 false .block false 0 32 0 [],
  .engVectorLoadStore 0 0 false .block false 0 0 (2 ^ 32) [],
  .engPermuteReduce 264 0 .shuffle false false 0 0 0,
  .engPermuteReduce 0 3 .shuffle false false 0 0 0,
  .engPermuteReduce 0 0 .shuffle false false 32 0 0,
  .engPermuteReduce 0 0 .shuffle false false 0 32 0,
  .engPermuteReduce 0 0 .shuffle false false 0 0 32,
  .lclTimerZero 264,
  .lclInRdWrite 264 0,
  .lclInRdWrite 0 (2 ^ 32),
  .lclPush 264 0 0,
  .lclPush 0 (2 ^ 16) 0,
  .lclPush 0 0 (2 ^ 16),
  .pushCopyDone 264,
  .lclPushSeal 264,
  .lclPetWrite 264,
  .lclTrapWrite 264 0,
  .lclTrapWrite 0 (2 ^ 32),
  .lclEventWrite 264 0,
  .lclEventWrite 0 (2 ^ 32),
  .lclOutboxPost 264 0,
  .lclOutboxPost 0 (2 ^ 32),
  .engineReadyMessage 264,
  .logMessage 264,
  .keyRefresh 256,
  .mapChanged 256 0 0 0,
  .mapChanged 0 (2 ^ 32) 0 0,
  .mapChanged 0 0 (2 ^ 32) 0,
  .mapChanged 0 0 0 (2 ^ 32),
  .statReq 256 0] : List Instr).all (fun i => !i.wf) = true := by decide

/-- Operands out of their ranges. -/
theorem test_illFormed_ranges3 : ([.statReq 0 (2 ^ 32),
  .lclInboxRdWrite 264 0,
  .lclInboxRdWrite 0 (2 ^ 32),
  .engWatchdog 264,
  .scrubRead 264 0 0,
  .scrubRead 0 2 0,
  .scrubRead 0 0 3,
  .quadrantInitDone 4,
  .laneBlockReceive false 0 [],
  .trainingBlockReceive false 0 [] 0 0,
  .widthReq false 0 (2 ^ 16) 0 0,
  .widthReq false 0 0 64 0,
  .widthReq false 0 0 0 64,
  .retrainReq false 64 0,
  .retrainReq false 0 64,
  .feLoopReq false 0 64 0,
  .feLoopReq false 0 0 64,
  .bar2Read 0x4000000 false,
  .bar2Read 2 false,
  .storeWordVerify 256 0,
  .storeWordVerify 0 4,
  .nvsRdDataLoRead (.proxy 8) 0,
  .nvsRdDataLoRead .bar0 4,
  .storeRewrite 4,
  .bistLbist (.proxy 8) 0,
  .bistLbist .bar0 512,
  .bistMbist (.proxy 8) 0,
  .bistMbist .bar0 512,
  .bistDone (2 ^ 64) 0 0,
  .bistDone 0 0 (2 ^ 32),
  .rolChallenge (.proxy 8) 0,
  .rolChallenge .bar0 4,
  .rolSessionOpen (.proxy 8) 0,
  .rolSessionOpen .bar0 4,
  .rolSessionClose (.proxy 8) 0,
  .rolSessionClose .bar0 4,
  .rolKeyReplace (.proxy 8) 0,
  .rolKeyReplace .bar0 4,
  .sessionIdleTimeout 2 0,
  .sessionIdleTimeout 0 4,
  .lockoutEnd 2 0,
  .lockoutEnd 0 4,
  .challengeExpiry 2 0,
  .challengeExpiry 0 4,
  .engVectorLoadStore 0 0 false .block false 0 0 0 [3]] : List Instr).all (fun i => !i.wf) = true := by decide

/-! ### Worked examples of the spec -/

/-- Ch. 05, the slice at LCG with OFS 0x0175 and GAIN 0x0_FFF3: D 16 392 × 2⁻⁴ DN, residue 5 122.5 e⁻. -/
theorem test_residue_of_the_worked_slice : corrected 1048 0x0175 0xFFF3 = 16392 ∧ residue 1 1048 0x0175 0xFFF3 = 51225 * 128 := by decide

/-- Ch. 02, the tap value at (8 203, 5 120): 2 541 × 16 391.5 + 15 865 e⁻ in units of 0.5 e⁻. -/
theorem test_tap_value_of_the_example_rig :
    (State.reset.setCoef (qpKey 0 512) 0x400780).tapWord 0 0 8203 2 false 2541 0 (3173 + 16) = 83333333 := by decide +kernel

/-- Ch. 02: CLIP at code 4095, exhaustion flag, SHORT. -/
theorem test_tap_value_flags :
    bits (State.reset.tapWord 0 0 0 2 true 4096 0 4095) 29 3 = 7 ∧ bits (State.reset.tapWord 0 0 0 1 false 0 100 4095) 29 3 = 0 := by decide +kernel

/-- R68: the HCG residue serves only at count 0, below full scale and up to 2 048 e⁻. -/
theorem test_gain_of_the_residue :
    gainUsed 3 0 100 (2048 * 1280) = 0 ∧ gainUsed 3 0 100 (2048 * 1280 + 1) = 1 ∧ gainUsed 3 1 100 0 = 1 ∧ gainUsed 3 0 4095 0 = 1 := by decide

/-- R61 and R66: 12 320 080 ticks for every stope row at one gain with black rows. -/
theorem test_pass_length : passTicks (2 ^ 256 - 1) true 2 = 12320080 := by decide +kernel

/-- Ch. 03, entry 0 of the worked table: words 0xB607_E2E1 and 0x1010_7F37. -/
theorem test_entry_of_the_worked_table :
    (let e := 0x10107F37 * 2 ^ 32 + 0xB607E2E1
     entryAction e = 1 ∧ entryFrame e = 0 ∧ entryMask e = 0 ∧ entryMeas e = true ∧ entryOffset e = 4168667 ∧ entryArg e = 516833) := by decide

/-- An entry from its fields (R102), MASK 0. -/
def Tests.entry (action frame offset arg meas : Nat) : Nat := action * 2 ^ 60 + frame * 2 ^ 56 + meas * 2 ^ 52 + offset * 2 ^ 25 + arg

/-- The worked table of ch. 03. -/
def Tests.table : List Nat :=
  let opens := fun f => [Tests.entry 1 f 4168667 516833 1, Tests.entry 2 f 4689500 516833 1, Tests.entry 1 f 5210333 516833 1, Tests.entry 2 f 5731167 516833 1]
  opens 0 ++ [Tests.entry 5 0 6300000 26000000 0, Tests.entry 5 1 100000 4000000 0] ++ opens 1 ++
    [Tests.entry 4 1 6400000 4 0, Tests.entry 4 1 18800000 5 0, Tests.entry 5 1 31200000 2000000 0, Tests.entry 15 0 0 0 0]

/-- A unit with the worked table in its shadow, LOCK_N 2, a free scan of 60 Hz, every stope enabled and a MEAS limit. -/
def Tests.rig (limit : Nat) : State :=
  let s := (((State.reset.set CAD_CTRL.LOCK_N 2).set CAD_FREE_SCAN.PERIOD 33333333).set CAD_ENV.MEAS_LIMIT limit).set EXP_MODE.MODE 3
  let s := (List.range 8).foldl (fun t w => t.set (EXP_STOPE_EN.EN w) 0xFFFFFFFF) s
  s.onCad fun c => { c with shd := Tests.table.zipIdx.map fun e => (e.2, e.1) }

/-- Ch. 03: the worked table passes every check of R108 with MEAS_LIMIT 16 152, and 16 151 is too little (ERR 0xA at entry 3, the fourth opening of frame 0). -/
theorem test_worked_table_is_valid : (Tests.rig 16152).tableErr (Tests.rig 16152).cad.shd = none := by decide +kernel
theorem test_worked_table_needs_its_limit : (Tests.rig 16151).tableErr (Tests.rig 16151).cad.shd = some (10, 3) := by decide +kernel

/-- R127: the worked table is balanced and reads both taps at one gain. -/
theorem test_worked_table_is_differential : (Tests.rig 16152).modeErr (Tests.rig 16152).cad.shd = none := by decide +kernel

/-- Ch. 07, emitter n = 16 387 of stope 104. -/
theorem test_patch_of_the_worked_emitter : patchOrigin 767 4 = 10 ∧ patchOrigin 32832 4 = 511 ∧ localIndex 104 16387 = 6832131 := by decide

/-- Ch. 07, the key record byte by byte. -/
theorem test_key_record_of_the_worked_emitter :
    keyRecord 0x684003 0xE0 0x3E7C52F6 0x4A374945 0x249F69FA 0x01119EDA 1 0 0x5F9E =
      [0x03, 0x40, 0x68, 0xE0, 0xF6, 0x52, 0x7C, 0x3E, 0x45, 0x49, 0x37, 0x4A, 0xFA, 0x69, 0x9F, 0x24, 0xDA, 0x9E, 0x11, 0x01, 0x01, 0x00, 0x9E,
        0x5F] := by decide

/-- Ch. 07, the next sweep: a record is due at DTHRESH 66, ΔY is −6 079 and the pithead has 1 238 912 325. -/
theorem test_delta_of_the_worked_emitter :
    wantsRecord [1238912000] [1245137221] 66 0xE0 0xE0 false = true ∧ deltaOf 1238912000 1245137221 10 = -6079 ∧
      deltaField 1245137221 (-6079) 10 = 1238912325 ∧ unsigned 16 (-6079) = 0xE841 := by decide

/-! ### Codes the spec names by their standards -/

/-- The check value of the CRC-32 of IEEE 802.3 over the digits 1 to 9. -/
theorem test_crc32_check_value : crc32 [0x31, 0x32, 0x33, 0x34, 0x35, 0x36, 0x37, 0x38, 0x39] = 0xCBF43926 := by decide +kernel

/-- FIPS 180-4, SHA-256 of "abc". -/
theorem test_sha256_of_abc :
    sha256 [97, 98, 99] =
      [0xba, 0x78, 0x16, 0xbf, 0x8f, 0x01, 0xcf, 0xea, 0x41, 0x41, 0x40, 0xde, 0x5d, 0xae, 0x22, 0x23, 0xb0, 0x03, 0x61, 0xa3, 0x96, 0x17, 0x7a,
        0x9c, 0xb4, 0x10, 0xff, 0x61, 0xf2, 0x00, 0x15, 0xad] := by decide +kernel

/-- RFC 4231, test case 2: HMAC-SHA-256 under the key "Jefe". -/
theorem test_hmac_of_jefe :
    (hmacSha256 [0x4a, 0x65, 0x66, 0x65]
      [0x77, 0x68, 0x61, 0x74, 0x20, 0x64, 0x6f, 0x20, 0x79, 0x61, 0x20, 0x77, 0x61, 0x6e, 0x74, 0x20, 0x66, 0x6f, 0x72, 0x20, 0x6e, 0x6f, 0x74,
        0x68, 0x69, 0x6e, 0x67, 0x3f]).take 8 = [0x5b, 0xdc, 0xc1, 0x46, 0xbf, 0x60, 0x75, 0x4e] := by decide +kernel

/-! ### Registers and the two-wire bus -/

/-- Ch. 17, the register summary: words at reset. -/
theorem test_reset_words :
    [0x01000, 0x01010, 0x02040, 0x03000].map (fun o => State.reset.word (fieldsAt o)) = [0, 1, 0x00100014, 1] := by decide +kernel

/-- R9: a 1 clears a W1C bit, a 0 leaves it; a read-only field ignores a write. -/
theorem test_write_one_clears :
    (match execRegisterWrite .i2c 0x01008 0x00010000 true (State.reset.set PWR_RAIL.FAULT 3) with
     | .next t => t.get PWR_RAIL.FAULT
     | _ => 0) = 2 := by decide +kernel

/-- No row of the table gives bits, so no word spells a command. -/
theorem test_decode_words_spell_no_command : decodeTableWord 32 0x12345678 = none ∧ (State.reset.withFetchWord 32 5) = State.reset := by decide +kernel

/-! ## Witnesses of the obligations -/

/-! ### Small states -/

/-- A unit in a power state with its PLLs locked, its rails good, its host link trained and its foreman running. -/
def Tests.up (n : Nat) : State :=
  let s := State.reset.onPwr fun p => { p with railLow := 0, perst := false, pllStage := [(0, 5), (1, 5), (2, 5)] }
  let s := (((s.set PWR_STATUS.STATE n).set PWR_RAIL.GOOD 0x1FF).set PWR_CLK.CANARY_RUN 1).set HST_LINK.DL_UP 1
  (((s.set (PLL_STATUS.LOCKED 0) 1).set (PLL_STATUS.LOCKED 1) 1).set (PLL_STATUS.LOCKED 2) 1).set PWR_CLK.REF_PRESENT 1

theorem witness_FrontCommandRuns : (Instr.dieTempTrip :: []) = ({ State.reset with pending := [Instr.dieTempTrip] } : State).pending := rfl

theorem witness_EmptyQueueIdles : State.reset.pending = [] ∧ State.reset.fwc + 80 < 2 ^ 80 := by decide

theorem witness_CommandsKeepQueueAndIdentity : ∃ t : State, exec .dieTempTrip State.reset = .next t := ⟨_, rfl⟩

theorem witness_StepKeepsInvariant : (Tests.up 2).Inv ∧ ∃ t : State, step (Tests.up 2) = .next t :=
  ⟨⟨by decide, by decide⟩, ⟨_, rfl⟩⟩

theorem witness_EventsReachTheForeman :
    ((Tests.up 2).pagesUp = true ∧ (Tests.up 2).pwr.boot = 0 ∧ (Tests.up 2).pwr.rom = false ∧ (Tests.up 2).inCrew = false ∧ (Tests.up 2).events.length < 1024) ∧
    (let s := ((Tests.up 2).set CHN_STATE.TALLY 2).set CHN_STATE.STATE 2
     s.pagesUp = true ∧ s.pwr.boot = 0 ∧ s.pwr.rom = false ∧ s.inCrew = true) ∧
    (State.reset.pagesUp = false ∧ 0x0101 / 256 ∈ [0x01, 0x02, 0x11] ∧ 0x0301 / 256 ∈ [0x03, 0x0F, 0x12]) := by decide

theorem witness_VaonStartsAndStopsTheUnit :
    (State.reset.onPwr fun p => { p with vaon := false }).pwr.vaon = false ∧ State.reset.pwr.vaon = true := by decide

theorem witness_RailsAreWatched :
    (State.reset.pwr.vaon = true ∧ State.reset.bitOf PWR_RAIL.GOOD 0 = false ∧ State.reset.outOfOrder 0 = false) ∧
    (State.reset.bitOf PWR_RAIL.GOOD 8 = false ∧ State.reset.outOfOrder 8 = true) ∧
    (let s := State.reset.set PWR_RAIL.GOOD 1
     s.power = stSTANDBY ∧ s.bitOf PWR_RAIL.GOOD 0 = true ∧ s.on PWR_CLK.CANARY_RUN = false) ∧
    (stSTANDBY < (Tests.up 2).power ∧ (Tests.up 2).bitOf PWR_RAIL.GOOD 8 = true ∧ (Tests.up 2).pwr.vaon = true) ∧
    (bit State.reset.pwr.railLow 0 = true ∧ bit (Tests.up 2).pwr.railLow 0 = false) := by decide

theorem witness_PowerCommandsAreChecked :
    (let s := Tests.up 2
     s.takes .bar0 0x01000 3 = true ∧ (s.booked .bar0 0x01000 3).commandResult true 3 = 0 ∧ (s.booked .bar0 0x01000 3).power = stIDLE ∧
     (s.booked .bar0 0x01000 3).awaitsReference = false ∧
     s.takes .foreman 0x01000 4 = true ∧ (s.booked .foreman 0x01000 4).commandResult true 4 ≠ 0 ∧ (s.booked .foreman 0x01000 4).power ≠ stHOLD ∧
     s.takes .bar0 0x01000 4 = true ∧ (s.booked .bar0 0x01000 4).holds .bar0 .operator = false) ∧
    (let s := (State.reset.set PWR_RAIL.GOOD 0x1FF)
     s.takes .i2c 0x01000 2 = true ∧ (s.booked .i2c 0x01000 2).commandResult true 2 = 0 ∧ (s.booked .i2c 0x01000 2).power = stSTANDBY) ∧
    (let s := State.reset.onPwr fun p => { p with startup := 1 }
     s.takes .i2c 0x01000 1 = true ∧ (s.booked .i2c 0x01000 1).commandResult true 1 = 0 ∧ (s.booked .i2c 0x01000 1).awaitsReference = true) ∧
    (let s := Tests.up 5
     s.takes .bar0 0x01000 2 = true ∧ (s.booked .bar0 0x01000 2).commandResult true 2 = 0 ∧ (s.booked .bar0 0x01000 2).power = stHOLD) ∧
    (let s := (Tests.up 3).onRol fun r => { r with sess := [(1, some ⟨[], 1, 0⟩)] }
     s.takes .bar0 0x01000 4 = true ∧ (s.booked .bar0 0x01000 4).holds .bar0 .operator = true ∧ (s.booked .bar0 0x01000 4).sbRoom = true) ∧
    (let b := (Tests.up 3).booked .foreman 0x01000 4
     b.power = stREADY ∧ b.get PWR_STATUS.BUSY = 0 ∧ b.get PWR_RAIL.SEQ_VIOL = 0 ∧ b.pwr.startup = 0 ∧ b.nvs.bist = none) ∧
    (let b := (Tests.up 2).booked .bar0 0x01000 3
     b.power = stIDLE ∧ b.get PWR_STATUS.BUSY = 0 ∧ b.get PWR_RAIL.SEQ_VIOL = 0 ∧ b.pwr.startup = 0 ∧ b.nvs.bist = none ∧ b.nvs.op = none) ∧
    ((Tests.up 2).takes .bar0 0x01000 1 = true ∧ (Tests.up 3).takes .foreman 0x01000 4 = true) ∧
    (let b := (State.reset.set PWR_RAIL.GOOD 0x1FF).booked .i2c 0x01000 2
     b.power = stSTANDBY ∧ b.get PWR_STATUS.BUSY = 0 ∧ b.get PWR_RAIL.SEQ_VIOL = 0 ∧ b.get PWR_RAIL.GOOD = 0x1FF ∧ b.pwr.startup = 0 ∧ b.nvs.bist = none) ∧
    (let s := (Tests.up 2).set PWR_STATUS.PENDING 1
     s.get PWR_STATUS.PENDING = stSTANDBY ∧ (s.nvs.op.map NvsOp.area).getD 0 ≠ 2) := by decide

theorem witness_PllsLockStageByStage :
    (let s := ((State.reset.set PWR_CLK.CANARY_RUN 1).setStage 2 1)
     s.on PWR_CLK.CANARY_RUN = true ∧ s.pllStage 0 ≠ 1 ∧ s.pllStage 1 ≠ 1 ∧ s.pllStage 2 = 1) ∧
    (∀ x : Fin 3, (State.reset.setStage x.val 2).pllStage x.val = 2 ∧ (State.reset.setStage x.val 3).pllStage x.val = 3 ∧
      (State.reset.setStage x.val 4).pllStage x.val = 4) := by decide

theorem witness_PllsAreLost :
    (∀ x : Fin 3, (Tests.up 2).pllStage x.val = 5 ∧ (State.reset.setStage x.val 4).pllStage x.val = 4 ∧ State.reset.pllStage x.val < 4) ∧
    (∀ x < 3, let s := ((State.reset.setStage 0 2).setStage 1 3).setStage 2 4
      2 ≤ s.pllStage x ∧ s.pllStage x ≤ 4) ∧
    (let s := State.reset.setStage 0 5
     s.pllStage 0 = 5 ∧ s.pllStage 1 = 0 ∧ s.pllStage 2 = 0 ∧ (s.pllLost 0 1).pllStage 1 = 0 ∧ (s.pllLost 0 1).pllStage 2 = 0) := by decide

theorem witness_RelockAndClockOutputs :
    (let s := Tests.up 2
     let w := (0 : Word)
     let v := w.toNat ||| 2 ^ 31
     s.takes .foreman 0x02000 v = true ∧
     (let u := (s.booked .foreman 0x02000 v).writeFields .foreman 0x02000 v
      u.mayWrite .foreman (PLL_CFG.RELOCK 0) = true ∧ u.power = stIDLE ∧ u.pwr.startup = 0)) ∧
    (let s := Tests.up 3
     let v := (0 : Word).toNat ||| 2 ^ 31
     s.takes .foreman 0x02000 v = true ∧ ((s.booked .foreman 0x02000 v).writeFields .foreman 0x02000 v).power ≠ stIDLE) ∧
    (let s := Tests.up 2
     let v := (0x00000010#32).toNat ||| 2 ^ 31
     s.takes .foreman 0x02040 v = true ∧ (s.booked .foreman 0x02040 v).on (PLL_CLKOUT.EN 0) = false ∧
     ((s.booked .foreman 0x02040 v).writeFields .foreman 0x02040 v).on (PLL_CLKOUT.EN 0) = true ∧
     ((s.booked .foreman 0x02040 v).writeFields .foreman 0x02040 v).clkoutResult 0 = 0) ∧
    (let s := Tests.up 2
     let v := (0x00FFFFFF#32).toNat ||| 2 ^ 31
     s.takes .foreman 0x02044 v = true ∧ (s.booked .foreman 0x02044 v).on (PLL_CLKOUT.EN 1) = false ∧
     ((s.booked .foreman 0x02044 v).writeFields .foreman 0x02044 v).on (PLL_CLKOUT.EN 1) = true) := by decide

theorem witness_StartUpRunsToTheLampCheck :
    (State.reset.onPwr fun p => { p with startup := 1 }).pwr.startup = 1 ∧
    (let s := (Tests.up 1).onPwr fun p => { p with startup := 4, boot := 1 }
     s.sysRuns = true ∧ s.pwr.sysrst = false ∧ s.pwr.boot = 1 ∧ s.pwr.startup = 4) ∧
    (let s := (Tests.up 2).onPwr fun p => { p with boot := 2 }
     s.sysRuns = true ∧ s.pwr.sysrst = false ∧ s.pwr.boot = 2) ∧
    (let s := (Tests.up 2).onPwr fun p => { p with boot := 3 }
     s.sysRuns = true ∧ s.pwr.sysrst = false ∧ s.pwr.boot = 3) ∧
    (State.reset.onPwr fun p => { p with lampItem := some 7 }).pwr.lampItem = some 7 ∧ [1, 2, 3, 5, 7].contains (recordOf 2).1 = true ∧
    (nominalCode 0 = some 12288 ∧ 20 * ([] : List Nat).getD 0 0 < 19 * 12288) ∧
    (State.reset.onPwr fun p => { p with lampItem := some 8 }).pwr.lampItem = some 8 := by decide

theorem witness_SysrstStopsAndRebootsTheUnit :
    (State.reset.pwr.sysrst = false ∧ State.reset.pwr.startup = 0 ∧ State.reset.power = stSTANDBY) ∧
    (let s := State.reset.onPwr fun p => { p with startup := 3 }
     s.pwr.sysrst = false ∧ s.pwr.startup ≠ 0) ∧
    ((Tests.up 2).pwr.sysrst = false ∧ (Tests.up 2).pwr.startup = 0 ∧ stSTANDBY < (Tests.up 2).power) ∧
    (let s := (Tests.up 2).onPwr fun p => { p with sysrst := true }
     s.pwr.sysrst = true ∧ s.pwr.startup = 0 ∧ stSTANDBY < s.power) ∧
    (let s := State.reset.onPwr fun p => { p with sysrst := true }
     s.pwr.sysrst = true ∧ s.power = stSTANDBY ∧ s.pwr.startup = 0) := by decide

theorem witness_CanaryCausesTrip :
    (State.reset.bitOf SAF_TRIP.LIVE 0 = false ∧ State.reset.bitOf SAF_TRIP.LIVE 8 = false ∧ (State.reset.set SAF_TRIP.LIVE 0x400).bitOf SAF_TRIP.LIVE 10 = true) ∧
    ((Tests.up 2).on PWR_CLK.CANARY_RUN = true ∧ (Tests.up 2).foremanRuns = true ∧ State.reset.on PWR_CLK.CANARY_RUN = false) ∧
    ((0 : Fin 11).val ∉ [1, 2, 8, 9] ∧ (10 : Fin 11).val ∉ [1, 2, 8, 9] ∧ (1 : Fin 11).val ∈ [1, 2] ∧ (2 : Fin 11).val ∈ [1, 2]) ∧
    ((Tests.up 2).sysRuns = true ∧ (Tests.up 2).pwr.sysrst = false ∧ (Tests.up 2).pwr.boot = 0) ∧
    ((Tests.up 2).onPwr fun p => { p with boot := 4 }).pwr.boot = 4 := by decide

theorem witness_OscillatorAndMreqAreChecked :
    ((Tests.up 2).on PWR_CLK.CANARY_RUN = true ∧ (State.reset.set SAF_TRIP.LIVE 0x100).bitOf SAF_TRIP.LIVE 8 = true ∧
      (Tests.up 2).foremanRuns = true ∧ (Tests.up 2).on PWR_CLK.REF_PRESENT = true) ∧
    (let s := (((Tests.up 4).set EXP_MREQ_STATUS.REQUESTING 1).onCad fun c => { c with mreq := true }).onSaf fun f => { f with mreqRise := some 5 }
     s.on EXP_MREQ_STATUS.REQUESTING = true ∧ s.cad.mreq = true ∧ s.saf.mreqRise = some 5) ∧
    (let s := (((Tests.up 4).set EXP_MREQ_STATUS.REQUESTING 1).set CHN_STATE.TALLY 1).onSaf fun f => { f with mreqRise := some 0, mreqFall := some 1000 }
     s.on EXP_MREQ_STATUS.REQUESTING = true ∧ s.cad.mreq = false ∧ s.get CHN_STATE.TALLY = 1) ∧
    State.reset.on EXP_MREQ_STATUS.REQUESTING = false := by decide

theorem witness_HoldIsEntered :
    (stIDLE ≤ (Tests.up 2).power ∧ (Tests.up 2).power ≤ stCAPTURE ∧ (Tests.up 2).pwr.startup = 0 ∧ (Tests.up 2).pwr.sysrst = false) ∧
    ¬ (stIDLE ≤ State.reset.power) := by decide

theorem witness_FaultsCallRecoveryLevels :
    (State.reset.power = stSTANDBY) ∧
    (let s := Tests.up 2
     stIDLE ≤ s.power ∧ s.power ≤ stHOLD ∧ s.pwr.startup = 0 ∧ s.get SAF_STATUS.LEVEL = 0 ∧ s.saf.deferred = none ∧ s.get CHN_STATE.TALLY ≠ 1 ∧
     (s.set CHN_STATE.TALLY 1).get CHN_STATE.TALLY = 1) ∧
    (let s := ((Tests.up 5).set SAF_STATUS.LEVEL 2).onSaf fun f => { f with covered := [faultClass 0x0202 1] }
     stIDLE ≤ s.power ∧ s.power ≤ stHOLD ∧ s.pwr.startup = 0 ∧ s.get SAF_STATUS.LEVEL ≠ 0 ∧ s.saf.covered.contains (faultClass 0x0202 1) = true) := by decide

theorem witness_RecoveriesEnd :
    (let s := (Tests.up 2)
     s.takes .foreman 0x03008 0x7FF = true ∧ (s.booked .foreman 0x03008 0x7FF).mayWrite .foreman SAF_TRIP.LATCHED = true ∧
     s.takes .foreman 0x03014 2 = true ∧ (s.booked .foreman 0x03014 2).mayWrite .foreman SAF_CMD.TEST_TRIP = true ∧
     (s.booked .foreman 0x03014 2).on PWR_CLK.CANARY_RUN = true ∧ s.on PWR_CLK.CANARY_RUN = true) ∧
    (let s := ((Tests.up 3).set CHN_STATE.TALLY 1).set SAF_STATUS.LEVEL 3
     let b := s.booked .foreman 0x03014 1
     s.takes .foreman 0x03014 1 = true ∧ b.mayWrite .foreman SAF_CMD.CHAIN_RESTART = true ∧ b.get CHN_STATE.TALLY = 1 ∧ b.get SAF_STATUS.LEVEL = 3 ∧
     b.saf.restart = none ∧ b.holdCause stREADY = false) ∧
    ((Tests.up 2).get SAF_STATUS.LEVEL = 0 ∧ ((Tests.up 5).set SAF_STATUS.LEVEL 2).get SAF_STATUS.LEVEL = 2 ∧ (Tests.up 5).saf.timedOut = false ∧
      ((Tests.up 5).set SAF_STATUS.LEVEL 3).get SAF_STATUS.LEVEL = 3 ∧
      ((Tests.up 5).onSaf fun f => { f with restart := some 0 }).saf.restart = some 0) ∧
    ((Tests.up 3).onSaf fun f => { f with deferred := some (0x0703, 0, 0) }).saf.deferred = some (0x0703, 0, 0) ∧
    (let s := (((Tests.up 5).set SAF_STATUS.LEVEL 2).set SAF_CTRL.L2_RELEASE 1).onSaf fun f => { f with entryState := 2 }
     s.power = stHOLD ∧ s.get SAF_STATUS.LEVEL = 2 ∧ s.on SAF_CTRL.L2_RELEASE = true ∧ s.saf.acting = false ∧ s.pagesUp = true ∧ s.pwr.boot = 0 ∧
     s.l2Clear (if s.saf.entryState = stIDLE then stIDLE else stREADY) = true) ∧
    (((Tests.up 3).set SAF_STATUS.LEVEL 1).onSaf fun f => { f with l1 := some (0x0C03, 1) }).saf.l1 = some (0x0C03, 1) ∧
    ((Tests.up 3).set SAF_STATUS.LEVEL 1).get SAF_STATUS.LEVEL = 1 := by decide

theorem witness_SkimCountsAPacket :
    (let s := Tests.up 4
     s.cadenceRuns = true ∧ s.disarmed 1 12383 = false ∧ (18000 + 250 * s.get EXP_ARRAY_STATUS.THRESH_ACTIVE) * 256 ≤ Tbl.get 0 s.arr.charge (nodeKey 1 12383 16511) + 6000000 ∧
     Tbl.get 0 s.arr.counts (nodeKey 1 12383 16511) % 4096 < 4095) ∧
    (let s := (Tests.up 4).onArr fun a => { a with counts := [(nodeKey 0 0 0, 4095)] }
     s.cadenceRuns = true ∧ s.disarmed 0 0 = false ∧ Tbl.get 0 s.arr.counts (nodeKey 0 0 0) % 4096 = 4095) ∧
    State.reset.cadenceRuns = false := by decide

theorem witness_RowsLatchResetAndHeldPasses :
    (let s := (Tests.up 4).onArr fun a => { a with pass := some { tap := 1, gains := 0, sweep := 0, began := 0, black := false, enables := 2 ^ 256 - 1, index := 0, row := 2, reset := 1 } }
     ∃ p : Pass, s.arr.pass = some p ∧ p.row < p.rows ∧ p.rows ≠ 0 ∧ p.reset < p.row ∧ p.reset + 1 ≠ p.rows ∧ p.tap < 2) ∧
    (let s := (Tests.up 4).onArr fun a => { a with pass := some { tap := 1, gains := 0, sweep := 0, began := 0, black := false, enables := 0, index := 0 } }
     ∃ p : Pass, s.arr.pass = some p ∧ p.rows = 0) ∧
    ((Tests.up 4).onArr fun a => { a with held := some (0, 0, 0) }).arr.held = some (0, 0, 0) ∧
    ((Tests.up 4).cnv.step = none ∧ (Tests.up 4).cnv.recal = false ∧ (Tests.up 4).arr.pass = none) :=
  ⟨⟨_, rfl, by decide, by decide, by decide, by decide, by decide⟩, ⟨_, rfl, by decide⟩, by decide, by decide⟩

/-- A unit in CAPTURE whose table has reached one entry, the sweep begun. -/
def Tests.atEntry (e : Nat) : State :=
  ((Tests.up 4).set CAD_STATE.TABLE_RUN 1).onCad fun c => { c with act := [(0, e)], ptr := 0, frameAt := 0, sweepDue := false }

theorem witness_TableEntriesRun :
    ∀ code ∈ [0, 1, 2, 3, 4, 5, 6, 7, 8, 15], let s := Tests.atEntry (code * 2 ^ 60 + 5 * 2 ^ 25)
      s.sweepRuns = true ∧ s.on CAD_STATE.TABLE_RUN = true ∧ s.cad.ptr < 4096 ∧ entryAction s.entry = code ∧ entryFrame s.entry = s.cad.frameIx ∧
      s.entryLate (entryFrame s.entry) (s.cad.frameAt + entryOffset s.entry) = false ∧
      (s.advance 6).entryLate (entryFrame s.entry) (s.cad.frameAt + entryOffset s.entry) = true := by decide

theorem witness_GatesOpenAndClose :
    (let s := Tests.atEntry (2 ^ 60 + 2 ^ 52 + 7)
     s.triggerCols &&& s.maskCols (entryMask s.entry) = 0 ∧ s.get EXP_MODE.MODE_ACTIVE ≠ 4 ∧ entryMeas s.entry = true ∧
     s.on CAD_STATE.MEAS_OK = false ∧ s.cad.suppr = false ∧ (s.onCad fun c => { c with suppr := true }).cad.suppr = true ∧
     (s.set CAD_STATE.MEAS_OK 1).on CAD_STATE.MEAS_OK = true ∧ s.tapBusy 0 = false) ∧
    (let s := (Tests.up 4).onArr fun a => { a with pass := some { tap := 1, gains := 0, sweep := 0, began := 0, black := false, enables := 0, index := 0 } }
     s.tapBusy 1 = true) ∧
    ((Tests.up 4).onCad fun c => { c with gates := [(15, ⟨1, some 9, 1, false⟩)] }).cad.gates = [(15, ⟨1, some 9, 1, false⟩)] ∧
    (∀ e ∈ (Tests.up 4).cad.gates, e.2.ends = none) := by decide

theorem witness_TriggersOpenAndEnd :
    (let s := ((Tests.up 4).set (CAD_TRIG_CFG.EN 3) 1).onCad fun c => { c with trg := [(3, { armed := true })] }
     s.cadenceRuns = true ∧ s.on (CAD_TRIG_CFG.EN 3) = true ∧ true = !s.on (CAD_TRIG_CFG.POL 3) ∧ (s.trg 3).armed = true ∧
     (s.trg 3).busy (800 / 8) = false ∧ s.tapBusy (s.trg 3).runTap = false) ∧
    (let s := ((Tests.up 4).set (CAD_TRIG_CFG.EN 0) 1).onCad fun c => { c with trg := [(0, { armed := true, lastEnd := some 1 })] }
     s.on (CAD_TRIG_CFG.EN 0) = true ∧ (s.trg 0).armed = true ∧ (s.trg 0).busy 100 = true ∧ (s.trg 0).busy 101 = false) ∧
    (((Tests.up 4).onCad fun c => { c with trg := [(0, { opensAt := some 3 })] }).trg 0).opensAt = some 3 ∧
    (((Tests.up 4).onCad fun c => { c with trg := [(0, { endsAt := some 3 })] }).trg 0).endsAt = some 3 := by decide

theorem witness_VideoTablesAndModes :
    (let s := ((Tests.up 4).set EXP_MODE_STATUS.VIDEO_RUN 1)
     s.sweepRuns = true ∧ s.on EXP_MODE_STATUS.VIDEO_RUN = true ∧ s.cad.video = 0 ∧ s.tapBusy 0 = false ∧ s.cad.scan.st ≠ 3 ∧
     (s.onCad fun c => { c with video := 2 }).cad.video = 2 ∧ s.arr.pass = none ∧ s.arr.held = none ∧
     ((s.onCad fun c => { c with video := 2 }).onArr fun a => { a with pass := some { tap := 0, gains := 0, sweep := 0, began := 0, black := false, enables := 0, index := 0 } }).arr.pass.isSome = true ∧
     (s.onCad fun c => { c with video := 3 }).cad.video = 3) ∧
    (let s := Tests.up 3
     s.takes .foreman 0x05064 7 = true ∧ (s.booked .foreman 0x05064 7).shadowOpen = true ∧ (s.booked .foreman 0x05064 7).mayWrite .foreman CAD_SHD_HI.HI = true ∧
     ((s.set CAD_TBL_STATUS.PENDING 1).booked .foreman 0x05064 7).shadowOpen = false ∧ s.answers .bar0 0x05078 = true ∧
     s.takes .foreman 0x05068 1 = true ∧ (s.booked .foreman 0x05068 1).mayWrite .foreman CAD_SWAP.REQ = true ∧
     (s.booked .foreman 0x05068 1).on CAD_TBL_STATUS.PENDING = false ∧ (s.booked .foreman 0x05068 1).power ≠ stCAPTURE) ∧
    (let s := Tests.up 3
     s.takes .foreman 0x06000 0 = true ∧ (s.booked .foreman 0x06000 0).mayWrite .foreman EXP_MODE.MODE = true ∧
     bit ((s.booked .foreman 0x06000 0).get EXP_MODE_ALLOW.ALLOW) (EXP_MODE.MODE.of 0) = true ∧ 5 ≤ EXP_MODE.MODE.of 5) ∧
    ((Tests.up 4).cadenceRuns = true ∧ (Tests.up 4).on CAD_STATE.LS_FAULT = false ∧ State.reset.cadenceRuns = false ∧
      copyGroups ((Tests.up 4).advance 9).copyP { ((Tests.up 4).advance 9).copyP with mreq := true } ≠ 0 ∧
      ((Tests.up 4).onCad fun c => { c with pulse := some 8 }).cad.pulse = some 8) := by decide

theorem witness_TrackersFollowTheirEdges :
    (let s := ((Tests.up 3).set CAD_SRC.MAINS_SRC 3).onCad fun c => { c with mains := { st := 2, p := some 65536000, per := some 655360000 } }
     s.cadenceRuns = true ∧ s.get CAD_SRC.MAINS_SRC = 3 ∧ true = !s.on CAD_MAINS_CFG.POL ∧ s.cad.mains.st = 2 ∧
     64 * ((8001 * 8192 : Nat) - (65536000 : Nat) : Int).natAbs ≤ 655360000 ∧
     ((8001 * 8192 : Nat) - (65536000 : Nat) : Int).natAbs ≤ s.get CAD_ACQ.MAINS_TOL * 2000 * 65536 ∧
     655360000 < 64 * ((10000 * 8192 : Nat) - (65536000 : Nat) : Int).natAbs) ∧
    (let s := ((Tests.up 3).set CAD_SRC.MAINS_SRC 3).onCad fun c => { c with mains := { st := 1 } }
     s.cad.mains.st = 1 ∧ s.cad.mains.p = none ∧ s.cad.mains.first = none) ∧
    State.reset.cadenceRuns = false ∧
    (let s := ((((Tests.up 3).set CAD_SRC.SCAN_SRC 1).set CAD_SCAN_CFG.LINES 9)).onCad fun c => { c with scan := { st := 1 }, lines := some 8 }
     s.cadenceRuns = true ∧ s.get CAD_SRC.SCAN_SRC = 1 ∧ true = !s.on CAD_SCAN_CFG.POL ∧ s.cad.scan.st ≠ 0 ∧ s.cad.lines = some 8 ∧
     s.get CAD_SCAN_CFG.LINES ≠ 0 ∧ 8 ≠ s.get CAD_SCAN_CFG.LINES ∧ true = !s.on CAD_SCAN_CFG.LINE_POL) := by decide

theorem witness_TrackersRunWithoutEdges :
    (let s := ((Tests.up 3).set CAD_SRC.MAINS_SRC 5).onCad fun c => { c with mains := { st := 1, p := some 1, per := some 1, agree := 7 } }
     s.cadenceRuns = true ∧ s.get CAD_SRC.MAINS_SRC = 5 ∧ s.cad.mains.p = some 1 ∧ s.cad.mains.st = 1 ∧ 7 ≤ s.cad.mains.agree) ∧
    (let s := ((Tests.up 3).set CAD_SRC.MAINS_SRC 3).onCad fun c => { c with mains := { st := 3, p := some 1, per := some 128, left := 1 } }
     s.cadenceRuns = true ∧ (s.trk true).st ≠ 0 ∧ s.trkSrc true = 3 ∧ (s.trk true).p = some 1 ∧ (s.trk true).per = some 128 ∧ s.onNet true = false ∧ 0 < s.cad.mains.left) ∧
    (State.reset.cadenceRuns = false) ∧
    (let s := (((Tests.up 3).set CAD_SRC.MAINS_SRC 4).onCad fun c => { c with mains := { st := 2, p := some 65535, per := some 128 } }).onTim fun t =>
       { t with pubs := [(1, some { epoch := 0, period := 0, frame := 0, arrived := 0 })] }
     s.cadenceRuns = true ∧ s.onNet true = true ∧ (s.trk true).st ≠ 0 ∧ (s.trk true).st ≠ 4 ∧ (s.pubOf true).isSome = true ∧ s.on TIM_STATUS.CHAIN_OK = false) ∧
    (let s := Tests.up 3
     s.takes .foreman 0x05004 0 = true ∧ (s.booked .foreman 0x05004 0).mayWrite .foreman CAD_SRC.SCAN_SRC = true ∧ s.takes .foreman 0x05004 0x500 = true) := by decide

theorem witness_CalibrationStepsEnd :
    (State.reset.implausible (State.reset.sliceNow 0 4) = none ∧ State.reset.implausible { State.reset.sliceNow 2047 4 with fit := 25 } = some 4 ∧
      (State.reset.bank 0).strikes + 1 < State.reset.get CAL_LIMIT.STRIKES ∧ (State.reset.set CAL_LIMIT.STRIKES 1).get CAL_LIMIT.STRIKES ≤ (State.reset.bank 0).strikes + 1) ∧
    ((Tests.up 4).onCnv fun c => { c with step := some (2, 0) }).cnv.step = some (2, 0) ∧
    (let s := (Tests.up 4).onCnv fun c => { c with step := some (1, 0) }
     s.cnv.step = some (1, 0)) ∧
    ((State.reset.coef (qpKey 1 1023) : Int) * 399 ≤ 0x400000 * 400 ∧ (0 : Int) * 400 < State.reset.coef (qpKey 0 0) * 399) ∧
    (let s := ((Tests.up 3).onCnv fun c => { c with recal := true }).onSaf fun f => { f with l1 := some (0x0703, 0) }
     s.cnv.recal = true ∧ s.cnv.banks = [] ∧ s.saf.l1 = some (0x0703, 0)) := by decide

theorem witness_BaselineAndMonitor :
    (let s := Tests.up 2
     s.takes .foreman 0x0804C 2 = true ∧ (s.booked .foreman 0x0804C 2).mayWrite .foreman CAL_BASE_CMD.COMMIT = true ∧
     (s.booked .foreman 0x0804C 2).on CAL_BASE_STATUS.BUSY = false ∧ s.showBase.takes .foreman 0x08048 5 = true ∧
     (s.showBase.booked .foreman 0x08048 5).mayWrite .foreman CAL_BASE_VAL.VAL = true ∧ s.takes .foreman 0x0804C 1 = true ∧
     (s.booked .foreman 0x0804C 1).on CAL_BASE_STATUS.BUSY = false ∧ (s.booked .foreman 0x0804C 1).storeRefuses = none ∧
     Tbl.get false (s.booked .foreman 0x0804C 1).nvs.worn (98 + 24 * ((s.booked .foreman 0x0804C 1).nextBank 2).1) = false) ∧
    (State.reset.mon.conv = none ∧ (State.reset.set MON_CTRL.RUN 0).on MON_CTRL.RUN = false) ∧
    (let s := ((Tests.up 2).set MON_CTRL.RUN 1).onMon fun m => { m with conv := some ⟨15, 0, true, 21, 0, 0, 6⟩ }
     s.on MON_CTRL.RUN = true ∧ s.mon.stopping = false ∧ s.on (MON_LIM.EN 15) = false ∧
     s.mon.full = false ∧
     s.get MON_BUF_WR.WR + 8 < 2 ^ s.get MON_BUF_CFG.LOG2SIZE ∧ s.get MON_BUF_WR.WR + 8 < 2 ^ MON_BUF_WR.WR.width) ∧
    ((Tests.up 2).takes .foreman 0x09000 0 = true ∧ ((Tests.up 2).set (MON_LAST.VALID 16) 1).on (MON_LAST.VALID 16) = true ∧ ((Tests.up 2).set (MON_LAST.VALID 16) 1).monitorRuns = true) := by decide

theorem witness_SweepStartsPutValuesInForce :
    (State.reset.cadenceRuns = false ∧ State.reset.cad.sweepDue = false ∧ State.reset.cad.scan.p = none) ∧
    (let s := (Tests.up 4).onCad fun c => { c with sweepDue := true }
     s.cadenceRuns = true ∧ s.cad.sweepDue = true) ∧
    (EXP_SKIM.THRESH ∈ pendingFields ∧ (State.reset.set CAD_TBL_STATUS.PENDING 1).on CAD_TBL_STATUS.PENDING = true) ∧
    (let s := (Tests.up 3).set PWR_STATUS.PENDING 4
     s.get PWR_STATUS.PENDING = stCAPTURE ∧ s.power = stREADY ∧ s.get SAF_STATUS.LEVEL ≠ 2) ∧
    (let s := (Tests.up 4).set PWR_STATUS.PENDING 3
     s.get PWR_STATUS.PENDING = stREADY ∧ s.power = stCAPTURE) ∧
    (let s := (((((((((Tests.up 4).set CHN_STATE.TALLY 1).set SAF_STATUS.FIRST_WRITE 1).set HST_STATUS.REQ_OK 1).set EXP_MODE.MODE_ACTIVE 2).set
       EXP_MREQ_CTRL.EN 1).set CAD_STATE.MEAS_OK 1).set EXP_MREQ_CTRL.LEAD 15).onCad fun c => { c with measSince := true, act := [(0, 2 ^ 60 + 2 ^ 52), (1, 15 * 2 ^ 60)] })
     s.get CHN_STATE.TALLY = 1 ∧ s.on EXP_MREQ_STATUS.REQUESTING = false ∧ s.mreqFails = none ∧ 0 < s.get EXP_MREQ_CTRL.LEAD ∧ s.get EXP_MREQ_CTRL.LEAD < 16) := by decide

theorem witness_TimeIsRatedSteppedAndSlewed :
    (let s := (Tests.up 2).set TIM_CTRL.SERVO 0
     s.takes .bar0 0x04024 1 = true ∧ (s.booked .bar0 0x04024 1).hostIgnored .bar0 = false ∧ s.takes .bar0 0x04030 0 = true ∧
     ((s.set TIM_CTRL.SERVO 1).booked .bar0 0x04024 1).hostIgnored .bar0 = true ∧ s.get TIM_STATUS.STATE = 0) ∧
    (let s := (Tests.up 2).set TIM_STATUS.STATE 1
     s.get TIM_STATUS.STATE = 1 ∧ ((0 : Int).natAbs : Int) ≤ (s.get TIM_JUMP.US : Int) * 1000 * 65536 ∧
     (s.get TIM_JUMP.US : Int) * 1000 * 65536 < ((10 ^ 20 : Int).natAbs : Int)) ∧
    (let s := (Tests.up 2).set TIM_STATUS.SLEWING 1
     TIM_STEP_CMD.ACCEPT.of 1 = 1 ∧ s.takes .foreman 0x04034 1 = true ∧ (s.booked .foreman 0x04034 1).mayWrite .foreman TIM_STEP_CMD.ACCEPT = true ∧
     (s.booked .foreman 0x04034 1).on TIM_STATUS.SLEWING = true ∧ (s.booked .foreman 0x04034 1).hostIgnored .foreman = false) ∧
    (let s := (((Tests.up 2).set TIM_STATUS.STATE 2).set CHN_STATE.TALLY 1).set TIM_HOLD.MAX_S 5
     let u := s.onTim fun t => { t with slew := some (7, 0), lastHost := some 0, holdAt := some 0 }
     u.tim.slew = some (7, 0) ∧ u.tim.lastHost = some 0 ∧ u.get CHN_STATE.TALLY = 1 ∧ u.tim.holdAt = some 0 ∧ u.get TIM_STATUS.STATE = 2 ∧ u.get TIM_HOLD.MAX_S ≠ 0) := by decide

theorem witness_PulseOutputs :
    (let s := (Tests.up 2).set (TIM_TP_WIDTH.NS 3) 10
     let o := 0x04100 + 32 * (3 : Fin 4).val
     s.takes .foreman o 0 = true ∧ (s.booked .foreman o 0).mayWrite .foreman (TIM_TP_CFG.EN 3) = true ∧ (TIM_TP_CFG.EN 3).of 0 = 0 ∧
     s.takes .foreman o 0x80000000 = true ∧ (TIM_TP_CFG.EN 3).of 0x80000000 = 1 ∧ (s.booked .foreman o 0x80000000).tpResult 3 0 = 0 ∧
     (s.booked .foreman o 0x80000000).on (TIM_TP_CFG.EN 3) = false ∧
     ((s.set (TIM_TP_WIDTH.NS 3) 9).booked .foreman o 0x80000000).tpResult 3 0 ≠ 0) ∧
    (let s := ((Tests.up 2).set TIM_STATUS.STATE 1).onTim fun t => { t with tp := [(0, { next := some 4 }), (3, { high := true, fall := 9 })] }
     (s.tpulse 0).next = some 4 ∧ s.pulsesRun = true ∧ (s.tpulse 3).high = true ∧ (s.tpulse 1).next = none ∧ (s.tpulse 1).high = false) := by decide

def Tests.pkt (dt vc dst : Nat) (payload : List Nat) : Packet := ⟨dt, vc, 1, 1, dst, 0, 0, 0, payload⟩

theorem witness_ChainTimeMessages :
    (let s := ((Tests.up 2).set (LNK_STATE.STATE 0) 5).set CHN_STATE.TALLY 2
     s.portActive false = true ∧ s.portActive true = false ∧ s.isPithead = false ∧ (Tests.pkt 0x33 1 2 [0, 0, 0, 0]).fits 0x33 = true ∧
     (Tests.pkt 0x33 1 2 [0, 0, 0, 0]).at_ 0 1 = 0 ∧ (Tests.pkt 0x33 1 2 [1, 0, 0, 0]).at_ 0 1 = 1 ∧ (Tests.pkt 0x33 1 2 [2, 0, 0, 0]).at_ 0 1 = 2 ∧
     (s.onTim fun t => { t with delay := [(0, { t1 := some 0, t4 := some 9 })] }).delay false = { t1 := some 0, t4 := some 9 } ∧
     (Tests.pkt 0x30 1 63 []).fits 0x30 = true ∧ (Tests.pkt 0x30 0 63 []).fits 0x30 = false ∧ (Tests.pkt 0x31 1 63 []).fits 0x31 = true ∧
     (Tests.pkt 0x32 1 63 []).fits 0x32 = true ∧ (s.port false).stamps.headD false = false ∧
     ((s.setPort true fun p => { p with stamps := [true] }).port true).stamps.headD false = true ∧ (s.set TIM_STATUS.CHAIN_OK 1).on TIM_STATUS.CHAIN_OK = true) ∧
    (let s := ((Tests.up 2).set CHN_STATE.TALLY 2).set CHN_STATE.STATE 2
     let k := Tests.pkt 0x30 1 63 ([0, 18, 0, 44, s.get TIM_SYNC.DOMAIN] ++ List.replicate 39 0)
     ((s.advance 0).relay false k).isCrew = true ∧ ((s.advance 0).relay false k).messageFails false k.payload = none ∧
     ((s.advance 0).relay false (Tests.pkt 0x30 1 63 [])).messageFails false [] = some 2) ∧
    (let s := ((Tests.up 2).set CHN_STATE.TALLY 1).set TIM_STATUS.STATE 1
     s.isPithead = true ∧ s.publication true = none ∧ ((s.set TIM_SYNC.EN 1).advance 0).sendsSync = true ∧
     (s.onTim fun t => { t with syncOut := [(0, 8)] }).tim.syncOut = [(0, 8)]) := by decide

theorem witness_PacketsMeetThePorts :
    (let s := (Tests.up 3).set CHN_STATE.TALLY 2
     (Tests.pkt 0x07 0 5 []).fits 0x07 = true ∧ (Tests.pkt 0x07 0 5 []).fits 0x08 = false ∧ s.stale (Tests.pkt 0x07 0 5 []) = false ∧
     (Tests.pkt 0x07 0 5 []).dst ≠ 63 ∧ (Tests.pkt 0x07 0 5 []).dst ≠ s.get CHN_STATE.TALLY ∧ (Tests.pkt 0x07 0 63 []).dst = 63 ∧ s.get CHN_STATE.TALLY ≠ 63) ∧
    (let s := ((Tests.up 3).set CHN_STATE.TALLY 1).setPeer 2 fun p => { p with inc := 9, dead := true }
     s.stale { Tests.pkt 0x18 5 1 [] with src := 2, inc := 3 } = true ∧ (s.peer 2).dead = true ∧ Tbl.get none s.chn.benchAt 2 = none) ∧
    (((Tests.up 3).set (LNK_STATE.STATE 0) 5).get (LNK_STATE.STATE (px (!true))) = 5 ∧ (Tests.up 3).get (LNK_STATE.STATE (px (!true))) ≠ 5) := by decide

theorem witness_RollCallsRun :
    (let s := ({ Tests.up 3 with serial := 5 } : State).onChn fun c => { c with roll := some ⟨true, false, 0, none, 0, false⟩, joinAt := some 3 }
     s.chn.roll.isSome = true ∧ s.chn.joinAt = some 3 ∧ s.get CHN_STATE.TALLY ≠ 1 ∧ (s.set CHN_STATE.TALLY 1).get CHN_STATE.TALLY = 1 ∧
     (Tests.pkt 0x03 0 63 []).fits 0x03 = true ∧ (Tests.pkt 0x04 0 1 [7]).fits 0x04 = true ∧
     (Tests.pkt 0x03 0 63 []).at_ 8 8 = 0 ∧ s.serial ≠ 0 ∧
     (Tests.pkt 0x03 0 63 (zeroBytes 8 ++ leBytes s.serial 8)).at_ 8 8 = s.serial ∧ bit ((Tests.pkt 0x03 0 63 [2, 1, 0]).at_ 2 1) 1 = false ∧
     (∀ e ∈ s.chn.peers, 2 ≤ e.1 → e.2.serial ≠ 7)) ∧
    ((State.reset.chn.roll = none) ∧ (State.reset.chn.joinAt = none)) ∧
    (let s := (Tests.up 3).set CHN_STATE.TALLY 1
     let w := 2 ^ 31 + s.chnCtrlWord
     let v := 2 ^ 30 + s.chnCtrlWord
     let b := (s.booked .foreman 0x0B000 w).writeFields .foreman 0x0B000 w
     let c := (s.booked .foreman 0x0B000 v).writeFields .foreman 0x0B000 v
     s.chnCtrlWord < 2 ^ 30 ∧ s.takes .foreman 0x0B000 w = true ∧ b.mayWrite .foreman CHN_CTRL.FULL_CALL = true ∧ b.get CHN_STATE.TALLY = 1 ∧ b.get CHN_DRL_STATUS.STATE ≠ 1 ∧
     s.takes .foreman 0x0B000 v = true ∧ c.mayWrite .foreman CHN_CTRL.JOIN_CALL = true ∧ c.get CHN_STATE.TALLY = 1 ∧ c.chn.waitingCall = 0) := by decide

theorem witness_UnitsAreGrantedAndElected :
    (let s := ({ Tests.up 3 with serial := 5 } : State).set CHN_STATE.TALLY 2
     (Tests.pkt 0x05 0 2 (leBytes s.serial 8)).at_ 0 8 = s.serial ∧ (Tests.pkt 0x05 0 2 []).at_ 0 8 ≠ s.serial ∧ (Tests.pkt 0x05 0 2 []).fits 0x05 = true ∧
     (Tests.pkt 0x05 0 2 []).dst = s.get CHN_STATE.TALLY ∧ s.stale (Tests.pkt 0x05 0 2 []) = false ∧ s.get CHN_STATE.TALLY ≠ 1 ∧
     (Tests.pkt 0x06 0 2 []).fits 0x06 = true ∧ (Tests.pkt 0x06 0 2 [5, 1]).at_ 1 1 % 2 = 1 ∧ (s.set CHN_RING.HOPS_U 4).get CHN_RING.HOPS_U < 63) ∧
    (let s := (({ Tests.up 3 with serial := 5 } : State).set CHN_STATE.STATE 1).onChn fun c => { c with claimAt := some 9 }
     s.chn.claimAt = some 9 ∧ s.get CHN_STATE.STATE = 1 ∧ s.get CHN_STATE.TALLY ≠ 1 ∧ (Tests.pkt 0x01 0 63 []).fits 0x01 = true ∧
     (Tests.pkt 0x01 0 63 []).at_ 0 8 ≠ s.serial ∧ (Tests.pkt 0x01 0 63 (leBytes s.serial 8)).at_ 0 8 = s.serial ∧
     s.get CHN_CTRL.PRIORITY < (Tests.pkt 0x01 0 63 [0, 0, 0, 0, 0, 0, 0, 0, 9]).at_ 8 1 % 16 ∧ bit ((Tests.pkt 0x01 0 63 [0, 0, 0, 0, 0, 0, 0, 0, 9]).at_ 9 1) 0 = false ∧
     bit ((Tests.pkt 0x01 0 63 [0, 0, 0, 0, 0, 0, 0, 0, 9, 1]).at_ 9 1) 0 = true) ∧
    State.reset.chn.claimAt = none := by decide

theorem witness_DerailleurRuns :
    (let s := (Tests.up 4).set CHN_STATE.TALLY 1
     let b := (s.booked .foreman 0x0B014 (1 + s.get CHN_DRL_CMD.AHEAD * 256)).writeFields .foreman 0x0B014 (1 + s.get CHN_DRL_CMD.AHEAD * 256)
     s.takes .foreman 0x0B014 (1 + s.get CHN_DRL_CMD.AHEAD * 256) = true ∧ s.takes .foreman 0x0B014 (2 + s.get CHN_DRL_CMD.AHEAD * 256) = true ∧
     b.get CHN_STATE.TALLY = 1 ∧ b.mayWrite .foreman CHN_DRL_CMD.GO_GEAR = true ∧ b.mayWrite .foreman CHN_DRL_CMD.GO_ASSIGN = true ∧
     b.get CHN_DRL_STATUS.STATE = 0 ∧ b.power = stCAPTURE ∧ slotTwice b.chn.next = false ∧ slotTwice [(1, ⟨true, 0, 4, 0⟩), (2, ⟨true, 0, 4, 2⟩)] = true) ∧
    (let s := ((Tests.up 4).set CHN_STATE.TALLY 2).set CHN_STATE.STATE 2
     s.isCrew = true ∧ (Tests.up 3).isCrew = false ∧
     (∀ dt ∈ [0x09, 0x0A, 0x0C, 0x0D, 0x0F], (Tests.pkt dt 0 2 []).fits dt = true) ∧ (Tests.pkt 0x0F 0 2 []).dst = s.get CHN_STATE.TALLY ∧
     s.stale (Tests.pkt 0x0A 0 2 []) = false ∧
     ((s.onChn fun c => { c with armed := some ⟨7, 0, 0, 0, false, false, 0⟩ }).chn.armed = some ⟨7, 0, 0, 0, false, false, 0⟩) ∧
     (Tests.pkt 0x0C 0 2 [7]).at_ 0 1 = 7) ∧
    (let s := (((Tests.up 4).set CHN_STATE.TALLY 1).set CHN_DRL_STATUS.STATE 1).onChn fun c => { c with drl := some ⟨true, false, 0, 1, 1, 0, 0, 0, 0⟩ }
     (Tests.pkt 0x0B 0 1 [0, 1]).fits 0x0B = true ∧ s.get CHN_STATE.TALLY = 1 ∧ s.stale (Tests.pkt 0x0B 0 1 [0, 1]) = false ∧
     (Tests.pkt 0x0B 0 1 [0, 1]).at_ 0 1 = s.get CHN_DRL_STATUS.NUMBER ∧ s.get CHN_DRL_STATUS.STATE = 1 ∧ s.chn.drl.isSome = true ∧
     (Tests.pkt 0x0B 0 1 [0, 1]).at_ 1 1 ≠ 0 ∧ (Tests.pkt 0x0B 0 1 [0, 0]).at_ 1 1 = 0 ∧ (Tests.pkt 0x0B 0 1 [0, 0]).src < 64) ∧
    (let s := (Tests.up 3).set CHN_ASG_SEL.BANK 1
     s.takes .foreman 0x0B03C 0 = true ∧ (s.booked .foreman 0x0B03C 0).mayWrite .foreman CHN_ASG_HI.VALID = true ∧
     (s.booked .foreman 0x0B03C 0).on CHN_ASG_SEL.BANK = true ∧ (s.booked .foreman 0x0B03C 0).bankFrozen = false ∧
     s.takes .foreman 0x0B040 1 = true ∧ (s.booked .foreman 0x0B040 1).mayWrite .foreman CHN_ASG_CMD.COPY = true ∧
     s.takes .foreman 0x0B040 2 = true ∧ (s.booked .foreman 0x0B040 2).mayWrite .foreman CHN_ASG_CMD.COPY = true) := by decide

theorem witness_BeatsAndNoticesAreHeard :
    (let s := ((Tests.up 3).set CHN_STATE.TALLY 2).set CHN_STATE.STATE 2
     (∀ e ∈ [(0x07, 0), (0x08, 0), (0x10, 2), (0x11, 3), (0x12, 0), (0x18, 5)], (Tests.pkt e.1 e.2 2 []).fits e.1 = true) ∧
     (Tests.pkt 0x10 2 2 []).dst = s.get CHN_STATE.TALLY ∧ s.stale (Tests.pkt 0x10 2 2 []) = false ∧ s.get CHN_STATE.TALLY ≠ 1 ∧
     (s.set CHN_STATE.INC 5).get CHN_STATE.INC = (Tests.pkt 0x07 0 2 [5]).at_ 0 1 ∧ s.get CHN_STATE.TALLY ≠ 0 ∧
     s.pwr.boot = 0 ∧ s.pwr.sysrst = false ∧ 0 < s.get CHN_CTRL.DEAD_THRESH ∧ s.chn.beatSeen = false ∧ s.get CHN_STATE.ROLE ≠ 1 ∧
     s.chn.beatMissed + 1 < s.get CHN_CTRL.DEAD_THRESH ∧
     s.get CHN_CTRL.DEAD_THRESH ≤ (s.onChn fun c => { c with beatMissed := 300 }).chn.beatMissed + 1 ∧ s.isCrew = true) ∧
    (let s := (((Tests.up 3).set CHN_STATE.TALLY 1).setJoined 2 true).set CHN_STATE.STATE 4
     let k := { Tests.pkt 0x10 2 1 [] with src := 2, inc := 0 }
     s.get CHN_STATE.TALLY = 1 ∧ bit s.joinedMap k.src = true ∧ s.stale k = false ∧ bit (k.at_ 3 1) 1 = false ∧ s.saf.restart = none ∧
     bit s.joinedMap 5 = false ∧ s.events.length < 1024 ∧ k.dst = 1 ∧ 2 ≤ k.src) ∧
    (let s := ((Tests.up 4).set CHN_STATE.TALLY 1).onChn fun c => { c with remapped := true }
     s.chn.remapped = true ∧ s.get CHN_STATE.TALLY = 1 ∧ s.power = stCAPTURE ∧ s.get CHN_DRL_STATUS.STATE = 0 ∧
     (s.set CHN_DRL_STATUS.STATE 1).get CHN_DRL_STATUS.STATE ≠ 0 ∧ (s.set CHN_STATE.TALLY 2).get CHN_STATE.TALLY ≠ 1) := by decide

theorem witness_LedgerTakesSweeps :
    (let s := ((Tests.up 3).set CHN_STATE.TALLY 1).onChn fun c => { c with build := [(2, some ⟨0, 0, 0, 0, [], [], [], [], []⟩)] }
     let k := { Tests.pkt 0x21 6 1 [1] with src := 2, inc := 0 }
     s.get CHN_STATE.TALLY = 1 ∧ s.stale k = false ∧ Tbl.get none s.chn.build 2 = some ⟨0, 0, 0, 0, [], [], [], [], []⟩ ∧ k.sweep = 0 ∧ k.inc = 0 ∧
     (∀ dt ∈ [0x20, 0x21, 0x22, 0x23, 0x24], (Tests.pkt dt 6 1 []).fits dt = true) ∧ Tbl.get none s.chn.build 3 = none ∧
     24 * bytesAt [] 10 3 ≤ ([] : List Nat).length ∧ ¬ (24 * bytesAt (zeroBytes 10 ++ [1]) 10 3 ≤ ([] : List Nat).length) ∧
     s.ledgerWaiting + s.buildBytes ≤ s.get CHN_INTAKE.HWM_MIB * 1048576 ∧
     (s.set CHN_INTAKE.HWM_MIB 0).get CHN_INTAKE.HWM_MIB * 1048576 < s.ledgerWaiting + (s.onChn fun c => { c with build := [(2, some ⟨0, 0, 0, 0, [1], [], [], [], []⟩)] }).buildBytes ∧
     s.chn.hwmRaised = false) ∧
    (let s := (Tests.up 3).set CHN_STATE.TALLY 1
     let x : StopeSweep := ⟨1, 0, 0, 0, 0, zeroBytes 32, [], [], [], []⟩
     s.ledgerCheck x = some .owner ∧ s.ledgerCheck { x with gear := 4 } = some .gear ∧ s.ledgerCheck { x with assign := 4 } = some .assign ∧
     s.ledgerCheck { x with src := 5, inc := 1 } = some .superseded ∧
     (s.onChn fun c => { c with bank := [(256, ⟨true, 0, 4, 0⟩)] }).ledgerCheck x = none ∧
     (s.setPeer 1 fun p => { p with quarantined := true }).ledgerCheck x = some .quarantined ∧
     (((s.set CHN_EPOCH.GEAR 1).onChn fun c => { c with since := some 0, acked := 2 }).ledgerCheck x = some .late)) ∧
    (Tests.pkt 0x0E 0 0 []).fits 0x0E = true ∧ (Tests.pkt 0x0E 0 0 []).dst = State.reset.get CHN_STATE.TALLY := by decide

theorem witness_BlocksFramesAndPacketsReadBack :
    ((List.replicate 62 5).length = 62 ∧ (Tests.pkt 0x05 0 63 (zeroBytes 16)).wf = true ∧
      vcOf (Tests.pkt 0x05 0 63 (zeroBytes 16)).dt = some (Tests.pkt 0x05 0 63 (zeroBytes 16)).vc) ∧
    (Tests.pkt 0x12 0 2 []).wf = true ∧ vcOf (Tests.pkt 0x12 0 2 []).dt = some 0 ∧
    (let s := ((Tests.up 3).set (LNK_STATE.MAP 0) 2).setLane false 1 fun l => { l with rx := [(7, some (laneWords 1 0 (List.replicate 62 3)))] }
     bitsOf (s.rxMap false) 8 = [1] ∧ s.blockAt false 7 1 = some (laneWords 1 0 (List.replicate 62 3))) := by decide

theorem witness_LanesSendReceiveAndLock :
    (let s := Tests.up 3
     s.portState false = 0 ∧ (s.set (LNK_STATE.STATE 1) 6).portState true = 6 ∧ (s.port true).ctls = [] ∧ (s.set (LNK_STATE.STATE 1) 5).portState true = 5 ∧
     (s.set (LNK_STATE.TX_SLEEP 1) 1).get (LNK_STATE.TX_SLEEP (px true)) = 1 ∧ s.get (LNK_STATE.TX_SLEEP (px true)) ≠ 1 ∧
     (s.set (LNK_STATE.STATE 1) 2).portState true = 2 ∧ (s.port true).sleeping = false ∧ (s.port true).keyed = false ∧ (s.port true).loopFar = none ∧
     ((s.setPort true fun p => { p with sleeping := true, keyed := true, loopFar := some 1 }).port true).sleeping = true ∧
     (((s.set SAF_STATUS.FIRST_WRITE 1).set HST_STATUS.REQ_OK 1).onSaf fun f => { f with r44 := true }).dataForced = false ∧
     bit (s.locked true) 0 = false ∧ bit (((s.setPort true fun p => { p with signal := 1 }).port true).signal) 0 = true ∧
     (s.lane true 0).confirm = 0 ∧ ((s.setLane true 0 fun l => { l with confirm := 4 }).lane true 0).confirm = 4 ∧
     bit ((s.set (LNK_LOCK.BLOCK_LOCK 1) 1).locked true) 0 = true ∧ ((s.setLane true 0 fun l => { l with miss := 3 }).lane true 0).miss = 3 ∧
     hasSync 0 = false ∧ hasSync (blockHeaderWord 0 63) = true ∧ headerGood (blockHeaderWord 0 63) = true ∧ headerGood syncWord = false) ∧
    (let s := (((Tests.up 3).set (LNK_STATE.STATE 0) 5).set (LNK_STATE.MAP 0) 3).set (LNK_STATE.WIDTH 0) 2
     s.portState false = 5 ∧ bit (s.rxMap false) 1 = true ∧ bit (s.get (LNK_STATE.FAILED (px false))) 1 = false ∧ (s.port false).newRx = none ∧
     (s.port false).laterMap = none ∧ setBit (s.rxMap false) 1 false ≠ 0 ∧ setBit ((s.set (LNK_STATE.MAP 0) 2).rxMap false) 1 false = 0 ∧
     s.get (LNK_STATE.PEER_SLEEP (px false)) ≠ 1 ∧ (s.set (LNK_STATE.PEER_SLEEP 0) 1).get (LNK_STATE.PEER_SLEEP (px false)) = 1 ∧
     (Tests.up 3).get (LNK_STATE.PEER_SLEEP (px true)) ≠ 1 ∧ ((s.set (LNK_LOOP.MODE 0) 3).set (LNK_LOOP.LANES 0) 1).get (LNK_LOOP.MODE (px false)) = 3) := by decide

theorem witness_PortsTrain :
    (let s := ((Tests.up 3).set (LNK_STATE.STATE 0) 2).set (LNK_LOCK.BLOCK_LOCK 0) 1
     s.training false = true ∧ (s.set (LNK_STATE.STATE 0) 1).portState false = 1 ∧ bit (s.locked false) 0 = true ∧ (s.training true = false) ∧
     ((Tests.up 3).set (LNK_STATE.STATE 0) 4).portState false = 4 ∧ ((Tests.up 3).set (LNK_STATE.STATE 0) 5).portState false = 5 ∧
     (s.port false).keyed = false ∧ ((s.setPort false fun p => { p with keyed := true, waiting := false, detectAt := some 5 }).training false = true) ∧
     (s.port false).detectAt = none) ∧
    (let s := ((Tests.up 3).set (LNK_STATE.STATE 0) 4).setPort false fun p => { p with agreed := 1, lanes := [(0, { eq := { stage := 13 } })] }
     s.training false = true ∧ (s.port false).startBc = none ∧ (s.port false).keyed = false ∧ (∀ n ∈ bitsOf (s.port false).agreed 8, 13 ≤ (s.lane false n).eq.stage) ∧
     ((s.setPort false fun p => { p with startBc := some 0 }).port false).startBc = some (((s.setPort false fun p => { p with startBc := some 0 }).port false).blocks % 65536) ∧
     tapsGood (s.tapsOf false 0) = true ∧ (s.set (LNK_PE.FIXED 0 0) 1).get (LNK_PE.FIXED (px false) 0) = 1 ∧ (s.lane false 1).eq.stage < 13) ∧
    (let s := (((Tests.up 3).set (LNK_STATE.STATE 0) 3).set (LNK_LOCK.BLOCK_LOCK 0) 1).setPort false fun p => { p with
        farLocked := 1, farMap := 1, widthMax := 8, lanes := [(0, { trained := 16 })] }
     s.portState false = 3 ∧ (s.port false).agreed = 0 ∧ lowestLanes (s.locked false &&& (s.port false).farLocked) (s.port false).widthMax &&& (s.port false).farMap ≠ 0 ∧
     (∀ n ∈ bitsOf (s.locked false) 8, 16 ≤ (s.lane false n).trained) ∧ s.tapsValid false 1 = false ∧
     (s.setPort false fun p => { p with tapsPeer := some 0, tapsMap := 1 }).tapsValid false 1 = true) ∧
    (let s := ((Tests.up 3).set (LNK_STATE.STATE 0) 1).setPort false fun p => { p with waiting := true }
     (s.port false).waiting = true ∧ s.portState false = 1) ∧
    (let s := (((Tests.up 3).set (LNK_STATE.STATE 0) 5).set SAF_STATUS.FIRST_WRITE 1).onSaf fun f => { f with r44 := true }
     s.takes .foreman 0x0C000 0x81000000 = true ∧ (s.booked .foreman 0x0C000 0x81000000).mayWrite .foreman (LNK_CTRL.RETRAIN 0) = true ∧
     (((s.booked .foreman 0x0C000 0x81000000).writeFields .foreman 0x0C000 0x81000000).reviewPort false).portState false = 5) := by decide

theorem witness_LinkControlMessages :
    (let s := ((Tests.up 3).set (LNK_STATE.STATE 0) 5).setPort false fun p => { p with widthMax := 8, txMap := 3 }
     let q := fun k => s.setPort false fun p => { p with requests := [(k, 7)] }
     s.portState false = 5 ∧ (Tests.up 3).portState false ≠ 5 ∧ (s.port false).asks 1 = false ∧ ((q 1).port false).asks 1 = true ∧
     ((q 3).port false).asks 3 = true ∧ ((q 7).port false).asks 7 = true ∧ (s.set (LNK_CTRL.FE_ALLOW 0) 1).get (LNK_CTRL.FE_ALLOW (px false)) = 1 ∧
     s.mapAllowed false 2 = true ∧ s.mapAllowed false 4 = false ∧ s.mapAllowed false 0 = false ∧
     s.get (LNK_CTRL.FE_ALLOW (px false)) ≠ 1 ∧ (q 1).inner false 1 0 = false ∧ (q 1).get CHN_STATE.TALLY ≠ 1 ∧
     ((q 1).set CHN_STATE.TALLY 1).inner false 2 1 = true ∧ ((Tests.up 3).set (LNK_STATE.STATE 0) 6).portState false = 6 ∧ s.hops ≠ 3) ∧
    (let s := (((Tests.up 3).set (LNK_STATE.STATE 0) 5).set (LNK_LOCK.BLOCK_LOCK 0) 3).setPort false fun p => { p with newRx := some (3, some 0) }
     let u := ((Tests.up 3).set (LNK_STATE.STATE 0) 5).setPort false fun p => { p with newTx := some (3, 0), laterMap := some 1 }
     (s.port false).newRx = some (3, some 0) ∧ 3 &&& s.locked false = 3 ∧ (s.port false).newTx = none ∧ (s.port false).laterMap = none ∧
     3 &&& (s.set (LNK_LOCK.BLOCK_LOCK 0) 1).locked false ≠ 3 ∧ (u.port false).newTx = some (3, 0) ∧ (u.port false).newRx = none ∧ (u.port false).laterMap = some 1) ∧
    (let s := ((Tests.up 3).set (LNK_STATE.STATE 0) 5).onSaf fun f => { f with r44 := true }
     let b := s.booked .foreman 0x0C00C 0x81000000
     s.takes .foreman 0x0C00C 0x81000000 = true ∧ b.mayWrite .foreman (LNK_LOOP.RUN 0) = true ∧ b.get (LNK_LOOP.RUN 0) ≠ 1 ∧ b.saf.r44 = true ∧
     b.portState false = 5 ∧ (b.port false).asks 7 = false ∧ (LNK_LOOP.MODE 0).of 0x83000000 = 3 ∧ s.takes .foreman 0x0C00C 0x83000000 = true ∧
     (LNK_LOOP.MODE 0).of 0x81000000 ∈ [1, 2] ∧ bit 0x81000000 31 = true ∧ s.takes .foreman 0x0C00C 0 = true ∧ (b.port false).loopFar = none) := by decide

theorem witness_FramesAndPacketsLeaveAndArrive :
    (let s := (((Tests.up 3).set (LNK_STATE.STATE 0) 5).set (LNK_CTRL.SLEEP_EN 0) 1).setPort false fun p => { p with keyed := true, rxSeq := 4095 }
     let f : LinkFrame := ⟨4, 0, [], 0, false⟩
     s.portState false = 5 ∧ (Tests.up 3).portState false ≠ 5 ∧ s.get (LNK_CTRL.SLEEP_EN (px false)) = 1 ∧ (s.port false).replay = [] ∧ (s.port false).requests = [] ∧
     (s.port false).out = [] ∧ (s.port false).ctls = [] ∧ s.packetsFor false = 0 ∧ (s.port false).sleeping = false ∧ (s.port false).unackedAt = none ∧ (s.port false).unacked < 16 ∧
     s.get (LNK_STATE.TX_SLEEP (px false)) ≠ 1 ∧ (s.set (LNK_STATE.TX_SLEEP 0) 1).get (LNK_STATE.TX_SLEEP (px false)) = 1 ∧
     ((s.setPort false fun p => { p with replay := [f] }).port false).replay = [f] ∧ (s.port false).replays < s.get (LNK_RETRY.LIMIT (px false)) ∧
     ([f] : List LinkFrame)[(s.port false).sentTo]? = some f ∧
     s.get (LNK_RETRY.LIMIT (px false)) ≤ ((s.setPort false fun p => { p with replays := 200 }).port false).replays) ∧
    (let s := ((Tests.up 3).set (LNK_STATE.STATE 0) 5).setPort false fun p => { p with keyed := true, rxSeq := 4095 }
     let f : LinkFrame := ⟨4, 0, [], 0, false⟩
     s.dueFrame false = none ∧ (s.port false).keyed = true ∧ bits 0 4 2 = 0 ∧ bits 0 20 12 = ((s.port false).rxSeq + 1) % 4096 ∧ bits 0x00100000 20 12 ≠ ((s.port false).rxSeq + 1) % 4096 ∧
     bit 0x90 7 = true ∧ bits 0x90 4 2 ≠ 0 ∧ (s.port false).peerNak = false ∧ s.backlog false = false ∧
     ((s.setPort false fun p => { p with ctls := [1] }).port false).ctls ≠ [] ∧
     (∀ f' ∈ (s.port false).replay, serialLater 12 f'.seq 3 = true) ∧ serialLater 12 f.seq 9 = false) ∧
    (let s := ((Tests.up 3).set (LNK_STATE.MAP 0) 2).setLane false 1 fun l => { l with rx := [(7, some (List.replicate 62 0))] }
     s.dueFrame false = some 7 ∧ s.frameAt false 7 = some (List.replicate 62 0) ∧
     ((s.setLane false 1 fun l => { l with rx := [(7, none)] }).dueFrame false = some 7 ∧ (s.setLane false 1 fun l => { l with rx := [(7, none)] }).frameAt false 7 = none)) ∧
    (let k := Tests.pkt 0x10 2 5 []
     let s := ((Tests.up 3).set (LNK_STATE.STATE 0) 5).onChn fun c => { c with passed := [(0, [(k, 0)])] }
     Tbl.get [] s.chn.passed (px false) = [(k, 0)] ∧ 0 ≤ (s.port false).blocks ∧ (s.port false).outBytes < s.room false ∧ k.vc ≠ 1 ∧ k.dst ≠ 63 ∧ k.dst ≠ s.get CHN_STATE.TALLY ∧
     k.dt ≠ 0x33 ∧ (Tests.pkt 0x30 1 5 []).vc = 1 ∧ (s.port false).stamps.headD false = false ∧
     ((s.setPort false fun p => { p with stamps := [true] }).port false).stamps.headD false = true) ∧
    (let k := Tests.pkt 0x10 2 5 []
     let s := ((Tests.up 3).set (LNK_STATE.STATE 0) 5).onChn fun c => { c with queue := [(0, [k])] }
     (Tbl.get [] s.chn.queue (px false)).find? (fun k => decide (k.vc = 2)) = some k ∧ (∀ e ∈ Tbl.get [] s.chn.passed (px false), (s.port false).blocks < e.2) ∧
     (∀ k' ∈ Tbl.get [] s.chn.queue (px false), k'.vc = 2 ∨ (2 ≠ 1 ∧ k'.vc ≠ 1 ∧ 2 < k'.vc) ∨ (2 = 1 ∧ k'.vc ≠ 1))) := by refine ⟨?_, ?_, ?_, ?_, ?_⟩ <;> decide

theorem witness_ProgramsCompute :
    (let s := ((Tests.up 3).set ENG_STATUS.QRUN 15).setEngine 260 fun g => { g with st := 1 }
     s.goesOn 260 = true ∧ ((s.engine 260).pc < 0x10000 ∧ (s.engine 260).pc % 4 = 0 ∧ (s.engine 260).errorAt (s.engine 260).pc 4 [1] ≤ 1) ∧
     (s.engine 260).l 0x38 = 0 ∧ ((s.setEngine 260 fun g => g.setL 0x38 1).engine 260).l 0x38 ≠ 0 ∧ s.stopeOf 260 = none ∧ s.secondFault 260 = false ∧
     0x10000 ≤ ((s.setEngine 260 fun g => { g with pc := 0x10000 }).engine 260).pc ∧
     2 ≤ ((s.setEngine 260 fun g => { g with bad := [(0, 2)] }).engine 260).errorAt 0 4 [0] ∧ 2 ≤ (s.engine 260).errorAt 0 4 [2] ∧
     ((Tests.up 3).engine 260).st ≠ 1 ∧ (Tests.up 3).quadrantRuns 260 = false ∧
     (s.engine 260).loops.length < 2 ∧ (s.engine 260).loops = [] ∧ (s.engine 260).claimed = []) ∧ (6 % 4 ≠ 0 ∧ 6 < 0x10000) := by decide

theorem witness_ProgramsUseMemoryAndThePorts :
    (let s := ((Tests.up 3).set ENG_STATUS.QRUN 15).setEngine 5 fun g => ({ g with st := 1 }).setS 1 0x10000000
     let g := s.engine 5
     (s.goesOn 5 = true ∧ g.pc < 0x10000 ∧ g.pc % 4 = 0 ∧ g.errorAt g.pc 4 [0] ≤ 1) ∧ s.fetched 5 0 = g ∧
     4 ∈ [1, 2, 4, 8] ∧ ((g.sreg 1 + 0) % 2 ^ 32) % 64 = 0 ∧ gatherOk .block true (g.vaddrs .block true ((g.sreg 1 + 0) % 2 ^ 32)) = true ∧ gatherOk (.gather 1) false [] = false ∧
     (∀ a ∈ g.vaddrs (.strided 4) true ((g.sreg 1 + 0) % 2 ^ 32), a % vsize (.strided 4) true = 0 ∧ dsram ≤ a ∧ a + 4 ≤ dsram + 0x400000 ∧ g.errorAt a 4 [] = 0) ∧
     dsram ≤ (g.sreg 1 + 0) % 2 ^ 32 ∧ (g.sreg 1 + 0) % 2 ^ 32 + 64 ≤ dsram + 0x400000 ∧ g.errorAt dsram 64 [1] ≤ 1 ∧ 2 ≤ g.errorAt dsram 64 [0, 2] ∧ 2 ≤ g.errorAt dsram 4 [2] ∧
     addrKind 0 4 = 0 ∧ addrKind 0x20000000 4 = 2 ∧
     serialDiff 16 (0 % 65536) (g.l 0x10) ≤ serialDiff 16 (g.l 0x0C) (g.l 0x10) ∧ serialDiff 16 (g.l 0x0C) (g.l 0x10) < serialDiff 16 (1 % 65536) (g.l 0x10) ∧
     bit (g.l 0x20) 31 = false ∧ s.openFor 5 (g.l 0x18) = none ∧
     (let o : OutSweep := { stope := 0, sweep := 0, engine := 5, gear := 0, assign := 0 }
      (s.onEng fun q => { q with out := [o] }).openFor 5 (g.l 0x18) = some o ∧ 8 ≤ (s.onEng fun q => { q with out := [o] }).poolFree) ∧ g.timer = 0 ∧
     bit ((g.setL 0x20 (2 ^ 31)).l 0x20) 31 = true ∧ g.outMessage = none ∧
     ((g.setL 0x30 1).outMessage.map messageType = some 0) ∧
     ((({ g with mem := memWrite g.mem outboxBase [1, 0x80] }).setL 0x30 1).outMessage.map messageType = some 0x8001) ∧
     ((({ g with mem := memWrite g.mem outboxBase [2, 0x80] }).setL 0x30 1).outMessage.map messageType = some 0x8002)) ∧
    (((Tests.up 3).set (mapField 7) 5).engineOf 7 = some 5 ∧ ((Tests.up 3).set (mapField 7) 0x1FF).engineOf 7 = none ∧ (Tests.up 3).eng.remap = none) ∧
    (let g : Eng := { st := 1, std := some {}, claimed := [⟨[], []⟩] }
     g.runsKit = true ∧ ({ g with std := none } : Eng).runsKit = false ∧ g.inbox = [] ∧ g.l 0x28 = g.l 0x2C ∧ g.l 0x28 < 16 ∧ g.takes = false ∧
     (g.setL 0x04 (2 ^ 31)).takes = true) ∧
    ((Tests.up 3).engine 5).st ≠ 1 ∧ (Tests.up 3).quadrantRuns 5 = false ∧ addrKind 0x30000000 8 ≠ 1 ∧ 0x10000 < 0x30000000 + 8 := by decide

theorem witness_EnginesAreRunFromOutside :
    (let s := (Tests.up 3).set ENG_STATUS.QRUN 15
     let g := s.engine (s.get ENG_SEL.ENGINE)
     s.answers .foreman 0x0A00C = true ∧ g.st = 0 ∧ g.staged = false ∧ s.bistOn (s.get ENG_SEL.ENGINE) = false ∧ s.bitOf ENG_STATUS.QRUN (quadrantOf (s.get ENG_SEL.ENGINE)) = true ∧
     (s.setEngine 0 fun g => { g with st := 1 }).get ENG_SEL.ENGINE = 0 ∧
     State.reset.answers .bar0 0x0A00C = false ∧ s.answers .bar0 0x0A00C = true ∧ s.holds .bar0 .installer = false ∧ s.holds .bar0 .maker = false ∧ s.power ≠ stSAFETALK) ∧
    (let s := (Tests.up 3).onRol fun r => { r with sess := [(2, some ⟨[], 1, 0⟩), (3, some ⟨[], 1, 0⟩)] }
     (s.holds .bar0 .installer || s.holds .bar0 .maker) = true ∧ s.sbRoom = true) ∧
    (let s := Tests.up 3
     s.takes .foreman 0x0A018 0x10000000 = true ∧ (s.booked .foreman 0x0A018 0x10000000).mayWrite .foreman ENG_MEM_ADDR.ADDR = true ∧
     s.takes .foreman 0x0A01C 5 = true ∧ (s.booked .foreman 0x0A01C 5).mayWrite .foreman ENG_MEM_DATA.DATA = true ∧
     (s.booked .foreman 0x0A01C 5).get ENG_BCAST_CTRL.EN ≠ 1 ∧ ((s.set ENG_BCAST_CTRL.EN 1).booked .foreman 0x0A01C 5).get ENG_BCAST_CTRL.EN = 1 ∧ ((s.booked .foreman 0x0A01C 5).engine 0).windowTakes 0 = true ∧
     ((s.setEngine 0 fun g => { g with st := 1 }).engine 0).windowTakes 0 = false ∧ s.eng.rejectAt = none ∧
     s.answers .foreman 0x0A01C = true ∧ State.reset.answers .bar0 0x0A01C = false ∧ (∀ o ∈ s.eng.out, o.starts < s.get ENG_DEADLINE.SWEEPS) ∧
     s.get ENG_DEADLINE.SWEEPS ≤ ({ stope := 0, sweep := 0, engine := 0, gear := 0, assign := 0, starts := 300 } : OutSweep).starts) ∧
    (let s := (((Tests.up 3).set ENG_STATUS.QRUN 15).setEngine 0 fun g => { g with st := 2 }).onEng fun q => { q with faulted := [0] }
     s.eng.remap = none ∧ s.eng.faulted = [0] ∧ s.stopeOf 0 = some 0 ∧ (s.engine 0).st = 2 ∧ (s.chooseTarget 0).isSome = true ∧
     ((s.set ENG_STATUS.QRUN 0).chooseTarget 0 = none)) ∧
    (let s := Tests.up 3
     let r : Remap := ⟨0, 0, 256, false, [], true⟩
     (s.onEng fun q => { q with remap := some r }).eng.remap = some r ∧ (s.engine 0).bad = [] ∧ s.power ≠ stHOLD ∧ r.stope < 256 ∧ r.old ≠ r.target) ∧
    (let s := Tests.up 3
     s.takes .foreman 0x0A058 0x80000000 = true ∧ (s.booked .foreman 0x0A058 0x80000000).mayWrite .foreman ENG_REMAP.GO = true ∧
     (s.booked .foreman 0x0A058 0x80000000).get ENG_REMAP_STATUS.BUSY ≠ 1 ∧ (s.booked .foreman 0x0A058 0x80000000).freeEngine 0 = false ∧
     s.takes .foreman 0x0A000 0 = true ∧ (s.booked .foreman 0x0A000 0).mayWrite .foreman ENG_CTRL.QEN = true ∧
     bit (s.onEng fun g => { g with inited := 1 }).eng.inited 0 = true ∧ memWf (s.engine 0).mem = true ∧
     ((s.set (mapField 0) 0x1FF).booked .foreman 0x0A058 0x80000000).freeEngine 0 = true ∧
     s.takes .bar0 0x0A000 0 = true ∧ (s.booked .bar0 0x0A000 0).mayWrite .bar0 ENG_CTRL.QEN = false ∧ (s.booked .bar0 0x0A000 0).mayWrite .bar0 ENG_CTRL.SPARE_AUTO = false ∧
     s.bitOf ENG_CTRL.QEN 0 = false ∧ (s.set ENG_CTRL.QEN 1).bitOf ENG_CTRL.QEN 0 = true ∧ s.quadrantBusy 0 = true ∧ (Tests.up 2).quadrantBusy 0 = false ∧
     bit (s.onEng fun g => { g with initing := 1 }).eng.initing 0 = true) := by decide

theorem witness_HostCommandsComplete :
    (let s := (((Tests.up 3).set HST_STATUS.BME 1).onSaf fun f => { f with r44 := true }).onHst fun h => { h with reads := [⟨0, 0, 0, 0, 64⟩] }
     let d : Desc := ⟨0, 0, 5, 0, zeroBytes 56⟩
     s.canIssue = true ∧ s.hst.reads = [] ++ ⟨0, 0, 0, 0, 64⟩ :: [] ∧ State.reset.canIssue = false ∧ s.waitsBehind d = false ∧ (∀ c ∈ s.hst.held, c.2.sq ≠ d.sq) ∧
     s.commandError 0x00 d = none ∧ s.commandError 0x01 { d with operands := zeroBytes 4 ++ [1] ++ zeroBytes 51 } = none ∧
     s.commandError 0x02 { d with operands := zeroBytes 4 ++ [1] ++ zeroBytes 51 } = none ∧ s.commandError 0x01 d = some 2 ∧ s.commandError 0x55 d = some 1 ∧
     s.commandError 0x00 { d with tally := 5 } = some 4 ∧ s.commandError 0x10 { d with operands := [1] ++ zeroBytes 55 } = none ∧ s.commandError 0x03 { d with operands := zeroBytes 8 ++ [4] ++ zeroBytes 47 } = some 3 ∧
     (s.onRol fun r => { r with sess := [(2, some ⟨[], 1, 0⟩)] }).commandError 0x03 { d with operands := zeroBytes 8 ++ [4] ++ zeroBytes 47 } = none ∧ s.sbRoom = true ∧
     (s.setJoined 5 true).commandError 0x01 { d with tally := 5, operands := zeroBytes 4 ++ [1] ++ zeroBytes 51 } = none ∧
     s.commandError 0x12 { d with operands := [1] ++ zeroBytes 55 } = none ∧ s.commandError 0x11 { d with operands := [1] ++ zeroBytes 55 } = none ∧
     s.lockedOut 0 1 = false ∧ (s.set (HST_CQ_CFG.EN 0) 1).get (HST_CQ_CFG.EN (s.get (HST_SQ_CFG.CQ 0))) = 1 ∧ s.get CHN_STATE.TALLY ≠ 1 ∧ (s.set CHN_STATE.TALLY 1).get CHN_STATE.TALLY = 1 ∧ s.get (HST_CQ_CFG.EN (s.get (HST_SQ_CFG.CQ 0))) ≠ 1) := by decide

theorem witness_HostReadsProxiesAndBulk :
    (let d : Desc := ⟨0, 0, 5, 2, zeroBytes 56⟩
     let f : Flight := ⟨0x01, d, 7, some 3, 0, 0, 0, 0⟩
     let s := (((Tests.up 3).set HST_STATUS.BME 1).onSaf fun f => { f with r44 := true }).onHst fun h => { h with reads := [⟨1, 0, 0, 0, 0⟩], flight := [f] }
     s.hst.reads[0]? = some ⟨1, 0, 0, 0, 0⟩ ∧ s.canIssue = true ∧ s.hst.reads.length ≤ 1 ∧ (s.set HST_STATUS.BME 0).canIssue = false ∧
     s.dataForced = false ∧ ((Tests.up 3).dataForced = true) ∧ s.hst.flight = f :: [] ∧ (∀ g ∈ s.hst.flight, g.tag ≠ 8) ∧ f.sent = some 3) ∧
    (let s := ((Tests.up 3).set CHN_STATE.TALLY 2).set CHN_STATE.STATE 2
     s.isCrew = true ∧ (∀ e ∈ [(0x14, 4), (0x15, 4), (0x2C, 8), (0x16, 4)], (Tests.pkt e.1 e.2 2 []).fits e.1 = true) ∧ (Tests.pkt 0x14 4 2 []).src = 1 ∧
     s.stale (Tests.pkt 0x14 4 2 []) = false ∧ bit ((Tests.pkt 0x2C 8 2 [0, 0, 1]).at_ 2 1) 0 = true ∧ bit ((Tests.pkt 0x2C 8 2 [0, 0, 1]).at_ 2 1) 1 = false ∧
     bit ((Tests.pkt 0x2C 8 2 []).at_ 2 1) 0 = false ∧ s.hst.bulkIn = none) ∧
    (let k := { Tests.pkt 0x16 4 1 [7, 0, 0, 1] with src := 2, inc := 0 }
     k.fits 0x16 = true ∧ k.at_ 0 2 = 7 ∧ k.at_ 3 1 = 1 ∧ ((Tests.up 3).set CHN_STATE.TALLY 1).stale k = false) := by decide

theorem witness_LinkAndFunctionEventsReachTheHostInterface :
    (stSTANDBY < (Tests.up 2).power ∧ State.reset.power ≤ stSTANDBY ∧ State.reset.pwr.perst = true ∧ (Tests.up 2).pwr.perst = false ∧ (State.reset.onPwr fun p => { p with perst := false }).pwr.perst = false ∧
      (State.reset.onPwr fun p => { p with perst := false }).power ≤ stSTANDBY ∧ (Tests.up 2).saf.railFatal = false ∧
      State.reset.power = stSTANDBY ∧ (State.reset.set PWR_WAKE.PERST_EN 1).get PWR_WAKE.PERST_EN = 1 ∧ State.reset.hst.flrAt = none ∧
      (State.reset.onHst fun h => { h with flrAt := some 1 }).hst.flrAt.isSome = true ∧ 4 ∈ [1, 2, 4, 8]) ∧
    (let s := Tests.up 2
     s.get HST_STATUS.BME ≠ 1 ∧ (s.set HST_STATUS.BME 1).get HST_STATUS.BME = 1 ∧ (s.set HST_STATUS.D3HOT 1).get HST_STATUS.D3HOT = 1 ∧ s.get HST_STATUS.D3HOT ≠ 1 ∧
     s.get CHN_STATE.TALLY ≠ 1 ∧ (s.set CHN_STATE.TALLY 1).get CHN_STATE.TALLY = 1 ∧ s.canIssue = false ∧ s.get (ringHalted 1 3) ≠ 1 ∧ (ringHalted 1 3).width = 1 ∧ ((ringCause 1 3).width = 3 ∨ (ringCause 1 3).width = 4) ∧ (ringCause 1 3).key ≠ (ringHalted 1 3).key ∧
     bit (s.msixWord (0x0EC00 + 16 * 2 + 12)) 0 = true ∧
     bit ((s.onHst fun h => { h with msix := [(0x0EC2C, 0)] }).msixWord (0x0EC00 + 16 * 2 + 12)) 0 = false ∧
     s.hst.graceOver = false ∧ s.hst.bmeCleared = none ∧ s.hst.d3Entered = none ∧ Tbl.get none s.hst.firstUnsignalled 0 = none ∧
     Tbl.get none (s.onHst fun h => { h with firstUnsignalled := [(0, some 4)] }).hst.firstUnsignalled 0 = some 4 ∧
     (s.set (HST_CQ_CFG.MOD_US 0) 3).get (HST_CQ_CFG.MOD_US 0) ≠ 0 ∧ (s.set (HST_DR_CFG.FLUSH 0) 3).get (HST_DR_CFG.FLUSH 0) ≠ 0 ∧
     Tbl.get none (s.onHst fun h => { h with dr := [(0, some ⟨0, 0, 0, 0, 0, 0, 0⟩)] }).hst.dr 0 = some ⟨0, 0, 0, 0, 0, 0, 0⟩ ∧
     s.answers .bar0 0x0E020 = true ∧ State.reset.answers .bar0 0x0E020 = false ∧ s.isPithead = false ∧ (s.set CHN_STATE.TALLY 1).isPithead = true ∧
     s.holds .bar0 .maker = false ∧ (s.onRol fun r => { r with sess := [(3, some ⟨[], 1, 0⟩)] }).holds .bar0 .maker = true ∧ 0 + 0x2000000 * s.get HST_BAR2.BASE < 0x6000000 ∧
     0x6000000 ≤ 0x6000000 + 0x2000000 * s.get HST_BAR2.BASE) := by decide

theorem witness_RingsAreSetUpAndRung :
    (let s := Tests.up 3
     s.takes .foreman (ringOff 0 0 + 8) 0x80000000 = true ∧ (s.booked .foreman (ringOff 0 0 + 8) 0x80000000).mayWrite .foreman (ringEn 0 0) = true ∧
     (s.booked .foreman (ringOff 0 0 + 8) 0x80000000).get (ringEn 0 0) ≠ 1 ∧ ((s.set (ringEn 0 0) 1).booked .foreman (ringOff 0 0 + 8) 0).get (ringEn 0 0) = 1 ∧
     s.resumeWord 0 0 < 2 ^ 32 ∧ (let r := s.set (ringEn 0 0) 1
      r.resumeWord 0 0 < 2 ^ 32 ∧ r.takes .foreman (ringOff 0 0 + 8) (r.resumeWord 0 0) = true ∧ bit (r.resumeWord 0 0) 31 = true ∧ bit (r.resumeWord 0 0) 30 = true ∧
      (r.booked .foreman (ringOff 0 0 + 8) (r.resumeWord 0 0)).get (ringEn 0 0) = 1) ∧ (((s.set (ringEn 0 0) 1).set (ringHalted 0 0) 1).causeOver 0 0 = true) ∧
     s.takes .foreman (doorbellOff 1 3) 5 = true ∧ (s.booked .foreman (doorbellOff 1 3) 5).mayWrite .foreman (ringDb 1 3) = true ∧
     (s.booked .foreman (doorbellOff 1 3) 5).get (ringEn 1 3) ≠ 1 ∧ ((s.set (ringEn 1 3) 1).booked .foreman (doorbellOff 1 3) 5).doorbellFits 1 3 5 = false ∧
     ((s.set (ringEn 0 3) 1).booked .foreman (doorbellOff 0 3) 0).doorbellFits 0 3 0 = true ∧
     s.takes .foreman (doorbellOff 0 3) 0 = true ∧ s.takes .foreman (doorbellOff 2 3) 0 = true ∧ (s.booked .foreman (doorbellOff 0 3) 0).mayWrite .foreman (ringDb 0 3) = true ∧
     s.takes .bar0 (doorbellOff 0 3) 0 = true ∧ ((s.set (ringEn 0 3) 1).booked .foreman (doorbellOff 0 3) 0).get (ringEn 0 3) = 1 ∧
     s.get HST_WDOG.MS < 65536 ∧ s.takes .foreman 0x0E010 (s.get HST_WDOG.MS * 65536 + 1) = true ∧ s.takes .foreman 0x0E008 1 = true ∧
     s.get HST_WDOG.MS = 0 ∧ (s.set HST_WDOG.MS 4).get HST_WDOG.MS ≠ 0 ∧ s.get HST_STATUS.WDOG_EXP ≠ 1) := by decide

theorem witness_RegisterWordsAreWritten :
    (let s := Tests.up 2
     s.answers .bar0 0x0E020 = true ∧ State.reset.answers .bar0 0x0E020 = false ∧ State.reset.answers (.proxy 3) 0x05010 = false ∧
     fieldsAt 0x00400 = [] ∧ isMsix 0x00400 = false ∧ (Tests.up 6).answers .i2c 0x05010 = true ∧ (Tests.up 6).power = stSAFETALK ∧
     s.takes .foreman 0x01008 1 = true ∧ s.takes .foreman 0x05010 5 = true ∧ s.takes .foreman 0x11000 2 = true ∧
     (s.booked .foreman 0x05010 5).mayWrite .foreman CAD_FREE_SCAN.PERIOD = true ∧ (s.booked .bar0 0x05010 5).mayWrite .bar0 CAD_FREE_SCAN.PERIOD = false ∧
     fieldRange CAD_FREE_SCAN.PERIOD = some (1000000, 134217727) ∧ fieldRange I2C_CFG.FILT = none ∧ PWR_RAIL.FAULT.acc = .w1c ∧ PWR_RAIL.FAULT ∈ fieldsAt 0x01008) := by
  decide

theorem witness_RegisterWordsAreReadAndCleared :
    (let s := Tests.up 2
     let f := s.onRol fun r => { r with sess := [(2, some ⟨[], 1, 0⟩)] }
     let g := { f with nvs := { f.nvs with sbQueue := (List.range 256).map fun _ => f.mkEntry 0 0 0 0 0 0 [] } }
     g.answers .bar0 0x05010 = true ∧ g.rolesUsed .bar0 0x05010 ≠ [] ∧ (g.logAttempts .bar0 0x05010 1000000).sbRoom = false ∧
     s.answers .i2c 0x0301C = true ∧ higherWords 0x0301C = [0x03020, 0x03024] ∧ isMsix 0x0301C = false ∧ isPerPath 0x0301C = false ∧
     Tbl.get 0 s.latched (pathOffset .i2c 0x03020) = 0 ∧ Tbl.get 0 { s with latched := [(0x03020, 8)] }.latched (pathOffset .i2c 0x03020) = 7 + 1 ∧
     s.takes .i2c 0x01018 1 = true ∧ s.takes .i2c 0x0204C 1 = true ∧ s.takes .i2c 0x09018 0 = true ∧ s.takes .i2c 0x0A06C 1 = true ∧ s.takes .bar0 0x0C42C 1 = true ∧ s.takes .bar0 0x0C02C 1 = true ∧
     (∀ o ∈ [0x03040, 0x0408C, 0x050A8, 0x06034, 0x06410, 0x06884, 0x08040, 0x0B074, 0x0D080, 0x0E028, 0x0F040, 0x100C8], s.takes .bar0 o 1 = true) ∧
     isMsix 0x0EC00 = true ∧ s.answers .bar0 0x0EC00 = true ∧ (Tests.up 2).attempts .bar0 0x03014 3 = [SAF_CMD.TEST_TRIP, SAF_CMD.CHAIN_RESTART] ∧
     s.takes .bar0 0x11014 1 = true ∧ bit 1 0 = true) := by decide

theorem witness_StandbyAnswersOnlyTheAlwaysOnPages :
    State.reset.power = stSTANDBY ∧ State.reset.pwr.startup = 0 ∧ pageOf 0x01000 = 0x01 ∧ Tbl.get 0 State.reset.latched 0x01000 = 0 ∧
      (pageOf 0x02000 ≠ 0x01 ∧ pageOf 0x02000 ≠ 0x11) := by decide

theorem witness_I2cTransfersReachTheWordAddressed :
    (let s := Tests.up 2
     let t := s.onI2c fun x => { x with partialBytes := [1, 2, 3] }
     s.pwr.vaon = true ∧ (s.onPwr fun p => { p with vaon := false }).pwr.vaon = false ∧ s.i2c.partialBytes.length < 3 ∧
     (t.i2c.partialBytes = [1, 2, 3] ∧ 1 < 256 ∧ 2 < 256 ∧ 3 < 256 ∧ 4 < 256) ∧
     s.get I2C_SEL.FIXED ≠ 1 ∧ (s.set I2C_SEL.FIXED 1).get I2C_SEL.FIXED = 1 ∧ pageOf 0x01004 ∈ [0x01, 0x03, 0x11] ∧ pageOf 0x05004 ∉ [0x01, 0x03, 0x11] ∧
     s.i2c.reading = false ∧ (s.onI2c fun x => { x with reading := true }).i2c.reading = true ∧ s.i2c.hold = 0 ∧
     (s.onI2c fun x => { x with hold := 1 }).i2c.hold = 1 ∧ (s.onI2c fun x => { x with hold := 2 }).i2c.hold ≠ 0 ∧
     s.get I2C_STATUS.BUSY ≠ 1 ∧ (s.set I2C_STATUS.BUSY 1).get I2C_STATUS.BUSY = 1) := by decide

theorem witness_SpotlightFramesLeave :
    (let s := Tests.up 2
     let it := spotOf (Tests.pkt 0x28 7 1 (4 :: zeroBytes 16))
     let f : SpotFrame := { sweep := 5, gear := 0, assign := 0, staged := true, fmt := 0, taps := 1, mask := 1, complete := true, items := [it] }
     (s.onSpot fun p => { p with queue := [it] }).spot.queue = it :: [] ∧ s.spot.queue = [] ∧ (s.onSpot fun p => { p with frame := some f }).spot.frame = some f ∧
     f.staged = true ∧ f.items = it :: [] ∧ s.spot.frame = none ∧ it.kind = 4 ∧ s.get CHN_STATE.TALLY ≠ 1 ∧ (s.set CHN_STATE.TALLY 1).get CHN_STATE.TALLY = 1 ∧
     s.get PIPE_CTRL.EN ≠ 1 ∧ (s.set PIPE_CTRL.EN 1).get PIPE_CTRL.EN = 1 ∧ s.inlineCount + it.count ≤ 262144 ∧ 262144 < s.inlineCount + ({ it with count := 300000 } : SpotItem).count ∧
     s.takes .foreman 0x06400 0 = true ∧ (s.booked .foreman 0x06400 0).mayWrite .foreman EXP_SPOT_CTRL.EN = true ∧ (s.booked .bar0 0x06400 0).mayWrite .bar0 EXP_SPOT_CTRL.EN = false ∧
     s.get EXP_SPOT_STATUS.CLEARING ≠ 1 ∧ (s.set EXP_SPOT_STATUS.CLEARING 1).get EXP_SPOT_STATUS.CLEARING = 1 ∧
     (s.engine 3).staged = false ∧ ((s.setEngine 3 fun g => { g with staged := true }).engine 3).staged = true) := by decide

theorem witness_SpotlightFramesArrive :
    (let s := (((Tests.up 2).set CHN_STATE.TALLY 1).set PIPE_MEM.SPOT_MIB 8).set CHN_INTAKE.HWM_MIB 16
     let k := { Tests.pkt 0x28 7 1 (zeroBytes 32) with src := 2, inc := 0 }
     k.fits 0x28 = true ∧ s.stale k = false ∧ k.dst = s.get CHN_STATE.TALLY ∧ k.dst ≠ 63 ∧ (s.set PIPE_CTRL.EN 1).get PIPE_CTRL.EN = 1 ∧
     s.get PIPE_MEM.SPOT_MIB * 1048576 < (s.onPipe fun p => { p with level := 8388608 }).spotUsed + k.size ∧ s.get PIPE_MEM.SPOT_MIB ≠ 0 ∧ s.spotUsed + k.size ≤ s.get PIPE_MEM.SPOT_MIB * 1048576 ∧ s.get PIPE_CTRL.EN ≠ 1 ∧ (spotOf k).kind ≠ 3 ∧
     (Tests.pkt 0x10 7 1 []).fits 0x28 = false ∧ s.takes .foreman 0x0D004 0x0101 = true ∧ (s.booked .foreman 0x0D004 0x0101).mayWrite .foreman PIPE_MEM.SPOT_MIB = true ∧
     (s.booked .bar0 0x0D004 0x0101).mayWrite .bar0 PIPE_MEM.SPOT_MIB = false ∧
     (s.booked .foreman 0x0D004 0x0101).get PIPE_CTRL.EN ≠ 1 ∧ PIPE_MEM.SPOT_MIB.of 0x0101 + PIPE_MEM.TBL_MIB.of 0x0101 + s.get ENG_POOL.MIB + s.get CHN_INTAKE.HWM_MIB ≤ 96 ∧
     96 < PIPE_MEM.SPOT_MIB.of 0x7F7F + PIPE_MEM.TBL_MIB.of 0x7F7F + s.get ENG_POOL.MIB + s.get CHN_INTAKE.HWM_MIB) := by decide

theorem witness_PipelineContextsRun :
    (let s := (Tests.up 2).set CHN_STATE.TALLY 1
     let b := s.booked .foreman 0x0D06C 1
     let k : Tbl Nat := [(PIPE_CTX_CFG.SRC.key, 2)]
     let q := s.setCtx 0 fun x => { x with staging := k }
     let r := s.setCtx 1 fun x => { x with pending := some k }
     s.takes .foreman 0x0D06C 1 = true ∧ s.takes .foreman 0x0D06C 2 = true ∧ b.mayWrite .foreman PIPE_CTX_CMD.COMMIT = true ∧
     (s.booked .bar0 0x0D06C 1).mayWrite .bar0 PIPE_CTX_CMD.COMMIT = false ∧ (s.booked .bar0 0x0D06C 2).mayWrite .bar0 PIPE_CTX_CMD.DISABLE = false ∧
     s.ctxClash 0 k = false ∧ s.tableBeyond k = false ∧ par k PIPE_CTX_CFG.SRC ≠ 0 ∧ par k PIPE_CTX_CFG.SRC ≠ 63 ∧ (q.ctx 0).staging = k ∧
     r.ctxClash 0 k = true ∧ s.tableBeyond [(PIPE_CTX_CFG.FLAT_EN.key, 1)] = true ∧ s.get PIPE_CTRL.EN ≠ 1 ∧ s.pipeRuns = false ∧ (let z := (((Tests.up 3).set CHN_STATE.TALLY 1).set PIPE_CTRL.EN 1); z.pipeRuns = true ∧ z.get PIPE_CTRL.EN = 1) ∧
     (s.set PIPE_CTRL.EN 1).get PIPE_CTRL.EN = 1 ∧ (r.ctx 1).pending = some k ∧ par k PIPE_CTX_CFG.SRC = 2 ∧ (r.ctx 1).disable = false ∧
     (let z := s.setCtx 1 fun x => { x with force := k, disable := true }
      (z.ctx 1).pending = none ∧ par (z.ctx 1).force PIPE_CTX_CFG.SRC = 2 ∧ (z.ctx 1).disable = true)) := by decide

theorem witness_PipelineFramesRun :
    (let s := Tests.up 2
     let it := spotOf { Tests.pkt 0x28 7 1 (3 :: zeroBytes 16) with src := 2 }
     let black := spotOf { Tests.pkt 0x28 7 1 (2 :: zeroBytes 16) with src := 2 }
     let c : Nat × Nat × Tbl Nat := (0, 0, (List.range 8).map fun i => ((PIPE_CTX_MASK.MASK i).key, 0xFFFFFFFF))
     let f : Frame := { src := 2, inc := 0, sweep := 0, gear := 0, assign := 0, opened := 7, mosaic := true, ctxs := [] }
     let g : Frame := { f with ctxs := [c] }
     let t := s.onPipe fun p => { p with frames := [g] }
     (s.onPipe fun p => { p with inline := [it] }).pipe.inline = it :: [] ∧ s.pipe.inline = [] ∧ (s.onPipe fun p => { p with spot := [it] }).pipe.spot = it :: [] ∧
     it.kind = 3 ∧ black.kind = 2 ∧ it.kind ≠ 1 ∧ s.pipe.frames = [] ∧ (∀ x ∈ s.pipe.frames, x.src ≠ it.src ∨ x.sweep ≠ it.sweep) ∧ t.frameOf it.src it.sweep = some g ∧
     g.ctxFor it = some c ∧ ctxTakes c.2.2 it.stope = true ∧ Tbl.get 0 g.rows (lineKey it) ≤ it.row ∧ par c.2.2 PIPE_CTX_CFG.FMT ≤ 1 ∧
     2 ≤ par [(PIPE_CTX_CFG.FMT.key, 2)] PIPE_CTX_CFG.FMT ∧ it.row % 2 = 0 ∧ ({ it with row := 1 } : SpotItem).row % 2 = 1 ∧
     (let z := s.set (HST_DR_CFG.STREAM 3) 1; z.get (HST_DR_CFG.STREAM 3) ≠ 2 ∧ z.get (HST_DR_CFG.STREAM 3) ≠ 0) ∧ f.cut = false ∧ s.frameOf 2 0 = none ∧
     it.row < Tbl.get 0 { g with rows := [(lineKey it, 1)] }.rows (lineKey it) ∧ ctxTakes [(((PIPE_CTX_MASK.MASK 0).key), 0)] it.stope = false ∧
     (∀ x ∈ f.ctxs, par x.2.2 PIPE_CTX_CFG.TAP ≠ it.tap) ∧ f.ctxs = [] ∧ t.pipe.frames ≠ [] ∧ f.lost + 0 = 0 ∧ f.lost + 1 ≠ 0 ∧ 5000 ≤ 67108863) := by decide

theorem witness_RolesChallengeOpenAndReplace :
    (let s := Tests.up 2
     let b := s.booked .i2c 0x10008 (2 ^ 31 + 1)
     let l := s.onRol fun r => { r with locked := [(5, some 9)] }
     s.takes .i2c 0x10008 (2 ^ 31 + 1) = true ∧ s.takes .bar0 0x10044 (2 ^ 31 + 1) = true ∧ s.takes .bar0 0x10044 (2 ^ 30 + 2) = true ∧ s.takes .i2c 0x10070 (2 ^ 31 + 2) = true ∧
     b.lockedOut 1 1 = false ∧ b.rol.ctr < 2 ^ 64 ∧ (l.booked .i2c 0x10008 (2 ^ 31 + 1)).lockedOut 1 1 = true ∧
     (s.booked .bar0 0x10044 (2 ^ 31 + 1)).chalOf 0 1 = none ∧ (s.booked .i2c 0x10070 (2 ^ 31 + 2)).sessOf 1 2 = none ∧
     s.failsOf 0 1 + 1 < 5 ∧ 5 ≤ (s.onRol fun r => { r with fails := [(1, 4)] }).failsOf 0 1 + 1 ∧ s.sessOf 0 1 = none ∧
     Tbl.get none l.rol.locked (4 * 1 + 1) = some 9 ∧ s.takes .bar0 0x1007C 3 = true ∧ (s.booked .bar0 0x1007C 3).entryOf 3 = none) := by decide

/-- An I²C session of the installer and a challenge for it. -/
def Tests.roles : State :=
  (Tests.up 2).onRol fun r => { r with sess := [(6, some ⟨[1, 2], 3, 0⟩)], chal := [(6, some ⟨[1, 2], 3, 0⟩)] }

theorem witness_RolesSessions :
    (let s := Tests.roles
     (s.booked .i2c 0x10044 (2 ^ 31 + 2)).chalOf 1 2 = some ⟨[1, 2], 3, 0⟩ ∧ (s.booked .i2c 0x10070 (2 ^ 31 + 2)).sessOf 1 2 = some ⟨[1, 2], 3, 0⟩ ∧
     s.sessOf 1 2 ≠ none ∧ Tbl.get none s.rol.chal (4 * 1 + 2) = some ⟨[1, 2], 3, 0⟩ ∧ ((s.booked .i2c 0x10070 (2 ^ 31 + 2)).touchSession .i2c .installer).storeRefuses = none ∧
     (((s.set NVS_STATUS.BUSY 1).booked .i2c 0x10070 (2 ^ 31 + 2)).touchSession .i2c .installer).storeRefuses = some 1) := by decide

theorem witness_RolesEntry :
    let e := (Tests.up 2).mkEntry 1 0 2 0 0 0 []
    (((Tests.up 2).onNvs fun n => { n with sbSlots := [(0, some e)] }).booked .bar0 0x1007C 0).entryOf 0 = some e := rfl

theorem witness_StoreOperationsStart :
    (let s := Tests.up 2
     s.takes .foreman 0x0F00C 2 = true ∧ s.takes .foreman 0x0F00C 4 = true ∧ s.takes .foreman 0x0F00C 8 = true ∧ s.takes .foreman 0x0F018 7 = true ∧
     (s.booked .bar0 0x0F00C 4).mayWrite .bar0 NVS_CMD.IMG_OPEN = false ∧ (s.booked .foreman 0x0F00C 4).mayWrite .foreman NVS_CMD.IMG_OPEN = true ∧
     (s.booked .foreman 0x0F00C 4).storeRefuses = none ∧ ((s.set NVS_STATUS.BUSY 1).booked .foreman 0x0F00C 4).storeRefuses = some 1 ∧ State.reset.storeRefuses = some 6 ∧ Tbl.get false s.nvs.worn 50 = false ∧
     Tbl.get false (s.onNvs fun n => { n with worn := [(50, true)] }).nvs.worn (areaBlocks 1 (s.nextBank 1).1).1 = true ∧
     (s.booked .foreman 0x0F00C 8).nvs.img = none ∧ ((s.onNvs fun n => { n with img := some ⟨1, 1, 2⟩ }).booked .foreman 0x0F018 7).nvs.img = some ⟨1, 1, 2⟩ ∧
     s.inBank 3 = none ∧ s.inBank 1 = some (0, 1) ∧ s.nvs.op = none ∧ (s.booked .bar0 0x0F018 7).mayWrite .bar0 NVS_IMG_DATA.DATA = false ∧
     (s.booked .foreman 0x0F018 7).mayWrite .foreman NVS_IMG_DATA.DATA = true ∧ imgBlocks 7 ≤ 327440 / 32744 + 1 ∧ 0 / 32744 + 1 < imgBlocks 7 ∧
     (imgWord ⟨7, 0, 1⟩ 0).2 = true ∧ (imgWord ⟨7, 0, 1⟩ 4).2 = false ∧
     Tbl.get false (s.onNvs fun n => { n with worn := [(177, true)] }).nvs.worn (imgBlock 7 0 + 1 + 0 / 32744) = true ∧ (s.putImageWord (imgWord ⟨7, 0, 1⟩ 0).1 5).imageWord (imgWord ⟨7, 0, 1⟩ 0).1 < 2 ^ 64) := by decide

theorem witness_StoreOperationsEnd :
    (let s := Tests.up 2
     let o : NvsOp := ⟨2, 1, 1, 2, 0, false, 0, 3⟩
     let t := s.onNvs fun n => { n with op := some o }
     let e := s.mkEntry 1 0 2 0 0 0 []
     t.nvs.op = some o ∧ o.area ≠ 2 ∧ (s.onNvs fun n => { n with img := some ⟨1, 1, 2⟩ }).nvs.img.isSome = true ∧ s.nvs.img = none ∧
     (o.words + 1) % 512 ≠ 0 ∧ ({ o with words := 511 }.words + 1) % 512 = 0 ∧ Tbl.get false s.nvs.worn 5 = false ∧
     Tbl.get false (s.onNvs fun n => { n with worn := [(5, true)] }).nvs.worn 5 = true ∧ o.retired = false ∧ { o with retired := true }.retired = true ∧
     (∃ k : Nat, k < 48 ∧ Tbl.get false (s.onNvs fun n => { n with worn := [(51, true)] }).nvs.worn (50 + k) = true) ∧ 0 < s.nvs.spares ∧ (s.onNvs fun n => { n with spares := 0 }).nvs.spares = 0 ∧ s.answers .foreman 0x0F024 = true ∧ State.reset.answers .bar0 0x0F028 = false ∧
     s.answers .foreman 0x0F028 = true ∧ s.nvs.rewrite = [] ∧ (s.onNvs fun n => { n with rewrite := [5] }).nvs.rewrite = 5 :: [] ∧ s.get NVS_STATUS.BUSY ≠ 1 ∧
     s.nvs.sbOpen = none ∧ (s.onNvs fun n => { n with sbOpen := some (e, 3) }).nvs.sbOpen = some (e, 3) ∧ s.nvs.sbQueue = [] ∧
     (s.onNvs fun n => { n with sbQueue := [e] }).nvs.sbQueue = e :: []) := by decide

theorem witness_SelfTestsRunAndGoldensAreKept :
    (let s := Tests.up 2
     let b := s.booked .foreman 0x12000 (2 ^ 31 + 0x111)
     let g := (s.set BIST_STATUS.RESULT 2).booked .foreman 0x12024 1
     0x111 < 512 ∧ s.takes .foreman 0x12000 (2 ^ 31 + 0x111) = true ∧ s.takes .foreman 0x12000 (2 ^ 31 + 2 ^ 24 + 0x110) = true ∧
     b.get BIST_STATUS.BUSY ≠ 1 ∧ b.bistAllowed 0x111 0 = true ∧ b.bistAllowed 0x111 1 = false ∧
     ((s.set BIST_STATUS.BUSY 1).booked .foreman 0x12000 (2 ^ 31 + 0x111)).get BIST_STATUS.BUSY = 1 ∧ (s.set ENG_STATUS.QRUN 15).bistAllowed 0x107 1 = true ∧
     s.nvs.bist = none ∧ (s.onNvs fun n => { n with bist := some (3, 1) }).nvs.bist = some (3, 1) ∧ (s.onNvs fun n => { n with banks := [] }).golden 3 = none ∧
     (s.onNvs fun n => { n with content := [(10, [(0, 8)])] }).golden 3 = some 7 ∧ s.takes .foreman 0x12024 1 = true ∧
     (s.booked .bar0 0x12024 1).mayWrite .bar0 BIST_GOLD_CMD.COMMIT = false ∧ g.mayWrite .foreman BIST_GOLD_CMD.COMMIT = true ∧ g.get BIST_STATUS.KIND ≠ 1 ∧
     g.get BIST_STATUS.BUSY ≠ 1 ∧ g.get BIST_STATUS.RESULT = 2 ∧ g.storeRefuses = none ∧
     (((s.set NVS_STATUS.BUSY 1).set BIST_STATUS.RESULT 2).booked .foreman 0x12024 1).storeRefuses = some 1) := by decide
end

section
/-!
PROOF. What no command changes and what every command keeps: one relation, `Kept s₀ s`, and a walk through every operation of the model that
answers a state. Each lemma is named after its operation and its proof reads as the operation's own chain of updates.
-/
namespace Sys2Proof.Machine

/-- `s` meets the invariant where `s₀` does, and has the waiting commands, the serial number, the variant and the identifiers of `s₀`. -/
structure Kept (s₀ s : State) : Prop where
  inv : s₀.Inv → s.Inv
  pending : s.pending = s₀.pending
  serial : s.serial = s₀.serial
  mono : s.mono = s₀.mono
  cfg : s.cfg = s₀.cfg

/-- Whatever a command answers as the next state is kept from `s₀`. -/
def Keeps (s₀ : State) (o : Out) : Prop := ∀ t : State, o = .next t → Kept s₀ t

theorem Kept.refl (s : State) : Kept s s := ⟨id, rfl, rfl, rfl, rfl⟩

variable {s₀ s : State}

/-! ### The shapes that the operations are built from -/

/-- A state whose register store and freewheel counter are written anew, and whatever else but the waiting commands and the identity. -/
theorem Kept.rewrite {regs fwc freeIx strap answer latched events heldAon heldCanary pwr saf rol nvs hst i2c tim lnk chn cad arr cnv mon eng spot pipe}
    (h : Kept s₀ s) (hr : Tbl.rises none s.regs = true → Tbl.rises none regs = true) (hf : s.fwc < 2 ^ 80 → fwc < 2 ^ 80) :
    Kept s₀ { s with
      regs := regs, fwc := fwc, freeIx := freeIx, strap := strap, answer := answer, latched := latched, events := events, heldAon := heldAon
      heldCanary := heldCanary, pwr := pwr, saf := saf, rol := rol, nvs := nvs, hst := hst, i2c := i2c, tim := tim, lnk := lnk, chn := chn
      cad := cad, arr := arr, cnv := cnv, mon := mon, eng := eng, spot := spot, pipe := pipe } :=
  ⟨fun ha => ⟨hr (h.inv ha).1, hf (h.inv ha).2⟩, h.pending, h.serial, h.mono, h.cfg⟩

/-- An update of anything but the register store, the freewheel counter, the waiting commands and the identity. -/
theorem Kept.update {freeIx strap answer latched events heldAon heldCanary pwr saf rol nvs hst i2c tim lnk chn cad arr cnv mon eng spot pipe}
    (h : Kept s₀ s) :
    Kept s₀ { s with
      freeIx := freeIx, strap := strap, answer := answer, latched := latched, events := events, heldAon := heldAon, heldCanary := heldCanary
      pwr := pwr, saf := saf, rol := rol, nvs := nvs, hst := hst, i2c := i2c, tim := tim, lnk := lnk, chn := chn, cad := cad, arr := arr
      cnv := cnv, mon := mon, eng := eng, spot := spot, pipe := pipe } :=
  h.rewrite id id

theorem Kept.ite {t : State} {c : Prop} [Decidable c] (h : Kept s₀ s) (k : Kept s₀ t) : Kept s₀ (if c then s else t) := by
  split
  · exact h
  · exact k

theorem Kept.fst {α : Type} {x : α} (h : Kept s₀ s) : Kept s₀ (s, x).1 := h

theorem Kept.snd {α : Type} {x : α} (h : Kept s₀ s) : Kept s₀ (x, s).2 := h

theorem Kept.iteFst {α : Type} {c : Prop} [Decidable c] {p q : State × α} (h : Kept s₀ p.1) (k : Kept s₀ q.1) :
    Kept s₀ (if c then p else q).1 := by
  split
  · exact h
  · exact k

theorem Kept.iteSnd {α : Type} {c : Prop} [Decidable c] {p q : α × State} (h : Kept s₀ p.2) (k : Kept s₀ q.2) :
    Kept s₀ (if c then p else q).2 := by
  split
  · exact h
  · exact k

theorem Kept.foldl {α : Type} {f : State → α → State} {l : List α} (h : Kept s₀ s) (hf : ∀ {t x}, Kept s₀ t → Kept s₀ (f t x)) :
    Kept s₀ (l.foldl f s) := by
  induction l generalizing s with
  | nil => exact h
  | cons x l ih => exact ih (hf h)

theorem Kept.foldlFst {α β : Type} {f : State × β → α → State × β} {l : List α} {p : State × β} (h : Kept s₀ p.1)
    (hf : ∀ {r x}, Kept s₀ r.1 → Kept s₀ (f r x).1) : Kept s₀ (l.foldl f p).1 := by
  induction l generalizing p with
  | nil => exact h
  | cons x l ih => exact ih (hf h)

theorem Kept.foldlSnd {α β : Type} {f : β × State → α → β × State} {l : List α} {p : β × State} (h : Kept s₀ p.2)
    (hf : ∀ {r x}, Kept s₀ r.2 → Kept s₀ (f r x).2) : Kept s₀ (l.foldl f p).2 := by
  induction l generalizing p with
  | nil => exact h
  | cons x l ih => exact ih (hf h)

theorem Keeps.next (h : Kept s₀ s) : Keeps s₀ (.next s) := fun _ e => Host.Outcome.next.inj e ▸ h

theorem Keeps.ite {o p : Out} {c : Prop} [Decidable c] (h : Keeps s₀ o) (k : Keeps s₀ p) : Keeps s₀ (if c then o else p) := by
  split
  · exact h
  · exact k

/-- The registers a reset keeps are listed as before. -/
theorem rises_keptKeys {canary rws : Bool} {t : Tbl Nat} (h : Tbl.rises none t = true) : Tbl.rises none (keptKeys canary rws t) = true :=
  Tbl.rises_keep (fun k => decide (pageOf (k / 32) = 0x01 ∨ pageOf (k / 32) = 0x11 ∨ (canary = true ∧ pageOf (k / 32) = 0x03)) ||
    (rws && isRwsKey k)) t h

/-! ### Ops -/

theorem Kept.set {f v} (h : Kept s₀ s) : Kept s₀ (s.set f v) := h.rewrite (fun hr => Tbl.rises_set _ _ _ _ hr) id
theorem Kept.put {f b} (h : Kept s₀ s) : Kept s₀ (s.put f b) := h.set
theorem Kept.bump {f n} (h : Kept s₀ s) : Kept s₀ (s.bump f n) := h.set
theorem Kept.putBit {f i b} (h : Kept s₀ s) : Kept s₀ (s.putBit f i b) := h.set
theorem Kept.toReset {f} (h : Kept s₀ s) : Kept s₀ (s.toReset f) := h.set
theorem Kept.toResets {fs} (h : Kept s₀ s) : Kept s₀ (s.toResets fs) := h.foldl Kept.toReset
theorem Kept.zeros {fs} (h : Kept s₀ s) : Kept s₀ (s.zeros fs) := h.foldl Kept.set
theorem Kept.free (h : Kept s₀ s) : Kept s₀ s.free.2 := h.update.snd
theorem Kept.when {c f} (h : Kept s₀ s) (hf : ∀ {t0}, Kept s₀ t0 → Kept s₀ (f t0)) : Kept s₀ (s.when c f) := .ite (hf h) h
theorem Kept.onPwr {f} (h : Kept s₀ s) : Kept s₀ (s.onPwr f) := h.update
theorem Kept.onSaf {f} (h : Kept s₀ s) : Kept s₀ (s.onSaf f) := h.update
theorem Kept.onRol {f} (h : Kept s₀ s) : Kept s₀ (s.onRol f) := h.update
theorem Kept.onNvs {f} (h : Kept s₀ s) : Kept s₀ (s.onNvs f) := h.update
theorem Kept.onHst {f} (h : Kept s₀ s) : Kept s₀ (s.onHst f) := h.update
theorem Kept.onI2c {f} (h : Kept s₀ s) : Kept s₀ (s.onI2c f) := h.update
theorem Kept.onTim {f} (h : Kept s₀ s) : Kept s₀ (s.onTim f) := h.update
theorem Kept.onChn {f} (h : Kept s₀ s) : Kept s₀ (s.onChn f) := h.update
theorem Kept.onCad {f} (h : Kept s₀ s) : Kept s₀ (s.onCad f) := h.update
theorem Kept.onArr {f} (h : Kept s₀ s) : Kept s₀ (s.onArr f) := h.update
theorem Kept.onCnv {f} (h : Kept s₀ s) : Kept s₀ (s.onCnv f) := h.update
theorem Kept.onMon {f} (h : Kept s₀ s) : Kept s₀ (s.onMon f) := h.update
theorem Kept.onEng {f} (h : Kept s₀ s) : Kept s₀ (s.onEng f) := h.update
theorem Kept.onSpot {f} (h : Kept s₀ s) : Kept s₀ (s.onSpot f) := h.update
theorem Kept.onPipe {f} (h : Kept s₀ s) : Kept s₀ (s.onPipe f) := h.update
theorem Kept.advance {t} (h : Kept s₀ s) : Kept s₀ (s.advance t) := h.rewrite id fun _ => Nat.mod_lt _ (by decide)
theorem Kept.setPort {d f} (h : Kept s₀ s) : Kept s₀ (s.setPort d f) := .ite h.update h.update
theorem Kept.setPeer {t f} (h : Kept s₀ s) : Kept s₀ (s.setPeer t f) := h.update
theorem Kept.sendOn {d k} (h : Kept s₀ s) : Kept s₀ (s.sendOn d k) := .ite h.update h.bump
theorem Kept.send {k} (h : Kept s₀ s) : Kept s₀ (s.send k) := h.foldl Kept.sendOn
theorem Kept.sendCtl {dt vc dst payload} (h : Kept s₀ s) : Kept s₀ (s.sendCtl dt vc dst payload) := h.send
theorem Kept.usesKibble (h : Kept s₀ s) : Kept s₀ s.usesKibble := h.update

theorem Kept.loseItem {stream n} (h : Kept s₀ s) : Kept s₀ (s.loseItem stream n) := by
  unfold State.loseItem
  exact h.update

theorem Kept.enqueueEvent {e} (h : Kept s₀ s) : Kept s₀ (s.enqueueEvent e) := .ite h.update (.ite h.bump.loseItem h.bump.loseItem.update)
theorem Kept.emit {e} (h : Kept s₀ s) : Kept s₀ (s.emit e) := .ite h.sendCtl h.enqueueEvent

theorem Kept.raise {code data} (h : Kept s₀ s) : Kept s₀ (s.raise code data) := by
  unfold State.raise
  exact .ite h.emit (.ite (.ite h.update h) (.ite (.ite h.update h) h.emit))

theorem Kept.deliverHeld (h : Kept s₀ s) : Kept s₀ s.deliverHeld := .ite h (h.update.foldl Kept.emit)

theorem Kept.touchSession {p r} (h : Kept s₀ s) : Kept s₀ (s.touchSession p r) := by
  unfold State.touchSession
  extract_lets +onlyGivenNames _
  split
  · split
    · exact h
    · exact h.update
  · exact h

theorem Kept.sbQueueEntry {e} (h : Kept s₀ s) : Kept s₀ (s.sbQueueEntry e) := .ite h.set.update h

theorem Kept.sbClose (h : Kept s₀ s) : Kept s₀ s.sbClose := by
  unfold State.sbClose
  split
  · exact h
  · exact h.update.sbQueueEntry

theorem Kept.sbEnter {role path cls result target value detail} (h : Kept s₀ s) : Kept s₀ (s.sbEnter role path cls result target value detail) :=
    h.sbClose.sbQueueEntry

theorem Kept.sbWrite {p r off v} (h : Kept s₀ s) : Kept s₀ (s.sbWrite p r off v) := by
  unfold State.sbWrite
  split
  · exact h
  · extract_lets +onlyGivenNames _
    split
    · exact .ite h.update h.sbClose.update
    · exact h.update

theorem Kept.sbReject {p r off v} (h : Kept s₀ s) : Kept s₀ (s.sbReject p r off v) := h.sbEnter.bump.raise
theorem Kept.noteR44 (h : Kept s₀ s) : Kept s₀ s.noteR44 := .ite h.update h

/-! ### PortOps -/

theorem Kept.ringNotice {d active} (h : Kept s₀ s) : Kept s₀ (s.ringNotice d active) := h.sendOn

theorem Kept.breakAfter {b} (h : Kept s₀ s) : Kept s₀ (s.breakAfter b) := by
  unfold State.breakAfter
  exact h.set.set.onChn

theorem Kept.portChanged {d active} (h : Kept s₀ s) : Kept s₀ (s.portChanged d active) := .ite (.ite h.raise h.raise.breakAfter) (.ite h.ringNotice h)

theorem Kept.dropDelay {d} (h : Kept s₀ s) : Kept s₀ (s.dropDelay d) := by
  unfold State.dropDelay
  exact h.onTim.set

theorem Kept.dropQueued {d} (h : Kept s₀ s) : Kept s₀ (s.dropQueued d) := by
  unfold State.dropQueued
  exact (Kept.ite h h.bump).onChn

theorem Kept.linkDown {d cause next} (h : Kept s₀ s) : Kept s₀ (s.linkDown d cause next) := by
  unfold State.linkDown
  exact .ite h.set.dropDelay.raise.dropQueued.portChanged h.set.dropDelay

theorem Kept.seedLanes {n l} (h : Kept s₀ s) : Kept s₀ (seedLanes n s l).1 := by
  induction n with
  | zero => exact h
  | succ n ih => exact ih.free

theorem Kept.startTraining {d st} (h : Kept s₀ s) : Kept s₀ (s.startTraining d st) := by
  unfold State.startTraining
  exact h.seedLanes.set.zeros.setPort

theorem Kept.retrain {d cause st} (h : Kept s₀ s) : Kept s₀ (s.retrain d cause st) := h.linkDown.startTraining
theorem Kept.endLoop {d} (h : Kept s₀ s) : Kept s₀ (s.endLoop d) := .ite h.set.startTraining h
theorem Kept.endLoops (h : Kept s₀ s) : Kept s₀ s.endLoops := h.endLoop.endLoop

theorem Kept.disablePort {d cause} (h : Kept s₀ s) : Kept s₀ (s.disablePort d cause) := by
  unfold State.disablePort
  exact h.linkDown.zeros.setPort

theorem Kept.reviewPort {d} (h : Kept s₀ s) : Kept s₀ (s.reviewPort d) := .ite (.ite h.startTraining h) (.ite h h.disablePort)

theorem Kept.reviewForcing (h : Kept s₀ s) : Kept s₀ s.reviewForcing := by
  unfold State.reviewForcing
  exact .ite h.reviewPort.reviewPort h.reviewPort.reviewPort.onHst

theorem Kept.cancelDerail {cause tally} (h : Kept s₀ s) : Kept s₀ (s.cancelDerail cause tally) := by
  unfold State.cancelDerail
  split
  · exact h
  · exact .ite h.sendCtl.set.set.onChn.raise h

/-! ### Operands -/

theorem Kept.noteFirstWrite {p off} (h : Kept s₀ s) : Kept s₀ (s.noteFirstWrite p off) := .ite h.set.noteR44.reviewForcing h

theorem Kept.writeField {f w} (h : Kept s₀ s) : Kept s₀ (s.writeField f w) := by
  unfold State.writeField
  extract_lets +onlyGivenNames _
  split
  · exact h
  · exact h
  · exact h.set
  · split
    · exact h
    · split
      · exact .ite h.set h
      · exact h.set
  · split
    · exact .ite h.set h
    · exact h.set

theorem Kept.writeFields {p off w} (h : Kept s₀ s) : Kept s₀ (s.writeFields p off w) := h.foldl Kept.writeField
theorem Kept.logAttempts {p off w} (h : Kept s₀ s) : Kept s₀ (s.logAttempts p off w) := h.foldl Kept.sbReject

theorem Kept.regWrite {p off w effect} (h : Kept s₀ s) (heffect : ∀ {t0}, Kept s₀ t0 → Kept s₀ (effect t0)) : Kept s₀ (s.regWrite p off w effect) :=
    .ite h (.ite h (.ite h.logAttempts (.ite h.logAttempts.bump (heffect ((h.logAttempts.foldl (fun k => k.sbWrite.touchSession)).when
    Kept.noteFirstWrite)))))

/-! ### ConvertOps -/

theorem Kept.setCoef {k v} (h : Kept s₀ s) : Kept s₀ (s.setCoef k v) := h.onCnv
theorem Kept.setWork {k v} (h : Kept s₀ s) : Kept s₀ (s.setWork k v) := h.onCnv
theorem Kept.setBank {b f} (h : Kept s₀ s) : Kept s₀ (s.setBank b f) := h.onCnv
theorem Kept.loadCoefs {content} (h : Kept s₀ s) : Kept s₀ (s.loadCoefs content) := h.onCnv.onArr
theorem Kept.setStamp {k} (h : Kept s₀ s) : Kept s₀ (s.setStamp k) := h.onCnv
theorem Kept.startStep {kind left} (h : Kept s₀ s) : Kept s₀ (s.startStep kind left) := h.set.set.set.onCnv
theorem Kept.countDeferred (h : Kept s₀ s) : Kept s₀ s.countDeferred := h.foldl (fun k => .ite k.bump k)

theorem Kept.schedule (h : Kept s₀ s) : Kept s₀ s.schedule := by
  unfold State.schedule
  split
  · exact h
  · split
    · exact h
    · split
      · exact h.startStep
      · exact h.countDeferred.onCnv

theorem Kept.endMark (h : Kept s₀ s) : Kept s₀ s.endMark := by
  unfold State.endMark
  split
  · exact h
  · exact h.countDeferred.onCnv

theorem Kept.calReady (h : Kept s₀ s) : Kept s₀ s.calReady := h.set.onCnv

theorem Kept.stepRan {kind refused} (h : Kept s₀ s) : Kept s₀ (s.stepRan kind refused) := by
  unfold State.stepRan
  exact .ite (h.bump.when Kept.bump).set.onCnv (h.bump.when Kept.bump).set.onCnv.set.raise

/-! ### EngineMem -/

theorem Kept.setEngine {e f} (h : Kept s₀ s) : Kept s₀ (s.setEngine e f) := h.onEng

theorem Kept.toStope {stope m} (h : Kept s₀ s) : Kept s₀ (s.toStope stope m) := by
  unfold State.toStope
  split
  · exact h.setEngine
  · exact h

theorem Kept.keyRefresh {stope} (h : Kept s₀ s) : Kept s₀ (s.keyRefresh stope) := h.toStope

theorem Kept.reviewEngines (h : Kept s₀ s) : Kept s₀ s.reviewEngines := by
  unfold State.reviewEngines
  exact h.set.set

/-! ### HostOps -/

theorem Kept.hostWrite {addr bytes} (h : Kept s₀ s) : Kept s₀ (s.hostWrite addr bytes) := h.when Kept.update

theorem Kept.vector {v} (h : Kept s₀ s) : Kept s₀ (s.vector v) := by
  unfold State.vector
  exact .ite h.update (h.hostWrite.when Kept.update)

theorem Kept.haltRing {k n cause} (h : Kept s₀ s) : Kept s₀ (s.haltRing k n cause) := by
  unfold State.haltRing
  split
  · exact h
  · extract_lets +onlyGivenNames t
    have ht : Kept s₀ t := h.set.set.raise
    split
    · exact ht.vector
    · exact ht

theorem Kept.halt {k n cause} (h : Kept s₀ s) : Kept s₀ (s.halt k n cause) := by
  unfold State.halt
  exact .ite (h.haltRing.foldl (fun k1 => .ite k1.haltRing k1)) h.haltRing

theorem Kept.stepIndex {k n} (h : Kept s₀ s) : Kept s₀ (s.stepIndex k n) := by
  unfold State.stepIndex
  exact .ite h.set.set h.set

theorem Kept.fetchBuffer {n} (h : Kept s₀ s) : Kept s₀ (s.fetchBuffer n) := by
  unfold State.fetchBuffer
  exact .ite h.update h

theorem Kept.closeBuffer {n flushed} (h : Kept s₀ s) : Kept s₀ (s.closeBuffer n flushed) := by
  unfold State.closeBuffer
  split
  · exact h
  · extract_lets -merge +onlyGivenNames _ _ t _ t1
    have ht : Kept s₀ t := h.hostWrite
    have ht1 : Kept s₀ t1 := ht.update
    exact ht1.stepIndex.vector.fetchBuffer

theorem Kept.takeItem {n it} (h : Kept s₀ s) : Kept s₀ (s.takeItem n it).1 := by
  unfold State.takeItem
  extract_lets -merge +onlyGivenNames _ _ _
  split
  · exact h.bump.loseItem.raise.fst
  · split
    · exact h.fst
    · extract_lets +onlyGivenNames s1
      have hs1 : Kept s₀ s1 := by
        unfold s1
        split
        · exact .ite h.closeBuffer h
        · exact h
      split
      · extract_lets +onlyGivenNames t
        have ht : Kept s₀ t := hs1.hostWrite
        exact ht.update.fst
      · split
        · extract_lets +onlyGivenNames _ t
          have ht : Kept s₀ t := hs1.hostWrite
          exact ht.update.fetchBuffer.fst
        · extract_lets +onlyGivenNames t
          have ht : Kept s₀ t := hs1.fetchBuffer
          exact Kept.iteFst ht.fst ht.update.raise.fst

theorem Kept.offer {it blocked} (h : Kept s₀ s) : Kept s₀ (s.offer it blocked).1 := by
  unfold State.offer
  split
  · exact h.fst
  · exact Kept.iteFst h.fst (Kept.iteFst h.takeItem.fst h.takeItem.fst)

theorem Kept.offerAll {its r} (h : Kept s₀ r.1) : Kept s₀ (offerAll its r).1 := by
  induction its generalizing r with
  | nil => exact h
  | cons it rest ih => exact ih h.offer

theorem Kept.drainEvents {es} (h : Kept s₀ s) : Kept s₀ (drainEvents es s) := by
  induction es generalizing s with
  | nil => exact h.update
  | cons e rest ih => exact .ite (ih h.offer) h.offer.update

theorem Kept.drainMonitor {n} (h : Kept s₀ s) : Kept s₀ (drainMonitor n s) := by
  induction n generalizing s with
  | zero => exact h
  | succ n ih => exact .ite h (.ite (ih h.offer.set.onMon) h)

theorem Kept.reviewIntake (h : Kept s₀ s) : Kept s₀ s.reviewIntake := .ite h.update h
theorem Kept.reviewSpotLevel (h : Kept s₀ s) : Kept s₀ s.reviewSpotLevel := .ite h.update h

theorem Kept.pump (h : Kept s₀ s) : Kept s₀ s.pump := by
  unfold State.pump
  split
  · extract_lets -merge +onlyGivenNames _ r _ _ s1 s2 s3
    have hr : Kept s₀ r.1 := h.update.fst.offerAll
    have hs1 : Kept s₀ s1 := hr.update
    have hs2 : Kept s₀ s2 := .ite hs1 hs1.update.drainEvents
    have hs3 : Kept s₀ s3 := .ite hs2 hs2.drainMonitor
    exact hs3.reviewIntake.reviewSpotLevel
  · exact h

theorem Kept.deliver {stream ring bytes sweep} (h : Kept s₀ s) : Kept s₀ (s.deliver stream ring bytes sweep) := h.usesKibble.update.pump

theorem Kept.signalCq {n} (h : Kept s₀ s) : Kept s₀ (s.signalCq n) := by
  unfold State.signalCq
  exact .ite h.update.vector h

theorem Kept.complete {sq cid opc status result} (h : Kept s₀ s) : Kept s₀ (s.complete sq cid opc status result) := by
  unfold State.complete
  exact .ite h h.hostWrite.stepIndex.update.signalCq

theorem Kept.fetchSq {n} (h : Kept s₀ s) : Kept s₀ (s.fetchSq n) := by
  unfold State.fetchSq
  exact .ite h.update h

theorem Kept.fetchAll (h : Kept s₀ s) : Kept s₀ s.fetchAll := h.foldl Kept.fetchSq
theorem Kept.startRings (h : Kept s₀ s) : Kept s₀ s.startRings := (h.fetchAll.foldl Kept.fetchBuffer).pump
theorem Kept.reviewReq (h : Kept s₀ s) : Kept s₀ s.reviewReq := h.put

/-! ### Ledger -/

theorem Kept.askRefresh {src stope sweep} (h : Kept s₀ s) : Kept s₀ (s.askRefresh src stope sweep) := by
  unfold State.askRefresh
  exact .ite h (.ite h.onChn.raise.keyRefresh h.onChn.raise.sendCtl)

theorem Kept.markStale {src stope sweep} (h : Kept s₀ s) : Kept s₀ (s.markStale src stope sweep) := h.onChn.askRefresh

theorem Kept.writeBlock {x kind a recs nKey nDelta status} (h : Kept s₀ s) : Kept s₀ (s.writeBlock x kind a recs nKey nDelta status) := by
  unfold State.writeBlock
  exact h.deliver

theorem Kept.writeSweep {x} (h : Kept s₀ s) : Kept s₀ (s.writeSweep x) := by
  unfold State.writeSweep
  extract_lets -merge +onlyGivenNames _ _
  split
  · exact h.writeBlock
  · extract_lets -merge +onlyGivenNames _ s1 _ _ _ s2 _ _ _ _ _ _ _ s3 s4 _ s5
    have hs1 : Kept s₀ s1 := .ite h.onChn h
    have hs2 : Kept s₀ s2 := .ite hs1 hs1.bump.markStale
    have hs3 : Kept s₀ s3 := hs2.writeBlock
    have hs4 : Kept s₀ s4 := .ite hs3 (.ite hs3.writeBlock hs3.bump)
    have hs5 : Kept s₀ s5 := .ite hs4 hs4.writeBlock
    exact .ite hs5 hs5.writeBlock

theorem Kept.supersede {src inc} (h : Kept s₀ s) : Kept s₀ (s.supersede src inc) := by
  unfold State.supersede
  exact .ite h.bump.onChn.sendCtl.raise h.bump

theorem Kept.intake {f} (h : Kept s₀ s) (hf : ∀ {t0}, Kept s₀ t0 → Kept s₀ (f t0)) : Kept s₀ (s.intake f) := by
  unfold State.intake
  exact .ite (.ite h.reviewIntake.bump h.reviewIntake.bump.onChn.raise) (hf h.reviewIntake)

theorem Kept.ledgerJudge {x} (h : Kept s₀ s) : Kept s₀ (s.ledgerJudge x) := by
  unfold State.ledgerJudge
  split
  · exact h.writeSweep
  · exact h.supersede
  · exact h
  · exact h.sendCtl.setPeer.raise
  · exact h.bump
  · exact h.bump
  · exact h.bump

theorem Kept.ledgerIncomplete {src stope sweep} (h : Kept s₀ s) : Kept s₀ (s.ledgerIncomplete src stope sweep) := h.bump.markStale

/-! ### RecordPort -/

theorem Kept.flagSweep {sweep i} (h : Kept s₀ s) : Kept s₀ (s.flagSweep sweep i) := h.onCad
theorem Kept.setOut {stope sweep f} (h : Kept s₀ s) : Kept s₀ (s.setOut stope sweep f) := h.onEng
theorem Kept.dropOut {stope sweep} (h : Kept s₀ s) : Kept s₀ (s.dropOut stope sweep) := h.onEng

theorem Kept.dropClaims {e} (h : Kept s₀ s) : Kept s₀ (s.dropClaims e) := by
  unfold State.dropClaims
  exact h.setEngine.onEng

theorem Kept.sendSweep {x} (h : Kept s₀ s) : Kept s₀ (s.sendSweep x) :=
    .ite (h.intake Kept.ledgerJudge) (.ite (.ite (h.usesKibble.foldl Kept.send) (.ite h.bump.onChn h.bump.onChn.onChn.raise)) h)

theorem Kept.release {o extra discard} (h : Kept s₀ s) : Kept s₀ (s.release o extra discard) := by
  unfold State.release
  exact h.dropOut.sendSweep

theorem Kept.releaseReady (h : Kept s₀ s) : Kept s₀ s.releaseReady := h.foldl Kept.release
theorem Kept.learnRequest {sweep ok} (h : Kept s₀ s) : Kept s₀ (s.learnRequest sweep ok) := h.onEng.releaseReady
theorem Kept.sealAll (h : Kept s₀ s) : Kept s₀ s.sealAll := h.foldl (fun k => .ite k.release k.release)

/-! ### CadenceOps -/

theorem Kept.setTrk {m f} (h : Kept s₀ s) : Kept s₀ (s.setTrk m f) := by
  unfold State.setTrk
  exact .ite h.onCad.set.set.set h.onCad.set.set.set.set.set

theorem Kept.stopMreq {cause} (h : Kept s₀ s) : Kept s₀ (s.stopMreq cause) := by
  unfold State.stopMreq
  exact h.set.set.set.onCad.onSaf.flagSweep.raise

theorem Kept.reviewMreq (h : Kept s₀ s) : Kept s₀ s.reviewMreq := by
  unfold State.reviewMreq
  split
  · split
    · exact h.stopMreq
    · exact h
  · exact h

theorem Kept.reviewMeas (h : Kept s₀ s) : Kept s₀ s.reviewMeas := by
  unfold State.reviewMeas
  exact (Kept.ite h.put h.put.onCad).reviewMreq

theorem Kept.gatesDG (h : Kept s₀ s) : Kept s₀ s.gatesDG := h.onCad
theorem Kept.endGap (h : Kept s₀ s) : Kept s₀ s.endGap := h.onCad.endMark

theorem Kept.stopTable (h : Kept s₀ s) : Kept s₀ s.stopTable := by
  unfold State.stopTable
  exact h.set.set.gatesDG.endGap.onCad.onArr

theorem Kept.movedP {m old new} (h : Kept s₀ s) : Kept s₀ (s.movedP m old new) := .ite h.endGap h

theorem Kept.regainedP {m old} (h : Kept s₀ s) : Kept s₀ (s.regainedP m old) := by
  unfold State.regainedP
  split
  · exact h.setTrk.movedP
  · exact h

theorem Kept.netStart {m} (h : Kept s₀ s) : Kept s₀ (s.netStart m) := by
  unfold State.netStart
  split
  · exact h
  · exact .ite h h.setTrk

theorem Kept.selectSrc {m} (h : Kept s₀ s) : Kept s₀ (s.selectSrc m) := by
  unfold State.selectSrc
  extract_lets -merge +onlyGivenNames _ _ s1 s2 _ _ s3
  have hs1 : Kept s₀ s1 := h.setTrk
  have hs2 : Kept s₀ s2 := .ite hs1 hs1.onCad
  have hs3 : Kept s₀ s3 := .ite hs2 (.ite hs2.setTrk (.ite hs2.setTrk.netStart hs2.setTrk))
  exact hs3.regainedP.reviewMeas

theorem Kept.startCadence (h : Kept s₀ s) : Kept s₀ s.startCadence := by
  unfold State.startCadence
  exact h.set.set.onChn.onCad.selectSrc.selectSrc

theorem Kept.haltCadence (h : Kept s₀ s) : Kept s₀ s.haltCadence := by
  unfold State.haltCadence
  exact h.stopTable.onCad.zeros.onCad.onArr.reviewMeas

theorem Kept.discard {fs} (h : Kept s₀ s) : Kept s₀ (s.discard fs) := by
  unfold State.discard
  exact (h.foldl Kept.set).set.set.onCad

theorem Kept.discardPending (h : Kept s₀ s) : Kept s₀ s.discardPending := h.discard
theorem Kept.discardArray (h : Kept s₀ s) : Kept s₀ s.discardArray := h.discard

theorem Kept.cadHold (h : Kept s₀ s) : Kept s₀ s.cadHold := by
  unfold State.cadHold
  extract_lets +onlyGivenNames t t1
  have ht : Kept s₀ t := h.stopTable.discardPending
  have ht1 : Kept s₀ t1 := by
    unfold t1
    split
    · exact ht.flagSweep
    · exact ht
  exact ht1.onCad

/-! ### PipelineOps -/

theorem Kept.reviewSpot (h : Kept s₀ s) : Kept s₀ s.reviewSpot := by
  unfold State.reviewSpot
  exact h.put.put

theorem Kept.loseLine {src sweep} (h : Kept s₀ s) : Kept s₀ (s.loseLine src sweep) := h.onPipe
theorem Kept.toInline {it} (h : Kept s₀ s) : Kept s₀ (s.toInline it) := .ite h (.ite (.ite h.bump.loseLine h.bump.loseLine.onPipe.raise) h.onPipe)

theorem Kept.toSpotQueue {it} (h : Kept s₀ s) : Kept s₀ (s.toSpotQueue it) := by
  unfold State.toSpotQueue
  extract_lets +onlyGivenNames _
  split
  · extract_lets +onlyGivenNames t
    have ht : Kept s₀ t := h.bump.onSpot
    split
    · exact .ite ht ht.raise
    · exact ht
  · exact h.usesKibble.onSpot

theorem Kept.spotEmit {it} (h : Kept s₀ s) : Kept s₀ (s.spotEmit it) := .ite h.toInline h.toSpotQueue

theorem Kept.spotTake {f it} (h : Kept s₀ s) : Kept s₀ (s.spotTake f it) := by
  unfold State.spotTake
  extract_lets +onlyGivenNames _
  split
  · extract_lets +onlyGivenNames s1
    have hs1 : Kept s₀ s1 := h.onSpot
    split
    · extract_lets +onlyGivenNames at_
      clear_value at_
      split
      · exact hs1.setEngine
      · exact hs1
    · exact hs1
  · exact h.onSpot.spotEmit

theorem Kept.spotSee {kind stope tap pass row bin gains time last words sweep} (h : Kept s₀ s) :
    Kept s₀ (s.spotSee kind stope tap pass row bin gains time last words sweep) := by
  unfold State.spotSee
  split
  · exact h
  · exact .ite h.spotTake h

theorem Kept.spotFlag {i p} (h : Kept s₀ s) : Kept s₀ (s.spotFlag i p) := h.onSpot

theorem Kept.spotComplete (h : Kept s₀ s) : Kept s₀ s.spotComplete := by
  unfold State.spotComplete
  split
  · exact h
  · exact .ite h (.ite h.onSpot.reviewSpot ((Kept.ite h.onSpot.spotEmit.set h.onSpot.spotEmit).reviewSpot))

theorem Kept.stopStaged (h : Kept s₀ s) : Kept s₀ s.stopStaged := by
  unfold State.stopStaged
  extract_lets +onlyGivenNames s1
  have hs1 : Kept s₀ s1 := by
    unfold s1
    split
    · exact .ite h.onSpot h
    · exact h
  exact .ite hs1.set.reviewSpot hs1.reviewSpot

theorem Kept.setCtx {c f} (h : Kept s₀ s) : Kept s₀ (s.setCtx c f) := h.onPipe
theorem Kept.reviewPipe (h : Kept s₀ s) : Kept s₀ s.reviewPipe := .ite h h.put.set.set
theorem Kept.setFrame {f} (h : Kept s₀ s) : Kept s₀ (s.setFrame f) := h.onPipe

theorem Kept.outBlock {src sweep ring lines bytes} (h : Kept s₀ s) : Kept s₀ (s.outBlock src sweep ring lines bytes) := by
  unfold State.outBlock
  extract_lets +onlyGivenNames lose
  have hlose : ∀ {u}, Kept s₀ u → Kept s₀ (lose u) := (fun k => k.bump.onPipe)
  exact .ite (hlose h) (.ite ((hlose h).loseItem) h.deliver)

theorem Kept.statBlock {f closed cond dropped time c} (h : Kept s₀ s) : Kept s₀ (s.statBlock f closed cond dropped time c) := by
  unfold State.statBlock
  exact h.free.outBlock

theorem Kept.endFrame {f closed cond dropped time} (h : Kept s₀ s) : Kept s₀ (s.endFrame f closed cond dropped time) := by
  unfold State.endFrame
  extract_lets +onlyGivenNames s1 _ s2
  have hs1 : Kept s₀ s1 := h.foldl Kept.statBlock
  have hs2 : Kept s₀ s2 := hs1.onPipe
  exact .ite hs2.bump.raise hs2

theorem Kept.endFrames (h : Kept s₀ s) : Kept s₀ s.endFrames := by
  unfold State.endFrames
  exact ((h.onSpot.foldl Kept.endFrame).reviewSpot).reviewPipe

/-! ### ProgramOps -/

theorem Kept.programEvent {e cause} (h : Kept s₀ s) : Kept s₀ (s.programEvent e cause) := h.raise
theorem Kept.kitWindows (h : Kept s₀ s) : Kept s₀ s.kitWindows := h.onEng

theorem Kept.kitStart {e} (h : Kept s₀ s) : Kept s₀ (s.kitStart e) := by
  unfold State.kitStart
  exact .ite h.setEngine (h.setEngine.when Kept.programEvent)

theorem Kept.startWith {e cause} (h : Kept s₀ s) : Kept s₀ (s.startWith e cause) := h.setEngine.kitStart

/-! ### HoldRules -/

theorem Kept.haltEngines (h : Kept s₀ s) : Kept s₀ s.haltEngines := h.onEng

theorem Kept.restartEngines (h : Kept s₀ s) : Kept s₀ s.restartEngines := by
  unfold State.restartEngines
  exact h.onEng.foldl (fun k => .ite k.startWith k)

theorem Kept.endBist (h : Kept s₀ s) : Kept s₀ s.endBist := by
  unfold State.endBist
  extract_lets +onlyGivenNames t
  have ht : Kept s₀ t := by
    unfold t
    split
    · exact h
    · exact h.putBit
  exact ht.onNvs.set

theorem Kept.abortBist (h : Kept s₀ s) : Kept s₀ s.abortBist := by
  unfold State.abortBist
  split
  · exact h
  · exact h.endBist.set

theorem Kept.holdBlocks (h : Kept s₀ s) : Kept s₀ s.holdBlocks := h.cadHold.haltEngines.sealAll.stopStaged.endFrames.endLoops.abortBist
theorem Kept.leaveBlocks (h : Kept s₀ s) : Kept s₀ s.leaveBlocks := h.set.restartEngines
theorem Kept.stopCadence (h : Kept s₀ s) : Kept s₀ s.stopCadence := h.haltCadence

/-! ### Recovery -/

theorem Kept.toPower {n} (h : Kept s₀ s) : Kept s₀ (s.toPower n) := by
  unfold State.toPower
  exact h.set.set.raise.reviewMreq.reviewForcing

theorem Kept.enterHold {cause} (h : Kept s₀ s) : Kept s₀ (s.enterHold cause) := .ite ((((h.update.holdBlocks.when Kept.set).toPower).put).raise) h
theorem Kept.logFault {k code called entered} (h : Kept s₀ s) : Kept s₀ (s.logFault k code called entered) := h.set.set.set.set.set.set

theorem Kept.latchTrip {i} (h : Kept s₀ s) : Kept s₀ (s.latchTrip i) := by
  unfold State.latchTrip
  exact .ite h ((Kept.ite (Kept.ite h h.putBit).putBit.bump.raise.reviewMreq.putBit.reviewForcing.putBit (Kept.ite h
      h.putBit).putBit.bump.raise.reviewMreq).reviewForcing)

theorem Kept.assertRequest (h : Kept s₀ s) : Kept s₀ s.assertRequest := h.update.latchTrip
theorem Kept.releaseRequest (h : Kept s₀ s) : Kept s₀ s.releaseRequest := h.update.putBit.putBit.noteR44.reviewForcing
theorem Kept.settleL2 (h : Kept s₀ s) : Kept s₀ s.settleL2 := .ite h.update.releaseRequest h

theorem Kept.beginLevel {level code arg called} (h : Kept s₀ s) : Kept s₀ (s.beginLevel level code arg called) := by
  unfold State.beginLevel
  exact .ite h.set.set.logFault.update.raise.bump.cancelDerail h.set.set.logFault.update.raise.bump

theorem Kept.startL1 {code arg} (h : Kept s₀ s) : Kept s₀ (s.startL1 code arg) := by
  unfold State.startL1
  exact h.beginLevel.update

theorem Kept.enterL2 {code redo reboot} (h : Kept s₀ s) : Kept s₀ (s.enterL2 code redo reboot) := by
  unfold State.enterL2
  exact (Kept.ite h.update h.update.update).assertRequest.enterHold.settleL2

theorem Kept.enterL3 {code} (h : Kept s₀ s) : Kept s₀ (s.enterL3 code) := by
  unfold State.enterL3
  exact .ite (Kept.ite h.update h.update.update).assertRequest.enterHold (Kept.ite h.update h.update.update).assertRequest.enterHold.set

theorem Kept.callRecovery {code arg lvl waits reboot} (h : Kept s₀ s) : Kept s₀ (s.callRecovery code arg lvl waits reboot) := by
  unfold State.callRecovery
  extract_lets -merge +onlyGivenNames _ _
  split
  · exact h
  · split
    · exact .ite h.update h
    · split
      · split
        · split
          · exact h
          · extract_lets +onlyGivenNames __src
            have h__src : Kept s₀ __src := h.set
            exact h__src.update
        · exact .ite h.startL1 (.ite h.beginLevel.enterL2 h.beginLevel.enterL3)
      · exact .ite h.logFault.bump.raise.update (.ite h (.ite h.logFault.bump.raise.set.update.bump.enterL2
          h.logFault.bump.raise.set.update.bump.enterL3))

theorem Kept.escalate {code redo} (h : Kept s₀ s) : Kept s₀ (s.escalate code redo) := by
  unfold State.escalate
  exact .ite h.set.bump.update.enterL2 h.set.bump.update.enterL3

theorem Kept.endRecovery (h : Kept s₀ s) : Kept s₀ s.endRecovery := by
  unfold State.endRecovery
  exact h.set.update.raise

theorem Kept.actionDone {code arg} (h : Kept s₀ s) : Kept s₀ (s.actionDone code arg) := .ite h.endRecovery (.ite h.update.settleL2 h)
theorem Kept.trip {i} (h : Kept s₀ s) : Kept s₀ (s.trip i) := .ite h ((Kept.ite h.latchTrip h.latchTrip.callRecovery).enterHold)

theorem Kept.leaveHold {target} (h : Kept s₀ s) : Kept s₀ (s.leaveHold target) := by
  unfold State.leaveHold
  exact h.update.raise.toPower.leaveBlocks

/-! ### Clock -/

theorem Kept.idle (h : Kept s₀ s) : Kept s₀ s.idle := .ite h.advance (.ite h.advance h)
theorem Kept.endPulses (h : Kept s₀ s) : Kept s₀ s.endPulses := h.update

theorem Kept.reviewTime (h : Kept s₀ s) : Kept s₀ s.reviewTime := by
  unfold State.reviewTime
  extract_lets -merge +onlyGivenNames _ _ t _ _ _ t1
  have ht : Kept s₀ t := h.put.put
  have ht1 : Kept s₀ t1 := .ite ht.update.set.raise (.ite ht.update.set.raise ht)
  exact .ite ht1.put ht1

theorem Kept.setStage {x n} (h : Kept s₀ s) : Kept s₀ (s.setStage x n) := h.update
theorem Kept.pllFlags {x locked} (h : Kept s₀ s) : Kept s₀ (s.pllFlags x locked) := h.put.put.putBit.putBit
theorem Kept.putRef {b} (h : Kept s₀ s) : Kept s₀ (s.putRef b) := h.put.put

theorem Kept.startLock {x} (h : Kept s₀ s) : Kept s₀ (s.startLock x) := by
  unfold State.startLock
  exact h.pllFlags.setStage.set.set.set

theorem Kept.losePll {x cause} (h : Kept s₀ s) : Kept s₀ (s.losePll x cause) := by
  unfold State.losePll
  exact h.pllFlags.setStage.set.bump.raise

theorem Kept.abandonLock {x} (h : Kept s₀ s) : Kept s₀ (s.abandonLock x) := h.setStage.set.set

theorem Kept.afterLossT (h : Kept s₀ s) : Kept s₀ s.afterLossT := by
  unfold State.afterLossT
  exact .ite h.stopCadence.reviewTime.endPulses h.stopCadence.reviewTime

/-! ### EngineOps -/

theorem Kept.sealLate {o} (h : Kept s₀ s) : Kept s₀ (s.sealLate o) := h.bump.release.raise

theorem Kept.engFault {e code} (h : Kept s₀ s) : Kept s₀ (s.engFault e code) := by
  unfold State.engFault
  extract_lets +onlyGivenNames _
  split
  · exact h
  · extract_lets +onlyGivenNames t t1 u
    have ht : Kept s₀ t := h.dropClaims.setEngine.bump
    have ht1 : Kept s₀ t1 := ht.raise
    have hu : Kept s₀ u := .ite ht1.onEng ht1
    exact .ite ((Kept.ite hu.set hu).callRecovery) (.ite hu.callRecovery ht1)

theorem Kept.giveItem {x words tag} (h : Kept s₀ s) : Kept s₀ (s.giveItem x words tag).1 := by
  unfold State.giveItem
  split
  · exact h.fst
  · exact Kept.iteFst h.setEngine.fst h.engFault.fst

theorem Kept.openStope {x} (h : Kept s₀ s) : Kept s₀ (s.openStope x) := by
  unfold State.openStope
  exact h.giveItem.onEng

theorem Kept.closeStope {o} (h : Kept s₀ s) : Kept s₀ (s.closeStope o) := by
  unfold State.closeStope
  exact .ite h.setOut.giveItem h.setOut

theorem Kept.blackStope {x tap gains words pass sweep} (h : Kept s₀ s) : Kept s₀ (s.blackStope x tap gains words pass sweep) := by
  unfold State.blackStope
  exact h.giveItem.spotSee

theorem Kept.lineStope {x tap gains row last words pass sweep} (h : Kept s₀ s) : Kept s₀ (s.lineStope x tap gains row last words pass sweep) := by
  unfold State.lineStope
  extract_lets +onlyGivenNames _ s1
  have hs1 : Kept s₀ s1 := h.spotSee
  split
  · exact hs1
  · split
    · exact hs1.setEngine.setOut
    · extract_lets +onlyGivenNames t t1 t2
      have ht : Kept s₀ t := hs1.setEngine.bump
      have ht1 : Kept s₀ t1 := ht.setOut
      have ht2 : Kept s₀ t2 := by
        unfold t2
        split
        · exact .ite ht1.spotFlag ht1
        · exact ht1
      exact .ite ht2 ht2.onEng.raise

/-! ### ArrayOps -/

theorem Kept.applyQp {tap} (h : Kept s₀ s) : Kept s₀ (s.applyQp tap) := by
  unfold State.applyQp
  exact (h.foldl (fun k => k.setCoef.onCnv)).onArr

theorem Kept.resetRows {tap p} (h : Kept s₀ s) : Kept s₀ (s.resetRows tap p) := by
  unfold State.resetRows
  exact h.onArr

theorem Kept.setShort {tap v} (h : Kept s₀ s) : Kept s₀ (s.setShort tap v) := h.onArr

theorem Kept.startPass {tap g} (h : Kept s₀ s) : Kept s₀ (s.startPass tap g) := by
  unfold State.startPass
  exact (Kept.ite (Kept.ite h.applyQp.setShort h.applyQp.setShort.resetRows).resetRows.set (Kept.ite h.applyQp.setShort
      h.applyQp.setShort.resetRows).resetRows.set).onArr.onCad

theorem Kept.read {tap g} (h : Kept s₀ s) : Kept s₀ (s.read tap g) := .ite h (.ite h.onArr h.startPass)

theorem Kept.endPass {p} (h : Kept s₀ s) : Kept s₀ (s.endPass p) := by
  unfold State.endPass
  exact .ite h.onArr.spotComplete h.onArr

theorem Kept.refuseTap {tap} (h : Kept s₀ s) : Kept s₀ (s.refuseTap tap) := h.bump.setShort.raise

/-! ### Array -/

theorem Kept.skimNode {tap col k} (h : Kept s₀ s) : Kept s₀ (s.skimNode tap col k) := by
  unfold State.skimNode
  exact .ite h.onArr h.onArr

theorem Kept.blackRow {p side row dark codes} (h : Kept s₀ s) : Kept s₀ (s.blackRow p side row dark codes) := by
  unfold State.blackRow
  exact h.onArr

theorem Kept.deliverLine {p x row last words} (h : Kept s₀ s) : Kept s₀ (s.deliverLine p x row last words) := by
  unfold State.deliverLine
  exact (Kept.ite (Kept.ite h.bump.bump.raise h.bump.bump).raise (.ite h.bump.bump.raise h.bump.bump)).onArr.lineStope

theorem Kept.stopeRow {p x i words} (h : Kept s₀ s) : Kept s₀ (s.stopeRow p x i words) := by
  unfold State.stopeRow
  exact .ite h.deliverLine (.ite h.onArr h.onArr.deliverLine.deliverLine)

theorem Kept.latchSide {p side k dark codes} (h : Kept s₀ s) : Kept s₀ (s.latchSide p side k dark codes) := by
  unfold State.latchSide
  split
  · exact h
  · exact .ite (.ite (h.blackRow.foldl Kept.blackStope) h.blackRow) (h.foldl Kept.stopeRow)

theorem execRowLatch_keeps {dark codes} (h : Kept s₀ s) : Keeps s₀ (execRowLatch dark codes s) := by
  unfold execRowLatch
  split
  · exact .next h
  · exact .ite (.next h) (.next h.advance.onArr.latchSide.latchSide)

theorem execRowResetDone_keeps (h : Kept s₀ s) : Keeps s₀ (execRowResetDone s) := by
  unfold execRowResetDone
  split
  · exact .next h
  · exact .ite (.next h.advance.endPass) (.ite (.next h) (.next (.ite h.advance.resetRows.onArr.endPass h.advance.resetRows.onArr)))

theorem execHeldPassStart_keeps (h : Kept s₀ s) : Keeps s₀ (execHeldPassStart s) := by
  unfold execHeldPassStart
  split
  · exact .next h
  · exact .ite (.next h) (.next h.bump.raise.startPass)

/-! ### StoreOps -/

theorem Kept.showBanks (h : Kept s₀ s) : Kept s₀ s.showBanks := by
  unfold State.showBanks
  exact h.set.set.set.set.set.set.set.set.set.set

theorem Kept.showFirmware (h : Kept s₀ s) : Kept s₀ s.showFirmware := by
  unfold State.showFirmware
  exact h.set.set

theorem Kept.writeEntry (h : Kept s₀ s) : Kept s₀ s.writeEntry := by
  unfold State.writeEntry
  split
  · exact h
  · exact .ite h.onNvs.set (.ite h.onNvs.raise h.onNvs)

theorem Kept.commitEntry {o result code} (h : Kept s₀ s) : Kept s₀ (s.commitEntry o result code) := h.sbEnter

theorem Kept.endOp {code} (h : Kept s₀ s) : Kept s₀ (s.endOp code) := by
  unfold State.endOp
  split
  · exact h
  · extract_lets +onlyGivenNames t t1
    have ht : Kept s₀ t := h.set.set.set
    have ht1 : Kept s₀ t1 := ht.commitEntry.onNvs
    exact .ite (.ite ht1.set.put.onCnv.set.onCnv.raise ht1.set.put.onCnv.raise) ht1

theorem Kept.startOp {code area path role content} (h : Kept s₀ s) : Kept s₀ (s.startOp code area path role content) := by
  unfold State.startOp
  exact .ite h.set.set.commitEntry.onNvs.endOp h.set.set.commitEntry.onNvs

theorem Kept.finishOp (h : Kept s₀ s) : Kept s₀ s.finishOp := by
  unfold State.finishOp
  split
  · exact h
  · extract_lets +onlyGivenNames t
    have ht : Kept s₀ t := h.onNvs
    exact ht.endOp.showBanks

theorem Kept.closeOp (h : Kept s₀ s) : Kept s₀ s.closeOp := .ite h.endOp h.finishOp
theorem Kept.countCorr {block} (h : Kept s₀ s) : Kept s₀ (s.countCorr block) := h.onNvs

theorem Kept.verify {b err} (h : Kept s₀ s) : Kept s₀ (s.verify b err) :=
    .ite h.endOp (.ite h (.ite h.countCorr (.ite h.onNvs.endOp.raise (.ite h.endOp h.onNvs.set.raise))))

theorem Kept.putImageWord {word v} (h : Kept s₀ s) : Kept s₀ (s.putImageWord word v) := h.onNvs

theorem Kept.readStore {err} (h : Kept s₀ s) : Kept s₀ (s.readStore err).1 := by
  unfold State.readStore
  exact (Kept.ite h.put.put.put.onNvs (.ite h.put.put.put.onNvs.countCorr (.ite h.put.put.put.onNvs.countCorr.bump.onNvs
      h.put.put.put.onNvs.bump.raise))).fst

theorem Kept.recordFails {area bank block} (h : Kept s₀ s) : Kept s₀ (s.recordFails area bank block) := h.bump.raise

theorem Kept.spoilBank {b} (h : Kept s₀ s) : Kept s₀ (s.spoilBank b) := by
  unfold State.spoilBank
  exact .ite h.onNvs h

theorem Kept.spoilRecord {b} (h : Kept s₀ s) : Kept s₀ (s.spoilRecord b) := by
  unfold State.spoilRecord
  exact h.spoilBank.recordFails

theorem Kept.spoilWord {w} (h : Kept s₀ s) : Kept s₀ (s.spoilWord w) := h.spoilBank.bump.raise

theorem Kept.bootReads {crc unc} (h : Kept s₀ s) : Kept s₀ (s.bootReads crc unc) := by
  unfold State.bootReads
  exact ((h.foldl Kept.spoilRecord).foldl Kept.spoilWord).when Kept.onRol

theorem Kept.reviewBook (h : Kept s₀ s) : Kept s₀ s.reviewBook := by
  unfold State.reviewBook
  split
  · exact h
  · exact .ite h (.ite h.onNvs.sbEnter (.ite h.onNvs.sbEnter.raise.set h.onNvs.sbEnter.raise))

/-! ### Convert -/

theorem Kept.takeSlice {r} (h : Kept s₀ s) : Kept s₀ (s.takeSlice r) := by
  unfold State.takeSlice
  extract_lets +onlyGivenNames set
  have hset : ∀ {u x1 x2 x3}, Kept s₀ u → Kept s₀ (set u x1 x2 x3) := Kept.setCoef
  exact (hset (hset (hset (hset (hset h))))).setStamp

theorem Kept.rotate {b} (h : Kept s₀ s) : Kept s₀ (s.rotate b) := by
  unfold State.rotate
  exact h.setBank

theorem Kept.reviewAged (h : Kept s₀ s) : Kept s₀ s.reviewAged := by
  unfold State.reviewAged
  exact .ite h.set.onEng.spotFlag.onCnv h.set.onEng.spotFlag.onCnv.raise

theorem Kept.sliceBank {b r} (h : Kept s₀ s) : Kept s₀ (s.sliceBank b r).1 := by
  unfold State.sliceBank
  split
  · exact h.takeSlice.rotate.fst
  · extract_lets +onlyGivenNames _ t t1
    have ht : Kept s₀ t := h.setBank
    have ht1 : Kept s₀ t1 := ht.raise
    exact Kept.iteFst ht1.fst ht1.setBank.raise.callRecovery.fst

theorem execSliceStepDone_keeps {res} (h : Kept s₀ s) : Keeps s₀ (execSliceStepDone res s) := by
  unfold execSliceStepDone
  split
  · refine .next (.schedule (.reviewAged (.stepRan (.foldlFst h.advance.reviewAged.fst fun k => ?_))))
    split
    · exact k.sliceBank.fst
    · exact k
  · exact .next h

theorem Kept.resetCalRows {tap} (h : Kept s₀ s) : Kept s₀ (s.resetCalRows tap) := by
  unfold State.resetCalRows
  exact h.onArr

theorem Kept.qpGroup {tap g q} (h : Kept s₀ s) : Kept s₀ (s.qpGroup tap g q).1 := by
  unfold State.qpGroup
  exact Kept.iteFst h.onArr.setStamp.fst h.raise.fst

theorem execPktCalStepDone_keeps {res} (h : Kept s₀ s) : Keeps s₀ (execPktCalStepDone res s) := by
  unfold execPktCalStepDone
  split
  · exact .next h
  · split
    · exact .next h
    · exact .next (.schedule (.reviewAged (.stepRan (.resetCalRows (.foldlFst h.advance.reviewAged.fst fun k => k.qpGroup.fst)))))

theorem Kept.gapMark {len} (h : Kept s₀ s) : Kept s₀ (s.gapMark len) := by
  unfold State.gapMark
  exact .ite h.onCnv.set.onSaf.startL1.onCnv h.onCnv.schedule

theorem Kept.recalBank {b res} (h : Kept s₀ s) : Kept s₀ (s.recalBank b res).1 := by
  unfold State.recalBank
  extract_lets -merge +onlyGivenNames _ _ t
  have ht : Kept s₀ t := h.foldl Kept.takeSlice
  exact Kept.iteFst ht.setBank.raise.fst (Kept.iteFst ht.setBank.raise.fst ht.setBank.raise.fst)

theorem execBankRecalDone_keeps {res} (h : Kept s₀ s) : Keeps s₀ (execBankRecalDone res s) := by
  unfold execBankRecalDone
  split
  · exact .next h
  · extract_lets s1 r t t1 t2 own
    have hs : Kept s₀ s1 := h.advance.reviewAged
    clear_value s1
    have hr : Kept s₀ r.1 := Kept.foldlFst hs.fst fun k => k.recalBank.fst
    have ht : Kept s₀ t := hr.onCnv
    have ht1 : Kept s₀ t1 := ht.set
    have ht2 : Kept s₀ t2 := ht1.onSaf
    clear_value own
    split
    · exact .next ht2.reviewAged.schedule
    · exact .next (.ite ht2.escalate ht2.actionDone.reviewAged.schedule)

theorem Kept.effCalLimit {p w} (h : Kept s₀ s) : Kept s₀ (s.effCalLimit p w) := h.writeFields.reviewAged
theorem Kept.showBase (h : Kept s₀ s) : Kept s₀ s.showBase := h.set
theorem Kept.baseCapture (h : Kept s₀ s) : Kept s₀ s.baseCapture := h.onCnv

theorem Kept.baseCommit {p} (h : Kept s₀ s) : Kept s₀ (s.baseCommit p) := by
  unfold State.baseCommit
  split
  · exact h.set.set.raise
  · extract_lets +onlyGivenNames t
    have ht : Kept s₀ t := h.startOp
    exact .ite ht ht.set.onCnv

theorem Kept.effBaseCmd {p w} (h : Kept s₀ s) : Kept s₀ (s.effBaseCmd p w) :=
    .ite h (.ite (Kept.ite h.baseCapture h).baseCommit (.ite h.baseCapture h))

theorem Kept.effBaseVal {p w} (h : Kept s₀ s) : Kept s₀ (s.effBaseVal p w) := .ite h h.setWork

/-! ### Trackers -/

theorem Kept.takeFrame {p} (h : Kept s₀ s) : Kept s₀ (s.takeFrame p) := by
  unfold State.takeFrame
  exact h.onCad

theorem Kept.takeStart (h : Kept s₀ s) : Kept s₀ s.takeStart := by
  unfold State.takeStart
  split
  · exact h
  · exact .ite h h.takeFrame.onCad

theorem Kept.storeErr {m e} (h : Kept s₀ s) : Kept s₀ (s.storeErr m e) := h.set
theorem Kept.reviewTrackers (h : Kept s₀ s) : Kept s₀ s.reviewTrackers := h.reviewMeas.reviewTime

theorem Kept.edgeGood {m p per e} (h : Kept s₀ s) : Kept s₀ (s.edgeGood m p per e) := by
  unfold State.edgeGood
  exact (Kept.ite h.setTrk.raise h.setTrk).movedP

theorem Kept.edgeMissing {m} (h : Kept s₀ s) : Kept s₀ (s.edgeMissing m) := by
  unfold State.edgeMissing
  extract_lets +onlyGivenNames _
  split
  · extract_lets -merge +onlyGivenNames s1 _ _ t
    have hs1 : Kept s₀ s1 := (Kept.ite h h.takeStart).setTrk
    have ht : Kept s₀ t := .ite (.ite hs1.setTrk hs1.setTrk) (.ite hs1.setTrk.raise (.ite (.ite hs1.setTrk (.ite hs1.setTrk.raise
        hs1.setTrk.raise.onCad)) hs1))
    exact ht.reviewTrackers
  · exact h

theorem Kept.edgeRephase {m p per t} (h : Kept s₀ s) : Kept s₀ (s.edgeRephase m p per t) := by
  unfold State.edgeRephase
  exact (Kept.ite h h.takeFrame).setTrk.movedP

theorem Kept.edgeFor {m p per t} (h : Kept s₀ s) : Kept s₀ (s.edgeFor m p per t) := by
  unfold State.edgeFor
  exact .ite (((Kept.ite h.storeErr h.storeErr.takeStart).edgeGood).reviewTrackers) (.ite h.storeErr.edgeRephase.reviewTrackers
      h.storeErr.edgeMissing)

theorem Kept.edgeAfterLost {m t} (h : Kept s₀ s) : Kept s₀ (s.edgeAfterLost m t) := by
  unfold State.edgeAfterLost
  exact (Kept.ite h h.takeFrame).setTrk.regainedP.reviewTrackers

theorem Kept.edgeMeasure {m t} (h : Kept s₀ s) : Kept s₀ (s.edgeMeasure m t) := by
  unfold State.edgeMeasure
  extract_lets +onlyGivenNames s1
  have hs1 : Kept s₀ s1 := .ite h h.takeFrame
  split
  · exact hs1.setTrk
  · exact hs1.setTrk.regainedP

theorem Kept.inputEdge {m t bad} (h : Kept s₀ s) : Kept s₀ (s.inputEdge m t bad) := by
  unfold State.inputEdge
  extract_lets +onlyGivenNames _
  split
  · exact .ite h h.edgeAfterLost
  · split
    · exact .ite h.bump (.ite h.edgeMissing h.edgeFor)
    · exact .ite h h.edgeMeasure

theorem execScanFrmEdge_keeps {t rising} (h : Kept s₀ s) : Keeps s₀ (execScanFrmEdge t rising s) := by
  unfold execScanFrmEdge
  exact .ite (.next (Kept.ite h.advance.raise h.advance).onCad.inputEdge) (.next h.advance)

theorem execScanLineEdge_keeps {t rising} (h : Kept s₀ s) : Keeps s₀ (execScanLineEdge t rising s) := by
  unfold execScanLineEdge
  exact .ite (.next h.advance.onCad) (.next h.advance)

theorem execMainsZxEdge_keeps {t rising} (h : Kept s₀ s) : Keeps s₀ (execMainsZxEdge t rising s) := by
  unfold execMainsZxEdge
  exact .ite (.next h.advance.inputEdge) (.next h.advance)

theorem Kept.netEdge {m} (h : Kept s₀ s) : Kept s₀ (s.netEdge m) := by
  unfold State.netEdge
  extract_lets +onlyGivenNames _
  split
  · exact h
  · extract_lets +onlyGivenNames _
    split
    · exact .ite h h.edgeAfterLost
    · split
      · extract_lets +onlyGivenNames s1
        have hs1 : Kept s₀ s1 := h.advance
        exact .ite hs1.edgeMissing hs1.edgeFor
      · exact h.netStart.regainedP

theorem execFreeReferenceInstant_keeps {m} (h : Kept s₀ s) : Keeps s₀ (execFreeReferenceInstant m s) := by
  unfold execFreeReferenceInstant
  split
  · split
    · exact .next h
    · extract_lets -merge +onlyGivenNames s1 s2 _ _ _ t
      have hs1 : Kept s₀ s1 := h.advance.storeErr
      have hs2 : Kept s₀ s2 := .ite hs1 hs1.takeStart
      have ht : Kept s₀ t := hs2.setTrk
      exact .next ((Kept.ite ht.raise ht).reviewTrackers)
  · exact .next h

theorem execTrackerWindowClose_keeps {m} (h : Kept s₀ s) : Keeps s₀ (execTrackerWindowClose m s) := by
  unfold execTrackerWindowClose
  split
  · split
    · extract_lets +onlyGivenNames s1
      have hs1 : Kept s₀ s1 := h.advance
      exact .next (.ite hs1 hs1.edgeMissing)
    · exact .next h
  · exact .next h

theorem Kept.effCadSrc {p w} (h : Kept s₀ s) : Kept s₀ (s.effCadSrc p w) := by
  unfold State.effCadSrc
  split
  · exact h
  · extract_lets -merge +onlyGivenNames _ _ put
    have hput : ∀ {u x1 x2 x3 x4}, Kept s₀ u → Kept s₀ (put u x1 x2 x3 x4) := (fun k => .ite k.set.selectSrc.reviewTime k)
    exact hput (hput h)

/-! ### Validate -/

theorem Kept.afterSwap {commit} (h : Kept s₀ s) : Kept s₀ (s.afterSwap commit) := .ite h (h.foldl Kept.set)
theorem Kept.refuseTable {e} (h : Kept s₀ s) : Kept s₀ (s.refuseTable e) := h.set.set.raise
theorem Kept.refuseMode {e} (h : Kept s₀ s) : Kept s₀ (s.refuseMode e) := h.set.set.raise

theorem Kept.validate (h : Kept s₀ s) : Kept s₀ s.validate.1 := by
  unfold State.validate
  extract_lets +onlyGivenNames v
  have hv : Kept s₀ v := h.afterSwap
  split
  · exact h.refuseTable.fst
  · extract_lets +onlyGivenNames s1
    have hs1 : Kept s₀ s1 := h.set
    split
    · exact hs1.refuseMode.fst
    · exact hs1.set.fst

theorem Kept.requestSwap (h : Kept s₀ s) : Kept s₀ s.requestSwap := .ite h (.ite h.refuseTable (.ite h.validate.set h.validate))

/-! ### Cadence -/

theorem Kept.reachFrame {f} (h : Kept s₀ s) : Kept s₀ (s.reachFrame f) := .ite h.takeStart h
theorem Kept.scheduled (h : Kept s₀ s) : Kept s₀ s.scheduled := .ite h.flagSweep h

theorem Kept.skipEntry (h : Kept s₀ s) : Kept s₀ s.skipEntry := by
  unfold State.skipEntry
  exact .ite h.bump h.bump.onCad.raise

theorem Kept.runEntry {code act} (h : Kept s₀ s) (hact : ∀ {t0 t1}, Kept s₀ t0 → Kept s₀ (act t0 t1)) : Kept s₀ (s.runEntry code act) := by
  unfold State.runEntry
  split
  · extract_lets -merge +onlyGivenNames _ _ s1
    have hs1 : Kept s₀ s1 := h.reachFrame
    split
    · exact hs1
    · extract_lets +onlyGivenNames _ next
      have hnext : ∀ {u}, Kept s₀ u → Kept s₀ (next u) := Kept.onCad
      exact .ite (hnext hs1.skipEntry) (hact (hnext hs1.advance.scheduled))
  · exact h

theorem Kept.commandGates {cols} (h : Kept s₀ s) : Kept s₀ (s.commandGates cols) := h.onCad
theorem Kept.setGates {cols exit ends meas} (h : Kept s₀ s) : Kept s₀ (s.setGates cols exit ends meas) := h.onCad

theorem Kept.endWindow (h : Kept s₀ s) : Kept s₀ s.endWindow := by
  unfold State.endWindow
  exact .ite (.ite h.bump.flagSweep h.bump.flagSweep.onCad.raise) h

theorem Kept.gateAction {cols act} (h : Kept s₀ s) (hact : ∀ {t0 t1}, Kept s₀ t0 → Kept s₀ (act t0 t1)) : Kept s₀ (s.gateAction cols act) := by
  unfold State.gateAction
  exact hact (Kept.ite ((Kept.ite h.bump h).foldl Kept.endWindow) (.ite h.bump h)).commandGates

theorem Kept.openEntry {tap e} (h : Kept s₀ s) : Kept s₀ (s.openEntry tap e) :=
    h.gateAction (fun k => .ite (.ite k.bump.flagSweep.setGates k.bump.flagSweep.setGates.onCad.raise) (.ite k.refuseTap.setGates k.setGates))

theorem execOpenLengthEnd_keeps (h : Kept s₀ s) : Keeps s₀ (execOpenLengthEnd s) := by
  unfold execOpenLengthEnd
  extract_lets +onlyGivenNames ends
  clear_value ends
  split
  · exact .next h
  · exact .next h.advance.commandGates.setGates

theorem Kept.startGap {len} (h : Kept s₀ s) : Kept s₀ (s.startGap len) := h.onCad.gapMark
theorem Kept.setTrg {n f} (h : Kept s₀ s) : Kept s₀ (s.setTrg n f) := h.onCad

theorem Kept.triggerOpen {n at_} (h : Kept s₀ s) : Kept s₀ (s.triggerOpen n at_) := by
  unfold State.triggerOpen
  exact .ite h.refuseTap.setGates.setTrg h.setGates.setTrg

theorem execTriggerEdge_keeps {n t rising} (h : Kept s₀ s) : Keeps s₀ (execTriggerEdge n t rising s) := by
  unfold execTriggerEdge
  exact .ite (.ite (.next h.advance.bump.raise) (.next (.ite h.advance.setTrg.triggerOpen h.advance.setTrg))) (.next h.advance)

theorem execTriggerDelayOpen_keeps {n} (h : Kept s₀ s) : Keeps s₀ (execTriggerDelayOpen n s) := by
  unfold execTriggerDelayOpen
  split
  · exact .next h
  · exact .next h.advance.commandGates.triggerOpen

theorem execTriggerExposureEnd_keeps {n} (h : Kept s₀ s) : Keeps s₀ (execTriggerExposureEnd n s) := by
  unfold execTriggerExposureEnd
  extract_lets +onlyGivenNames _
  split
  · exact .next h
  · exact .next h.advance.commandGates.setGates.setTrg

theorem execVideoScheduleStep_keeps (h : Kept s₀ s) : Keeps s₀ (execVideoScheduleStep s) := by
  unfold execVideoScheduleStep
  split
  · extract_lets +onlyGivenNames next _
    have hnext : ∀ {u}, Kept s₀ u → Kept s₀ (next u) := Kept.onCad
    split
    · extract_lets +onlyGivenNames t
      have ht : Kept s₀ t := (hnext h).scheduled
      exact .next (.ite ht.refuseTap.setGates ht.setGates)
    · exact .next (((hnext h.advance).scheduled).read)
    · exact .ite (.next h) (.next (.ite ((hnext h.advance).scheduled).startGap ((hnext h.advance).scheduled)))
    · exact .next h
  · exact .next h

theorem execExpoPulseEnd_keeps (h : Kept s₀ s) : Keeps s₀ (execExpoPulseEnd s) := by
  unfold execExpoPulseEnd
  split
  · exact .next h
  · exact .next h.advance.onCad

theorem Kept.effShdAddr {p w} (h : Kept s₀ s) : Kept s₀ (s.effShdAddr p w) := .ite h.writeFields h
theorem Kept.effShdLo {p w} (h : Kept s₀ s) : Kept s₀ (s.effShdLo p w) := .ite h.onCad h
theorem Kept.effShdHi {p w} (h : Kept s₀ s) : Kept s₀ (s.effShdHi p w) := .ite h.onCad.set.set h
theorem Kept.readActHi (h : Kept s₀ s) : Kept s₀ s.readActHi.1 := h.set.fst
theorem Kept.effSwap {p w} (h : Kept s₀ s) : Kept s₀ (s.effSwap p w) := .ite h.requestSwap h

theorem Kept.effMode {p w} (h : Kept s₀ s) : Kept s₀ (s.effMode p w) := by
  unfold State.effMode
  exact .ite h (.ite h.raise h.set)

theorem Kept.lockstepFault {d} (h : Kept s₀ s) : Kept s₀ (s.lockstepFault d) := by
  unfold State.lockstepFault
  exact (Kept.ite h.set.set.set.set.set.stopTable.flagSweep h.set.set.set.set.set.stopTable).raise.reviewMreq.trip

/-! ### ChainOps -/

theorem Kept.cross {d k} (h : Kept s₀ s) : Kept s₀ (s.cross d k) := .ite h.onChn h.bump
theorem Kept.relay {d k} (h : Kept s₀ s) : Kept s₀ (s.relay d k) := .ite h.cross h

theorem Kept.onPacket {d k dt f} (h : Kept s₀ s) (hf : ∀ {t0}, Kept s₀ t0 → Kept s₀ (f t0)) : Kept s₀ (s.onPacket d k dt f) :=
    .ite h.bump (.ite h.supersede (.ite (hf h.relay) (.ite (hf h) h.cross)))

theorem Kept.setJoined {t b} (h : Kept s₀ s) : Kept s₀ (s.setJoined t b) := h.putBit.setPeer
theorem Kept.sendClaim {standing} (h : Kept s₀ s) : Kept s₀ (s.sendClaim standing) := h.sendCtl
theorem Kept.startClaim (h : Kept s₀ s) : Kept s₀ s.startClaim := .ite h.set.onChn.sendClaim h

/-! ### RoleOps -/

theorem Kept.showSessions (h : Kept s₀ s) : Kept s₀ s.showSessions := by
  unfold State.showSessions
  exact h.set.set

theorem Kept.randomBytes {n} (h : Kept s₀ s) : Kept s₀ (randomBytes n s).2 := by
  induction n generalizing s with
  | zero => exact h
  | succ n ih => exact ih h.free

theorem Kept.challenge {path role} (h : Kept s₀ s) : Kept s₀ (s.challenge path role).1 := by
  unfold State.challenge
  exact (Kept.ite h.onRol h).randomBytes.onRol.fst

theorem Kept.openSession {path role c} (h : Kept s₀ s) : Kept s₀ (s.openSession path role c) := by
  unfold State.openSession
  exact h.onRol.showSessions.sbEnter.raise

theorem Kept.failSession {path role} (h : Kept s₀ s) : Kept s₀ (s.failSession path role) := by
  unfold State.failSession
  exact .ite h.bump.onRol.sbEnter.raise h.bump.onRol.sbEnter.raise.onRol.sbEnter

theorem Kept.respond {path role resp} (h : Kept s₀ s) : Kept s₀ (s.respond path role resp).1 := by
  unfold State.respond
  extract_lets +onlyGivenNames t
  have ht : Kept s₀ t := h.onRol
  split
  · exact ht.failSession.fst
  · exact Kept.iteFst ht.openSession.fst ht.failSession.fst

theorem Kept.closeSession {path role cause} (h : Kept s₀ s) : Kept s₀ (s.closeSession path role cause) := by
  unfold State.closeSession
  split
  · exact h
  · exact h.onRol.showSessions.sbEnter.raise

theorem Kept.closePath {path cause} (h : Kept s₀ s) : Kept s₀ (s.closePath path cause) := h.foldl Kept.closeSession
theorem Kept.sysrstSessions (h : Kept s₀ s) : Kept s₀ s.sysrstSessions := h.onRol.showSessions

theorem Kept.reportClosed (h : Kept s₀ s) : Kept s₀ s.reportClosed := by
  unfold State.reportClosed
  exact h.onRol.foldl (fun k => k.sbEnter.raise)

/-! ### PowerOps -/

theorem Kept.resetBut {canary rws} (h : Kept s₀ s) : Kept s₀ (s.resetBut canary rws) :=
  Kept.toResets (h.rewrite (fun hr => rises_keptKeys hr) id)

theorem Kept.resetDomains (h : Kept s₀ s) : Kept s₀ s.resetDomains := h.resetBut
theorem Kept.holdDomains (h : Kept s₀ s) : Kept s₀ s.holdDomains := h.resetBut.onSaf.reviewForcing
theorem Kept.beginStartup (h : Kept s₀ s) : Kept s₀ s.beginStartup := h.set.onPwr

theorem Kept.drainBook {n} (h : Kept s₀ s) : Kept s₀ (drainBook n s) := by
  induction n generalizing s with
  | zero => exact h
  | succ n ih => exact .ite h (ih h.writeEntry)

theorem Kept.toStandby (h : Kept s₀ s) : Kept s₀ s.toStandby := by
  unfold State.toStandby
  exact (Kept.ite h h.closeOp).sbClose.drainBook.resetDomains.set.set.set.raise

theorem Kept.standby (h : Kept s₀ s) : Kept s₀ s.standby := .ite h.set.set h.toStandby
theorem Kept.stopConverters (h : Kept s₀ s) : Kept s₀ s.stopConverters := h.set.onCnv
theorem Kept.intoReady (h : Kept s₀ s) : Kept s₀ s.intoReady := h.toPower.reviewPipe.startCadence.calReady
theorem Kept.intoIdle (h : Kept s₀ s) : Kept s₀ s.intoIdle := h.reviewPipe.haltCadence.stopConverters.toPower

theorem Kept.endHold {target} (h : Kept s₀ s) : Kept s₀ (s.endHold target) := by
  unfold State.endHold
  exact (Kept.ite ((Kept.ite h.leaveHold.reviewPipe h.leaveHold.reviewPipe.startCadence).calReady) h.leaveHold.haltCadence.stopConverters).when
      Kept.onChn

theorem Kept.goTo {target} (h : Kept s₀ s) : Kept s₀ (s.goTo target) := by
  unfold State.goTo
  exact .ite h.beginStartup (.ite h.standby (.ite h.endHold (.ite h.intoReady (.ite h.intoIdle h.set.set))))

theorem Kept.command {session target} (h : Kept s₀ s) : Kept s₀ (s.command session target) := by
  unfold State.command
  exact .ite h.set.bump.raise (.ite h.set.resetDomains.set h.set.abortBist.goTo)

theorem Kept.commandEnds {session target} (h : Kept s₀ s) : Kept s₀ (s.commandEnds session target) := by
  unfold State.commandEnds
  exact .ite h.command.endRecovery h.command

theorem Kept.effPwrCmd {p w} (h : Kept s₀ s) : Kept s₀ (s.effPwrCmd p w) := by
  unfold State.effPwrCmd
  exact .ite h (.ite h.commandEnds (.ite (.ite h.commandEnds.sbEnter.touchSession h.bump) h.sbReject.commandEnds))

theorem Kept.releaseL2 (h : Kept s₀ s) : Kept s₀ s.releaseL2 := by
  unfold State.releaseL2
  split
  · extract_lets +onlyGivenNames t _ t1
    have ht : Kept s₀ t := h.foldl (fun k => .ite k k.putBit)
    have ht1 : Kept s₀ t1 := ht.noteR44.command
    exact .ite ht1 (.ite ht1.command ht1.endRecovery)
  · exact h

/-! ### Canary -/

theorem Kept.holdForeman (h : Kept s₀ s) : Kept s₀ s.holdForeman := h.onPwr
theorem Kept.latchStanding (h : Kept s₀ s) : Kept s₀ s.latchStanding := h.foldl (fun k => .ite k.trip k)
theorem Kept.effTrip {p w} (h : Kept s₀ s) : Kept s₀ (s.effTrip p w) := .ite ((h.foldl (fun k => .ite k.putBit k)).noteR44.reviewForcing) h

theorem Kept.endL3 (h : Kept s₀ s) : Kept s₀ s.endL3 := by
  unfold State.endL3
  exact h.endRecovery.onSaf.raise

theorem Kept.chainRestart (h : Kept s₀ s) : Kept s₀ s.chainRestart := by
  unfold State.chainRestart
  split
  · extract_lets +onlyGivenNames t t1 t2
    have ht : Kept s₀ t := h.releaseRequest
    have ht1 : Kept s₀ t1 := .ite ht.endHold (.ite ht.intoReady ht)
    have ht2 : Kept s₀ t2 := ht1.onSaf
    exact .ite ht2.endL3 ht2
  · exact h

theorem Kept.effSafCmd {p w} (h : Kept s₀ s) : Kept s₀ (s.effSafCmd p w) := by
  unfold State.effSafCmd
  exact .ite (Kept.ite h.trip h).chainRestart (.ite h.trip h)

theorem Kept.sendRecover {tally cause} (h : Kept s₀ s) : Kept s₀ (s.sendRecover tally cause) := h.sendCtl

theorem execRecoveryTimeout_keeps (h : Kept s₀ s) : Keeps s₀ (execRecoveryTimeout s) := by
  unfold execRecoveryTimeout
  extract_lets +onlyGivenNames _
  split
  · extract_lets +onlyGivenNames t
    have ht : Kept s₀ t := h.advance.raise
    split
    · exact .next ht.escalate
    · exact .ite (.next ht.set.onSaf) (.next ht.escalate)
  · split
    · exact .next h.advance.onSaf.raise
    · split
      · split
        · exact .next h
        · extract_lets +onlyGivenNames t
          have ht : Kept s₀ t := h.advance
          exact .next ((ht.foldl (fun k => k.sendRecover.raise)).endL3)
      · exact .next h

theorem execL1DeferExpired_keeps (h : Kept s₀ s) : Keeps s₀ (execL1DeferExpired s) := by
  unfold execL1DeferExpired
  split
  · exact .next h
  · extract_lets +onlyGivenNames t t1
    have ht : Kept s₀ t := h.advance
    have ht1 : Kept s₀ t1 := ht.set.onSaf
    exact .next ht1.raise.callRecovery

/-! ### Chain -/

theorem Kept.grant {t role} (h : Kept s₀ s) : Kept s₀ (s.grant t role) := by
  unfold State.grant
  exact h.setPeer.setJoined.onChn.sendCtl

theorem Kept.countUnits (h : Kept s₀ s) : Kept s₀ s.countUnits := h.set
theorem Kept.sendRoll {d next mode way} (h : Kept s₀ s) : Kept s₀ (s.sendRoll d next mode way) := h.sendOn
theorem Kept.startCall {join} (h : Kept s₀ s) : Kept s₀ (s.startCall join) := .ite h ((Kept.ite h.onChn h.set.set.set.onChn.setPeer).onChn.sendRoll)
theorem Kept.fullCall (h : Kept s₀ s) : Kept s₀ s.fullCall := (Kept.ite h.callRecovery h).startCall
theorem Kept.wantCall {join} (h : Kept s₀ s) : Kept s₀ (s.wantCall join) := .ite h (.ite h.onChn (.ite h.startCall h.fullCall))
theorem Kept.serveCall (h : Kept s₀ s) : Kept s₀ s.serveCall := .ite h h.onChn.wantCall

theorem Kept.endCall (h : Kept s₀ s) : Kept s₀ s.endCall := by
  unfold State.endCall
  split
  · exact h
  · extract_lets -merge +onlyGivenNames _ t t1 _ t2 _ t3
    have ht : Kept s₀ t := h.onChn
    have ht1 : Kept s₀ t1 := .ite ht (ht.foldl Kept.grant)
    have ht2 : Kept s₀ t2 := .ite ht1.onChn ht1
    have ht3 : Kept s₀ t3 := ht2.countUnits.put.set
    exact ht3.sendCtl.raise

theorem Kept.reviewCall (h : Kept s₀ s) : Kept s₀ s.reviewCall := by
  unfold State.reviewCall
  split
  · split
    · exact .ite h.endCall h
    · exact h
  · exact h

theorem Kept.sendReport (h : Kept s₀ s) : Kept s₀ s.sendReport := h.sendCtl
theorem Kept.stopClaim (h : Kept s₀ s) : Kept s₀ s.stopClaim := .ite h.set.onChn h

theorem Kept.rollAt {k} (h : Kept s₀ s) : Kept s₀ (s.rollAt k) := by
  unfold State.rollAt
  exact (Kept.ite h.stopClaim.onChn.zeros.set.set h.stopClaim.onChn.zeros.set.set.zeros.set).cross.sendReport

theorem execRollTimeout_keeps (h : Kept s₀ s) : Keeps s₀ (execRollTimeout s) := by
  unfold execRollTimeout
  split
  · exact .next h
  · exact .ite (.next h.advance.endCall) (.next h.advance.onChn.sendRoll)

theorem Kept.report {k r} (h : Kept s₀ s) : Kept s₀ (s.report k r) := by
  unfold State.report
  extract_lets -merge +onlyGivenNames _ _ s1
  have hs1 : Kept s₀ s1 := h.onChn
  split
  · split
    · exact hs1.raise
    · extract_lets +onlyGivenNames s2
      have hs2 : Kept s₀ s2 := hs1.setPeer
      exact .ite hs2 hs2.grant
  · exact hs1.setPeer

theorem execRollReport_keeps {d k} (h : Kept s₀ s) : Keeps s₀ (execRollReport d k s) := .next (h.onPacket (fun k1 => by
    split
    · exact .ite k1.report.reviewCall k1
    · exact k1))

theorem Kept.takeGrant {k} (h : Kept s₀ s) : Kept s₀ (s.takeGrant k) := .ite h.set.set.set.set.onChn.onCad.reviewTime h

theorem Kept.rollDone {k} (h : Kept s₀ s) : Kept s₀ (s.rollDone k) := by
  unfold State.rollDone
  extract_lets -merge +onlyGivenNames _ _ t t1 _ _
  have ht : Kept s₀ t := h.set.put.set.onChn
  have ht1 : Kept s₀ t1 := .ite ht.set ht
  split
  · exact ht1
  · extract_lets +onlyGivenNames refused _ t2
    have hrefused : Kept s₀ refused.2 := Kept.iteSnd ht1.free ht1.snd
    have ht2 : Kept s₀ t2 := hrefused
    exact .ite ht2.set (.ite ht2.set ht2)

theorem Kept.takeHead (h : Kept s₀ s) : Kept s₀ s.takeHead := by
  unfold State.takeHead
  exact h.set.set.set.set.zeros.set.set.onChn.setPeer.onCad.reviewTime.reviewMreq.startRings

theorem execClaim_keeps {d k} (h : Kept s₀ s) : Keeps s₀ (execClaim d k s) := by
  unfold execClaim
  exact .ite (.next h.bump) (.ite (.next h) (.ite (.next (.ite h.cross h.cross.sendClaim)) (.ite (.next (.ite h.cross.onChn.stopClaim.raise
      h.cross.onChn)) (.ite (.next h.cross.stopClaim) (.next h.cross)))))

theorem execElectionTimeout_keeps (h : Kept s₀ s) : Keeps s₀ (execElectionTimeout s) := by
  unfold execElectionTimeout
  split
  · exact .next h
  · exact .ite (.next h.advance.takeHead.raise.fullCall) (.next h)

theorem Kept.writeMask {mask} (h : Kept s₀ s) : Kept s₀ (s.writeMask mask) := h.foldl Kept.set

theorem Kept.armUnit {number gear assign k gearCh asgCh} (h : Kept s₀ s) : Kept s₀ (s.armUnit number gear assign k gearCh asgCh).1 := by
  unfold State.armUnit
  exact (Kept.ite h.refuseTable (.ite h.refuseMode h)).onChn.fst

theorem Kept.takeAck {tally result} (h : Kept s₀ s) : Kept s₀ (s.takeAck tally result) := .ite h (.ite h.putBit h.set.set.cancelDerail)

theorem Kept.beginDerail {gearCh asgCh} (h : Kept s₀ s) : Kept s₀ (s.beginDerail gearCh asgCh) := by
  unfold State.beginDerail
  extract_lets -merge +onlyGivenNames _ _ _ _ _ _ _ _ t t1 _ t2 t3 t4 r
  have ht : Kept s₀ t := h.zeros.set
  have ht1 : Kept s₀ t1 := ht.set.set.onChn
  have ht2 : Kept s₀ t2 := ht1.foldl Kept.sendCtl
  have ht3 : Kept s₀ t3 := .ite ht2.onChn ht2
  have ht4 : Kept s₀ t4 := ht3.sendCtl
  have hr : Kept s₀ r.1 := ht4.armUnit
  exact hr.takeAck

theorem Kept.tryDerail {gearCh asgCh} (h : Kept s₀ s) : Kept s₀ (s.tryDerail gearCh asgCh) := .ite h.set h.beginDerail

theorem Kept.effDrlCmd {p w} (h : Kept s₀ s) : Kept s₀ (s.effDrlCmd p w) := by
  unfold State.effDrlCmd
  exact .ite h.writeFields (.ite h.writeFields.set h.writeFields.tryDerail)

theorem execCommit_keeps {d k} (h : Kept s₀ s) : Keeps s₀ (execCommit d k s) := .next (h.onPacket (fun k1 => by
    split
    · exact .ite k1.onChn k1
    · exact k1))

theorem execCancel_keeps {d k} (h : Kept s₀ s) : Keeps s₀ (execCancel d k s) := .next (h.onPacket (fun k1 => by
    split
    · exact .ite k1.onChn k1
    · exact k1))

theorem Kept.sendMirror (h : Kept s₀ s) : Kept s₀ s.sendMirror := .ite h.sendCtl h

theorem Kept.takeMirror (h : Kept s₀ s) : Kept s₀ s.takeMirror := by
  unfold State.takeMirror
  exact .ite h (h.onChn.foldl Kept.set)

theorem Kept.sendBeat (h : Kept s₀ s) : Kept s₀ s.sendBeat := by
  unfold State.sendBeat
  exact h.sendCtl

theorem Kept.crewBeat {k} (h : Kept s₀ s) : Kept s₀ (s.crewBeat k) := by
  unfold State.crewBeat
  split
  · exact h
  · extract_lets +onlyGivenNames s1 _ s2
    have hs1 : Kept s₀ s1 := h.setPeer.onChn
    have hs2 : Kept s₀ s2 := .ite (.ite hs1.grant.raise hs1.grant) hs1
    exact .ite (.ite hs2.onSaf.endL3 hs2.onSaf) hs2

theorem Kept.endChainHold (h : Kept s₀ s) : Kept s₀ s.endChainHold := by
  unfold State.endChainHold
  exact (Kept.ite h.set.releaseRequest.endHold h.set.releaseRequest).endRecovery

theorem Kept.headBeat {k} (h : Kept s₀ s) : Kept s₀ (s.headBeat k) := by
  unfold State.headBeat
  extract_lets +onlyGivenNames t t1
  have ht : Kept s₀ t := h.onChn
  have ht1 : Kept s₀ t1 := .ite ht.set ht
  exact .ite ht1 (.ite (ht1.callRecovery.when Kept.raise) (.ite ht1.endChainHold ht1))

theorem Kept.useSpare {t} (h : Kept s₀ s) : Kept s₀ (s.useSpare t) := by
  unfold State.useSpare
  exact .ite (.ite h.onChn.onChn.tryDerail.raise h.onChn) h.onChn

theorem Kept.serveSpare (h : Kept s₀ s) : Kept s₀ s.serveSpare := by
  unfold State.serveSpare
  split
  · exact .ite h.useSpare h
  · exact h

theorem Kept.declareDead {t} (h : Kept s₀ s) : Kept s₀ (s.declareDead t) := by
  unfold State.declareDead
  exact .ite h.setPeer.setJoined.countUnits.raise.cancelDerail h.setPeer.setJoined.countUnits.raise.cancelDerail.useSpare

theorem Kept.takeOver (h : Kept s₀ s) : Kept s₀ s.takeOver := by
  unfold State.takeOver
  exact h.takeMirror.takeHead.set.raise.callRecovery.startCall

theorem Kept.countMissed (h : Kept s₀ s) : Kept s₀ s.countMissed := by
  unfold State.countMissed
  extract_lets -merge +onlyGivenNames _ _ t _ t1
  have ht : Kept s₀ t := h.foldl Kept.setPeer
  have ht1 : Kept s₀ t1 := ht.onChn.foldl Kept.declareDead
  exact .ite ht1.raise.callRecovery ht1

theorem Kept.countHead (h : Kept s₀ s) : Kept s₀ s.countHead := by
  unfold State.countHead
  exact .ite h.onChn (.ite (.ite h.onChn.takeOver h.onChn) (.ite h.onChn.set.raise h.onChn))

theorem Kept.serveRemap (h : Kept s₀ s) : Kept s₀ s.serveRemap := .ite h (.ite h.onChn (.ite h.onChn.tryDerail h))
theorem Kept.reportRemap (h : Kept s₀ s) : Kept s₀ s.reportRemap := h.onChn.serveRemap

theorem execBeatWindow_keeps (h : Kept s₀ s) : Keeps s₀ (execBeatWindow s) := by
  unfold execBeatWindow
  exact .ite (.next h.advance) (.next (.ite h.advance.sendBeat.countMissed.serveCall.serveSpare.serveRemap h.advance.sendBeat.countHead))

theorem Kept.bench (h : Kept s₀ s) : Kept s₀ s.bench := by
  unfold State.bench
  extract_lets +onlyGivenNames t t1
  have ht : Kept s₀ t := h.zeros
  have ht1 : Kept s₀ t1 := ht.reviewTime.reviewMreq
  exact .ite ht1.intoIdle (.ite ht1.cadHold.sealAll.intoIdle (.ite ht1.commandEnds ht1))

theorem execJoinCallDelay_keeps (h : Kept s₀ s) : Keeps s₀ (execJoinCallDelay s) := by
  unfold execJoinCallDelay
  split
  · exact .next h
  · exact .next h.advance.onChn.wantCall

theorem Kept.effChnCtrl {p w} (h : Kept s₀ s) : Kept s₀ (s.effChnCtrl p w) := by
  unfold State.effChnCtrl
  exact .ite h.writeFields.wantCall (.ite h.writeFields.wantCall h.writeFields)

theorem Kept.effAsgBase {p w} (h : Kept s₀ s) : Kept s₀ (s.effAsgBase p w) := .ite h.onChn h
theorem Kept.effAsgLo {p w} (h : Kept s₀ s) : Kept s₀ (s.effAsgLo p w) := .ite h.onChn h
theorem Kept.effAsgHi {p w} (h : Kept s₀ s) : Kept s₀ (s.effAsgHi p w) := .ite h h.onChn
theorem Kept.effAsgCmd {p w} (h : Kept s₀ s) : Kept s₀ (s.effAsgCmd p w) := .ite h (.ite (Kept.ite h.onChn h).onChn (.ite h.onChn h))

theorem Kept.effSpare {p off w} (h : Kept s₀ s) : Kept s₀ (s.effSpare p off w) := by
  unfold State.effSpare
  exact .ite h.writeFields.sendMirror h.writeFields

theorem Kept.finishBuild {src} (h : Kept s₀ s) : Kept s₀ (s.finishBuild src) := by
  unfold State.finishBuild
  split
  · exact h
  · exact .ite h.onChn.ledgerJudge.reviewIntake h

theorem Kept.openBuild {k} (h : Kept s₀ s) : Kept s₀ (s.openBuild k) := by
  unfold State.openBuild
  extract_lets +onlyGivenNames t
  have ht : Kept s₀ t := by
    unfold t
    split
    · exact h.ledgerIncomplete
    · exact h
  exact ht.onChn.intake (fun k1 => k1.usesKibble.onChn.finishBuild)

theorem Kept.extendBuild {k f} (h : Kept s₀ s) : Kept s₀ (s.extendBuild k f) := by
  unfold State.extendBuild
  split
  · exact .ite h.onChn.finishBuild h
  · exact h

theorem Kept.runPacket {d k dt f} (h : Kept s₀ s) (hf : ∀ {t0}, Kept s₀ t0 → Kept s₀ (f t0)) : Kept s₀ (s.runPacket d k dt f) :=
    h.onPacket (fun k1 => .ite (hf k1) k1)

/-! ### EngineRun -/

theorem Kept.takeProgram {n e} (h : Kept s₀ s) : Kept s₀ (State.takeProgram n e s) := by
  induction n generalizing s with
  | zero => exact h
  | succ n ih =>
    unfold State.takeProgram
    split
    · exact h
    · exact .ite h (ih h.setEngine.onEng)

theorem Kept.pushDone {e} (h : Kept s₀ s) : Kept s₀ (s.pushDone e) := by
  unfold State.pushDone
  exact h.setEngine.onEng.releaseReady

theorem Kept.push {e stream count} (h : Kept s₀ s) : Kept s₀ (s.push e stream count) := by
  unfold State.push
  extract_lets +onlyGivenNames s1 _ refuse
  have hs1 : Kept s₀ s1 := .ite h.pushDone h
  have hrefuse : ∀ {u x1}, Kept s₀ u → Kept s₀ (refuse u x1) := (fun k => k.setEngine.bump)
  split
  · exact hrefuse hs1
  · split
    · exact hrefuse hs1
    · exact .ite (.ite ((hrefuse hs1).setOut) ((hrefuse hs1).setOut).raise) hs1.usesKibble.setOut.setEngine

theorem Kept.seal {e} (h : Kept s₀ s) : Kept s₀ (s.seal e) := by
  unfold State.seal
  split
  · exact h
  · exact h.setOut.setEngine.releaseReady

theorem Kept.writeInRd {e v} (h : Kept s₀ s) : Kept s₀ (s.writeInRd e v) := by
  unfold State.writeInRd
  exact .ite h.setEngine (.ite h.engFault h)

theorem Kept.writeInboxRd {e v} (h : Kept s₀ s) : Kept s₀ (s.writeInboxRd e v) := h.setEngine
theorem Kept.postOutbox {e v} (h : Kept s₀ s) : Kept s₀ (s.postOutbox e v) := h.setEngine.takeProgram
theorem Kept.trapWith {e code} (h : Kept s₀ s) : Kept s₀ (s.trapWith e code) := h.onEng.engFault

theorem Kept.lclWrite {e off v} (h : Kept s₀ s) : Kept s₀ (s.lclWrite e off v) := by
  unfold State.lclWrite
  exact .ite (.ite h h.setEngine) (.ite (h.setEngine.when Kept.dropClaims) (.ite (.ite h h.setEngine) (.ite h.writeInRd (.ite h.setEngine (.ite (.ite
      h.seal h.push) (.ite h.writeInboxRd (.ite h.postOutbox (.ite h.setEngine (.ite h.setEngine (.ite h.setEngine (.ite h.setEngine (.ite
      h.setEngine (.ite h.trapWith (.ite h.programEvent h))))))))))))))

theorem Kept.lclRead {e off} (h : Kept s₀ s) : Kept s₀ (s.lclRead e off).2 := by
  unfold State.lclRead
  exact Kept.iteSnd h.snd (Kept.iteSnd h.snd (Kept.iteSnd h.onEng.snd (Kept.iteSnd h.snd (Kept.iteSnd h.onEng.snd (Kept.iteSnd h.snd (Kept.iteSnd
      h.snd (Kept.iteSnd h.snd h.snd)))))))

theorem Kept.lclReads {e off n} (h : Kept s₀ s) : Kept s₀ (s.lclReads e off n).2 := by
  induction n generalizing s off with
  | zero => exact h
  | succ n ih => exact ih h.lclRead

theorem Kept.lclWrites {e off ws} (h : Kept s₀ s) : Kept s₀ (s.lclWrites e off ws) := by
  induction ws generalizing s off with
  | nil => exact h
  | cons w ws ih => exact .ite (ih h.lclWrite) h.lclWrite

theorem Kept.progRead {e a n align errs} (h : Kept s₀ s) : Kept s₀ (s.progRead e a n align errs).2 := by
  unfold State.progRead
  split
  · exact h.engFault.snd
  · split
    · exact h.engFault.snd
    · extract_lets +onlyGivenNames r
      have hr : Kept s₀ r.2 := h.lclReads
      exact hr.snd
    · extract_lets +onlyGivenNames _ t
      have ht : Kept s₀ t := h.setEngine
      exact Kept.iteSnd ht.engFault.snd ht.snd
    · exact h.snd

theorem Kept.progWrite {e a align bs} (h : Kept s₀ s) : Kept s₀ (s.progWrite e a align bs) := by
  unfold State.progWrite
  split
  · exact h.engFault
  · split
    · exact h.engFault
    · exact h.engFault
    · exact h.lclWrites
    · exact h.setEngine

theorem Kept.issue {e ferr adv body} (h : Kept s₀ s) (hbody : ∀ {t0}, Kept s₀ t0 → Kept s₀ (body t0)) : Kept s₀ (s.issue e ferr adv body) := by
  unfold State.issue
  exact .ite (.ite h.engFault (.ite h.engFault (.ite h.setEngine.engFault (.ite (hbody h.setEngine).setEngine (hbody h.setEngine))))) h

theorem Kept.legal {e ok f} (h : Kept s₀ s) (hf : ∀ {t0}, Kept s₀ t0 → Kept s₀ (f t0)) : Kept s₀ (s.legal e ok f) := .ite (hf h) h.engFault

theorem execEngScalarLoadStore_keeps {e ferr load size sx reg base off err} (h : Kept s₀ s) : Keeps s₀ (execEngScalarLoadStore e ferr load size sx
    reg base off err s) := .next (h.issue (fun k => k.legal (fun k1 => by
    extract_lets -merge +onlyGivenNames _ _
    split
    · extract_lets +onlyGivenNames r
      have hr : Kept s₀ r.2 := k1.progRead
      split
      · exact hr
      · extract_lets -merge +onlyGivenNames _ _ t
        have ht : Kept s₀ t := hr.setEngine
        exact .ite ht.setEngine ht
    · exact k1.progWrite)))

theorem Kept.progReads {e n errs l} (h : Kept s₀ s) : Kept s₀ (s.progReads e n errs l).2 := by
  induction l generalizing s errs with
  | nil => exact h
  | cons b l ih =>
    unfold State.progReads
    extract_lets r
    split
    · exact h.progRead
    · exact ih h.progRead

theorem Kept.progWrites {e n l bs} (h : Kept s₀ s) : Kept s₀ (s.progWrites e n l bs) := by
  induction l generalizing s bs with
  | nil => exact h
  | cons b l ih => exact .ite (ih h.progWrite) h.progWrite

theorem execEngVectorLoadStore_keeps {e ferr load mode wide vr base off errs} (h : Kept s₀ s) : Keeps s₀ (execEngVectorLoadStore e ferr load mode
    wide vr base off errs s) := .next (h.issue (fun k => k.legal (fun k1 => by
    split
    · extract_lets +onlyGivenNames r
      have hr : Kept s₀ r.2 := k1.progReads
      split
      · exact hr
      · exact hr.setEngine
    · exact k1.progWrites)))

theorem Kept.program {e f} (h : Kept s₀ s) (hf : ∀ {t0}, Kept s₀ t0 → Kept s₀ (f t0)) : Kept s₀ (s.program e f) := .ite (hf h) h

theorem execLclTimerZero_keeps {e} (h : Kept s₀ s) : Keeps s₀ (execLclTimerZero e s) := by
  unfold execLclTimerZero
  exact .ite (.next h) (.next h.advance.setEngine)

theorem execEngineReadyMessage_keeps {e} (h : Kept s₀ s) : Keeps s₀ (execEngineReadyMessage e s) := by
  unfold execEngineReadyMessage
  split
  · exact .next h
  · exact .ite (.next h.setEngine.onEng.takeProgram) (.next h)

theorem execLogMessage_keeps {e} (h : Kept s₀ s) : Keeps s₀ (execLogMessage e s) := by
  unfold execLogMessage
  split
  · exact .next h
  · exact .ite (.next h.setEngine.onEng.takeProgram) (.next h)

/-! ### Program -/

theorem Kept.setStd {e f} (h : Kept s₀ s) : Kept s₀ (s.setStd e f) := h.setEngine

theorem Kept.kitMessage {e m} (h : Kept s₀ s) : Kept s₀ (s.kitMessage e m) := by
  unfold State.kitMessage
  extract_lets -merge +onlyGivenNames _ _
  split
  · exact h.setStd
  · exact h.setStd.when Kept.programEvent
  · exact h.setStd
  · exact h

theorem Kept.kitPoll {e n} (h : Kept s₀ s) : Kept s₀ (s.kitPoll e n) := by
  induction n generalizing s with
  | zero => exact h
  | succ n ih => exact .ite h (ih h.kitMessage.writeInboxRd)

theorem Kept.kitHears {stope} (h : Kept s₀ s) : Kept s₀ (s.kitHears stope) := by
  unfold State.kitHears
  split
  · exact h
  · exact .ite h.kitPoll h

theorem Kept.kitOpen {e body} (h : Kept s₀ s) : Kept s₀ (s.kitOpen e body) := by
  unfold State.kitOpen
  split
  · exact h
  · extract_lets -merge +onlyGivenNames _ _ _ _ _ _ t t1
    have ht : Kept s₀ t := h.setStd.setEngine
    have ht1 : Kept s₀ t1 := ht.when Kept.programEvent
    exact .ite ht1 ht1.programEvent

theorem Kept.kitPush {e stream size bytes} (h : Kept s₀ s) : Kept s₀ (s.kitPush e stream size bytes) := h.foldl (fun k => k.setEngine.push)

theorem Kept.kitSend {e sweep ext keys deltas stat aux} (h : Kept s₀ s) : Kept s₀ (s.kitSend e sweep ext keys deltas stat aux) := by
  unfold State.kitSend
  exact h.setEngine.kitPush.kitPush.kitPush.kitPush.kitPush.seal

theorem Kept.kitClose {e k w cond} (h : Kept s₀ s) : Kept s₀ (s.kitClose e k w cond) := by
  unfold State.kitClose
  exact .ite h.setStd.kitSend (.ite ((h.setStd.when Kept.programEvent).kitSend) (.ite h.setStd.setEngine.kitSend h.setStd.kitSend))

theorem Kept.surveyClose {e k w} (h : Kept s₀ s) : Kept s₀ (s.surveyClose e k w) := by
  unfold State.surveyClose
  exact h.setStd.kitSend

theorem Kept.kitItem {e it} (h : Kept s₀ s) : Kept s₀ (s.kitItem e it) := by
  unfold State.kitItem
  extract_lets _ _ _ _ _ keep t
  have hkeep : ∀ f, Kept s₀ (keep f) := fun _ => h.setStd
  have ht : Kept s₀ t := by
    unfold t
    split
    · exact h.kitPoll.kitOpen
    · exact hkeep _
    · exact hkeep _
    · split
      · exact h
      · split
        · exact h
        · exact .ite h.surveyClose h.kitClose
    · exact h
  exact ht.setEngine

theorem execItemPublish_keeps {stope} (h : Kept s₀ s) : Keeps s₀ (execItemPublish stope s) := by
  unfold execItemPublish
  split
  · exact .next h
  · split
    · exact .next h
    · exact .next (h.when (fun k => .ite k.setEngine.kitItem k.setEngine))

/-! ### Engine -/

theorem Kept.pastDeadline {o} (h : Kept s₀ s) : Kept s₀ (s.pastDeadline o) :=
    .ite h.release (.ite (.ite h.sealLate.setEngine.engFault h.sealLate.setEngine) h.sealLate)

theorem Kept.roleWrite {p off w r effect} (h : Kept s₀ s) (heffect : ∀ {t0}, Kept s₀ t0 → Kept s₀ (effect t0)) :
    Kept s₀ (s.roleWrite p off w r effect) :=
    .ite h (.ite h.sbReject (.ite (heffect h) (.ite h.bump (heffect h.sbWrite.touchSession.noteFirstWrite))))

theorem Kept.startEngine {e} (h : Kept s₀ s) : Kept s₀ (s.startEngine e) := .ite h.startWith.reviewEngines h
theorem Kept.haltEngine {e} (h : Kept s₀ s) : Kept s₀ (s.haltEngine e) := .ite h.dropClaims.setEngine.reviewEngines h

theorem Kept.clearEngine {e} (h : Kept s₀ s) : Kept s₀ (s.clearEngine e) := by
  unfold State.clearEngine
  exact .ite h h.setEngine.reviewEngines

theorem Kept.writeEngCmd {p w} (h : Kept s₀ s) : Kept s₀ (s.writeEngCmd p w) := by
  unfold State.writeEngCmd
  split
  · exact h.roleWrite Kept.startEngine
  · exact h.roleWrite Kept.haltEngine
  · exact h.roleWrite Kept.clearEngine
  · exact h

theorem Kept.windowWriteTo {targets a w} (h : Kept s₀ s) : Kept s₀ (s.windowWriteTo targets a w).1 :=
    h.fst.foldlFst (fun k => Kept.iteFst k.setEngine.fst ((Kept.ite k.bump.onEng.raise k.bump).fst))

theorem Kept.windowWrite {e a w} (h : Kept s₀ s) : Kept s₀ (s.windowWrite e a w).1 := h.windowWriteTo
theorem Kept.effMemAddr {p w} (h : Kept s₀ s) : Kept s₀ (s.effMemAddr p w) := .ite h.writeFields.toReset.onEng h

theorem Kept.crcWord {w} (h : Kept s₀ s) : Kept s₀ (s.crcWord w) := by
  unfold State.crcWord
  exact h.onEng.set

theorem Kept.stepMemAddr (h : Kept s₀ s) : Kept s₀ s.stepMemAddr := h.set
theorem Kept.effMemData {p w} (h : Kept s₀ s) : Kept s₀ (s.effMemData p w) := .ite ((Kept.ite h.windowWrite.crcWord h.windowWrite).stepMemAddr) h
theorem Kept.readMemData {p} (h : Kept s₀ s) : Kept s₀ (s.readMemData p).1 := h.stepMemAddr.fst
theorem Kept.beginRemap {x old target fault} (h : Kept s₀ s) : Kept s₀ (s.beginRemap x old target fault) := h.set.set.set.onEng

theorem execRemapStart_keeps (h : Kept s₀ s) : Keeps s₀ (execRemapStart s) := by
  unfold execRemapStart
  split
  · exact .next h
  · split
    · exact .next h
    · extract_lets +onlyGivenNames s1
      have hs1 : Kept s₀ s1 := h.onEng
      split
      · exact .next hs1.actionDone
      · split
        · exact .next hs1.actionDone
        · split
          · exact .next hs1.raise.reviewEngines.actionDone
          · exact .next hs1.beginRemap.setEngine.reviewEngines

theorem execRemapCopyDone_keeps {bad} (h : Kept s₀ s) : Keeps s₀ (execRemapCopyDone bad s) := by
  unfold execRemapCopyDone
  split
  · exact .next h
  · exact .ite (.next h) (.next (.ite (Kept.ite h.setEngine h).onEng (Kept.ite h.setEngine h).onEng.raise))

theorem Kept.startTarget {r} (h : Kept s₀ s) : Kept s₀ (s.startTarget r) := .ite h.setEngine (.ite h.setEngine (.ite h.startWith h.setEngine))

theorem Kept.moveHeld {r} (h : Kept s₀ s) : Kept s₀ (s.moveHeld r) := by
  unfold State.moveHeld
  exact (Kept.ite h.setEngine h).setEngine

theorem execRemapComplete_keeps (h : Kept s₀ s) : Keeps s₀ (execRemapComplete s) := by
  unfold execRemapComplete
  split
  · exact .next h
  · split
    · exact .next h
    · extract_lets +onlyGivenNames t t1 t2 t3
      have ht : Kept s₀ t := h.set.onEng
      have ht1 : Kept s₀ t1 := ht.set.set
      have ht2 : Kept s₀ t2 := ht1.moveHeld.startTarget.reviewEngines.raise
      have ht3 : Kept s₀ t3 := .ite ht2.actionDone ht2
      exact .next (.ite ht3.reportRemap ht3)

theorem Kept.effRemap {p w} (h : Kept s₀ s) : Kept s₀ (s.effRemap p w) :=
    .ite h (.ite h.set (.ite h.set ((Kept.ite (Kept.ite h.haltEngine h).setEngine (.ite h.haltEngine h)).beginRemap)))

theorem Kept.writeQen {v q} (h : Kept s₀ s) : Kept s₀ (s.writeQen v q).1 := by
  unfold State.writeQen
  exact Kept.iteFst h.fst (Kept.iteFst (Kept.iteFst h.fst h.putBit.putBit.fst) (Kept.iteFst h.putBit.putBit.fst h.putBit.onEng.fst))

theorem Kept.effEngCtrl {p w} (h : Kept s₀ s) : Kept s₀ (s.effEngCtrl p w) := by
  unfold State.effEngCtrl
  extract_lets +onlyGivenNames s1
  have hs1 : Kept s₀ s1 := .ite h.writeField h
  split
  · exact hs1
  · extract_lets +onlyGivenNames _ r
    have hr : Kept s₀ r.1 := hs1.fst.foldlFst (fun k => k.writeQen.fst)
    exact (Kept.ite hr.raise hr).reviewEngines

/-! ### HostRegs -/

theorem Kept.reviewHost (h : Kept s₀ s) : Kept s₀ s.reviewHost := h.reviewReq.reviewMreq
theorem Kept.dropRing {k n} (h : Kept s₀ s) : Kept s₀ (s.dropRing k n) := h.onHst
theorem Kept.goRing {k n} (h : Kept s₀ s) : Kept s₀ (s.goRing k n) := .ite h.fetchSq (.ite h.fetchAll h.fetchBuffer.pump)

theorem Kept.enableRing {k n} (h : Kept s₀ s) : Kept s₀ (s.enableRing k n) := by
  unfold State.enableRing
  exact h.dropRing.zeros.set.onHst.goRing

theorem Kept.stopRing {k n} (h : Kept s₀ s) : Kept s₀ (s.stopRing k n) := h.when (fun k1 => k1.halt.set)

theorem Kept.disableRing {k n} (h : Kept s₀ s) : Kept s₀ (s.disableRing k n) := by
  unfold State.disableRing
  exact .ite (Kept.ite h.closeBuffer h).dropRing.onHst (Kept.ite h.closeBuffer h).dropRing.stopRing

theorem Kept.resumeRing {k n} (h : Kept s₀ s) : Kept s₀ (s.resumeRing k n) := .ite h.zeros.goRing.pump h

theorem Kept.effRingBase {p k n w} (h : Kept s₀ s) : Kept s₀ (s.effRingBase p k n w) := by
  unfold State.effRingBase
  exact .ite h.writeFields h.writeFields.onHst

theorem Kept.effRingCfg {p k n w} (h : Kept s₀ s) : Kept s₀ (s.effRingCfg p k n w) := by
  unfold State.effRingCfg
  extract_lets -merge +onlyGivenNames _ _ t
  have ht : Kept s₀ t := h.foldl Kept.writeField
  split
  · exact h
  · extract_lets +onlyGivenNames t1 t2
    have ht1 : Kept s₀ t1 := ht.put
    have ht2 : Kept s₀ t2 := .ite ht1.enableRing (.ite ht1.disableRing ht1)
    exact .ite ht2.resumeRing ht2

theorem Kept.effDoorbell {p k n w} (h : Kept s₀ s) : Kept s₀ (s.effDoorbell p k n w) := by
  unfold State.effDoorbell
  exact .ite h (.ite h.set (.ite h.set.goRing (.ite h.halt h)))

theorem Kept.reviewWdog (h : Kept s₀ s) : Kept s₀ s.reviewWdog := by
  unfold State.reviewWdog
  exact (Kept.ite h.put.raise h.put).reviewHost

theorem Kept.effWdog {p w} (h : Kept s₀ s) : Kept s₀ (s.effWdog p w) := by
  unfold State.effWdog
  exact (Kept.ite h.writeFields.onHst h.writeFields).reviewWdog

theorem execHostWdogExpired_keeps (h : Kept s₀ s) : Keeps s₀ (execHostWdogExpired s) := by
  unfold execHostWdogExpired
  split
  · refine .next ?_
    split
    · exact h.advance.reviewWdog
    · exact h.reviewWdog
  · exact .next h

theorem Kept.effHstCtrl {_p w} (h : Kept s₀ s) : Kept s₀ (s.effHstCtrl _p w) := .ite h.set.reviewHost h
theorem Kept.writeMsix {off w} (h : Kept s₀ s) : Kept s₀ (s.writeMsix off w) := .ite h (.ite h.onHst.onHst.vector h.onHst)

theorem Kept.haltAll {cause} (h : Kept s₀ s) : Kept s₀ (s.haltAll cause) := by
  unfold State.haltAll
  exact ((h.foldl (fun k => .ite k.haltRing k)).foldl (fun k => .ite k.haltRing k)).foldl (fun k => .ite k.haltRing k)

theorem Kept.resetHost (h : Kept s₀ s) : Kept s₀ s.resetHost :=
  .closePath (.reviewHost (.zeros (h.rewrite (fun hr => Tbl.rises_keep _ _ hr) id)))

theorem Kept.resetRest (h : Kept s₀ s) : Kept s₀ s.resetRest := by
  unfold State.resetRest
  extract_lets +onlyGivenNames t t1
  have ht : Kept s₀ t := h.discardArray.endLoops.stopStaged.endFrames
  have ht1 : Kept s₀ t1 := ht.onPipe.reviewPipe
  exact .ite ht1.callRecovery ht1

theorem Kept.functionReset (h : Kept s₀ s) : Kept s₀ s.functionReset := by
  unfold State.functionReset
  exact h.resetHost.resetRest.onHst

/-! ### Time -/

theorem Kept.reanchor (h : Kept s₀ s) : Kept s₀ s.reanchor := h.onTim
theorem Kept.shiftTime {d} (h : Kept s₀ s) : Kept s₀ (s.shiftTime d) := h.onTim
theorem Kept.dropSlew (h : Kept s₀ s) : Kept s₀ s.dropSlew := h.reanchor.onTim.set
theorem Kept.setTpulse {n f} (h : Kept s₀ s) : Kept s₀ (s.setTpulse n f) := h.onTim

theorem Kept.skipEdges {n} (h : Kept s₀ s) : Kept s₀ (s.skipEdges n) := by
  unfold State.skipEdges
  split
  · exact h
  · exact .ite h.setTpulse.bump h

theorem Kept.skipAll (h : Kept s₀ s) : Kept s₀ s.skipAll := h.foldl Kept.skipEdges

theorem Kept.applyStep {d} (h : Kept s₀ s) : Kept s₀ (s.applyStep d) := by
  unfold State.applyStep
  exact (Kept.ite h.dropSlew.shiftTime.set.raise (.ite h.dropSlew.shiftTime.raise h.dropSlew.onTim.set.set.raise)).skipAll.reviewTime

theorem Kept.applyRate {adj} (h : Kept s₀ s) : Kept s₀ (s.applyRate adj) := h.reanchor.set
theorem Kept.noteHost {p} (h : Kept s₀ s) : Kept s₀ (s.noteHost p) := .ite h h.onTim
theorem Kept.effTimRate {p w} (h : Kept s₀ s) : Kept s₀ (s.effTimRate p w) := .ite h.bump h.applyRate.noteHost.reviewTime
theorem Kept.effTimStage {p off w} (h : Kept s₀ s) : Kept s₀ (s.effTimStage p off w) := .ite h.bump h.writeFields
theorem Kept.effTimStep {p w} (h : Kept s₀ s) : Kept s₀ (s.effTimStep p w) := .ite h.bump h.set.noteHost.applyStep

theorem Kept.effTimAccept {p w} (h : Kept s₀ s) : Kept s₀ (s.effTimAccept p w) :=
    .ite h (.ite h.bump (.ite h.dropSlew.shiftTime.raise.skipAll.reviewTime h))

theorem Kept.effTimSlew {p w} (h : Kept s₀ s) : Kept s₀ (s.effTimSlew p w) := h.reanchor.writeFields
theorem Kept.effTpStart2 {p n w} (h : Kept s₀ s) : Kept s₀ (s.effTpStart2 p n w) := .ite h.set.onTim h

theorem Kept.effTpCfg {p n w} (h : Kept s₀ s) : Kept s₀ (s.effTpCfg p n w) :=
    .ite h (.ite h.set.set.setTpulse (.ite h.set (.ite h.set.set.set (.ite h.set.set.set.setTpulse.raise h.set.set.set.setTpulse))))

theorem execTimeSlewDone_keeps (h : Kept s₀ s) : Keeps s₀ (execTimeSlewDone s) := by
  unfold execTimeSlewDone
  split
  · exact .next h
  · extract_lets +onlyGivenNames _ s1
    have hs1 : Kept s₀ s1 := h.advance
    exact .next hs1.dropSlew.raise.reviewTime

theorem execHostDisciplineLapse_keeps (h : Kept s₀ s) : Keeps s₀ (execHostDisciplineLapse s) := by
  unfold execHostDisciplineLapse
  split
  · exact .next h
  · exact .ite (.next h.advance.reviewTime) (.next h)

theorem execTimeInvalid_keeps (h : Kept s₀ s) : Keeps s₀ (execTimeInvalid s) := by
  unfold execTimeInvalid
  split
  · exact .next h
  · exact .ite (.next h.advance.set.onTim.raise.endPulses.reviewTime) (.next h)

theorem execTpulseRise_keeps {n} (h : Kept s₀ s) : Keeps s₀ (execTpulseRise n s) := by
  unfold execTpulseRise
  split
  · exact .next h
  · extract_lets +onlyGivenNames _ s1
    have hs1 : Kept s₀ s1 := h.advance
    exact .next hs1.setTpulse

theorem Kept.setDelay {d f} (h : Kept s₀ s) : Kept s₀ (s.setDelay d f) := h.onTim
theorem Kept.delayPacket {d kind seq turn} (h : Kept s₀ s) : Kept s₀ (s.delayPacket d kind seq turn) := h.sendOn

theorem execDelayExchangeStart_keeps {d t1} (h : Kept s₀ s) : Keeps s₀ (execDelayExchangeStart d t1 s) := by
  unfold execDelayExchangeStart
  exact .ite (.next h.advance.setDelay.delayPacket) (.next h.advance)

theorem Kept.onSchedule {d f} (h : Kept s₀ s) (hf : ∀ {t0}, Kept s₀ t0 → Kept s₀ (f t0)) : Kept s₀ (s.onSchedule d f) := by
  unfold State.onSchedule
  exact .ite h.setPort.bump (hf h.setPort)

theorem Kept.onDelay {d k kind f} (h : Kept s₀ s) (hf : ∀ {t0}, Kept s₀ t0 → Kept s₀ (f t0)) : Kept s₀ (s.onDelay d k kind f) :=
    .ite h.bump (h.onSchedule (fun k1 => .ite k1 (hf k1)))

theorem execDelayReq_keeps {d k t2 t3} (h : Kept s₀ s) : Keeps s₀ (execDelayReq d k t2 t3 s) := by
  unfold execDelayReq
  exact .next (h.advance.onDelay (fun k1 => k1.delayPacket.delayPacket))

theorem Kept.takeDelay {d v} (h : Kept s₀ s) : Kept s₀ (s.takeDelay d v) := by
  unfold State.takeDelay
  exact .ite h.bump.raise h.setDelay.set.put

theorem execDelayInfo_keeps {d k} (h : Kept s₀ s) : Keeps s₀ (execDelayInfo d k s) := .next (h.onDelay (fun k1 => by
    split
    · exact .ite k1.setDelay.takeDelay k1
    · exact k1))

theorem execSyncSend_keeps {u v} (h : Kept s₀ s) : Keeps s₀ (execSyncSend u v s) := by
  unfold execSyncSend
  exact .ite (.next (h.advance.foldl Kept.sendOn).onTim) (.next h.advance)

theorem execFollowUpSend_keeps (h : Kept s₀ s) : Keeps s₀ (execFollowUpSend s) := by
  unfold execFollowUpSend
  exact .next (h.foldl Kept.sendOn).onTim

theorem Kept.dropSync {check n} (h : Kept s₀ s) : Kept s₀ (s.dropSync check n) := by
  unfold State.dropSync
  exact .ite h.bump.onTim.raise h.bump

theorem Kept.onTime {d k dt f} (h : Kept s₀ s) (hf : ∀ {t0}, Kept s₀ t0 → Kept s₀ (f t0)) : Kept s₀ (s.onTime d k dt f) := by
  unfold State.onTime
  split
  · exact h.bump
  · extract_lets +onlyGivenNames t
    have ht : Kept s₀ t := h.onSchedule (fun k1 => .ite k1 (hf k1))
    exact .ite ht.dropSync ht

theorem Kept.dropWaiting (h : Kept s₀ s) : Kept s₀ s.dropWaiting := .ite h.onTim.dropSync h

theorem execSync_keeps {d k t} (h : Kept s₀ s) : Keeps s₀ (execSync d k t s) := .next (h.advance.onTime (fun k1 => by
    extract_lets +onlyGivenNames s1
    have hs1 : Kept s₀ s1 := k1.relay
    split
    · extract_lets +onlyGivenNames s2
      have hs2 : Kept s₀ s2 := hs1.dropWaiting
      split
      · exact hs2.dropSync
      · exact hs2.onTim
    · exact hs1))

theorem Kept.forwardFollow {d k} (h : Kept s₀ s) : Kept s₀ (s.forwardFollow d k) := .ite h.relay h

theorem Kept.servo {e} (h : Kept s₀ s) : Kept s₀ (s.servo e) := by
  unfold State.servo
  extract_lets -merge +onlyGivenNames _ _ rate step
  have hrate : ∀ {u}, Kept s₀ u → Kept s₀ (rate u) := Kept.applyRate
  have hstep : ∀ {u x1}, Kept s₀ u → Kept s₀ (step u x1) := (fun k => k.set.set.set.applyStep)
  exact .ite (hrate h) (.ite (hstep h) (hstep (hrate h)))

theorem Kept.judgePair {e} (h : Kept s₀ s) : Kept s₀ (s.judgePair e) := by
  unfold State.judgePair
  exact .ite (.ite h.onTim.set.raise h.onTim) (.ite h.onTim.set.raise h.onTim)

theorem Kept.usePair {d m} (h : Kept s₀ s) : Kept s₀ (s.usePair d m) := by
  unfold State.usePair
  split
  · exact h
  · extract_lets -merge +onlyGivenNames _ _ t t1
    have ht : Kept s₀ t := h.onTim.set
    have ht1 : Kept s₀ t1 := .ite ht.servo ht
    exact ht1.judgePair.reviewTime

theorem execFollowUp_keeps {d k t} (h : Kept s₀ s) : Keeps s₀ (execFollowUp d k t s) := .next (h.advance.onTime (fun k1 => by
    extract_lets +onlyGivenNames s1
    have hs1 : Kept s₀ s1 := k1.forwardFollow
    split
    · split
      · exact hs1.dropSync
      · extract_lets +onlyGivenNames s2
        have hs2 : Kept s₀ s2 := hs1.put
        split
        · exact .ite hs2.dropSync hs2.onTim.dropSync
        · exact hs2.usePair
    · exact hs1))

theorem Kept.takePub {mains b} (h : Kept s₀ s) : Kept s₀ (s.takePub mains b) := by
  unfold State.takePub
  exact .ite (Kept.ite h.onTim h.onTim.onCad).netStart (.ite h.onTim h.onTim.onCad)

theorem execPublishSend_keeps {mains} (h : Kept s₀ s) : Keeps s₀ (execPublishSend mains s) := by
  unfold execPublishSend
  split
  · split
    · exact .next h
    · exact .next h.sendCtl.takePub
  · exact .next h

theorem Kept.effPubWord {p i w} (h : Kept s₀ s) : Kept s₀ (s.effPubWord p i w) := .ite (.ite h.onTim.onTim h.onTim) h

/-! ### LinkOps -/

theorem Kept.setLane {d n f} (h : Kept s₀ s) : Kept s₀ (s.setLane d n f) := h.setPort
theorem Kept.setRxMap {d m} (h : Kept s₀ s) : Kept s₀ (s.setRxMap d m) := h.set.set
theorem Kept.sendCtrl {d code lanes offset} (h : Kept s₀ s) : Kept s₀ (s.sendCtrl d code lanes offset) := h.setPort

theorem Kept.replay {d} (h : Kept s₀ s) : Kept s₀ (s.replay d) := by
  unfold State.replay
  exact .ite h (.ite h.raise.callRecovery.retrain h.bump.setPort)

theorem Kept.takeLinkAck {d ack} (h : Kept s₀ s) : Kept s₀ (s.takeLinkAck d ack) := h.setPort
theorem Kept.repack {d m} (h : Kept s₀ s) : Kept s₀ (s.repack d m) := h.setPort
theorem Kept.askWidth {d m} (h : Kept s₀ s) : Kept s₀ (s.askWidth d m) := h.sendCtrl.setPort

theorem Kept.loseLane {d n} (h : Kept s₀ s) : Kept s₀ (s.loseLane d n) := by
  unfold State.loseLane
  exact .ite h.retrain (.ite h.setPort h.askWidth)

theorem Kept.yields {d kind} (h : Kept s₀ s) : Kept s₀ (s.yields d kind) := by
  unfold State.yields
  exact (Kept.ite h.sendCtrl.setPort.setPort h.sendCtrl.setPort).raise

theorem Kept.onRequest {d kind tally hops f} (h : Kept s₀ s) (hf : ∀ {t0}, Kept s₀ t0 → Kept s₀ (f t0)) : Kept s₀ (s.onRequest d kind tally hops f) :=
    .ite h (.ite (hf h) (.ite h (hf h.yields)))

theorem Kept.enterLoop {d far} (h : Kept s₀ s) : Kept s₀ (s.enterLoop d far) := by
  unfold State.enterLoop
  exact h.linkDown.setPort

theorem Kept.ctlWidthReq {d lanes offset tally hops} (h : Kept s₀ s) : Kept s₀ (s.ctlWidthReq d lanes offset tally hops) :=
    .ite (h.onRequest (fun k => k.sendCtrl.setPort)) h

theorem Kept.ctlWidthAck {d} (h : Kept s₀ s) : Kept s₀ (s.ctlWidthAck d) := h.setPort
theorem Kept.ctlRetrainReq {d tally hops} (h : Kept s₀ s) : Kept s₀ (s.ctlRetrainReq d tally hops) := h.onRequest Kept.sendCtrl
theorem Kept.ctlRetrainAck {d} (h : Kept s₀ s) : Kept s₀ (s.ctlRetrainAck d) := .ite h.retrain h
theorem Kept.ctlWithdraw {d} (h : Kept s₀ s) : Kept s₀ (s.ctlWithdraw d) := h.setPort
theorem Kept.ctlSleep {d} (h : Kept s₀ s) : Kept s₀ (s.ctlSleep d) := .ite h.set.setPort h
theorem Kept.ctlFeLoopReq {d lanes tally hops} (h : Kept s₀ s) : Kept s₀ (s.ctlFeLoopReq d lanes tally hops) := .ite (h.onRequest Kept.sendCtrl) h
theorem Kept.ctlFeLoopAck {d} (h : Kept s₀ s) : Kept s₀ (s.ctlFeLoopAck d) := .ite h.enterLoop h

theorem Kept.takeCtrl {d c} (h : Kept s₀ s) : Kept s₀ (s.takeCtrl d c) := by
  unfold State.takeCtrl
  extract_lets -merge +onlyGivenNames code _ _ _
  clear_value code
  split
  · exact h.ctlWidthReq
  · exact h.ctlWidthAck
  · exact h.ctlRetrainReq
  · exact h.ctlRetrainAck
  · exact h.ctlWithdraw
  · exact h.ctlSleep
  · exact h.ctlFeLoopReq
  · exact h.ctlFeLoopAck
  · exact h.endLoop
  · exact h

theorem Kept.badHeader {d} (h : Kept s₀ s) : Kept s₀ (s.badHeader d) := by
  unfold State.badHeader
  exact h.bump.setPort.callRecovery.retrain

theorem Kept.readStream {late n d} (h : Kept s₀ s) : Kept s₀ (State.readStream late n d s) := by
  induction n generalizing s with
  | zero => exact h
  | succ n ih =>
    unfold State.readStream
    extract_lets l skip
    have hskip : ∀ {t k}, Kept s₀ t → Kept s₀ (skip t k) := fun ht => ht.setPort
    split
    · exact h
    · exact ih (hskip h)
    · exact h.badHeader
    · exact ih (hskip h.bump)
    · exact ih (hskip h.bump)
    · exact ih (hskip (.ite h.setPort h))

theorem Kept.failFrame {d} (h : Kept s₀ s) : Kept s₀ (s.failFrame d) := h.bump.setPort

theorem Kept.takeFrameBytes {d words} (h : Kept s₀ s) : Kept s₀ (s.takeFrameBytes d words) := by
  unfold State.takeFrameBytes
  exact h.setPort.takeCtrl.readStream

theorem Kept.goodFrame {d words} (h : Kept s₀ s) : Kept s₀ (s.goodFrame d words) := by
  unfold State.goodFrame
  extract_lets -merge +onlyGivenNames _ _ t t1 _ t2 _ t3 t4
  have ht : Kept s₀ t := .ite h.set.setPort h
  have ht1 : Kept s₀ t1 := ht.takeLinkAck
  have ht2 : Kept s₀ t2 := .ite ht1.bump ht1
  have ht3 : Kept s₀ t3 := ht2.setPort
  have ht4 : Kept s₀ t4 := .ite ht3.replay ht3
  exact .ite ht4 (.ite ht4.takeFrameBytes ht4.failFrame)

/-! ### Link -/

theorem Kept.laneOut {d run masks silent n payload} (h : Kept s₀ s) : Kept s₀ (s.laneOut d run masks silent n payload) := by
  unfold State.laneOut
  exact .ite h.setLane ((h.when Kept.bump).setLane)

theorem Kept.putOut {d k due} (h : Kept s₀ s) : Kept s₀ (s.putOut d k due) := h.setPort

theorem Kept.chooseLocal {d} (h : Kept s₀ s) : Kept s₀ (s.chooseLocal d).1 := by
  unfold State.chooseLocal
  extract_lets -merge +onlyGivenNames _ _
  split
  · exact h.fst
  · split
    · exact h.fst
    · exact h.onChn.putOut.fst

theorem Kept.choosePacket {d} (h : Kept s₀ s) : Kept s₀ (s.choosePacket d).1 := by
  unfold State.choosePacket
  extract_lets +onlyGivenNames _
  split
  · exact Kept.iteFst h.onChn.putOut.fst h.chooseLocal
  · exact h.chooseLocal

theorem Kept.fillOut {n d} (h : Kept s₀ s) : Kept s₀ (State.fillOut n d s) := by
  induction n generalizing s with
  | zero => exact h
  | succ n ih => exact .ite h (.ite (ih h.choosePacket) h.choosePacket)

theorem Kept.dropTime {d} (h : Kept s₀ s) : Kept s₀ (s.dropTime d) := by
  unfold State.dropTime
  exact .ite h h.bump.setPort

theorem Kept.newFrame {d withBytes} (h : Kept s₀ s) : Kept s₀ (s.newFrame d withBytes).1 := by
  unfold State.newFrame
  exact Kept.iteFst (h.when Kept.dropTime).fst (h.when Kept.dropTime).setPort.fst

theorem Kept.nextFrame {d} (h : Kept s₀ s) : Kept s₀ (s.nextFrame d).1 := by
  unfold State.nextFrame
  extract_lets +onlyGivenNames _
  split
  · exact Kept.iteFst h.newFrame h.setPort.fst
  · exact h.fillOut.newFrame

theorem Kept.sentCtrl {d c} (h : Kept s₀ s) : Kept s₀ (s.sentCtrl d c) := by
  unfold State.sentCtrl
  split
  · exact h.setPort
  · exact h.retrain
  · exact h.enterLoop
  · exact h.endLoop
  · exact h

theorem Kept.sendFrame {d} (h : Kept s₀ s) : Kept s₀ (s.sendFrame d) := by
  unfold State.sendFrame
  extract_lets -merge +onlyGivenNames r t _ _ u u1
  have hr : Kept s₀ r.1 := h.nextFrame
  have ht : Kept s₀ t := hr
  have hu : Kept s₀ u := ht.foldl (fun k => .ite k.laneOut k.laneOut)
  have hu1 : Kept s₀ u1 := hu.setPort
  split
  · exact hu1.sentCtrl
  · exact hu1

theorem Kept.sendSilence {d} (h : Kept s₀ s) : Kept s₀ (s.sendSilence d) := (h.foldl Kept.laneOut).setPort
theorem Kept.sendTraining {d} (h : Kept s₀ s) : Kept s₀ (s.sendTraining d) := (h.foldl Kept.laneOut).setPort

theorem Kept.enterSleep {d} (h : Kept s₀ s) : Kept s₀ (s.enterSleep d) := by
  unfold State.enterSleep
  exact .ite h.setPort.set h

theorem Kept.checkLoop {d n words} (h : Kept s₀ s) : Kept s₀ (s.checkLoop d n words) := by
  unfold State.checkLoop
  exact .ite h.bump (.ite h.setLane.bump h.setLane)

theorem Kept.loopLane {d n} (h : Kept s₀ s) : Kept s₀ (s.loopLane d n) := by
  unfold State.loopLane
  extract_lets +onlyGivenNames _ t
  have ht : Kept s₀ t := h.setLane
  split
  · exact .ite ht.setLane ht
  · exact .ite ht (.ite (.ite ht.setLane ht.setLane.setLane) ht.setLane.checkLoop)

theorem Kept.sendLoop {d} (h : Kept s₀ s) : Kept s₀ (s.sendLoop d) := (h.foldl Kept.loopLane).setPort

theorem execTxBlock_keeps {d} (h : Kept s₀ s) : Keeps s₀ (execTxBlock d s) := by
  unfold execTxBlock
  exact .ite (.next h) (.ite (.next h.sendLoop) (.ite (.next h.enterSleep.sendSilence) (.ite (.next h.enterSleep.sendFrame) (.next
      h.enterSleep.sendTraining))))

theorem Kept.gainLock {d n} (h : Kept s₀ s) : Kept s₀ (s.gainLock d n) := by
  unfold State.gainLock
  exact .ite h.putBit.setLane.set h.putBit.setLane

theorem Kept.searchBlock {d n words} (h : Kept s₀ s) : Kept s₀ (s.searchBlock d n words) := by
  unfold State.searchBlock
  exact .ite (.ite h.setLane h.setLane) (.ite (.ite h.gainLock h.setLane) h.setLane)

theorem Kept.lockedBlock {d n words} (h : Kept s₀ s) : Kept s₀ (s.lockedBlock d n words) := by
  unfold State.lockedBlock
  extract_lets -merge +onlyGivenNames _ _ _ _ _ t
  have ht : Kept s₀ t := h.setLane
  exact .ite (.ite ht.setLane.setPort (.ite (.ite ht.bump.setLane.bump.putBit.setLane.putBit.loseLane ht.bump.setLane.bump.putBit.setLane)
      ht.bump.setLane)) (.ite (Kept.ite ht.setLane ht.setLane.bump).setLane (.ite ht.setLane ht.setLane.bump))

theorem Kept.loopBlock {d n words} (h : Kept s₀ s) : Kept s₀ (s.loopBlock d n words) := .ite h.setLane (.ite h.checkLoop h)

theorem execLaneBlockReceive_keeps {d n words} (h : Kept s₀ s) : Keeps s₀ (execLaneBlockReceive d n words s) := by
  unfold execLaneBlockReceive
  exact .ite (.next h.loopBlock) (.ite (.next h) (.ite (.next h.lockedBlock) (.ite (.next h.searchBlock) (.next h))))

theorem Kept.setTaps {d n preset t} (h : Kept s₀ s) : Kept s₀ (s.setTaps d n preset t) := by
  unfold State.setTaps
  exact .ite h h.set.set.set

theorem Kept.reuseTaps {d} (h : Kept s₀ s) : Kept s₀ (s.reuseTaps d) := h.foldl Kept.setTaps

theorem Kept.chooseStart {d} (h : Kept s₀ s) : Kept s₀ (s.chooseStart d) := by
  unfold State.chooseStart
  exact h.free.setPort

theorem Kept.agree {d} (h : Kept s₀ s) : Kept s₀ (s.agree d) := by
  unfold State.agree
  exact .ite (.ite h (.ite h.free.setPort.reuseTaps.chooseStart h.free.setPort.set)) h

theorem Kept.takeEq {d n req} (h : Kept s₀ s) : Kept s₀ (s.takeEq d n req) := by
  unfold State.takeEq
  split
  · exact h
  · extract_lets +onlyGivenNames t _
    have ht : Kept s₀ t := h.setLane
    split
    · exact ht.setTaps
    · split
      · split
        · exact ht.setTaps
        · exact ht
      · exact ht

theorem Kept.stepEq {d n ack h v} (hs : Kept s₀ s) : Kept s₀ (s.stepEq d n ack h v) := by
  unfold State.stepEq
  exact .ite hs.set.set.setLane hs

theorem execTrainingBlockReceive_keeps {d n words h v} (hs : Kept s₀ s) : Keeps s₀ (execTrainingBlockReceive d n words h v s) := by
  unfold execTrainingBlockReceive
  exact .ite (.ite (.next (.ite hs.set.set.setLane.setPort.agree.takeEq.stepEq hs.set.set.setLane.setPort.agree)) (.next hs.setLane)) (.next hs)

theorem execEqComplete_keeps {d} (h : Kept s₀ s) : Keeps s₀ (execEqComplete d s) := by
  unfold execEqComplete
  exact .ite (.next h.setPort.chooseStart) (.next h)

theorem execKeystreamStart_keeps {d} (h : Kept s₀ s) : Keeps s₀ (execKeystreamStart d s) := by
  unfold execKeystreamStart
  exact .ite (.next h.setRxMap.setPort) (.next h)

theorem Kept.setResidence {ud du} (h : Kept s₀ s) : Kept s₀ (s.setResidence ud du) := h.set.set
theorem Kept.portServed {d} (h : Kept s₀ s) : Kept s₀ (s.portServed d) := h.foldl Kept.actionDone

theorem execLinkUp_keeps {d ud du} (h : Kept s₀ s) : Keeps s₀ (execLinkUp d ud du s) := by
  unfold execLinkUp
  exact .ite (.next (Kept.ite h.bump h).set.set.setResidence.setPort.raise.portServed.portChanged.startClaim) (.next h)

theorem execTrainTimeout_keeps {d} (h : Kept s₀ s) : Keeps s₀ (execTrainTimeout d s) := by
  unfold execTrainTimeout
  split
  · exact .next h
  · exact .ite (.next h.advance.bump.raise.setPort) (.next h)

theorem Kept.dropBlocks {d c} (h : Kept s₀ s) : Kept s₀ (s.dropBlocks d c) := h.setPort

theorem execLinkFrameReceive_keeps {d} (h : Kept s₀ s) : Keeps s₀ (execLinkFrameReceive d s) := by
  unfold execLinkFrameReceive
  split
  · exact .next h
  · extract_lets +onlyGivenNames t
    have ht : Kept s₀ t := h.dropBlocks
    split
    · exact .next (.ite ht.goodFrame ht.failFrame)
    · exact .next ht.failFrame

theorem Kept.turnRx {d m} (h : Kept s₀ s) : Kept s₀ (s.turnRx d m) := h.setRxMap.raise.setPort.actionDone

theorem Kept.turnTx {d m} (h : Kept s₀ s) : Kept s₀ (s.turnTx d m) := by
  unfold State.turnTx
  exact h.repack.raise.setPort

theorem execWidthChangeBoundary_keeps {d ud du} (h : Kept s₀ s) : Keeps s₀ (execWidthChangeBoundary d ud du s) := by
  unfold execWidthChangeBoundary
  extract_lets p rx tx t t1 t2
  clear_value rx tx
  split
  · have ht : Kept s₀ t := by
      unfold t
      split
      · exact .ite h.turnRx h.setPort
      · exact h
    have ht1 : Kept s₀ t1 := by
      unfold t1
      split
      · exact ht.turnTx
      · exact ht
    have ht2 : Kept s₀ t2 := ht1.setResidence
    refine .next ?_
    split
    · exact ht2.askWidth
    · exact ht2
  · exact .next h

theorem execReplayTimeout_keeps {d} (h : Kept s₀ s) : Keeps s₀ (execReplayTimeout d s) := by
  unfold execReplayTimeout
  split
  · exact .next h
  · exact .ite (.next h.advance.replay) (.next h)

theorem execTxSleepEntry_keeps {d} (h : Kept s₀ s) : Keeps s₀ (execTxSleepEntry d s) := by
  unfold execTxSleepEntry
  exact .ite (.next h.advance.sendCtrl.setPort) (.next h)

theorem execTxWake_keeps {d} (h : Kept s₀ s) : Keeps s₀ (execTxWake d s) := by
  unfold execTxWake
  extract_lets +onlyGivenNames _
  split
  · exact .next h
  · split
    · exact .next h.set
    · split
      · exact .next h.advance.set
      · exact .next h

theorem Kept.effLnkCtrl {p d w} (h : Kept s₀ s) : Kept s₀ (s.effLnkCtrl p d w) := by
  unfold State.effLnkCtrl
  exact .ite h.writeFields.reviewPort.sendCtrl.setPort h.writeFields.reviewPort

theorem Kept.stopLoop {d} (h : Kept s₀ s) : Kept s₀ (s.stopLoop d) := by
  unfold State.stopLoop
  exact .ite h.set.setPort (.ite h.set.sendCtrl h.set.endLoop)

theorem Kept.effLnkLoop {p d w} (h : Kept s₀ s) : Kept s₀ (s.effLnkLoop p d w) := by
  unfold State.effLnkLoop
  extract_lets +onlyGivenNames _
  split
  · exact h
  · extract_lets -merge +onlyGivenNames _ _ set t
    have hset : ∀ {u}, Kept s₀ u → Kept s₀ (set u) := (fun k => k.set.set.set)
    have ht : Kept s₀ t := hset h
    exact .ite (hset h.stopLoop) (.ite ht (.ite ht (.ite ht.set.enterLoop (.ite ht.set.sendCtrl.setPort ht))))

theorem Kept.effLnkPe {p d n w} (h : Kept s₀ s) : Kept s₀ (s.effLnkPe p d n w) := by
  unfold State.effLnkPe
  exact .ite h (.ite h.set.set.set.set h.set.set)

/-! ### Monitor -/

theorem Kept.startConv {entry} (h : Kept s₀ s) : Kept s₀ (s.startConv entry) := by
  unfold State.startConv
  exact (Kept.ite (Kept.ite h h.set.onMon).onMon (.ite h h.set.onMon)).set.set.onMon

theorem Kept.startMonitor (h : Kept s₀ s) : Kept s₀ s.startMonitor := .ite h.startConv h

theorem Kept.putRecordMon {bytes} (h : Kept s₀ s) : Kept s₀ (s.putRecordMon bytes) := by
  unfold State.putRecordMon
  extract_lets -merge +onlyGivenNames _ _ _ _ t t1
  have ht : Kept s₀ t := h.onMon
  have ht1 : Kept s₀ t1 := ht.set.when Kept.set
  exact .ite (.ite ht1.set.bump.loseItem ht1.set.bump.loseItem.onMon.raise) ht1.onMon

theorem execMonitorConversionDone_keeps {uv vref err} (h : Kept s₀ s) : Keeps s₀ (execMonitorConversionDone uv vref err s) := by
  unfold execMonitorConversionDone
  extract_lets +onlyGivenNames s1
  have hs1 : Kept s₀ s1 := h.startMonitor
  split
  · exact .next hs1
  · extract_lets -merge +onlyGivenNames s2 _ _ _ t t1 _ t2 t3 t4
    have hs2 : Kept s₀ s2 := hs1.advance
    have ht : Kept s₀ t := hs2.putRecordMon
    have ht1 : Kept s₀ t1 := .ite ht.set.set ht
    have ht2 : Kept s₀ t2 := .ite (.ite ht1.putBit ht1.putBit.raise) ht1
    have ht3 : Kept s₀ t3 := ht2.onMon
    have ht4 : Kept s₀ t4 := .ite ht3.startConv ht3.set.onMon
    exact .next ht4.startMonitor.pump

theorem Kept.effMonCtrl {p w} (h : Kept s₀ s) : Kept s₀ (s.effMonCtrl p w) := by
  unfold State.effMonCtrl
  exact .ite h.writeFields.onMon (.ite h.writeFields.startMonitor h.writeFields)

theorem Kept.diodeTemp {n code} (h : Kept s₀ s) : Kept s₀ (s.diodeTemp n code).2 := by
  unfold State.diodeTemp
  exact Kept.iteSnd h.free h.snd

/-! ### Pipeline -/

theorem Kept.sendSpot {it} (h : Kept s₀ s) : Kept s₀ (s.sendSpot it) := by
  unfold State.sendSpot
  exact .ite (Kept.ite h.advance.onSpot.toInline h.advance.onSpot.send).set (.ite h.advance.onSpot.toInline h.advance.onSpot.send)

theorem execSpotPacketSend_keeps (h : Kept s₀ s) : Keeps s₀ (execSpotPacketSend s) := by
  unfold execSpotPacketSend
  split
  · exact .next h.onSpot.sendSpot.reviewSpot
  · split
    · split
      · split
        · exact .next h.onSpot.reviewSpot
        · exact .next h.onSpot.sendSpot.reviewSpot
      · exact .next h
    · exact .next h

theorem Kept.effSpotCtrl {p w} (h : Kept s₀ s) : Kept s₀ (s.effSpotCtrl p w) := by
  unfold State.effSpotCtrl
  exact .ite h.writeFields.stopStaged h.writeFields

theorem Kept.spotIntake {k} (h : Kept s₀ s) : Kept s₀ (s.spotIntake k) := by
  unfold State.spotIntake
  extract_lets +onlyGivenNames _ drop
  have hdrop : ∀ {u}, Kept s₀ u → Kept s₀ (drop u) := (fun k1 => (Kept.ite k1.loseLine k1).bump)
  exact .ite (hdrop h) (.ite (.ite (hdrop h) (hdrop h).onPipe.raise) h.usesKibble.onPipe.reviewPipe)

theorem Kept.effPipeMem {p w} (h : Kept s₀ s) : Kept s₀ (s.effPipeMem p w) := .ite h (.ite h.raise h.writeFields)
theorem Kept.effPipeCtrl {p w} (h : Kept s₀ s) : Kept s₀ (s.effPipeCtrl p w) := h.writeFields.reviewPipe
theorem Kept.showCtx (h : Kept s₀ s) : Kept s₀ s.showCtx := h.foldl Kept.set
theorem Kept.effCtxSel {p w} (h : Kept s₀ s) : Kept s₀ (s.effCtxSel p w) := h.writeFields.showCtx

theorem Kept.effCtxField {p off w} (h : Kept s₀ s) : Kept s₀ (s.effCtxField p off w) := by
  unfold State.effCtxField
  exact h.writeFields.setCtx

theorem Kept.effCtxCmd {p w} (h : Kept s₀ s) : Kept s₀ (s.effCtxCmd p w) := .ite h (.ite (Kept.ite h.setCtx h).setCtx (.ite h.setCtx h))

theorem Kept.bindCtx {src sweep c} (h : Kept s₀ s) : Kept s₀ (s.bindCtx src sweep c) := by
  unfold State.bindCtx
  extract_lets -underBinder +onlyGivenNames _ _
  split
  · exact h
  · extract_lets -underBinder +onlyGivenNames t
    have ht : Kept s₀ t := by
      unfold t
      split
      · exact h.setCtx.raise
      · exact h
    exact .ite ht.setCtx ht

theorem Kept.openFrame {it} (h : Kept s₀ s) : Kept s₀ (s.openFrame it) := by
  unfold State.openFrame
  exact ((h.foldl Kept.endFrame).foldl Kept.bindCtx).onPipe

theorem Kept.noCtx {it} (h : Kept s₀ s) : Kept s₀ (s.noCtx it) := by
  unfold State.noCtx
  exact .ite h.bump.onPipe.raise h.bump

theorem Kept.processLine {f c it} (h : Kept s₀ s) : Kept s₀ (s.processLine f c it) := by
  unfold State.processLine
  exact .ite h.setFrame.outBlock (.ite h.setFrame.outBlock h.setFrame)

theorem Kept.frameItem {f it} (h : Kept s₀ s) : Kept s₀ (s.frameItem f it) := by
  unfold State.frameItem
  split
  · exact h.noCtx
  · exact .ite h (.ite h.setFrame (.ite h.bump.setFrame h.processLine))

theorem Kept.pipeItem {it} (h : Kept s₀ s) : Kept s₀ (s.pipeItem it) := by
  unfold State.pipeItem
  split
  · exact h.openFrame
  · split
    · exact h
    · exact .ite h.endFrame (.ite h.frameItem h)

theorem execPipeItemProcess_keeps (h : Kept s₀ s) : Keeps s₀ (execPipeItemProcess s) := by
  unfold execPipeItemProcess
  split
  · exact .next h
  · split
    · exact .next h.onPipe.pipeItem.reviewPipe
    · exact .next h.onPipe.reviewSpotLevel.pipeItem.reviewPipe
    · exact .next h

theorem execPipeFrameTimeout_keeps (h : Kept s₀ s) : Keeps s₀ (execPipeFrameTimeout s) := by
  unfold execPipeFrameTimeout
  split
  · exact .next h
  · exact .ite (.next h.advance.endFrame.reviewPipe) (.next h)

/-! ### Plls -/

theorem Kept.startupLock (h : Kept s₀ s) : Kept s₀ s.startupLock := by
  unfold State.startupLock
  exact .ite h.setStage.setStage.onPwr (.ite h.onPwr h)

theorem Kept.pllLock {x} (h : Kept s₀ s) : Kept s₀ (s.pllLock x) := by
  unfold State.pllLock
  extract_lets +onlyGivenNames t t1 t2 t3 t4
  have ht : Kept s₀ t := h.setStage.pllFlags.set.bump
  have ht1 : Kept s₀ t1 := ht.raise
  have ht2 : Kept s₀ t2 := .ite ht1.putBit (.ite ht1.putBit ht1)
  have ht3 : Kept s₀ t3 := .ite ((Kept.ite ht2.startCadence ht2).reviewTime) ht2
  have ht4 : Kept s₀ t4 := .ite ht3.deliverHeld ht3
  exact ht4.startupLock.actionDone.reviewForcing

theorem Kept.afterLossL (h : Kept s₀ s) : Kept s₀ s.afterLossL := h.foldl (fun k => .ite k k.retrain)
theorem Kept.lockFlagFalls {x} (h : Kept s₀ s) : Kept s₀ (s.lockFlagFalls x) := .ite h.trip h.callRecovery.enterHold

theorem Kept.pllLost {x cause} (h : Kept s₀ s) : Kept s₀ (s.pllLost x cause) := by
  unfold State.pllLost
  exact .ite h.losePll.afterLossL.callRecovery ((Kept.ite h.losePll.onSaf.afterLossT h.losePll.onSaf).lockFlagFalls)

theorem Kept.relock {x} (h : Kept s₀ s) : Kept s₀ (s.relock x) := by
  unfold State.relock
  split
  · extract_lets +onlyGivenNames t
    have ht : Kept s₀ t := .ite h.startLock h.pllFlags.setStage
    exact .ite ht.afterLossL ht.afterLossT
  · exact h.raise

theorem Kept.effPllCfg {p x w} (h : Kept s₀ s) : Kept s₀ (s.effPllCfg p x w) := by
  unfold State.effPllCfg
  exact .ite h.writeFields.relock h.writeFields

theorem execPllRelock_keeps {p x w} (h : Kept s₀ s) : Keeps s₀ (execPllRelock p x w s) := by
  unfold execPllRelock
  exact .next (h.regWrite Kept.effPllCfg)

theorem Kept.effClkout {p n w} (h : Kept s₀ s) : Kept s₀ (s.effClkout p n w) := by
  unfold State.effClkout
  exact .ite h.writeFields (.ite h.writeFields.set h.writeFields.set.set.raise)

theorem execPllClkoutEnable_keeps {p n w} (h : Kept s₀ s) : Keeps s₀ (execPllClkoutEnable p n w s) := by
  unfold execPllClkoutEnable
  exact .next (h.regWrite Kept.effClkout)

/-! ### Power -/

theorem execVaonGood_keeps {addr strap} (h : Kept s₀ s) : Keeps s₀ (execVaonGood addr strap s) :=
  .ite (.next h) (.next (.raise (h.resetDomains.rewrite (fun _ => rfl) fun _ => by decide)))

theorem execVaonFail_keeps (h : Kept s₀ s) : Keeps s₀ (execVaonFail s) :=
  .ite (.next (h.resetDomains.rewrite (fun _ => rfl) fun _ => by decide)) (.next h)

theorem Kept.reviewRails (h : Kept s₀ s) : Kept s₀ s.reviewRails := (Kept.ite h.putBit h).reviewForcing
theorem Kept.railFatalFor {i} (h : Kept s₀ s) : Kept s₀ (s.railFatalFor i) := .ite h.onSaf.haltCadence h.onSaf

theorem Kept.railFail {i} (h : Kept s₀ s) : Kept s₀ (s.railFail i) := by
  unfold State.railFail
  split
  · exact h
  · extract_lets +onlyGivenNames t _ t1 t2
    have ht : Kept s₀ t := h.putBit
    have ht1 : Kept s₀ t1 := .ite ht.putBit.raise.railFatalFor.callRecovery.enterHold ht
    have ht2 : Kept s₀ t2 := .ite ht1.trip.reviewForcing ht1.reviewForcing
    exact .ite ht2.holdDomains ht2

theorem Kept.pwrCmd {p target} (h : Kept s₀ s) : Kept s₀ (s.pwrCmd p target) := h.regWrite Kept.effPwrCmd

/-! ### Roles -/

theorem Kept.effChallenge {p w} (h : Kept s₀ s) : Kept s₀ (s.effChallenge p w) := by
  unfold State.effChallenge
  split
  · exact h
  · exact .ite h (.ite h.set (h.challenge.set.set.foldl Kept.set))

theorem Kept.sessionOpen {x role} (h : Kept s₀ s) : Kept s₀ (s.sessionOpen x role) := .ite h.set (.ite h.set h.respond.set)
theorem Kept.sessionClose {x role} (h : Kept s₀ s) : Kept s₀ (s.sessionClose x role) := .ite h.set h.closeSession.set

theorem Kept.effSessionCmd {p w} (h : Kept s₀ s) : Kept s₀ (s.effSessionCmd p w) := by
  unfold State.effSessionCmd
  split
  · exact h
  · extract_lets +onlyGivenNames t
    have ht : Kept s₀ t := .ite h.sessionOpen h
    exact .ite ht.sessionClose ht

theorem Kept.effRolData {p off w} (h : Kept s₀ s) : Kept s₀ (s.effRolData p off w) := by
  unfold State.effRolData
  split
  · exact h
  · exact .ite h.onRol (.ite h.onRol (.ite h.onRol h))

theorem Kept.keyResult {x auth target result store} (h : Kept s₀ s) : Kept s₀ (s.keyResult x auth target result store) := h.set.set.sbEnter

theorem Kept.keyReplace {p x target w} (h : Kept s₀ s) : Kept s₀ (s.keyReplace p x target w) := by
  unfold State.keyReplace
  extract_lets +onlyGivenNames _
  split
  · exact h.keyResult
  · split
    · exact h.sbReject.set.set
    · extract_lets -merge +onlyGivenNames s1 _ _
      have hs1 : Kept s₀ s1 := h.touchSession
      split
      · exact hs1.keyResult
      · split
        · exact hs1.keyResult
        · exact .ite hs1.keyResult hs1.onRol.keyResult.raise.closeSession.closeSession

theorem Kept.effKeyCmd {p w} (h : Kept s₀ s) : Kept s₀ (s.effKeyCmd p w) := by
  unfold State.effKeyCmd
  split
  · exact h
  · exact .ite h.keyReplace h

theorem Kept.effSbSel {w} (h : Kept s₀ s) : Kept s₀ (s.effSbSel w) := by
  unfold State.effSbSel
  exact h.set.put.foldl Kept.set

theorem execRolChallenge_keeps {p role} (h : Kept s₀ s) : Keeps s₀ (execRolChallenge p role s) := by
  unfold execRolChallenge
  exact .next (h.regWrite Kept.effChallenge)

theorem execRolSessionOpen_keeps {p role} (h : Kept s₀ s) : Keeps s₀ (execRolSessionOpen p role s) := by
  unfold execRolSessionOpen
  exact .next (h.regWrite Kept.effSessionCmd)

theorem execRolSessionClose_keeps {p role} (h : Kept s₀ s) : Keeps s₀ (execRolSessionClose p role s) := by
  unfold execRolSessionClose
  exact .next (h.regWrite Kept.effSessionCmd)

theorem execRolKeyReplace_keeps {p target} (h : Kept s₀ s) : Keeps s₀ (execRolKeyReplace p target s) := by
  unfold execRolKeyReplace
  exact .next (h.regWrite Kept.effKeyCmd)

theorem execSessionIdleTimeout_keeps {path role} (h : Kept s₀ s) : Keeps s₀ (execSessionIdleTimeout path role s) := by
  unfold execSessionIdleTimeout
  split
  · exact .next h
  · exact .next h.advance.closeSession

theorem execLockoutEnd_keeps {path role} (h : Kept s₀ s) : Keeps s₀ (execLockoutEnd path role s) := by
  unfold execLockoutEnd
  split
  · exact .next h
  · exact .next h.advance.onRol

theorem execChallengeExpiry_keeps {path role} (h : Kept s₀ s) : Keeps s₀ (execChallengeExpiry path role s) := by
  unfold execChallengeExpiry
  split
  · exact .next h
  · exact .next h.advance.onRol

/-! ### Store -/

theorem execStoreWordVerify_keeps {block err} (h : Kept s₀ s) : Keeps s₀ (execStoreWordVerify block err s) := by
  unfold execStoreWordVerify
  exact .next (Kept.ite h.onNvs.writeEntry h.onNvs).verify

theorem Kept.refuseOp {code} (h : Kept s₀ s) : Kept s₀ (s.refuseOp code) := h.set

theorem Kept.imgOpen {p} (h : Kept s₀ s) : Kept s₀ (s.imgOpen p) := by
  unfold State.imgOpen
  split
  · exact h.refuseOp
  · extract_lets +onlyGivenNames _ t
    have ht : Kept s₀ t := h.startOp
    exact .ite ht ht.putImageWord.set.onNvs

theorem Kept.putHalf {a w} (h : Kept s₀ s) : Kept s₀ (s.putHalf a w) := by
  unfold State.putHalf
  exact h.putImageWord

theorem Kept.imgData {w} (h : Kept s₀ s) : Kept s₀ (s.imgData w) := by
  unfold State.imgData
  split
  · exact h.refuseOp
  · exact .ite h.endOp ((Kept.ite h.putHalf h).set)

theorem Kept.putRecord {g index body} (h : Kept s₀ s) : Kept s₀ (s.putRecord g index body) := by
  unfold State.putRecord
  exact h.foldl Kept.putImageWord

theorem Kept.putImage {g bytes} (h : Kept s₀ s) : Kept s₀ (s.putImage g bytes) := by
  unfold State.putImage
  exact (h.foldl Kept.putRecord).free.putRecord

theorem Kept.imgCommit (h : Kept s₀ s) : Kept s₀ s.imgCommit := by
  unfold State.imgCommit
  split
  · exact h.refuseOp
  · exact .ite h.putImage.closeOp h.endOp

theorem Kept.saveInst {p} (h : Kept s₀ s) : Kept s₀ (s.saveInst p) := by
  unfold State.saveInst
  split
  · exact h.refuseOp
  · exact h.startOp

theorem Kept.effNvsCmd {p w} (h : Kept s₀ s) : Kept s₀ (s.effNvsCmd p w) := by
  unfold State.effNvsCmd
  extract_lets +onlyGivenNames _ t t1
  have ht : Kept s₀ t := .ite h.saveInst h
  have ht1 : Kept s₀ t1 := .ite ht.imgOpen ht
  exact .ite ht1.imgCommit ht1

theorem Kept.effImgData {p w} (h : Kept s₀ s) : Kept s₀ (s.effImgData p w) := .ite h.imgData h
theorem Kept.readRdLo {err} (h : Kept s₀ s) : Kept s₀ (s.readRdLo err).1 := h.readStore
theorem Kept.readRdHi (h : Kept s₀ s) : Kept s₀ s.readRdHi.1 := h.set.fst

theorem execStoreRewrite_keeps {err} (h : Kept s₀ s) : Keeps s₀ (execStoreRewrite err s) := by
  unfold execStoreRewrite
  split
  · exact .next h
  · exact .next (.ite h h.onNvs.verify)

theorem execShiftBookEntryWrite_keeps (h : Kept s₀ s) : Keeps s₀ (execShiftBookEntryWrite s) := by
  unfold execShiftBookEntryWrite
  extract_lets +onlyGivenNames t
  have ht : Kept s₀ t := by
    unfold t
    split
    · exact .ite h.sbClose h
    · exact h
  exact .next ht.writeEntry

theorem Kept.bistGo {target kind} (h : Kept s₀ s) : Kept s₀ (s.bistGo target kind) :=
    .ite h (.ite (.ite h.set.set.set.set.onNvs.putBit.onNvs h.set.set.set.set.onNvs) h.set.set.set)

theorem Kept.effBistCmd {w} (h : Kept s₀ s) : Kept s₀ (s.effBistCmd w) := .ite h.bistGo h

theorem execBistLbist_keeps {p target} (h : Kept s₀ s) : Keeps s₀ (execBistLbist p target s) := by
  unfold execBistLbist
  exact .next (h.regWrite Kept.effBistCmd)

theorem execBistMbist_keeps {p target} (h : Kept s₀ s) : Keeps s₀ (execBistMbist p target s) := by
  unfold execBistMbist
  exact .next (h.regWrite Kept.effBistCmd)

theorem Kept.zeroKibble (h : Kept s₀ s) : Kept s₀ s.zeroKibble := by
  unfold State.zeroKibble
  exact h.onPipe.onSpot.onHst.onEng.onChn

theorem Kept.afterBist {target kind} (h : Kept s₀ s) : Kept s₀ (s.afterBist target kind) :=
    .ite (.ite h.setEngine h) (.ite h.zeroKibble (.ite h.setTrk.setTrk.reviewMeas (.ite h.onPipe.reviewPipe h)))

theorem execBistDone_keeps {sig failCnt addr} (h : Kept s₀ s) : Keeps s₀ (execBistDone sig failCnt addr s) := by
  unfold execBistDone
  split
  · exact .next h
  · extract_lets +onlyGivenNames t t1 _ t2
    have ht : Kept s₀ t := h.endBist.afterBist
    have ht1 : Kept s₀ t1 := .ite ht.set.set ht.set.set
    have ht2 : Kept s₀ t2 := ht1.set
    exact .next (.ite ht2.raise ht2.raise)

theorem Kept.goldCommit {p} (h : Kept s₀ s) : Kept s₀ (s.goldCommit p) := by
  unfold State.goldCommit
  split
  · exact h
  · split
    · exact h.refuseOp
    · exact h.startOp

theorem Kept.effGoldCmd {p w} (h : Kept s₀ s) : Kept s₀ (s.effGoldCmd p w) := .ite h.goldCommit h

/-! ### RegisterAccess -/

theorem Kept.showClocks {off} (h : Kept s₀ s) : Kept s₀ (s.showClocks off) := .ite h.set (.ite (.ite h.put.put.put h.put.put.put.set) h)

theorem Kept.showTime {off} (h : Kept s₀ s) : Kept s₀ (s.showTime off) := by
  unfold State.showTime
  exact .ite h.set (.ite h.set.set (.ite h.set (.ite h.set (.ite h.set (.ite h.set (.ite h.set (.ite h.set (.ite h.set (.ite h.set (.ite h.set (.ite
      h.set (.ite h.set.set (.ite h.set (.ite h.set (.ite h.set h)))))))))))))))

theorem Kept.showImaging {off} (h : Kept s₀ s) : Kept s₀ (s.showImaging off) := by
  unfold State.showImaging
  exact .ite h.set (.ite h.set (.ite h.set (.ite (.ite h.set h) (.ite h.put (.ite h.set.put h)))))

theorem Kept.showConvert {off} (h : Kept s₀ s) : Kept s₀ (s.showConvert off) := by
  unfold State.showConvert
  exact .ite h.set (.ite h.set (.ite h.set (.ite h.set.set.set.set.put.put.put (.ite h.set (.ite h.showBase h)))))

theorem Kept.showEngine {off} (h : Kept s₀ s) : Kept s₀ (s.showEngine off) := by
  unfold State.showEngine
  exact .ite h.reviewEngines (.ite h.put.set.set.set (.ite h.set (.ite h.set.set h)))

theorem Kept.showChain {off} (h : Kept s₀ s) : Kept s₀ (s.showChain off) := by
  unfold State.showChain
  exact .ite h.put (.ite h.set (.ite h.set (.ite h.put.set (.ite h.put.put.put.set.set.set (.ite h.set (.ite h.set (.ite h.put h)))))))

theorem Kept.showRest {p off} (h : Kept s₀ s) : Kept s₀ (s.showRest p off) :=
    .ite h.reviewPipe (.ite h.put.put.set.set (.ite h.put.put.set.set (.ite h.set (.ite h.set (.ite h.set (.ite h.set h))))))

theorem Kept.show {p off} (h : Kept s₀ s) : Kept s₀ (s.show p off) := by
  unfold State.show
  exact .ite h.showClocks (.ite h.showTime (.ite h.showImaging (.ite h.showConvert (.ite h.showEngine (.ite h.showChain h.showRest)))))

theorem Kept.readPlain {p off} (h : Kept s₀ s) : Kept s₀ (s.readPlain p off).1 := (h.foldl Kept.update).fst

theorem Kept.readWord {p off} (h : Kept s₀ s) : Kept s₀ (s.readWord p off).1 :=
    Kept.iteFst h.fst (Kept.iteFst h.fst (Kept.iteFst h.fst (Kept.iteFst h.set.fst (Kept.iteFst h.readActHi (Kept.iteFst h.readMemData (Kept.iteFst
    h.readRdLo (Kept.iteFst h.readRdHi h.readPlain)))))))

theorem execWideRegisterRead_keeps {p off} (h : Kept s₀ s) : Keeps s₀ (execWideRegisterRead p off s) := by
  unfold execWideRegisterRead
  exact .next h.readWord.update

theorem Kept.clearAt {offs} (h : Kept s₀ s) : Kept s₀ (clearAt offs s) := h.zeros

theorem Kept.effErrclr {off w} (h : Kept s₀ s) : Kept s₀ (s.effErrclr off w) :=
    .ite (.ite h.zeros (.ite h.set.onMon (.ite h.clearAt.onEng h.clearAt))) h

theorem Kept.notePending {t p off w} (h : Kept s₀ t) : Kept s₀ (t.notePending s p off w) := by
  unfold State.notePending
  exact .ite h.onCad h.onCad

theorem Kept.effClocks {p off w} (h : Kept s₀ s) : Kept s₀ (s.effClocks p off w) :=
    .ite h.effPwrCmd (.ite h.effPllCfg (.ite h.effClkout (.ite h.writeFields.releaseL2 (.ite h.effTrip (.ite h.effSafCmd (.ite h.effTimRate (.ite
    h.effTimStage (.ite h.effTimStep (.ite h.effTimAccept (.ite h.effTimSlew (.ite h.effPubWord (.ite h.effTpCfg (.ite h.effTpStart2 (.ite
    h.writeFields.reviewTime h.writeFields))))))))))))))

theorem Kept.effBin {p off w} (h : Kept s₀ s) : Kept s₀ (s.effBin p off w) := h.writeFields.foldl Kept.raise

theorem Kept.effUnit {p off w} (h : Kept s₀ s) : Kept s₀ (s.effUnit p off w) :=
    .ite h.effCadSrc (.ite h.effShdAddr (.ite h.effShdLo (.ite h.effShdHi (.ite h.effSwap (.ite h.effMode (.ite h.writeFields.reviewMreq (.ite
    h.effSpotCtrl (.ite h.writeFields.reviewEngines (.ite h.effBin (.ite h.effCalLimit (.ite h.effBaseVal (.ite h.effBaseCmd (.ite h.effMonCtrl (.ite
    h.effEngCtrl (.ite h.effMemAddr (.ite h.effMemData (.ite h.effRemap h.writeFields)))))))))))))))))

theorem Kept.effChain {p off w} (h : Kept s₀ s) : Kept s₀ (s.effChain p off w) := by
  unfold State.effChain
  exact .ite h.effChnCtrl (.ite h.effDrlCmd (.ite h.effAsgBase (.ite h.effAsgLo (.ite h.effAsgHi (.ite h.effAsgCmd (.ite h.effSpare (.ite
      h.effLnkCtrl (.ite h.effLnkLoop (.ite h.effLnkPe (.ite h.effPipeCtrl (.ite h.effPipeMem (.ite h.effCtxSel (.ite h.effCtxField (.ite h.effCtxCmd
      h.writeFields))))))))))))))

theorem Kept.effRest {p off w} (h : Kept s₀ s) : Kept s₀ (s.effRest p off w) :=
    .ite h.effHstCtrl (.ite h.effWdog (.ite h.effRingCfg (.ite h.effRingBase (.ite h.effDoorbell (.ite h.effDoorbell (.ite h.effDoorbell (.ite
    h.effNvsCmd (.ite h.effImgData (.ite h.effChallenge (.ite h.effSessionCmd (.ite h.effKeyCmd (.ite h.effRolData (.ite h.effSbSel (.ite
    h.effBistCmd (.ite h.effGoldCmd h.writeFields)))))))))))))))

theorem Kept.effWrite {p off w} (h : Kept s₀ s) : Kept s₀ (s.effWrite p off w) :=
    .ite h.effErrclr ((Kept.ite h.effClocks (.ite h.effUnit (.ite h.effChain h.effRest))).notePending)

theorem Kept.showWindow {p off} (h : Kept s₀ s) : Kept s₀ (s.showWindow p off) := .ite h.show h

theorem Kept.writeWord {p off w} (h : Kept s₀ s) : Kept s₀ (s.writeWord p off w) :=
    .ite h (.ite (h.when Kept.writeMsix) (.ite h.writeEngCmd (h.showWindow.regWrite Kept.effWrite)))

/-! ### HostCommands -/

theorem Kept.readWords {p n off} (h : Kept s₀ s) : Kept s₀ (readWords p n off s).1 := by
  induction n generalizing s off with
  | zero => exact h
  | succ n ih => exact ih h.readWord

theorem Kept.writeWords {p ws k off r} (h : Kept s₀ r.1) : Kept s₀ (writeWords p ws k off r).1 := by
  induction ws generalizing r k with
  | nil => exact h
  | cons w ws ih => exact ih h.writeWord

theorem Kept.bulkEngine {may bcast e ws k r} (h : Kept s₀ r.1) : Kept s₀ (bulkEngine may bcast e ws k r).1 := by
  induction ws generalizing r k with
  | nil => exact h
  | cons w ws ih => exact ih (.iteFst h.windowWriteTo h)

theorem Kept.bulkTable {may bytes a b} (h : Kept s₀ s) : Kept s₀ (s.bulkTable may bytes a b).1 := Kept.iteFst h.onPipe.fst h.fst

theorem Kept.bookBulk {path tally e status written refused} (h : Kept s₀ s) : Kept s₀ (s.bookBulk path tally e status written refused) := by
  unfold State.bookBulk
  exact h.free.sbEnter

theorem Kept.newTag (h : Kept s₀ s) : Kept s₀ s.newTag.1 := h.onHst.fst
theorem Kept.dropFlight {tag} (h : Kept s₀ s) : Kept s₀ (s.dropFlight tag) := h.onHst
theorem Kept.endFlight {f status result} (h : Kept s₀ s) : Kept s₀ (s.endFlight f status result) := h.dropFlight.complete
theorem Kept.endBulk {f status written refused crc} (h : Kept s₀ s) : Kept s₀ (s.endBulk f status written refused crc) := h.bookBulk.endFlight
theorem Kept.pumpBulks (h : Kept s₀ s) : Kept s₀ s.pumpBulks := h.foldl (fun k => .ite k.onHst k)

theorem Kept.sendProxy {opc d} (h : Kept s₀ s) : Kept s₀ (s.sendProxy opc d) := by
  unfold State.sendProxy
  exact .ite h.newTag.onHst.sendCtl h.newTag.onHst.sendCtl

theorem Kept.sessionCommand {opc d} (h : Kept s₀ s) : Kept s₀ (s.sessionCommand opc d).1 :=
    Kept.iteFst h.closeSession.fst (Kept.iteFst h.fst (Kept.iteFst h.challenge.fst h.respond.fst))

theorem Kept.startCommand {opc d} (h : Kept s₀ s) : Kept s₀ (s.startCommand opc d) := by
  unfold State.startCommand
  split
  · extract_lets +onlyGivenNames t
    have ht : Kept s₀ t := .ite h.bookBulk h
    exact ht.complete
  · exact .ite h.complete (.ite (.ite h.newTag.onHst.touchSession.pumpBulks h.bump.complete) (.ite (.ite h.sendProxy (.ite h.readWords.complete
      h.fst.writeWords.complete)) h.sessionCommand.complete))

theorem Kept.releaseCommands {n} (h : Kept s₀ s) : Kept s₀ (releaseCommands n s) := by
  induction n generalizing s with
  | zero => exact h
  | succ n ih =>
    unfold Machine.releaseCommands
    split
    · exact h
    · exact ih h.onHst.startCommand

theorem Kept.settleRings (h : Kept s₀ s) : Kept s₀ s.settleRings := by
  unfold State.settleRings
  exact (h.releaseCommands.foldl (fun k => .ite k k.onHst.stopRing)).pumpBulks.fetchAll.foldl Kept.fetchBuffer

theorem Kept.beginCommand {opc d} (h : Kept s₀ s) : Kept s₀ (s.beginCommand opc d) := .ite h.onHst h.startCommand

theorem Kept.descriptor {opc d} (h : Kept s₀ s) : Kept s₀ (s.descriptor opc d) := by
  unfold State.descriptor
  split
  · exact h
  · extract_lets +onlyGivenNames t
    have ht : Kept s₀ t := h.onHst.stepIndex
    exact ht.beginCommand.settleRings

theorem execFetched_keeps {opc d} (h : Kept s₀ s) : Keeps s₀ (s.execFetched opc d) := .next (.ite h.descriptor h)

theorem Kept.bulkData {f bytes} (h : Kept s₀ s) : Kept s₀ (s.bulkData f bytes) := by
  unfold State.bulkData
  extract_lets -merge +onlyGivenNames _ _ _
  split
  · extract_lets -merge +onlyGivenNames _ _ r t
    have hr : Kept s₀ r.1 := Kept.iteFst h.fst.bulkEngine h.bulkTable
    have ht : Kept s₀ t := hr
    exact .ite ht.endBulk ht.onHst.pumpBulks
  · extract_lets -merge +onlyGivenNames _ _ t
    have ht : Kept s₀ t := h.sendCtl
    exact ht.onHst.pumpBulks

theorem Kept.readDone {r bytes} (h : Kept s₀ s) : Kept s₀ (s.readDone r bytes) := by
  unfold State.readDone
  split
  · extract_lets +onlyGivenNames _ t
    have ht : Kept s₀ t := h.onHst.stepIndex
    exact ht.beginCommand.settleRings
  · split
    · exact h.onHst.pump
    · split
      · exact h
      · exact h.bulkData.settleRings

theorem Kept.readFailed {r} (h : Kept s₀ s) : Kept s₀ (s.readFailed r) := by
  unfold State.readFailed
  split
  · extract_lets +onlyGivenNames t
    have ht : Kept s₀ t := .ite h.onHst h
    exact ht.bump.halt
  · split
    · exact h
    · exact h.endBulk.settleRings

theorem Kept.dropRead {r rest} (h : Kept s₀ s) : Kept s₀ (s.dropRead r rest) := by
  unfold State.dropRead
  exact .ite h.bump (.ite h.bump.onHst h.bump.onHst)

theorem execHostReadCompletion_keeps {ix status data} (h : Kept s₀ s) : Keeps s₀ (execHostReadCompletion ix status data s) := by
  unfold execHostReadCompletion
  split
  · exact .next h
  · extract_lets +onlyGivenNames t
    have ht : Kept s₀ t := h.onHst
    exact .ite (.next h.dropRead) (.ite (.next ht.readFailed) (.ite (.next ht.readDone) (.next h)))

theorem execCompletionTimeout_keeps {ix} (h : Kept s₀ s) : Keeps s₀ (execCompletionTimeout ix s) := by
  unfold execCompletionTimeout
  split
  · exact .next h
  · exact .next h.onHst.readFailed

theorem Kept.answerProxy {tag count status off words} (h : Kept s₀ s) : Kept s₀ (s.answerProxy tag count status off words) := h.sendCtl
theorem Kept.crewTakes {k f} (h : Kept s₀ s) (hf : ∀ {t0}, Kept s₀ t0 → Kept s₀ (f t0)) : Kept s₀ (s.crewTakes k f) := .ite (hf h) h.bump

theorem Kept.bulkPacket {k} (h : Kept s₀ s) : Kept s₀ (s.bulkPacket k) := by
  unfold State.bulkPacket
  extract_lets -merge +onlyGivenNames _ _ _ old
  clear_value old
  split
  · exact h
  · exact .ite h (.ite h.fst.bulkEngine.onHst.bookBulk.answerProxy h.fst.bulkEngine.onHst)

theorem Kept.proxyResponse {k} (h : Kept s₀ s) : Kept s₀ (s.proxyResponse k) := by
  unfold State.proxyResponse
  split
  · exact h
  · extract_lets -merge +onlyGivenNames _ _ t
    have ht : Kept s₀ t := .ite h.endFlight (.ite (.ite h.free.endFlight h.endFlight) h.endBulk)
    exact ht.settleRings

theorem execProxyTimeout_keeps (h : Kept s₀ s) : Keeps s₀ (execProxyTimeout s) := by
  unfold execProxyTimeout
  split
  · exact .next h
  · extract_lets +onlyGivenNames t
    have ht : Kept s₀ t := h.advance.bump.raise
    exact .next ((Kept.ite ht.endBulk ht.endFlight).settleRings)

/-! ### HostEvents -/

theorem Kept.hostReset (h : Kept s₀ s) : Kept s₀ s.hostReset := .ite h.functionReset h

theorem execFlrDone_keeps (h : Kept s₀ s) : Keeps s₀ (execFlrDone s) := by
  unfold execFlrDone
  split
  · exact .next h
  · exact .next h.onHst.raise

theorem Kept.busAgain (h : Kept s₀ s) : Kept s₀ s.busAgain := by
  unfold State.busAgain
  exact (Kept.ite h.onHst h).reviewHost.pumpBulks

theorem execHostGraceExpired_keeps (h : Kept s₀ s) : Keeps s₀ (execHostGraceExpired s) := by
  unfold execHostGraceExpired
  split
  · exact .next h
  · exact .ite (.next h) (.next h.advance.onHst.raise.reviewHost)

theorem execCqModerationTimer_keeps {n} (h : Kept s₀ s) : Keeps s₀ (execCqModerationTimer n s) := by
  unfold execCqModerationTimer
  extract_lets +onlyGivenNames _
  split
  · exact .next h
  · exact .ite (.next h) (.next h.advance.signalCq)

theorem execDrFlushTimeout_keeps {n} (h : Kept s₀ s) : Keeps s₀ (execDrFlushTimeout n s) := by
  unfold execDrFlushTimeout
  extract_lets +onlyGivenNames _
  split
  · exact .next h
  · exact .ite (.next h) (.next h.advance.closeBuffer.pump)

theorem Kept.denyBar2 {off} (h : Kept s₀ s) : Kept s₀ (s.denyBar2 off) := by
  unfold State.denyBar2
  exact .ite h.bump.onHst.raise.sbEnter h.bump

theorem Kept.kibbleByte {off} (h : Kept s₀ s) : Kept s₀ (s.kibbleByte off).2 := by
  unfold State.kibbleByte
  extract_lets +onlyGivenNames _
  split
  · exact h.snd
  · split
    · exact h.snd
    · exact Kept.iteSnd h.snd h.free.snd

theorem Kept.readKibble {n off} (h : Kept s₀ s) : Kept s₀ (readKibble n off s).2 := by
  induction n generalizing s off with
  | zero => exact h
  | succ n ih => exact ih h.kibbleByte

/-! ### I2c -/

theorem Kept.i2cAdvance (h : Kept s₀ s) : Kept s₀ s.i2cAdvance := .ite h h.set
theorem Kept.i2cHold {kind off} (h : Kept s₀ s) : Kept s₀ (s.i2cHold kind off) := .ite h.onI2c h.onI2c

theorem Kept.i2cEnd (h : Kept s₀ s) : Kept s₀ s.i2cEnd := by
  unfold State.i2cEnd
  exact (Kept.ite h h.bump).onI2c.set

theorem Kept.i2cStart (h : Kept s₀ s) : Kept s₀ s.i2cStart := h.i2cEnd.set.onI2c
theorem Kept.i2cBegin (h : Kept s₀ s) : Kept s₀ s.i2cBegin := h.i2cStart.onI2c

theorem Kept.i2cData {bs} (h : Kept s₀ s) : Kept s₀ (i2cData bs s) := by
  induction bs generalizing s with
  | nil => exact h
  | cons b bs ih => exact .ite (ih h.onI2c) (ih h.onI2c.writeWord.i2cHold.i2cAdvance)

theorem Kept.i2cBad (h : Kept s₀ s) : Kept s₀ s.i2cBad := h.i2cBegin.bump.onI2c
theorem Kept.i2cAccess {fixed ptr data} (h : Kept s₀ s) : Kept s₀ (s.i2cAccess fixed ptr data) := h.i2cBegin.put.set.i2cData

/-! ### Startup -/

theorem execStartupReset_keeps (h : Kept s₀ s) : Keeps s₀ (execStartupReset s) :=
  .ite (.next (.reviewForcing (.onPwr (.setStage (.set (h.resetDomains.rewrite id fun _ => by decide)))))) (.next h)

theorem Kept.replayInstaller (h : Kept s₀ s) : Kept s₀ s.replayInstaller := by
  unfold State.replayInstaller
  split
  · exact h.set.recordFails
  · exact h.foldl Kept.writeWord

theorem Kept.loadTrims (h : Kept s₀ s) : Kept s₀ s.loadTrims := by
  unfold State.loadTrims
  exact h.loadCoefs.set.onRol

theorem Kept.firmwareSteps {cold} (h : Kept s₀ s) : Kept s₀ (s.firmwareSteps cold) := .ite h ((Kept.ite h.loadTrims.replayInstaller h).reviewBook)
theorem Kept.startLamp {warm} (h : Kept s₀ s) : Kept s₀ (s.startLamp warm) := h.put.set.onPwr

theorem execForemanBootDone_keeps {crc unc} (h : Kept s₀ s) : Keeps s₀ (execForemanBootDone crc unc s) := by
  unfold execForemanBootDone
  split
  · exact .next h
  · extract_lets +onlyGivenNames t run
    have ht : Kept s₀ t := h.bootReads.showBanks.showFirmware
    have hrun : ∀ {u}, Kept s₀ u → Kept s₀ (run u) := Kept.onPwr
    exact .ite (.next ((((hrun ht.firmwareSteps).onPwr).deliverHeld).startLamp)) (.ite (.next ((((hrun
        ht.firmwareSteps).deliverHeld).reportClosed).startLamp)) (.ite (.next (((hrun
        ht.firmwareSteps).putBit).putBit).onSaf.deliverHeld.settleL2.reviewForcing) (.next h)))

theorem Kept.monitorItem {codes} (h : Kept s₀ s) : Kept s₀ (s.monitorItem codes).2 := by
  unfold State.monitorItem
  exact h.snd.foldlSnd (fun k => k.diodeTemp.snd)

theorem Kept.itemPasses {i readings} (h : Kept s₀ s) : Kept s₀ (s.itemPasses i readings).2 :=
    Kept.iteSnd h.snd (Kept.iteSnd h.snd (Kept.iteSnd h.monitorItem (Kept.iteSnd h.snd h.snd)))

theorem Kept.clearKibble (h : Kept s₀ s) : Kept s₀ s.clearKibble := h.onPipe

theorem execLampCheckItemDone_keeps {ok readings} (h : Kept s₀ s) : Keeps s₀ (execLampCheckItemDone ok readings s) := by
  unfold execLampCheckItemDone
  split
  · exact .next h
  · exact .ite (.next h) (.next (Kept.ite (Kept.ite h.itemPasses h.itemPasses.putBit).clearKibble (.ite h.itemPasses h.itemPasses.putBit)).onPwr)

theorem Kept.tripAtStart (h : Kept s₀ s) : Kept s₀ s.tripAtStart := by
  unfold State.tripAtStart
  split
  · exact h
  · exact h.callRecovery.enterHold

theorem Kept.endDeep (h : Kept s₀ s) : Kept s₀ s.endDeep := .ite h.releaseRequest.endRecovery h

theorem Kept.afterWarm (h : Kept s₀ s) : Kept s₀ s.afterWarm :=
    .ite (.ite (h.toPower.when Kept.startCadence) h.onSaf.holdBlocks.toPower.raise) (.ite h.leaveHold.startMonitor.endDeep
    h.toPower.startMonitor.endDeep)

theorem Kept.goSolo (h : Kept s₀ s) : Kept s₀ s.goSolo := h.set.onChn

theorem Kept.sysrstBlocks (h : Kept s₀ s) : Kept s₀ s.sysrstBlocks := by
  unfold State.sysrstBlocks
  exact h.sysrstSessions.resetHost.haltCadence.discardArray.endLoops.stopStaged.endFrames.abortBist.goSolo.set.set.onHst

/-! ### SweepStart -/

theorem Kept.publishRequest {m} (h : Kept s₀ s) : Kept s₀ (s.publishRequest m) := .ite h.learnRequest.send h

theorem Kept.closeSweep (h : Kept s₀ s) : Kept s₀ s.closeSweep := by
  unfold State.closeSweep
  extract_lets +onlyGivenNames t
  have ht : Kept s₀ t := by
    unfold t
    split
    · exact h.foldl Kept.closeStope
    · exact h
  exact ht.onCad.onEng

theorem Kept.intoCapture (h : Kept s₀ s) : Kept s₀ s.intoCapture := by
  unfold State.intoCapture
  exact .ite h.set.toPower.kitWindows.onArr.onCad.endRecovery h.set.toPower.kitWindows.onArr.onCad

theorem Kept.leaveCapture (h : Kept s₀ s) : Kept s₀ s.leaveCapture := h.set.stopTable.toPower.kitWindows.calReady
theorem Kept.powerAtSweep (h : Kept s₀ s) : Kept s₀ s.powerAtSweep := .ite h.intoCapture (.ite h.leaveCapture h)
theorem Kept.apply {fs} (h : Kept s₀ s) : Kept s₀ (s.apply fs) := h.onCad
theorem Kept.denyBins (h : Kept s₀ s) : Kept s₀ s.denyBins := h.foldl (fun k => .ite k.set.onCad.raise k)

theorem Kept.noteThresh {old n} (h : Kept s₀ s) : Kept s₀ (s.noteThresh old n) := by
  unfold State.noteThresh
  exact .ite h h.set.set.flagSweep.raise

theorem Kept.applyPending {commit n} (h : Kept s₀ s) : Kept s₀ (s.applyPending commit n) := by
  unfold State.applyPending
  exact (Kept.ite h.apply.onCad h.apply).denyBins.noteThresh.reviewMeas

theorem Kept.applyMode {n} (h : Kept s₀ s) : Kept s₀ (s.applyMode n) := by
  unfold State.applyMode
  exact .ite h.apply h.apply.set.raise

theorem Kept.swapTables {n} (h : Kept s₀ s) : Kept s₀ (s.swapTables n) := by
  unfold State.swapTables
  exact h.onCad.set.set.set.raise

theorem Kept.swapAtSweep {n} (h : Kept s₀ s) : Kept s₀ (s.swapAtSweep n) := .ite h.swapTables.applyMode h

theorem Kept.commitStage {n} (h : Kept s₀ s) : Kept s₀ (s.commitStage n) := by
  unfold State.commitStage
  split
  · exact h
  · split
    · split
      · exact h.cancelDerail
      · split
        · exact h.set.set.cancelDerail
        · exact h.sendCtl.set.onChn
    · exact h

theorem Kept.switchBanks (h : Kept s₀ s) : Kept s₀ s.switchBanks := by
  unfold State.switchBanks
  split
  · exact h
  · exact h.onChn.sendMirror

theorem Kept.switchGear {n} (h : Kept s₀ s) : Kept s₀ (s.switchGear n) := by
  unfold State.switchGear
  exact (Kept.ite h.applyPending.swapTables h.applyPending).applyMode

theorem Kept.switchStage {n} (h : Kept s₀ s) : Kept s₀ (s.switchStage n).1 := by
  unfold State.switchStage
  split
  · exact h.fst
  · split
    · extract_lets +onlyGivenNames t
      have ht : Kept s₀ t := h.onChn
      split
      · exact ht.fst
      · extract_lets +onlyGivenNames t1 t2 t3
        have ht1 : Kept s₀ t1 := by
          unfold t1
          split
          · exact ht.writeMask
          · exact ht
        have ht2 : Kept s₀ t2 := ht1.set.set
        have ht3 : Kept s₀ t3 := .ite ht2.switchBanks ht2
        exact Kept.iteFst ht3.fst ht3.switchGear.fst
    · exact h.fst

theorem Kept.graceStage {n} (h : Kept s₀ s) : Kept s₀ (s.graceStage n) := by
  unfold State.graceStage
  split
  · exact .ite h.onChn.set.set.raise.serveCall.serveSpare h
  · exact h

theorem Kept.takeVideo (h : Kept s₀ s) : Kept s₀ s.takeVideo := by
  unfold State.takeVideo
  exact .ite h.onCad (.ite h.onCad (.ite h h.onCad.refuseMode))

theorem Kept.noteGains {n ps} (h : Kept s₀ s) : Kept s₀ (State.noteGains n ps s) := by
  induction ps generalizing s with
  | nil => exact h
  | cons p ps ih => exact ih (.ite h.onCad.set.flagSweep.raise h.onCad)

theorem Kept.startTable {n} (h : Kept s₀ s) : Kept s₀ (s.startTable n) := by
  unfold State.startTable
  exact h.put.put.onCad.noteGains.foldl Kept.openStope

theorem Kept.skipSpot {k n} (h : Kept s₀ s) : Kept s₀ (s.skipSpot k n) := .ite h (.ite h.bump h.bump.onSpot.raise)

theorem Kept.spotSweep {n} (h : Kept s₀ s) : Kept s₀ (s.spotSweep n) := by
  unfold State.spotSweep
  extract_lets +onlyGivenNames s1 s2
  have hs1 : Kept s₀ s1 := h.onSpot
  have hs2 : Kept s₀ s2 := by
    unfold s2
    split
    · exact .ite hs1 hs1.spotComplete
    · exact hs1
  exact .ite (.ite hs2.skipSpot ((Kept.ite hs2.skipSpot.onSpot.spotTake.spotComplete hs2.skipSpot.onSpot.spotTake).reviewSpot)) hs2.reviewSpot

theorem Kept.mreqSweep {n} (h : Kept s₀ s) : Kept s₀ (s.mreqSweep n) := by
  unfold State.mreqSweep
  split
  · exact h
  · extract_lets +onlyGivenNames s1 t
    have hs1 : Kept s₀ s1 := h.reviewMreq
    have ht : Kept s₀ t := .ite hs1.set (.ite hs1.set.set.onCad.onSaf.raise hs1)
    exact .ite ht ht.flagSweep

theorem Kept.freshSweep {n} (h : Kept s₀ s) : Kept s₀ (s.freshSweep n) := h.set.set.onCad.onEng
theorem Kept.readyMark (h : Kept s₀ s) : Kept s₀ s.readyMark := .ite h.gapMark h

theorem Kept.sweepEvent {n m} (h : Kept s₀ s) : Kept s₀ (s.sweepEvent n m) := by
  unfold State.sweepEvent
  extract_lets +onlyGivenNames s1 s2 s3 r
  have hs1 : Kept s₀ s1 := h.onCad
  have hs2 : Kept s₀ s2 := hs1.closeSweep.publishRequest.freshSweep
  have hs3 : Kept s₀ s3 := hs2.commitStage.graceStage
  have hr : Kept s₀ r.1 := hs3.switchStage
  split
  · exact hr
  · extract_lets +onlyGivenNames s4 s5 s6 s7
    have hs4 : Kept s₀ s4 := .ite hr hr.swapAtSweep.applyPending
    have hs5 : Kept s₀ s5 := .ite hs4.endMark hs4
    have hs6 : Kept s₀ s6 := hs5.powerAtSweep.takeVideo
    have hs7 : Kept s₀ s7 := .ite hs6.scheduled.startTable hs6
    exact hs7.readyMark.spotSweep.mreqSweep

/-! ### The commands -/

theorem Kept.exec (h : Kept s₀ s) : ∀ c : Instr, Keeps s₀ (exec c s)
  | .registerWrite .. => .ite (.ite (.next h.bump.raise) (.next h)) (.next h.writeWord)
  | .wideRegisterRead .. => execWideRegisterRead_keeps h
  | .expArrayErrclr .. => .next h.writeWord
  | .cadErrclr .. => .next h.writeWord
  | .expModeErrclr .. => .next h.writeWord
  | .calErrclr .. => .next h.writeWord
  | .monErrclr .. => .next h.writeWord
  | .engErrclr .. => .next h.writeWord
  | .lnkErrclr .. => .next h.writeWord
  | .chnErrclr .. => .next h.writeWord
  | .expSpotErrclr .. => .next h.writeWord
  | .pipeErrclr .. => .next h.writeWord
  | .timErrclr .. => .next h.writeWord
  | .hstErrclr .. => .next h.writeWord
  | .pwrErrclr .. => .next h.writeWord
  | .pllErrclr .. => .next h.writeWord
  | .safErrclr .. => .next h.writeWord
  | .nvsErrclr .. => .next h.writeWord
  | .rolErrclr .. => .next h.writeWord
  | .i2cErrclr .. => .next h.writeWord
  | .vaonGood .. => execVaonGood_keeps h
  | .vaonFail => execVaonFail_keeps h
  | .railGood .. => .ite (.next h) (.next (Kept.ite h.putBit.onPwr.set.raise h.putBit.onPwr).reviewRails)
  | .railFault .. => .next (.ite h.railFail h)
  | .pwrCmdStandby .. => .next h.pwrCmd
  | .pwrCmdIdle .. => .next h.pwrCmd
  | .pwrCmdReady .. => .next h.pwrCmd
  | .pwrCmdCapture .. => .next h.pwrCmd
  | .standbyAfterCommit => .ite (.next h.toStandby) (.next h)
  | .startupReset => execStartupReset_keeps h
  | .foremanBootDone .. => execForemanBootDone_keeps h
  | .lampCheckItemDone .. => execLampCheckItemDone_keeps h
  | .lampCheckDone => .ite (.ite (.next h.set.onPwr.toPower.raise) (.ite (.next h.set.onPwr.onMon.toPower.startMonitor.tripAtStart) (.next
      h.set.onPwr.afterWarm))) (.next h)
  | .sysrstNAssert => .ite (.next h) (.ite (.next h.onPwr.onPwr.reviewForcing) (.ite (.next h.onPwr.sysrstBlocks.reviewForcing) (.next h.onPwr)))
  | .sysrstNRelease => .ite (.ite (.next h.onPwr.onPwr.reviewForcing) (.next h.onPwr.reviewForcing)) (.next h)
  | .perstNAssert => .ite (.next h) (.next h.onPwr.set.hostReset)
  | .perstNRelease => .ite (.next (.ite h.onPwr.command h.onPwr)) (.next h)
  | .hotReset => .next h.set.hostReset
  | .functionLevelReset => .next h.hostReset
  | .flrDone => execFlrDone_keeps h
  | .d3hotEntry => .ite (.next h) (.next h.set.onHst.haltAll.raise.reviewHost)
  | .d0Return => .next h.set.onHst.busAgain
  | .bmeClear => .ite (.next h.set.onHst.haltAll.raise.reviewHost) (.next h)
  | .bmeSet => .next h.set.onHst.busAgain
  | .linkChanged .. => .ite (.next (.ite h.set.set.put h.set.set.put.raise)) (.next h)
  | .refQualificationWindow .. => .ite (.next (.ite ((Kept.ite h.putRef.raise h.putRef).foldl (fun k => .ite k.startLock k)) (.ite h.putRef.raise
      h.putRef))) (.next h)
  | .pllBandSearchDone .. => .ite (.next h.setStage.set) (.next h)
  | .pllLockDeclared .. => .ite (.next h.setStage) (.next h)
  | .pllLocked .. => .ite (.next h.pllLock) (.next h)
  | .pllReferenceMissing => .next (h.foldl (fun k => .ite k.pllLost (.ite k.abandonLock k)))
  | .pllLockBreak .. => .ite (.next h.pllLost) (.ite (.next h.setStage) (.next h))
  | .pllRelock .. => execPllRelock_keeps h
  | .pllClkoutEnable .. => execPllClkoutEnable_keeps h
  | .canaryTrip .. => .ite (.next h) (.ite (.next (.ite h.trip.holdForeman h)) (.ite (.next h.assertRequest.enterHold) (.next h.trip)))
  | .foremanLockstep => .ite (.next h.raise.assertRequest.trip.enterHold.holdForeman) (.next h)
  | .foremanHeartbeatTimeout => .ite (.next h.trip.holdForeman) (.next h)
  | .dieTempTrip => .next (.ite h.trip h)
  | .oscMissingPulse => .ite (.next ((Kept.ite h.set.putBit h.set.putBit.endPulses).reviewForcing)) (.next h)
  | .oscReturn => .ite (.next h.set.putBit.trip.putBit.latchStanding.reviewForcing) (.next h)
  | .testTrip .. => .next (h.regWrite Kept.effSafCmd)
  | .safTripClear .. => .next (h.regWrite Kept.effTrip)
  | .foremanResetRelease => .ite (.next h.onPwr) (.next h)
  | .canaryCount .. => .ite (.ite (.next h.onSaf.raise.callRecovery.enterHold) (.next h.onSaf)) (.next h)
  | .recoveryTimeout => execRecoveryTimeout_keeps h
  | .l1DeferExpired => execL1DeferExpired_keeps h
  | .l2Release => .next h.releaseL2
  | .chainRestart .. => .next (h.regWrite Kept.effSafCmd)
  | .scanFrmEdge .. => execScanFrmEdge_keeps h
  | .scanLineEdge .. => execScanLineEdge_keeps h
  | .mainsZxEdge .. => execMainsZxEdge_keeps h
  | .netComputedStart .. => .ite (.next h.netEdge) (.next h)
  | .freeReferenceInstant .. => execFreeReferenceInstant_keeps h
  | .trackerWindowClose .. => execTrackerWindowClose_keeps h
  | .cadSrcWrite .. => .next (h.regWrite Kept.effCadSrc)
  | .sweepStart => .ite (.next h) (.ite (.next (Kept.ite h h.takeStart).advance.sweepEvent) (.next h))
  | .openA => .next (h.runEntry Kept.openEntry)
  | .openB => .next (h.runEntry Kept.openEntry)
  | .close => .next (h.runEntry (fun k => k.gateAction Kept.setGates))
  | .read => .next (h.runEntry Kept.read)
  | .gap => .next (h.runEntry Kept.startGap)
  | .expo => .next (h.runEntry Kept.onCad)
  | .armEntry => .next (h.runEntry Kept.setTrg)
  | .disarm => .next (h.runEntry (fun k => .ite k.setTrg.flagSweep.bump.raise k.setTrg))
  | .sweepEnd => .ite (.next h.onCad) (.next h)
  | .tableNop => .next (h.runEntry (fun k => k))
  | .openLengthEnd => execOpenLengthEnd_keeps h
  | .triggerEdge .. => execTriggerEdge_keeps h
  | .triggerDelayOpen .. => execTriggerDelayOpen_keeps h
  | .triggerExposureEnd .. => execTriggerExposureEnd_keeps h
  | .cadShdHiWrite .. => .next (h.regWrite Kept.effShdHi)
  | .cadActHiRead .. => .ite (.next h.readActHi.update) (.next h.update)
  | .cadSwapReq .. => .next (h.regWrite Kept.effSwap)
  | .expModeWrite .. => .next (h.regWrite Kept.effMode)
  | .lockstepFault .. => .ite (.next (.ite h.advance.onCad h.advance.onCad.lockstepFault)) (.next h)
  | .videoScheduleStep => execVideoScheduleStep_keeps h
  | .expoPulseEnd => execExpoPulseEnd_keeps h
  | .skim .. => .ite (.next (h.onArr.when Kept.skimNode)) (.next h)
  | .rowLatch .. => execRowLatch_keeps h
  | .rowResetDone => execRowResetDone_keeps h
  | .calKindDue .. => .next (.ite h.advance h)
  | .sliceStepDone .. => execSliceStepDone_keeps h
  | .pktCalStepDone .. => execPktCalStepDone_keeps h
  | .bankRecalDone .. => execBankRecalDone_keeps h
  | .calAged => .next h.advance.reviewAged
  | .heldPassStart => execHeldPassStart_keeps h
  | .calBaseCapture .. => .next (h.regWrite Kept.effBaseCmd)
  | .calBaseValWrite .. => .next (h.showBase.regWrite Kept.effBaseVal)
  | .calBaseCommit .. => .next (h.regWrite Kept.effBaseCmd)
  | .monitorConversionDone .. => execMonitorConversionDone_keeps h
  | .monCtrlRunWrite .. => .next (h.regWrite Kept.effMonCtrl)
  | .monRefSettled => .ite (.next h.advance.set) (.next h)
  | .monTempUpdate .. => .ite (.next h.diodeTemp.set.set) (.next h)
  | .itemPublish .. => execItemPublish_keeps h
  | .engScalarAlu .. => .next (h.issue (fun k => k.legal Kept.setEngine))
  | .engBranch .. => .next (h.issue (fun k => k.legal Kept.setEngine))
  | .engScalarLoadStore .. => execEngScalarLoadStore_keeps h
  | .wait .. => .next (h.issue (fun k => k.legal Kept.setEngine))
  | .fence .. => .next (h.issue (fun k => k))
  | .trap .. => .next (h.issue Kept.trapWith)
  | .engVectorAlu .. => .next (h.issue (fun k => k.legal Kept.setEngine))
  | .engVectorMac .. => .next (h.issue (fun k => k.legal Kept.setEngine))
  | .engVectorLoadStore .. => execEngVectorLoadStore_keeps h
  | .engPermuteReduce .. => .next (h.issue (fun k => k.legal Kept.setEngine))
  | .lclTimerZero .. => execLclTimerZero_keeps h
  | .lclInRdWrite .. => .next (h.program Kept.writeInRd)
  | .lclPush .. => .next (h.program Kept.push)
  | .pushCopyDone .. => .next (.ite h.pushDone h)
  | .lclPushSeal .. => .next (h.program Kept.seal)
  | .lclPetWrite .. => .next (h.program Kept.setEngine)
  | .lclTrapWrite .. => .next (h.program Kept.trapWith)
  | .lclEventWrite .. => .next (h.program Kept.programEvent)
  | .lclOutboxPost .. => .next (h.program Kept.postOutbox)
  | .engineReadyMessage .. => execEngineReadyMessage_keeps h
  | .logMessage .. => execLogMessage_keeps h
  | .keyRefresh .. => .next h.keyRefresh.kitHears
  | .mapChanged .. => .next h.toStope.kitHears
  | .statReq .. => .next h.toStope.kitHears
  | .lclInboxRdWrite .. => .next (h.program Kept.writeInboxRd)
  | .sweepDeadline => .next (h.foldl (fun k => .ite k.pastDeadline k))
  | .engWatchdog .. => .next (h.program (fun k => k.advance.engFault))
  | .scrubRead .. => .ite (.next h.setEngine) (.next h)
  | .engStart .. => .next h.writeEngCmd
  | .engHalt .. => .next h.writeEngCmd
  | .engClear .. => .next h.writeEngCmd
  | .engMemAddrWrite .. => .next (h.regWrite Kept.effMemAddr)
  | .engMemDataWrite .. => .next (h.regWrite Kept.effMemData)
  | .engMemDataRead .. => .ite (.next h.readMemData.update) (.next h.update)
  | .remapStart => execRemapStart_keeps h
  | .remapCopyDone .. => execRemapCopyDone_keeps h
  | .remapComplete => execRemapComplete_keeps h
  | .engRemapGo .. => .next (h.regWrite Kept.effRemap)
  | .engQenWrite .. => .next (h.regWrite Kept.effEngCtrl)
  | .quadrantInitDone .. => .ite (.next (h.foldl Kept.setEngine).onEng.putBit.reviewEngines) (.next h)
  | .txBlock .. => execTxBlock_keeps h
  | .laneBlockReceive .. => execLaneBlockReceive_keeps h
  | .laneStuck .. => .ite (.next h.putBit.bump.raise.callRecovery.loseLane) (.next h)
  | .laneSignalLoss .. => .ite (.next h.retrain) (.next h)
  | .clockRecovered .. => .ite (.next (.ite h.setPort.set h.setPort)) (.next h)
  | .trainingBlockReceive .. => execTrainingBlockReceive_keeps h
  | .eqComplete .. => execEqComplete_keeps h
  | .keystreamStart .. => execKeystreamStart_keeps h
  | .linkUp .. => execLinkUp_keeps h
  | .trainTimeout .. => execTrainTimeout_keeps h
  | .trainRetryDelay .. => .ite (.next h.startTraining) (.next h)
  | .linkFrameReceive .. => execLinkFrameReceive_keeps h
  | .widthReq .. => .next h.ctlWidthReq
  | .widthAck .. => .next h.ctlWidthAck
  | .retrainReq .. => .next h.ctlRetrainReq
  | .retrainAck .. => .next h.ctlRetrainAck
  | .withdraw .. => .next h.ctlWithdraw
  | .sleep .. => .next h.ctlSleep
  | .feLoopReq .. => .next h.ctlFeLoopReq
  | .feLoopAck .. => .next h.ctlFeLoopAck
  | .feLoopEnd .. => .next h.endLoop
  | .widthChangeBoundary .. => execWidthChangeBoundary_keeps h
  | .replayTimeout .. => execReplayTimeout_keeps h
  | .txSleepEntry .. => execTxSleepEntry_keeps h
  | .txWake .. => execTxWake_keeps h
  | .lnkEnWrite .. => .next (h.regWrite Kept.effLnkCtrl)
  | .lnkRetrainWrite .. => .next (h.regWrite Kept.effLnkCtrl)
  | .lnkLoopRunWrite .. => .next (h.regWrite Kept.effLnkLoop)
  | .packetForward .. => .ite (.next h) (.ite (.next (h.onSchedule Kept.cross)) (.next h.cross))
  | .packetTransmit .. => .ite (.next h.choosePacket) (.next h)
  | .claim .. => execClaim_keeps h
  | .claimInterval => .next (.ite h.sendClaim h)
  | .electionTimeout => execElectionTimeout_keeps h
  | .roll .. => .ite (.next h.bump) (.ite (.ite (.next h.onChn.reviewCall) (.next h)) (.next h.rollAt))
  | .rollTimeout => execRollTimeout_keeps h
  | .rollReport .. => execRollReport_keeps h
  | .grant .. => .next (h.onPacket Kept.takeGrant)
  | .rollDoneReceive .. => .next (h.onPacket (fun k1 => .ite k1 k1.rollDone))
  | .bench .. => .next (h.onPacket (fun k1 => .ite k1.bench k1))
  | .recover .. => .next (h.onPacket (fun k1 => .ite k1.callRecovery k1))
  | .stopes .. => .next (h.onPacket Kept.onChn)
  | .arm .. => .next (h.onPacket (fun k1 => .ite k1.armUnit.sendCtl k1))
  | .armAck .. => .next (h.onPacket (fun k1 => .ite k1.takeAck k1))
  | .commit .. => execCommit_keeps h
  | .cancel .. => execCancel_keeps h
  | .keyRefreshReq .. => .next (h.onPacket Kept.keyRefresh)
  | .mirror .. => .next (h.onPacket (fun k1 => .ite k1.onChn k1))
  | .ringNotice .. => .next (h.onPacket (fun k1 => .ite (.ite (.ite k1.raise.onChn k1.raise) k1.raise.breakAfter) k1.put))
  | .beat .. => .next (h.onPacket (fun k1 => .ite (.ite k1.crewBeat k1) (.ite k1.headBeat k1)))
  | .beatWindow => execBeatWindow_keeps h
  | .sweepState .. => .next (h.onPacket (fun k1 => .ite k1 k1.onChn.put.set.learnRequest))
  | .joinCallDelay => execJoinCallDelay_keeps h
  | .chnFullCall .. => .next (h.regWrite Kept.effChnCtrl)
  | .chnJoinCall .. => .next (h.regWrite Kept.effChnCtrl)
  | .goGear .. => .next (h.regWrite Kept.effDrlCmd)
  | .goAssign .. => .next (h.regWrite Kept.effDrlCmd)
  | .chnAsgHiWrite .. => .next (h.regWrite Kept.effAsgHi)
  | .chnAsgCopy .. => .next (h.regWrite Kept.effAsgCmd)
  | .chnAsgClear .. => .next (h.regWrite Kept.effAsgCmd)
  | .sweepHdr .. => .next (h.runPacket Kept.openBuild)
  | .key .. => .next (h.runPacket Kept.extendBuild)
  | .delta .. => .next (h.runPacket Kept.extendBuild)
  | .stat .. => .next (h.runPacket Kept.extendBuild)
  | .aux .. => .next (h.runPacket Kept.extendBuild)
  | .event .. => .next (h.onPacket (fun k1 => .ite (.ite k1.enqueueEvent.pump.reportRemap k1.enqueueEvent.pump) k1))
  | .proxyRd .. => .next (h.onPacket (fun k1 => k1.crewTakes (fun k2 => k2.readWords.answerProxy)))
  | .proxyWr .. => .next (h.onPacket (fun k1 => k1.crewTakes (fun k2 => k2.fst.writeWords.answerProxy)))
  | .proxyRsp .. => .next (h.onPacket (fun k1 => .ite k1.proxyResponse k1))
  | .bulk .. => .next (h.onPacket (fun k1 => k1.crewTakes Kept.bulkPacket))
  | .spot .. => .next (h.onPacket (fun k1 => .ite k1.spotIntake k1))
  | .spotPacketSend => execSpotPacketSend_keeps h
  | .expSpotCtrlWrite .. => .next (h.regWrite Kept.effSpotCtrl)
  | .spotClearDone => .ite (.next h.onEng.set) (.next h)
  | .pipeItemProcess => execPipeItemProcess_keeps h
  | .pipeFrameTimeout => execPipeFrameTimeout_keeps h
  | .pipeCtxCommit .. => .next (h.regWrite Kept.effCtxCmd)
  | .pipeCtxDisable .. => .next (h.regWrite Kept.effCtxCmd)
  | .pipeMemWrite .. => .next (h.regWrite Kept.effPipeMem)
  | .timRateWrite .. => .next (h.regWrite Kept.effTimRate)
  | .timStepCommit .. => .next (h.regWrite Kept.effTimStep)
  | .timStepAccept .. => .next (h.regWrite Kept.effTimAccept)
  | .timeSlewDone => execTimeSlewDone_keeps h
  | .hostDisciplineLapse => execHostDisciplineLapse_keeps h
  | .timeInvalid => execTimeInvalid_keeps h
  | .delayExchangeStart .. => execDelayExchangeStart_keeps h
  | .delayReq .. => execDelayReq_keeps h
  | .delayResp .. => .next (h.advance.onDelay (fun k1 => .ite k1.setDelay k1))
  | .delayInfo .. => execDelayInfo_keeps h
  | .syncSend .. => execSyncSend_keeps h
  | .followUpSend => execFollowUpSend_keeps h
  | .sync .. => execSync_keeps h
  | .followUp .. => execFollowUp_keeps h
  | .chainTimeLost => .ite (.next h.advance.set.onTim.raise.reviewTime) (.next h)
  | .publishSend .. => execPublishSend_keeps h
  | .publish .. => .next (h.onTime (fun k1 => .ite k1.relay.takePub k1.relay))
  | .tpEnable .. => .next (h.regWrite Kept.effTpCfg)
  | .tpulseRise .. => execTpulseRise_keeps h
  | .tpulseFall .. => .ite (.next h.advance.setTpulse) (.next h)
  | .sqDoorbell .. => .next (h.regWrite Kept.effDoorbell)
  | .cqDoorbell .. => .next (h.regWrite Kept.effDoorbell)
  | .drDoorbell .. => .next (h.regWrite Kept.effDoorbell)
  | .ringEnable .. => .next (h.regWrite Kept.effRingCfg)
  | .ringResume .. => .next (h.regWrite Kept.effRingCfg)
  | .nop .. => execFetched_keeps h
  | .regRead .. => execFetched_keeps h
  | .regWrite .. => execFetched_keeps h
  | .bulkWrite .. => execFetched_keeps h
  | .sessionChallenge .. => execFetched_keeps h
  | .sessionOpen .. => execFetched_keeps h
  | .sessionClose .. => execFetched_keeps h
  | .cqModerationTimer .. => execCqModerationTimer_keeps h
  | .drFlushTimeout .. => execDrFlushTimeout_keeps h
  | .bar2Read .. => .ite (.next h) (.ite (.next h.bump) (.ite (.ite (.next h.readKibble.update) (.next h.update)) (.next h.denyBar2.update)))
  | .proxyTimeout => execProxyTimeout_keeps h
  | .hostGraceExpired => execHostGraceExpired_keeps h
  | .hostWdogPet .. => .next (h.regWrite Kept.effWdog)
  | .hostWdogExpired => execHostWdogExpired_keeps h
  | .hstRearm .. => .next (h.regWrite Kept.effHstCtrl)
  | .storeWordVerify .. => execStoreWordVerify_keeps h
  | .commitComplete .. => .next (.ite h (.ite h.endOp h.closeOp))
  | .nvsImgOpen .. => .next (h.regWrite Kept.effNvsCmd)
  | .nvsImgDataWrite .. => .next (h.regWrite Kept.effImgData)
  | .nvsImgCommit .. => .next (h.regWrite Kept.effNvsCmd)
  | .nvsSaveInst .. => .next (h.regWrite Kept.effNvsCmd)
  | .nvsRdDataLoRead .. => .ite (.next h.readRdLo.update) (.next h.update)
  | .nvsRdDataHiRead .. => .ite (.next h.readRdHi.update) (.next h.update)
  | .storeRewrite .. => execStoreRewrite_keeps h
  | .shiftBookEntryWrite => execShiftBookEntryWrite_keeps h
  | .bistLbist .. => execBistLbist_keeps h
  | .bistMbist .. => execBistMbist_keeps h
  | .bistDone .. => execBistDone_keeps h
  | .bistGoldCommit .. => .next (h.regWrite Kept.effGoldCmd)
  | .rolChallenge .. => execRolChallenge_keeps h
  | .rolSessionOpen .. => execRolSessionOpen_keeps h
  | .rolSessionClose .. => execRolSessionClose_keeps h
  | .rolKeyReplace .. => execRolKeyReplace_keeps h
  | .rolSbSelWrite .. => .next (h.regWrite Kept.effSbSel)
  | .sessionIdleTimeout .. => execSessionIdleTimeout_keeps h
  | .lockoutEnd .. => execLockoutEnd_keeps h
  | .challengeExpiry .. => execChallengeExpiry_keeps h
  | .accessInc .. => .ite (.next h) (.ite (.next h.i2cAccess) (.next h.i2cBad))
  | .accessFixed .. => .ite (.next h) (.ite (.next h.i2cAccess) (.next h.i2cBad))
  | .select .. => .ite (.next h) (.ite (.next h.i2cBegin.set.set.set.onI2c) (.next h.i2cBad))
  | .i2cWordRead => .ite (.next h) (.next (Kept.ite h.i2cAdvance h.i2cStart).readWord.onI2c.i2cHold.update)
  | .i2cTransferEnd .. => .next (.ite h.i2cAdvance.i2cEnd h.i2cEnd)
  | .i2cHoldTimeout => .ite (.next h) (.ite (.next h.advance.bump.onI2c) (.next h.advance.bump.onI2c.update))
  | .i2cStuckTimeout .. => .ite (.ite (.next h.i2cEnd.bump.raise) (.next h.i2cEnd.bump.raise)) (.next h)
  | .railDown => .ite (.next (h.foldl Kept.railFail).set.onPwr) (.next h)
  | .dieTempNormal => .next h.putBit.reviewForcing
  | .hostReadCompletion .. => execHostReadCompletion_keeps h
  | .completionTimeout .. => execCompletionTimeout_keeps h
  | .dlUp => .ite (.next h.set.reviewHost.settleRings.pump) (.next h)
  | .mreqToggle => .ite (.ite (.next h.advance.onCad.onSaf) (.next (.ite h.advance.onCad.onSaf.trip h.advance.onCad.onSaf))) (.next h)
  | .elasticBufferSlip .. => .ite (.next h.retrain) (.next h)
end Sys2Proof.Machine
end

section
/-!
PROOF. The invariant of every reachable state: every step keeps it (O5) and the state after reset meets it (O6).
-/
namespace Sys2Proof.Machine

/-- Settles O5: the front command keeps the invariant by the walk, an idle step by its own lemma. -/
theorem stepKeepsInvariant : Obligations.StepKeepsInvariant := by
  unfold Obligations.StepKeepsInvariant
  intro s t hs hstep
  unfold step at hstep
  split at hstep
  · exact (Keeps.next (Kept.refl s).idle t hstep).inv hs
  · exact ((Kept.refl _).exec _ t hstep).inv hs

/-- Settles O6: right after reset the register store is empty, the freewheel counter 0 and nothing waits. -/
theorem resetMeetsInvariant : Obligations.ResetMeetsInvariant := by
  unfold Obligations.ResetMeetsInvariant
  exact ⟨⟨rfl, Nat.two_pow_pos 80⟩, rfl⟩

end Sys2Proof.Machine
end

section
/-!
PROOF. A whole-word write and its effect (ch. 00, R7 to R13): how a register write command reaches the register, when its effect is the
plain one, and what the plain effect leaves in the fields of the word.
-/
namespace Sys2Proof.Machine

/-! ### The fields of a written word -/

theorem Field.of_lt (f : Field) (w : Nat) : f.of w < 2 ^ f.width := Nat.mod_lt _ (Nat.two_pow_pos _)

/-- A field takes the value whose low bits it holds. -/
theorem State.get_set_of_lt (s : State) {f : Field} {v : Nat} (h : v < 2 ^ f.width) : (s.set f v).get f = v := by
  rw [State.get_set_self, Nat.mod_eq_of_lt h]

theorem Only.weaken {fs gs : List Field} {s t : State} (h : Only fs s t) (hs : ∀ f ∈ fs, f ∈ gs) : Only gs s t :=
  ⟨h.1, h.2.weaken hs⟩

theorem Only.trans {fs : List Field} {s t u : State} (h : Only fs s t) (k : Only fs t u) : Only fs s u := by
  refine ⟨?_, h.2.trans k.2⟩
  obtain ⟨h, -⟩ := h
  obtain ⟨k, -⟩ := k
  rw [k, h]

/-- Writing a field changes that field alone. -/
theorem State.writeField_only (s : State) (f : Field) (w : Nat) : Only [f] s (s.writeField f w) := by
  have hset : ∀ v, Only [f] s (s.set f v) := fun v => (Only.refl _ s).set v (List.mem_singleton_self f)
  unfold State.writeField
  cases f.acc with
  | ro => exact .refl _ s
  | wo => exact .refl _ s
  | w1c => exact hset _
  | rw =>
    dsimp only
    split
    · exact .refl _ s
    · split
      · split
        · exact hset _
        · exact .refl _ s
      · exact hset _
  | rws =>
    dsimp only
    split
    · split
      · exact hset _
      · exact .refl _ s
    · exact hset _

theorem State.foldl_writeField_only (w : Nat) (fs : List Field) (s : State) :
    Only fs s (fs.foldl (fun t f => t.writeField f w) s) := by
  induction fs generalizing s with
  | nil => exact .refl _ s
  | cons f fs ih =>
    have hf : [f] ⊆ f :: fs := List.cons_subset_cons f (List.nil_subset fs)
    have hfs : fs ⊆ f :: fs := List.subset_cons_self f fs
    exact ((s.writeField_only f w).weaken hf).trans ((ih _).weaken hfs)

/-- The plain write of a word changes the fields of its register alone. -/
theorem State.writeFields_only (s : State) (p : Path) (off w : Nat) : Only (fieldsAt (pathOffset p off)) s (s.writeFields p off w) :=
  (State.foldl_writeField_only w _ s).weaken fun _ hf => (List.mem_filter.mp hf).1

/-! ### Fields that take the bits written -/

/-- A field whose value no other state blocks and whose low bits are not fixed: the write of its bits depends on its range alone. -/
def Field.isPlain (f : Field) : Bool :=
  !(decide (0x04100 ≤ f.off ∧ f.off < 0x04180) || decide (f.off = 0x02040 ∨ f.off = 0x02044) || decide (0x0E100 ≤ f.off ∧ f.off < 0x0E600) ||
    decide (0x05038 ≤ f.off ∧ f.off ≤ 0x05044) || decide (0x06830 ≤ f.off ∧ f.off ≤ 0x0686C) ||
    [ENG_POOL.MIB, MON_BUF_CFG.BASE, NVS_IMG_SEL.AREA, ENG_MEM_ADDR.ADDR, NVS_IMG_ADDR.ADDR].contains f)

theorem State.blocked_of_isPlain {f : Field} (h : f.isPlain = true) (s : State) (v w : Nat) : s.blocked f v w = false := by
  simp only [Field.isPlain, Bool.not_eq_true', Bool.or_eq_false_iff, decide_eq_false_iff_not, List.contains_eq_mem, List.mem_cons,
    List.not_mem_nil, or_false, not_or] at h
  obtain ⟨⟨⟨⟨⟨h1, h2⟩, h3⟩, h4⟩, h5⟩, hpool, hbase, harea, -, -⟩ := h
  simp only [State.blocked, if_neg h1, if_neg h3, if_neg h4, if_neg h5, if_neg hpool, if_neg hbase, if_neg harea, h2, false_or, if_false]

theorem storedValue_of_isPlain {f : Field} (h : f.isPlain = true) (v : Nat) : storedValue f v = v := by
  simp only [Field.isPlain, Bool.not_eq_true', Bool.or_eq_false_iff, decide_eq_false_iff_not, List.contains_eq_mem, List.mem_cons,
    List.not_mem_nil, or_false, not_or] at h
  obtain ⟨-, -, -, -, haddr, himg⟩ := h
  simp [storedValue, haddr, himg]

/-- What a plain field holds after a write of a word it is open to. -/
def Field.taken (f : Field) (w old : Nat) : Nat :=
  match f.acc with
  | .ro => old
  | .wo => old
  | .w1c => (old - (old &&& f.of w)) % 2 ^ f.width
  | _ =>
    match fieldRange f with
    | some (lo, hi) => if lo ≤ f.of w ∧ f.of w ≤ hi then f.of w else old
    | none => f.of w

theorem State.writeField_get {f : Field} (h : f.isPlain = true) (s : State) (w : Nat) :
    (s.writeField f w).get f = f.taken w (s.get f) := by
  unfold State.writeField Field.taken
  cases f.acc with
  | ro => rfl
  | wo => rfl
  | w1c => exact State.get_set_self ..
  | rw =>
    simp only [State.blocked_of_isPlain h, storedValue_of_isPlain h, Bool.false_eq_true, if_false]
    cases fieldRange f with
    | none => exact s.get_set_of_lt (f.of_lt w)
    | some r => dsimp only; split <;> simp [s.get_set_of_lt (f.of_lt w)]
  | rws =>
    cases fieldRange f with
    | none => exact s.get_set_of_lt (f.of_lt w)
    | some r => dsimp only; split <;> simp [s.get_set_of_lt (f.of_lt w)]

theorem State.writeField_get_ne (s : State) {f g : Field} (h : f.key ≠ g.key) (w : Nat) : (s.writeField f w).get g = s.get g :=
  (s.writeField_only f w).2 g (by simpa using h.symm)

/-- Fields written one after the other, kept at different places: one that is not among them keeps its value, one that is takes its bits. -/
theorem State.foldl_writeField_get_of_notMem (w : Nat) {g : Field} (fs : List Field) (h : g.key ∉ fs.map Field.key) (s : State) :
    (fs.foldl (fun t f => t.writeField f w) s).get g = s.get g :=
  (State.foldl_writeField_only w fs s).2 g h

theorem State.foldl_writeField_get (w : Nat) {g : Field} (hp : g.isPlain = true) (fs : List Field) (hn : (fs.map Field.key).Nodup)
    (hg : g ∈ fs) (s : State) : (fs.foldl (fun t f => t.writeField f w) s).get g = g.taken w (s.get g) := by
  induction fs generalizing s with
  | nil => cases hg
  | cons f fs ih =>
    rw [List.map_cons, List.nodup_cons] at hn
    obtain ⟨hf, hn⟩ := hn
    rw [List.foldl_cons]
    rcases List.mem_cons.mp hg with rfl | hg
    · rw [State.foldl_writeField_get_of_notMem w fs hf, State.writeField_get hp]
    · rw [ih hn hg, State.writeField_get_ne]
      exact fun e => hf (e ▸ List.mem_map_of_mem hg)

/-! ### Plain registers -/

/-- A register whose fields are plain, kept at different places, on no path's own copy, and none of which waits for a commit (R80). -/
def isPlainWord (off : Nat) : Bool :=
  (fieldsAt off).all (fun f => f.isPlain && !pendingFields.contains f) && decide ((fieldsAt off).map Field.key).Nodup && !isPerPath off

theorem pathOffset_of_notPerPath {off : Nat} (h : isPerPath off = false) (p : Path) : pathOffset p off = off := by
  simp [pathOffset, h]

theorem State.writeFields_only_of_isPlainWord {off : Nat} (h : isPlainWord off = true) (s : State) (p : Path) (w : Nat) :
    Only (fieldsAt off) s (s.writeFields p off w) := by
  simp only [isPlainWord, Bool.and_eq_true, Bool.not_eq_true'] at h
  have hframe := s.writeFields_only p off w
  rwa [pathOffset_of_notPerPath h.2] at hframe

/-- Among fields kept at different places, the place names the field. -/
theorem eq_of_key_eq {fs : List Field} (hn : (fs.map Field.key).Nodup) {f g : Field} (hf : f ∈ fs) (hg : g ∈ fs) (e : f.key = g.key) : f = g := by
  induction fs with
  | nil => cases hf
  | cons a fs ih =>
    rw [List.map_cons, List.nodup_cons] at hn
    obtain ⟨ha, hn⟩ := hn
    rcases List.mem_cons.mp hf with rfl | hfs
    · rcases List.mem_cons.mp hg with rfl | hgs
      · rfl
      · exact absurd (e ▸ List.mem_map_of_mem hgs) ha
    · rcases List.mem_cons.mp hg with rfl | hgs
      · exact absurd (e ▸ List.mem_map_of_mem hfs) ha
      · exact ih hn hfs hgs

/-- A field of a plain register the path may write takes its bits. -/
theorem State.writeFields_get {off : Nat} (h : isPlainWord off = true) {f : Field} (hf : f ∈ fieldsAt off) (s : State) (p : Path) (w : Nat) :
    (s.writeFields p off w).get f = if s.mayWrite p f then f.taken w (s.get f) else s.get f := by
  simp only [isPlainWord, Bool.and_eq_true, List.all_eq_true, decide_eq_true_eq, Bool.not_eq_true'] at h
  obtain ⟨⟨hplain, hnodup⟩, hpath⟩ := h
  unfold State.writeFields
  rw [pathOffset_of_notPerPath hpath]
  split
  case isTrue hm =>
    exact State.foldl_writeField_get w (hplain f hf).1 _ (hnodup.sublist (List.filter_sublist.map _)) (List.mem_filter.mpr ⟨hf, hm⟩) s
  case isFalse hm =>
    refine State.foldl_writeField_get_of_notMem w _ (fun hk => hm ?_) s
    obtain ⟨g, hg, e⟩ := List.mem_map.mp hk
    obtain ⟨hg, hm⟩ := List.mem_filter.mp hg
    rwa [← eq_of_key_eq hnodup hg hf e]

/-- A write to a register without fields of R80 leaves what waits for a commit. -/
theorem State.notePending_of_isPlainWord {off : Nat} (h : isPlainWord off = true) (t s : State) (p : Path) (w : Nat) :
    t.notePending s p off w = t := by
  have hfs : (fieldsAt off).filter pendingFields.contains = [] := by
    simp only [isPlainWord, Bool.and_eq_true, List.all_eq_true, Bool.not_eq_true'] at h
    exact List.filter_eq_nil_iff.mpr fun f hf => by rw [(h.1.1 f hf).2]; exact Bool.false_ne_true
  have hnew : ∀ ws : List Nat, (([] : List Field).map Field.key).filter (fun k => !ws.contains k) ++ ws = ws := fun ws => rfl
  have hkeep : ∀ ws : List Nat, ws.filter (fun k => !(([] : List Field).map Field.key).contains k) = ws := fun ws =>
    List.filter_eq_self.mpr fun k _ => rfl
  unfold State.notePending
  rw [hfs]
  split
  · simp only [List.filter_nil, hnew, State.onCad]
  · simp only [List.filter_nil, hkeep, State.onCad]

/-- The 27 registers whose write has no effect of its own. -/
def plainOffsets : List Nat :=
  [0x01008, 0x01010, 0x03010, 0x05010, 0x05018, 0x05020, 0x06020, 0x06404, 0x06874, 0x07008, 0x08000, 0x08004, 0x09014, 0x09080, 0x0A008,
    0x0A04C, 0x0B030, 0x0B048, 0x0B04C, 0x0C010, 0x0E00C, 0x0E014, 0x0E018, 0x0F020, 0x0F030, 0x10004, 0x11000]

theorem isPlainWord_of_mem {off : Nat} (h : off ∈ plainOffsets) : isPlainWord off = true := by
  have hall : ∀ o ∈ plainOffsets, isPlainWord o = true := by decide +kernel
  exact hall off h

/-- Nothing follows the plain write of these registers. -/
theorem State.effWrite_of_mem {off : Nat} (h : off ∈ plainOffsets) (s : State) (p : Path) (w : Nat) :
    s.effWrite p off w = s.writeFields p off w := by
  have hplain := isPlainWord_of_mem h
  have hnote := fun t : State => t.notePending_of_isPlainWord hplain s p w
  simp only [plainOffsets, List.mem_cons, List.not_mem_nil, or_false] at h
  unfold State.effWrite
  dsimp only
  rw [hnote]
  rcases h with rfl | rfl | rfl | rfl | rfl | rfl | rfl | rfl | rfl | rfl | rfl | rfl | rfl | rfl | rfl | rfl | rfl | rfl | rfl | rfl | rfl |
    rfl | rfl | rfl | rfl | rfl | rfl
  all_goals rfl

/-! ### The command -/

/-- A write that carries a whole word reaches the register space. -/
theorem exec_registerWrite_whole {p : Path} {full : Bool} (h : p = .bar0 → full = true) (off : Nat) (w : Word) (s : State) :
    exec (.registerWrite p off w full) s = .next (s.writeWord p off w.toNat) := by
  have hn : ¬ (p = .bar0 ∧ full = false) := fun ⟨hp, hf⟩ => by simp [h hp] at hf
  exact if_neg hn

/-- A write on BAR0 that carries no whole word is counted and raised where page 0x0E answers (R406). -/
theorem exec_registerWrite_part (off : Nat) (w : Word) (s : State) :
    exec (.registerWrite .bar0 off w false) s =
      if s.answers .bar0 0x0E020 then .next ((s.bump HST_ERRCNT1.BAR0_PARTIAL 1).raise 0x0E08 [off]) else .next s := by
  change execRegisterWrite .bar0 off w false s = _
  exact if_pos ⟨rfl, rfl⟩

theorem State.writeWord_of_not_answers {s : State} {p : Path} {off : Nat} (h : s.answers p off = false) (w : Nat) :
    s.writeWord p off w = s := by
  simp [State.writeWord, h]

/-- A register write of its own kind is the register write of its effect. -/
theorem State.writeWord_of_answers {s : State} {p : Path} {off : Nat} (h : s.answers p off = true) (hm : isMsix off = false)
    (hc : off ≠ 0x0A00C) (hw : s.showWindow p off = s) (w : Nat) :
    s.writeWord p off w = s.regWrite p off w fun t => t.effWrite p off w := by
  simp [State.writeWord, h, hm, hc, hw]

/-- A register without an effect of its own does the plain write. -/
theorem State.writeWord_of_mem {off : Nat} (h : off ∈ plainOffsets) {s : State} {p : Path} (ha : s.answers p off = true) (w : Nat) :
    s.writeWord p off w = s.plainWrite p off w := by
  have hm : isMsix off = false := by
    have hall : ∀ o ∈ plainOffsets, isMsix o = false := by decide
    exact hall off h
  have hc : off ≠ 0x0A00C := by rintro rfl; exact absurd h (by decide)
  have hw : s.showWindow p off = s := by
    refine if_neg fun hin => ?_
    have hall : ∀ o ∈ plainOffsets,
        ¬ ((0x0406C ≤ o ∧ o ≤ 0x04080) ∨ o = 0x05060 ∨ o = 0x05064 ∨ o = 0x08048 ∨ (0x0B034 ≤ o ∧ o ≤ 0x0B03C)) := by decide
    exact hall off h hin
  rw [State.writeWord_of_answers ha hm hc hw]
  exact congrArg (s.regWrite p off w) (funext fun t => t.effWrite_of_mem h p w)

theorem State.answers_of_takes {s : State} {p : Path} {off w : Nat} (h : s.takes p off w = true) : s.answers p off = true := by
  simp only [State.takes, Bool.and_eq_true] at h
  exact h.1.1.1.1

/-- A write that is carried out is its effect after its bookkeeping. -/
theorem State.writeWord_of_takes {s : State} {p : Path} {off w : Nat} (h : s.takes p off w = true) (hm : isMsix off = false)
    (hc : off ≠ 0x0A00C) (hw : s.showWindow p off = s) : s.writeWord p off w = (s.booked p off w).effWrite p off w := by
  rw [State.writeWord_of_answers (State.answers_of_takes h) hm hc hw, State.regWrite_takes h]

end Sys2Proof.Machine
end

section
/-!
PROOF. Register accesses (ch. 00, ch. 01): the writes that are turned away, the plain ones, the reads with their latches (R16), and the ERRCLR
registers.
-/
namespace Sys2Proof.Machine

/-! ### Writes that are turned away -/

theorem State.regWrite_of_no_fields {off : Nat} (h : fieldsAt off = []) (s : State) (p : Path) (w : Nat) (e : State → State) :
    s.regWrite p off w e = s := by
  simp [State.regWrite, h]

theorem State.regWrite_of_perPath {off : Nat} {p : Path} (h : isPerPath off = true) (hp : pathNo p ≥ 2) (s : State) (w : Nat)
    (e : State → State) : s.regWrite p off w e = s := by
  simp [State.regWrite, h, hp]

/-- What holds of a path, a register and a state in which a write from outside reaches its bookkeeping. -/
structure Reaches (s : State) (p : Path) (off : Nat) : Prop where
  answers : s.answers p off = true
  fields : fieldsAt off ≠ []
  shared : isPerPath off = false
  outside : p ≠ .foreman

/-- A write SAFE-TALK does not take is only logged where a role is missing (R490). -/
theorem Reaches.regWrite_safeTalk {s : State} {p : Path} {off : Nat} (h : Reaches s p off) (hs : s.power = stSAFETALK)
    (ht : safeTalkTakes off = false) (w : Nat) (e : State → State) : s.regWrite p off w e = s.logAttempts p off w := by
  simp [State.regWrite, h.answers, h.fields, h.shared, h.outside, hs, ht]

/-- A gated write that finds the shift book full is counted as refused (R500). -/
theorem Reaches.regWrite_full {s : State} {p : Path} {off w : Nat} (h : Reaches s p off) (hs : s.power ≠ stSAFETALK)
    (hr : s.rolesUsed p off ≠ []) (hb : (s.logAttempts p off w).sbRoom = false) (e : State → State) :
    s.regWrite p off w e = (s.logAttempts p off w).bump NVS_ERRCNT1.SB_REFUSED 1 := by
  simp [State.regWrite, h.answers, h.fields, h.shared, h.outside, hs, hr, hb]

theorem safeTalkTakes_of_isMsix {off : Nat} (h : isMsix off = true) : safeTalkTakes off = false := by
  simp only [isMsix, Bool.or_eq_true, decide_eq_true_eq] at h
  simp only [safeTalkTakes, pageOf, errclrOffsets, List.contains_eq_mem, Bool.or_eq_false_iff, decide_eq_false_iff_not, List.mem_cons,
    List.not_mem_nil, or_false]
  exact ⟨⟨decide_eq_false (by omega), by omega⟩, by omega⟩

/-- The MSI-X structures take no write in SAFE-TALK. -/
theorem State.writeWord_of_isMsix {s : State} {p : Path} {off : Nat} (h : isMsix off = true) (ha : s.answers p off = true) (w : Nat) :
    s.writeWord p off w = if s.power = stSAFETALK then s else s.writeMsix off w := by
  by_cases hs : s.power = stSAFETALK <;> simp [State.writeWord, State.turnsAway, State.when, h, ha, hs, safeTalkTakes_of_isMsix h]

/-- The windows onto tables lie at registers, so that an offset without one shows nothing. -/
theorem State.showWindow_of_no_fields {off : Nat} (h : fieldsAt off = []) (s : State) (p : Path) : s.showWindow p off = s := by
  have hoff : off ∉ [0x0406C, 0x04070, 0x04074, 0x04078, 0x0407C, 0x04080, 0x05060, 0x05064, 0x08048, 0x0B034, 0x0B038, 0x0B03C] := by
    intro hm
    have hall : ∀ o ∈ [0x0406C, 0x04070, 0x04074, 0x04078, 0x0407C, 0x04080, 0x05060, 0x05064, 0x08048, 0x0B034, 0x0B038, 0x0B03C],
        fieldsAt o ≠ [] := by decide +kernel
    exact hall off hm h
  simp only [List.mem_cons, List.not_mem_nil, or_false] at hoff
  unfold State.showWindow
  split
  case isFalse => rfl
  case isTrue hw =>
    by_cases h4 : off < 0x05000
    · have hpage : pageOf off = 4 := by unfold pageOf; omega
      simp (disch := omega) only [State.show, hpage, State.showTime, if_neg, if_true]
    · have hpage : pageOf off = 0x0B := by unfold pageOf; omega
      simp (disch := omega) only [State.show, hpage, State.showChain, if_neg, true_or, if_true]

/-! ### Reads -/

theorem exec_wideRegisterRead {s : State} {p : Path} {off : Nat} {r : State × Nat} (h : s.readWord p off = r) :
    exec (.wideRegisterRead p off) s = .next { r.1 with answer := r.2 } := by
  subst h
  rfl

theorem State.readWord_of_not_answers {s : State} {p : Path} {off : Nat} (h : s.answers p off = false) : s.readWord p off = (s, 0) := by
  simp [State.readWord, h]

theorem State.readWord_of_perPath {off : Nat} {p : Path} (h : isPerPath off = true) (hm : isMsix off = false) (hp : pathNo p ≥ 2)
    (s : State) : s.readWord p off = (s, 0) := by
  simp [State.readWord, h, hm, hp]

theorem State.readWord_plain {s : State} {p : Path} {off : Nat} (ha : s.answers p off = true) (hm : isMsix off = false)
    (hp : isPerPath off = true → pathNo p < 2) (hoff : off ∉ [0x05074, 0x05078, 0x0A01C, 0x0F024, 0x0F028]) :
    s.readWord p off = s.readPlain p off := by
  simp only [List.mem_cons, List.not_mem_nil, or_false, not_or] at hoff
  obtain ⟨h1, h2, h3, h4, h5⟩ := hoff
  simp [State.readWord, ha, hm, h1, h2, h3, h4, h5]
  exact fun h1 h2 => absurd (hp h1) (by omega)

/-- Words latched one after the other. -/
def latchAll (key val : Nat → Nat) (os : List Nat) (t : Tbl Nat) : Tbl Nat := os.foldl (fun t o => Tbl.set 0 t (key o) (val o)) t

theorem foldl_latched (key val : Nat → Nat) (os : List Nat) (s : State) :
    os.foldl (fun t o => { t with latched := Tbl.set 0 t.latched (key o) (val o) }) s = { s with latched := latchAll key val os s.latched } := by
  induction os generalizing s with
  | nil => rfl
  | cons o os ih => exact ih _

theorem get_latchAll_of_notMem (key val : Nat → Nat) {k : Nat} (os : List Nat) (h : k ∉ os.map key) (t : Tbl Nat) :
    Tbl.get 0 (latchAll key val os t) k = Tbl.get 0 t k := by
  induction os generalizing t with
  | nil => rfl
  | cons o os ih =>
    rw [List.map_cons, List.mem_cons, not_or] at h
    exact (ih h.2 _).trans (Tbl.get_set_other 0 0 t _ fun e => h.1 e.symm)

theorem get_latchAll (key val : Nat → Nat) {o : Nat} (os : List Nat) (hn : (os.map key).Nodup) (ho : o ∈ os) (t : Tbl Nat) :
    Tbl.get 0 (latchAll key val os t) (key o) = val o := by
  induction os generalizing t with
  | nil => cases ho
  | cons a os ih =>
    rw [List.map_cons, List.nodup_cons] at hn
    rcases List.mem_cons.mp ho with rfl | ho
    · exact (get_latchAll_of_notMem key val os hn.1 _).trans (Tbl.get_set_same ..)
    · exact ih hn.2 ho _

/-- The words above the lowest follow it at once. -/
theorem higherWords_eq_map (off : Nat) : ∃ n ≤ 6, higherWords off = (List.range n).map fun i => off + 4 * (i + 1) := by
  unfold higherWords
  refine ⟨_, ?_, rfl⟩
  split
  case h_1 e he =>
    have hall : ∀ e ∈ wideLows, e.2 ≤ 6 := by decide
    exact hall e (List.mem_of_find?_eq_some he)
  case h_2 => split <;> omega

/-- A path's own copy of a register lies far from every register. -/
theorem pathOffset_inj_of_near {p : Path} {a b : Nat} (h : pathOffset p a = pathOffset p b) (hab : a < b + 0x100000) (hba : b < a + 0x100000) :
    a = b := by
  unfold pathOffset at h
  split at h <;> split at h <;> omega

theorem nodup_latchKeys (p : Path) (off : Nat) : ((higherWords off).map (pathOffset p)).Nodup := by
  obtain ⟨n, hn, e⟩ := higherWords_eq_map off
  rw [e, List.map_map]
  refine List.pairwise_map.mpr (List.nodup_range.imp_of_mem fun {i j} hi hj hne hij => hne ?_)
  rw [List.mem_range] at hi hj
  have hij : pathOffset p (off + 4 * (i + 1)) = pathOffset p (off + 4 * (j + 1)) := hij
  have hoff := pathOffset_inj_of_near hij (by omega) (by omega)
  omega

theorem State.readPlain_eq (s : State) (p : Path) (off : Nat) :
    s.readPlain p off =
      ({ s with latched := latchAll (pathOffset p) (fun o => s.liveWord p o + 1) (higherWords off) s.latched }, s.shownWord p off) :=
  congrArg (·, s.shownWord p off) (foldl_latched ..)

/-! ### The ERRCLR registers -/

theorem State.zeros_get {f : Field} (fs : List Field) (hn : (fs.map Field.key).Nodup) (hf : f ∈ fs) (s : State) : (s.zeros fs).get f = 0 := by
  induction fs generalizing s with
  | nil => cases hf
  | cons g fs ih =>
    rw [List.map_cons, List.nodup_cons] at hn
    rcases List.mem_cons.mp hf with rfl | hf
    · have hrest : Only fs (s.set f 0) ((s.set f 0).zeros fs) := .zeros fs _ (.refl _ _) fun _ h => h
      exact (hrest.2 f hn.1).trans (by rw [State.get_set_self, Nat.zero_mod])
    · exact ih hn.2 hf _

/-- The counters among some fields set to 0, as a write with CLEAR 1 does. -/
theorem Cleared.of_zeros {fs : List Field} (hn : (fs.map Field.key).Nodup) (w : Word) (b : State) :
    Cleared fs w b (if bit w.toNat 0 then b.zeros (fs.filter fun f => decide (f.acc = .ro)) else b) := by
  refine ⟨fun h => by simp [h], fun h => ?_⟩
  rw [if_pos h]
  refine ⟨.zeros _ _ (.refl _ _) fun f hf => (List.mem_filter.mp hf).1, fun f hf hro => ?_⟩
  exact State.zeros_get _ (hn.sublist (List.filter_sublist.map _)) (List.mem_filter.mpr ⟨hf, by simp [hro]⟩) b

/-- The ERRCLR registers that clear the counters of their registers and nothing else. -/
def counterClears : List Nat :=
  [0x01018, 0x03040, 0x0408C, 0x050A8, 0x06034, 0x06410, 0x06884, 0x08040, 0x0B074, 0x0C02C, 0x0C42C, 0x0D080, 0x0E028, 0x0F040, 0x100C8,
    0x11014]

theorem State.effErrclr_of_mem {off : Nat} (h : off ∈ counterClears) (b : State) (w : Word) :
    Cleared ((clearedBy off).flatMap fieldsAt) w b (b.effErrclr off w.toNat) := by
  have hn : ∀ o ∈ counterClears, (((clearedBy o).flatMap fieldsAt).map Field.key).Nodup := by decide +kernel
  have hne : ∀ o ∈ counterClears, o ≠ 0x0204C ∧ o ≠ 0x09018 ∧ o ≠ 0x0A06C := by decide
  obtain ⟨hpll, hmon, heng⟩ := hne off h
  have heff : b.effErrclr off w.toNat = if bit w.toNat 0 then clearAt (clearedBy off) b else b := by
    simp only [State.effErrclr, if_neg hpll, if_neg hmon, if_neg heng]
  rw [heff]
  exact .of_zeros (hn off h) w b

/-- A write of an ERRCLR register that is carried out. -/
theorem State.writeWord_errclr {off : Nat} (h : off ∈ errclrOffsets) {s : State} {p : Path} {w : Nat} (ht : s.takes p off w = true) :
    s.writeWord p off w = (s.booked p off w).effErrclr off w := by
  have hall : ∀ o ∈ errclrOffsets, isMsix o = false ∧ o ≠ 0x0A00C ∧
      ¬ ((0x0406C ≤ o ∧ o ≤ 0x04080) ∨ o = 0x05060 ∨ o = 0x05064 ∨ o = 0x08048 ∨ (0x0B034 ≤ o ∧ o ≤ 0x0B03C)) := by decide
  obtain ⟨hm, hc, hw⟩ := hall off h
  rw [State.writeWord_of_takes ht hm hc (if_neg hw), State.effWrite, if_pos (by simpa using h)]

theorem counterClear_cleared {off : Nat} (h : off ∈ counterClears) {s : State} {p : Path} {w : Word} (ht : s.takes p off w.toNat = true) :
    ∃ u : State, (.next (s.writeWord p off w.toNat) : Out) = .next u ∧
      Cleared ((clearedBy off).flatMap fieldsAt) w (s.booked p off w.toNat) u := by
  have hall : ∀ o ∈ counterClears, o ∈ errclrOffsets := by decide
  exact ⟨_, rfl, by rw [State.writeWord_errclr (hall off h) ht]; exact State.effErrclr_of_mem h _ w⟩

/-! ### Partial writes, plain registers, and the registers with a path's own copy -/

theorem barPartialWrite_counted (off : Nat) (w : Word) (s : State) :
    (s.answers .bar0 0x0E020 = false → exec (.registerWrite .bar0 off w false) s = .next s) ∧
    (s.answers .bar0 0x0E020 = true → ∃ u : State, exec (.registerWrite .bar0 off w false) s = .next (u.raise 0x0E08 [off]) ∧
      Only [HST_ERRCNT1.BAR0_PARTIAL] s u ∧ u.get HST_ERRCNT1.BAR0_PARTIAL = min 255 (s.get HST_ERRCNT1.BAR0_PARTIAL + 1)) := by
  rw [exec_registerWrite_part]
  refine ⟨fun h => by rw [h]; rfl, fun h => ⟨_, by rw [h]; rfl, (Only.refl _ s).bump 1 (List.mem_singleton_self _), ?_⟩⟩
  exact s.get_set_of_lt (Nat.lt_of_le_of_lt (Nat.min_le_left _ _) (by decide))

/-- A plain register that takes a write: its fields take their bits after the bookkeeping (R9, R10). -/
theorem State.writeWord_plain_of_takes {off : Nat} (h : off ∈ plainOffsets) {s : State} {p : Path} {w : Nat} (ht : s.takes p off w = true) :
    s.writeWord p off w = (s.booked p off w).writeFields p off w := by
  rw [State.writeWord_of_mem h (State.answers_of_takes ht), State.plainWrite, State.regWrite_takes ht]

theorem Field.taken_w1c {f : Field} (h : f.acc = .w1c) (w old : Nat) : f.taken w old = (old - (old &&& f.of w)) % 2 ^ f.width := by
  simp [Field.taken, h]

theorem Field.taken_of_no_range {f : Field} (h : f.acc = .rw ∨ f.acc = .rws) (hr : fieldRange f = none) (w old : Nat) : f.taken w old = f.of w := by
  rcases h with h | h <;> simp [Field.taken, h, hr]

theorem Field.taken_of_range {f : Field} (h : f.acc = .rw ∨ f.acc = .rws) {lo hi : Nat} (hr : fieldRange f = some (lo, hi)) (w old : Nat) :
    f.taken w old = if lo ≤ f.of w ∧ f.of w ≤ hi then f.of w else old := by
  rcases h with h | h <;> simp [Field.taken, h, hr]

theorem Field.taken_ro {f : Field} (h : f.acc = .ro) (w old : Nat) : f.taken w old = old := by
  simp [Field.taken, h]

/-- What the fields of a plain register hold after the plain write. -/
theorem writeFields_values {off : Nat} (h : isPlainWord off = true) (b : State) (p : Path) (w : Nat) (f : Field) (hf : f ∈ fieldsAt off) :
    (b.mayWrite p f = false ∨ f.acc = .ro → (b.writeFields p off w).get f = b.get f) ∧
    (b.mayWrite p f = true → f.acc = .w1c → (b.writeFields p off w).get f = (b.get f - (b.get f &&& f.of w)) % 2 ^ f.width) ∧
    (b.mayWrite p f = true → f.acc = .rw ∨ f.acc = .rws →
      (fieldRange f = none → (b.writeFields p off w).get f = f.of w) ∧
      (∀ lo hi : Nat, fieldRange f = some (lo, hi) →
        (b.writeFields p off w).get f = if lo ≤ f.of w ∧ f.of w ≤ hi then f.of w else b.get f)) := by
  rw [State.writeFields_get h hf]
  refine ⟨?_, fun hm hacc => ?_, fun hm hacc => ⟨fun hr => ?_, fun lo hi hr => ?_⟩⟩
  · rintro (hm | hro)
    · simp [hm]
    · simp [Field.taken_ro hro]
  · rw [if_pos hm, Field.taken_w1c hacc]
  · rw [if_pos hm, Field.taken_of_no_range hacc hr]
  · rw [if_pos hm, Field.taken_of_range hacc hr]

/-- Every record of a table changed alike, where the record of a number it lacks stays as it is. -/
theorem Tbl.get_map {α : Type} (d : α) (g : α → α) (hd : g d = d) (t : Tbl α) (k : Nat) :
    Tbl.get d (t.map fun x => (x.1, g x.2)) k = g (Tbl.get d t k) := by
  induction t with
  | nil => exact hd.symm
  | cons e t ih =>
    obtain ⟨a, v⟩ := e
    rw [List.map_cons, Tbl.get_cons, Tbl.get_cons, ih, apply_ite g]

/-- What a path that has no copies of the per-path registers meets there (R508). -/
theorem perPath_facts {off : Nat} (hlo : 0x10008 ≤ off) (hhi : off ≤ 0x10074) {p : Path} (hp : (∃ x : Nat, p = .proxy x) ∨ p = .foreman) :
    isPerPath off = true ∧ isMsix off = false ∧ pathNo p ≥ 2 := by
  refine ⟨by simp [isPerPath, hlo, hhi], ?_, ?_⟩
  · simp only [isMsix, Bool.or_eq_false_iff, decide_eq_false_iff_not]
    omega
  · rcases hp with ⟨x, rfl⟩ | rfl
    · exact Nat.le_refl 2
    · exact Nat.le_succ 2

theorem State.writeWord_of_perPath {off : Nat} (hlo : 0x10008 ≤ off) (hhi : off ≤ 0x10074) {p : Path}
    (hp : (∃ x : Nat, p = .proxy x) ∨ p = .foreman) (s : State) (w : Nat) : s.writeWord p off w = s := by
  obtain ⟨hpath, hmsix, hno⟩ := perPath_facts hlo hhi hp
  have hw : s.showWindow p off = s := if_neg (by omega)
  cases ha : s.answers p off with
  | false => exact State.writeWord_of_not_answers ha w
  | true => rw [State.writeWord_of_answers ha hmsix (by omega) hw, State.regWrite_of_perPath hpath hno]

theorem State.writeWord_of_no_fields {off : Nat} (hm : isMsix off = false) (hc : off ≠ 0x0A00C) (hf : fieldsAt off = []) (s : State) (p : Path)
    (w : Nat) : s.writeWord p off w = s := by
  cases ha : s.answers p off with
  | false => exact State.writeWord_of_not_answers ha w
  | true => rw [State.writeWord_of_answers ha hm hc (State.showWindow_of_no_fields hf s p), State.regWrite_of_no_fields hf]

/-- The four registers the statement takes for the SAFE-TALK and the full-book clauses are plain ones SAFE-TALK does not take. -/
theorem gated_facts {off : Nat} (h : off ∈ [0x03010, 0x05010, 0x0B030, 0x0E018]) :
    off ∈ plainOffsets ∧ fieldsAt off ≠ [] ∧ isPerPath off = false ∧ safeTalkTakes off = false := by
  have hall : ∀ o ∈ [0x03010, 0x05010, 0x0B030, 0x0E018],
      o ∈ plainOffsets ∧ fieldsAt o ≠ [] ∧ isPerPath o = false ∧ safeTalkTakes o = false := by decide +kernel
  exact hall off h

/-- A read of a plain word: the word as shown, and the higher words latched as they stand (R16). -/
theorem exec_wideRegisterRead_plain {s : State} {p : Path} {off : Nat} (ha : s.answers p off = true) (hm : isMsix off = false)
    (hpath : isPerPath off = false ∨ p = .bar0 ∨ p = .i2c) (hoff : off ∉ [0x05074, 0x05078, 0x0A01C, 0x0F024, 0x0F028]) :
    exec (.wideRegisterRead p off) s =
      .next { s with latched := latchAll (pathOffset p) (fun o => s.liveWord p o + 1) (higherWords off) s.latched, answer := s.shownWord p off } := by
  have hown : isPerPath off = true → pathNo p < 2 := by
    intro h
    rcases hpath with hpath | rfl | rfl
    · rw [h] at hpath; cases hpath
    · exact Nat.zero_lt_two
    · exact Nat.one_lt_two
  exact exec_wideRegisterRead ((State.readWord_plain ha hm hown hoff).trans (s.readPlain_eq p off))

/-! ### The three ERRCLR registers with their own way -/

theorem pllErrclr_cleared {p : Path} {w : Word} {s : State} (h : s.takes p 0x0204C w.toNat = true) :
    ∃ u : State, exec (.pllErrclr p w) s = .next u ∧
      Cleared [PLL_CNT.LOSS_CNT 0, PLL_CNT.LOSS_CNT 1, PLL_CNT.LOSS_CNT 2] w (s.booked p 0x0204C w.toNat) u := by
  refine ⟨_, congrArg Host.Outcome.next (State.writeWord_errclr (by decide) h), ?_⟩
  exact .of_zeros (fs := [PLL_CNT.LOSS_CNT 0, PLL_CNT.LOSS_CNT 1, PLL_CNT.LOSS_CNT 2]) (by decide) w _

theorem monErrclr_cleared {p : Path} {w : Word} {s : State} (h : s.takes p 0x09018 w.toNat = true) :
    ∃ b u v : State, b = s.booked p 0x09018 w.toNat ∧ exec (.monErrclr p w) s = .next u ∧
      Cleared [MON_STATUS.OVERRUN_CNT] w b v ∧ u = if bit w.toNat 0 then v.onMon fun m => { m with overrun := false } else v := by
  refine ⟨_, _, _, rfl, congrArg Host.Outcome.next (State.writeWord_errclr (by decide) h), .of_zeros (by decide) w _, ?_⟩
  unfold State.effErrclr
  cases bit w.toNat 0 <;> rfl

/-- The ECC counts of every engine set to 0. -/
def clearEcc (s : State) : State := s.onEng fun e => { e with engs := e.engs.map fun x => (x.1, { x.2 with corr := 0, uncorr := 0 }) }

theorem clearEcc_engine (s : State) (e : Nat) : (clearEcc s).engine e = { s.engine e with corr := 0, uncorr := 0 } :=
  Tbl.get_map ({} : Eng) (fun g : Eng => { g with corr := 0, uncorr := 0 }) rfl s.eng.engs e

theorem clearEcc_eq (s : State) : clearEcc s = { s with eng := { s.eng with engs := (clearEcc s).eng.engs } } := rfl

theorem State.effErrclr_eng (b : State) (w : Nat) : b.effErrclr 0x0A06C w =
    if bit w 0 then clearEcc (b.zeros ((fieldsAt 0x0A064 ++ fieldsAt 0x0A068).filter fun f => decide (f.acc = .ro))) else b := rfl

theorem engErrclr_cleared {p : Path} {w : Word} {s : State} (h : s.takes p 0x0A06C w.toNat = true) :
    ∃ b u v : State, b = s.booked p 0x0A06C w.toNat ∧ exec (.engErrclr p w) s = .next u ∧
      Cleared (fieldsAt 0x0A064 ++ fieldsAt 0x0A068) w b v ∧ u = { v with eng := { v.eng with engs := u.eng.engs } } ∧
      ∀ e : Nat, u.engine e = if bit w.toNat 0 then { b.engine e with corr := 0, uncorr := 0 } else b.engine e := by
  refine ⟨_, _, _, rfl, congrArg Host.Outcome.next (State.writeWord_errclr (by decide) h), .of_zeros (by decide +kernel) w _, ?_⟩
  generalize s.booked p 0x0A06C w.toNat = b
  rw [State.effErrclr_eng]
  cases bit w.toNat 0 with
  | false => exact ⟨rfl, fun e => rfl⟩
  | true =>
    generalize hfs : ((fieldsAt 0x0A064 ++ fieldsAt 0x0A068).filter fun f => decide (f.acc = .ro)) = fs
    have hframe : Only fs b (b.zeros fs) := .zeros fs b (.refl _ b) fun _ h => h
    have hengine : ∀ e, (b.zeros fs).engine e = b.engine e := fun e => by rw [hframe.1]; rfl
    refine ⟨clearEcc_eq _, fun e => ?_⟩
    rw [if_pos rfl, if_pos rfl, clearEcc_engine, hengine]

theorem lnkErrclr_cleared {d : Bool} {p : Path} {w : Word} {s : State} (h : s.takes p (0x0C02C + 0x400 * px d) w.toNat = true) :
    ∃ u : State, exec (.lnkErrclr d p w) s = .next u ∧
      Cleared ((([0x20, 0x24, 0x28] ++ (List.range 8).map fun n => 0x80 + 4 * n) : List Nat).flatMap fun o => fieldsAt (0x0C000 + 0x400 * px d + o)) w
        (s.booked p (0x0C02C + 0x400 * px d) w.toNat) u := by
  have hmem : 0x0C02C + 0x400 * px d ∈ counterClears := by cases d <;> decide
  have hfields : (clearedBy (0x0C02C + 0x400 * px d)).flatMap fieldsAt =
      (([0x20, 0x24, 0x28] ++ (List.range 8).map fun n => 0x80 + 4 * n) : List Nat).flatMap fun o => fieldsAt (0x0C000 + 0x400 * px d + o) := by
    cases d <;> decide +kernel
  rw [← hfields]
  exact counterClear_cleared hmem h

/-- Settles O53: turned-away and plain writes by the cases of the register write, reads by the latches of the higher words, the ERRCLR registers
by the counters each sets to 0. -/
theorem registerWordsAreWrittenReadAndCleared : Obligations.RegisterWordsAreWrittenReadAndCleared := by
  refine ⟨barPartialWrite_counted, fun p off w full s hfull => ?writes, fun p off s => ?reads, fun p w s => ?clears, ?identifiers⟩
  case writes =>
    rw [exec_registerWrite_whole hfull]
    refine ⟨fun ha => ?silent, fun hm ha => ?msix, fun f g hfg => ?logged, fun hm hc hf => ?noFields, fun hlo hhi hp => ?perPath, ?safeTalk,
      ?bookFull, ?plain⟩
    case silent => rw [State.writeWord_of_not_answers ha]
    case msix => rw [State.writeWord_of_isMsix hm ha]
    case logged =>
      rw [State.logAttempts, hfg]
      rfl
    case noFields => rw [State.writeWord_of_no_fields hm hc hf]
    case perPath => rw [State.writeWord_of_perPath hlo hhi hp]
    case safeTalk =>
      rintro _ ho rfl ha hs hp
      obtain ⟨hmem, hf, hpath, ht⟩ := gated_facts ho
      rw [State.writeWord_of_mem hmem ha, State.plainWrite, Reaches.regWrite_safeTalk ⟨ha, hf, hpath, hp⟩ hs ht]
    case bookFull =>
      rintro _ ho rfl ha hs hp hr hb
      obtain ⟨hmem, hf, hpath, -⟩ := gated_facts ho
      rw [State.writeWord_of_mem hmem ha, State.plainWrite, Reaches.regWrite_full ⟨ha, hf, hpath, hp⟩ hs hr hb]
    case plain =>
      rintro _ ho rfl ht
      have hmem : off ∈ plainOffsets := ho
      have hplain := isPlainWord_of_mem hmem
      exact ⟨_, _, rfl, congrArg Host.Outcome.next (State.writeWord_plain_of_takes hmem ht),
        State.writeFields_only_of_isPlainWord hplain .., writeFields_values hplain _ p w.toNat⟩
  case reads =>
    refine ⟨fun ha => ?silent, fun hlo hhi hp => ?perPath, fun ha hm hpath hoff => ?plain, fun v hv => ?latched, fun h0 => ?live⟩
    case silent => exact exec_wideRegisterRead (State.readWord_of_not_answers ha)
    case perPath =>
      obtain ⟨hpath, hmsix, hno⟩ := perPath_facts hlo hhi hp
      exact exec_wideRegisterRead (State.readWord_of_perPath hpath hmsix hno s)
    case plain =>
      exact ⟨_, exec_wideRegisterRead_plain ha hm hpath hoff, rfl,
        fun o ho => get_latchAll (pathOffset p) (fun o => s.liveWord p o + 1) _ (nodup_latchKeys p off) ho _,
        fun k hk => get_latchAll_of_notMem _ _ _ hk _⟩
    case latched => rw [State.shownWord, hv]
    case live => rw [State.shownWord, h0]
  case clears =>
    refine ⟨?_, pllErrclr_cleared, ?_, ?_, ?_, ?_, ?_, ?_, ?_, ?_, ?_, ?_, ?_, ?_, ?_, fun d => lnkErrclr_cleared, monErrclr_cleared,
      engErrclr_cleared⟩
    all_goals exact counterClear_cleared (by decide)
  case identifiers => exact ⟨rfl, rfl, rfl, rfl, rfl, by decide, fun s => rfl⟩

end Sys2Proof.Machine
end

section
/-!
PROOF. STANDBY (ch. 01, R37): the clause of O54 about PWR_RAIL.FAULT reads the wrong bits of the word. The field lies at [24:16] of its register
(ch. 13), and the statement takes the lowest nine bits of the word for it.
-/
namespace Sys2Proof.Machine

/-- The unit in STANDBY with the failure of VDDIO latched in PWR_RAIL.FAULT. -/
def standbyWithFault : State := State.reset.set PWR_RAIL.FAULT 1

/-- A write of the word 1, whose bits 24 to 16 are 0, leaves the latched failure. -/
theorem get_fault_of_write_one {u : State} (h : exec (.registerWrite .i2c 0x01008 1 true) standbyWithFault = .next u) :
    u.get PWR_RAIL.FAULT = 1 := by
  have hrun : (match exec (.registerWrite .i2c 0x01008 1 true) standbyWithFault with
      | .next t => t.get PWR_RAIL.FAULT
      | _ => 0) = 1 := by decide +kernel
  rwa [h] at hrun

/-- Refutes O54: in STANDBY with PWR_RAIL.FAULT at 1, a write of the word 1 over I2C keeps FAULT (its bits are 24 to 16 of the word), while the
statement's second write clause takes bits 8 to 0 of the word and has it dropped to 0. -/
theorem not_standbyAnswersOnlyTheAlwaysOnPages : ¬ Obligations.StandbyAnswersOnlyTheAlwaysOnPages := by
  intro h
  obtain ⟨-, hwrite, -⟩ := h standbyWithFault (by decide +kernel) rfl
  obtain ⟨-, u, hexec, -, hget⟩ := hwrite 1 true
  have hold : standbyWithFault.get PWR_RAIL.FAULT = 1 := by decide +kernel
  rw [get_fault_of_write_one hexec, hold] at hget
  exact absurd hget (by decide)

end Sys2Proof.Machine
end

section
/-!
PROOF. What every packet row does before its own effect (ch. 09, R296 to R303, R317): the rows are one function of the packet's content, and the
M path and the drop of a superseded packet touch nothing that decides it.
-/
namespace Sys2Proof.Machine

/-! ### The M path -/

theorem px_not_ne (d : Bool) : px (!d) ≠ px d := by cases d <;> decide

/-- A packet crosses to an ACTIVE port: it joins that port's M path, with the block from which it may leave. -/
theorem State.cross_active {s : State} {d : Bool} (h : s.get (LNK_STATE.STATE (px (!d))) = 5) (k : Packet) :
    s.cross d k = s.onChn fun c =>
      { c with passed := Tbl.set [] c.passed (px (!d)) (Tbl.get [] c.passed (px (!d)) ++ [(k, (s.port (!d)).blocks + (s.port (!d)).depth)]) } :=
  if_pos (decide_eq_true h)

/-- A packet due to leave by a port that is not ACTIVE is counted. -/
theorem State.cross_inactive {s : State} {d : Bool} (h : s.get (LNK_STATE.STATE (px (!d))) ≠ 5) (k : Packet) :
    s.cross d k = s.bump CHN_ERRCNT4.PORT_DROP 1 :=
  if_neg (by simpa [State.portActive] using h)

theorem State.cross_peer (s : State) (d : Bool) (k : Packet) (t : Nat) : (s.cross d k).peer t = s.peer t := by
  unfold State.cross
  split <;> rfl

theorem State.cross_tally (s : State) (d : Bool) (k : Packet) : (s.cross d k).tally = s.tally := by
  unfold State.cross
  split
  · rfl
  · exact s.get_set_ne _ (by decide)

/-! ### The rows -/

/-- A row hears a packet first as every row does, and then does what the packet's content says, wherever it was addressed. -/
def HearsPackets (dt : Nat) (row : Bool → Packet → Instr) : Prop :=
  ∃ f : Bool → Packet → State → State,
    (∀ d k s, exec (row d k) s = .next (s.onPacket d k dt (f d k))) ∧ ∀ d k t, f d { k with dst := t } = f d k

/-- The packet rows of the statement, with their data types (R303). -/
def packetRows : List (Nat × (Bool → Packet → Instr)) :=
  [(0x04, .rollReport), (0x05, .grant), (0x06, .rollDoneReceive), (0x07, .bench), (0x08, .recover), (0x09, .stopes), (0x0A, .arm),
    (0x0B, .armAck), (0x0C, .commit), (0x0D, .cancel), (0x0E, .keyRefreshReq), (0x0F, .mirror), (0x10, .beat), (0x11, .sweepState),
    (0x12, .ringNotice), (0x18, .event), (0x20, .sweepHdr), (0x21, .key), (0x22, .delta), (0x23, .stat), (0x24, .aux)]

theorem hearsPackets_of_mem {r : Nat × (Bool → Packet → Instr)} (h : r ∈ packetRows) : HearsPackets r.1 r.2 := by
  simp only [packetRows, List.mem_cons, List.not_mem_nil, or_false] at h
  rcases h with rfl | rfl | rfl | rfl | rfl | rfl | rfl | rfl | rfl | rfl | rfl | rfl | rfl | rfl | rfl | rfl | rfl | rfl | rfl | rfl | rfl
  all_goals exact ⟨_, fun _ _ _ => rfl, fun _ _ _ => rfl⟩

section
variable {s : State} {k : Packet} {dt : Nat} (d : Bool) (f : State → State)

theorem State.onPacket_of_misfit (h : k.fits dt = false) : s.onPacket d k dt f = s.bump CHN_ERRCNT1.TAG_DROP 1 := by
  simp [State.onPacket, h]

theorem State.onPacket_of_stale (h : k.fits dt = true) (hs : s.stale k = true) (hdt : dt ≠ 0x04) :
    s.onPacket d k dt f = s.supersede k.src k.inc := by
  simp [State.onPacket, h, hs, hdt]

variable (h : k.fits dt = true) (hs : s.stale k = false ∨ dt = 0x04)
include h hs

/-- A packet that is heard goes by its address. -/
theorem State.onPacket_of_heard :
    s.onPacket d k dt f = if k.dst = 63 then f (s.relay d k) else if k.dst = s.tally then f s else s.cross d k := by
  have hdrop : (s.stale k && decide (dt ≠ 0x04)) = false := by
    rcases hs with hs | rfl
    · rw [hs]; rfl
    · exact Bool.and_false _
  rw [State.onPacket, h, hdrop]
  rfl

end

/-- Whether a packet is superseded is not changed by its crossing, nor by its address. -/
theorem State.stale_of_cross (s : State) (d : Bool) (k : Packet) (t : Nat) : (s.cross d k).stale { k with dst := t } = s.stale k := by
  unfold State.stale State.isPithead
  rw [State.cross_tally, State.cross_peer]

/-- A broadcast is the same packet addressed to the unit, after it has crossed every unit but the pithead (R296). -/
theorem State.onPacket_of_broadcast {s : State} {k : Packet} {dt : Nat} (d : Bool) (f : State → State) (h : k.fits dt = true)
    (hs : s.stale k = false ∨ dt = 0x04) (hk : k.dst = 63) (ht : s.tally ≠ 63) :
    s.onPacket d k dt f = (if s.tally = 1 then s else s.cross d k).onPacket d { k with dst := s.tally } dt f := by
  have hrelay : s.relay d k = if s.tally = 1 then s else s.cross d k := by
    by_cases h1 : s.tally = 1 <;> simp [State.relay, State.isPithead, hk, h1]
  have hstale : (if s.tally = 1 then s else s.cross d k).stale { k with dst := s.tally } = false ∨ dt = 0x04 := by
    refine hs.imp_left fun hs => ?_
    split
    · exact hs
    · rw [State.stale_of_cross, hs]
  have htally : (if s.tally = 1 then s else s.cross d k).tally = s.tally := by
    split
    · rfl
    · exact s.cross_tally d k
  rw [State.onPacket_of_heard d f h hs, if_pos hk, hrelay,
    State.onPacket_of_heard (k := { k with dst := s.tally }) d f h hstale, if_neg ht, if_pos htally.symm]

/-! ### Superseded packets -/

theorem State.supersede_of_live {s : State} {src : Nat} (inc : Nat)
    (h : (s.peer src).dead = false ∨ ∃ f : Nat, Tbl.get none s.chn.benchAt src = some f ∧ s.fwc < f + 2000000) :
    s.supersede src inc = s.bump CHN_ERRCNT1.SUPERSEDED 1 := by
  refine if_neg ?_
  rcases h with h | ⟨f, hf, hlt⟩
  · have h : ((s.bump CHN_ERRCNT1.SUPERSEDED 1).peer src).dead = false := h
    rw [h]; exact Bool.false_ne_true
  · have hf : Tbl.get none (s.bump CHN_ERRCNT1.SUPERSEDED 1).chn.benchAt src = some f := hf
    have hnot : decide (f + msTicks ≤ (s.bump CHN_ERRCNT1.SUPERSEDED 1).fwc) = false := decide_eq_false (Nat.not_le.mpr hlt)
    simp only [hf, hnot, Bool.and_false, Bool.false_eq_true, not_false_eq_true]

/-- The instant at which a tally is benched is kept. -/
def State.keepBenchAt (s : State) (src : Nat) : State := s.onChn fun c => { c with benchAt := Tbl.set none c.benchAt src (some s.fwc) }

theorem State.keepBenchAt_get (s : State) (src : Nat) : Tbl.get none (s.keepBenchAt src).chn.benchAt src = some s.fwc :=
  Tbl.get_set_same none s.chn.benchAt src (some s.fwc)

theorem State.supersede_of_dead {s : State} {src : Nat} (inc : Nat) (hd : (s.peer src).dead = true)
    (hb : Tbl.get none s.chn.benchAt src = none) :
    s.supersede src inc =
      (((s.bump CHN_ERRCNT1.SUPERSEDED 1).keepBenchAt src).sendCtl 0x07 0 src ([inc, 1] ++ zeroBytes 6)).raise 0x0B05 [src, inc] := by
  refine if_pos ?_
  have hd : ((s.bump CHN_ERRCNT1.SUPERSEDED 1).peer src).dead = true := hd
  have hb : Tbl.get none (s.bump CHN_ERRCNT1.SUPERSEDED 1).chn.benchAt src = none := hb
  rw [hd, hb]
  rfl

/-- A counter of the chain that advances by one, saturating, and nothing else. -/
theorem State.bump_one (s : State) (f : Field) :
    Only [f] s (s.bump f 1) ∧ (s.bump f 1).get f = min (2 ^ f.width - 1) (s.get f + 1) :=
  ⟨(Only.refl _ s).bump 1 (List.mem_singleton_self f),
    s.get_set_of_lt (Nat.lt_of_le_of_lt (Nat.min_le_left _ _) (Nat.sub_lt (Nat.two_pow_pos _) Nat.one_pos))⟩

/-- Settles O35: the 21 rows are one function of a packet's content behind the same reception, so each clause is a case of that reception. -/
theorem packetsMeetThePorts : Obligations.PacketsMeetThePorts := by
  refine ⟨fun r hr d k s => ?rows, fun d k s => ⟨fun h => ?active, fun h => ?inactive⟩, fun src inc s => ?superseded⟩
  case rows =>
    obtain ⟨f, hrow, hdst⟩ := hearsPackets_of_mem hr
    refine ⟨fun h => ⟨_, ?_, s.bump_one CHN_ERRCNT1.TAG_DROP⟩, fun h hs hdt => ?_, fun h hs hk ht => ?_, fun h hs hk ht => ?_⟩
    · rw [hrow, State.onPacket_of_misfit d _ h]
    · rw [hrow, State.onPacket_of_stale d _ h hs hdt]
    · rw [hrow, State.onPacket_of_heard d _ h hs, if_neg hk, if_neg (show k.dst ≠ s.tally from ht)]
    · rw [hrow, hrow, hdst d k (s.get CHN_STATE.TALLY)]
      exact congrArg _ (State.onPacket_of_broadcast d _ h hs hk ht)
  case active =>
    rw [State.cross_active h]
    exact ⟨rfl, Tbl.get_set_same .., Tbl.get_set_other _ _ _ _ (px_not_ne d)⟩
  case inactive =>
    rw [State.cross_inactive h]
    exact s.bump_one CHN_ERRCNT4.PORT_DROP
  case superseded =>
    obtain ⟨hframe, hcount⟩ := s.bump_one CHN_ERRCNT1.SUPERSEDED
    exact ⟨_, hframe, hcount, State.supersede_of_live inc,
      fun hd hb => ⟨(s.bump CHN_ERRCNT1.SUPERSEDED 1).keepBenchAt src, rfl, rfl, State.keepBenchAt_get _ src, State.supersede_of_dead inc hd hb⟩⟩

end Sys2Proof.Machine
end

section
/-!
PROOF. The end of a skim cycle at a node (ch. 02, R54 to R58, R63): it writes the node's charge and counter and nothing else, and whether a packet
leaves turns on the threshold in force and on the counter.
-/
namespace Sys2Proof.Machine

/-! ### Writes to one node -/

def State.setCharge (s : State) (k v : Nat) : State := s.onArr fun a => { a with charge := Tbl.set 0 a.charge k v }
def State.setCount (s : State) (k v : Nat) : State := s.onArr fun a => { a with counts := Tbl.set 0 a.counts k v }

@[simp] theorem State.setCharge_counts (s : State) (k v : Nat) : (s.setCharge k v).arr.counts = s.arr.counts := rfl
@[simp] theorem State.setCount_charge (s : State) (k v : Nat) : (s.setCount k v).arr.charge = s.arr.charge := rfl

@[simp] theorem State.setCharge_charge_same (s : State) (k v : Nat) : Tbl.get 0 (s.setCharge k v).arr.charge k = v :=
  Tbl.get_set_same 0 s.arr.charge k v

@[simp] theorem State.setCount_counts_same (s : State) (k v : Nat) : Tbl.get 0 (s.setCount k v).arr.counts k = v :=
  Tbl.get_set_same 0 s.arr.counts k v

/-- A state differs from another in the counter and the charge of one node at most. -/
structure OnlyNode (k : Nat) (s t : State) : Prop where
  frame : t = { s with arr := { s.arr with counts := t.arr.counts, charge := t.arr.charge } }
  others : ∀ j, j ≠ k → Tbl.get 0 t.arr.counts j = Tbl.get 0 s.arr.counts j ∧ Tbl.get 0 t.arr.charge j = Tbl.get 0 s.arr.charge j

theorem OnlyNode.refl (k : Nat) (s : State) : OnlyNode k s s := ⟨rfl, fun _ _ => ⟨rfl, rfl⟩⟩

theorem OnlyNode.setCharge {k : Nat} {s t : State} (h : OnlyNode k s t) (v : Nat) : OnlyNode k s (t.setCharge k v) where
  frame := congrArg (State.setCharge · k v) h.frame
  others j hj := ⟨(h.others j hj).1, (Tbl.get_set_other 0 0 t.arr.charge v hj.symm).trans (h.others j hj).2⟩

theorem OnlyNode.setCount {k : Nat} {s t : State} (h : OnlyNode k s t) (v : Nat) : OnlyNode k s (t.setCount k v) where
  frame := congrArg (State.setCount · k v) h.frame
  others j hj := ⟨(Tbl.get_set_other 0 0 t.arr.counts v hj.symm).trans (h.others j hj).1, (h.others j hj).2⟩

/-! ### A skim (R55 to R57) -/

theorem State.skimNode_of_room {s : State} {k : Nat} (tap col : Nat) (h : Tbl.get 0 s.arr.counts k % 4096 < 4095) :
    s.skimNode tap col k = (s.setCount k (Tbl.get 0 s.arr.counts k + 1)).setCharge k
      (Tbl.get 0 s.arr.charge k - s.coef (qpKey tap (groupOf col))) :=
  if_pos h

theorem State.skimNode_of_full {s : State} {k : Nat} (tap col : Nat) (h : Tbl.get 0 s.arr.counts k % 4096 = 4095) :
    s.skimNode tap col k = s.setCount k (4096 + 4095) :=
  if_neg (Nat.not_lt.mpr (Nat.le_of_eq h.symm))

theorem OnlyNode.skimNode {k : Nat} {s t : State} (h : OnlyNode k s t) (tap col : Nat) : OnlyNode k s (t.skimNode tap col k) := by
  rcases Nat.lt_or_ge (Tbl.get 0 t.arr.counts k % 4096) 4095 with hroom | hfull
  · rw [State.skimNode_of_room tap col hroom]
    exact (h.setCount _).setCharge _
  · rw [State.skimNode_of_full tap col (by omega)]
    exact h.setCount _

/-! ### The end of a skim cycle -/

/-- The charge at which a node's comparator acts, in units of 2⁻⁸ electrons (R58). -/
def State.skimThreshold (s : State) : Nat := (18000 + 250 * s.get EXP_ARRAY_STATUS.THRESH_ACTIVE) * 256

/-- A node keeps the charge it gathered (R54). -/
def State.gather (s : State) (k charge : Nat) : State := s.setCharge k (Tbl.get 0 s.arr.charge k + charge)

@[simp] theorem State.gather_counts (s : State) (k charge : Nat) : (s.gather k charge).arr.counts = s.arr.counts := rfl
@[simp] theorem State.gather_coef (s : State) (k charge i : Nat) : (s.gather k charge).coef i = s.coef i := rfl

@[simp] theorem State.gather_charge_same (s : State) (k charge : Nat) :
    Tbl.get 0 (s.gather k charge).arr.charge k = Tbl.get 0 s.arr.charge k + charge :=
  s.setCharge_charge_same k _

/-- What the end of a skim cycle leaves at a node: it gathers, then skims if its comparator acts and it stands at the threshold. -/
def State.skimEnd (s : State) (tap row col charge : Nat) : State :=
  (s.gather (nodeKey tap row col) charge).when
    (decide (s.skimThreshold ≤ Tbl.get 0 (s.gather (nodeKey tap row col) charge).arr.charge (nodeKey tap row col)) && !s.disarmed tap row)
    fun t => t.skimNode tap col (nodeKey tap row col)

section
variable {tap row col charge : Nat} {s : State}

theorem exec_skim_of_runs (hrun : s.cadenceRuns = true) (hnode : tap < 2 ∧ row < 12384 ∧ col < 16512) :
    exec (.skim tap row col charge) s = .next (s.skimEnd tap row col charge) :=
  if_pos (by rw [hrun, decide_eq_true hnode]; rfl)

theorem exec_skim_of_stands (h : s.cadenceRuns = false) : exec (.skim tap row col charge) s = .next s :=
  if_neg (by rw [h]; exact Bool.false_ne_true)

theorem State.skimEnd_of_high (harmed : s.disarmed tap row = false)
    (hhigh : s.skimThreshold ≤ Tbl.get 0 s.arr.charge (nodeKey tap row col) + charge) :
    s.skimEnd tap row col charge = (s.gather (nodeKey tap row col) charge).skimNode tap col (nodeKey tap row col) := by
  simp [State.skimEnd, harmed, hhigh]

theorem State.skimEnd_of_low
    (h : s.disarmed tap row = true ∨ Tbl.get 0 s.arr.charge (nodeKey tap row col) + charge < s.skimThreshold) :
    s.skimEnd tap row col charge = s.gather (nodeKey tap row col) charge := by
  rcases h with hdis | hlow
  · simp [State.skimEnd, hdis]
  · simp [State.skimEnd, Nat.not_le.mpr hlow]

theorem State.skimEnd_onlyNode (s : State) (tap row col charge : Nat) :
    OnlyNode (nodeKey tap row col) s (s.skimEnd tap row col charge) := by
  have hgather : OnlyNode (nodeKey tap row col) s (s.gather (nodeKey tap row col) charge) := (OnlyNode.refl _ s).setCharge _
  unfold State.skimEnd State.when
  split
  · exact hgather.skimNode tap col
  · exact hgather

end

/-- Settles O21: a skim cycle writes one node, and the node's clauses are the cases of its comparator and of its counter. -/
theorem skimCountsAPacket : Obligations.SkimCountsAPacket := by
  refine ⟨fun tap row col charge s htap hrow hcol hrun => ?runs, fun tap row col charge s hstands => exec_skim_of_stands hstands⟩
  obtain ⟨hframe, hothers⟩ := s.skimEnd_onlyNode tap row col charge
  refine ⟨s.skimEnd tap row col charge, exec_skim_of_runs hrun ⟨htap, hrow, hcol⟩, hframe, hothers,
    fun harmed hhigh => ⟨fun hroom => ?room, fun hfull => ?full⟩, fun hlow => ?low⟩
  case room =>
    rw [State.skimEnd_of_high harmed hhigh, State.skimNode_of_room (s := s.gather _ charge) tap col hroom]
    simp
  case full =>
    rw [State.skimEnd_of_high harmed hhigh, State.skimNode_of_full (s := s.gather _ charge) tap col hfull]
    exact ⟨State.setCount_counts_same .., State.gather_charge_same ..⟩
  case low =>
    rw [State.skimEnd_of_low hlow]
    exact ⟨rfl, State.gather_charge_same ..⟩

end Sys2Proof.Machine
end

section
/-!
PROOF. What the cadence unit's statements rest on (ch. 03): bits and tables written several at once, gates and triggers after an action, and the
commands of one table entry.
-/
namespace Sys2Proof.Machine

/-! ### Bits and tables -/

/-- Taking away a power of two that a number holds clears that bit alone. -/
theorem testBit_sub_two_pow {v i : Nat} (h : v.testBit i = true) (j : Nat) : (v - 2 ^ i).testBit j = (decide (j ≠ i) && v.testBit j) := by
  induction i generalizing v j with
  | zero =>
    have hodd : v % 2 = 1 := by simpa using h
    cases j with
    | zero => simp; omega
    | succ j => simp [Nat.testBit_add_one, show (v - 1) / 2 = v / 2 by omega]
  | succ i ih =>
    have hpow : 2 ^ (i + 1) = 2 * 2 ^ i := Nat.pow_succ'
    have hle : 2 ^ (i + 1) ≤ v := Nat.ge_two_pow_of_testBit h
    cases j with
    | zero => simp; omega
    | succ j =>
      rw [Nat.testBit_add_one] at h
      rw [Nat.testBit_add_one, show (v - 2 ^ (i + 1)) / 2 = v / 2 - 2 ^ i by omega, ih h, Nat.testBit_add_one]
      simp

/-- Of a power of two a number holds all or nothing. -/
theorem and_two_pow_eq_ite (v i : Nat) : v &&& 2 ^ i = if v.testBit i = true then 2 ^ i else 0 := by
  refine Nat.eq_of_testBit_eq fun j => ?_
  rw [Nat.testBit_and, Nat.testBit_two_pow, apply_ite (Nat.testBit · j), Nat.testBit_two_pow, Nat.zero_testBit]
  by_cases hj : i = j
  · subst hj
    cases v.testBit i <;> simp only [decide_true, Bool.and_true, Bool.false_eq_true, if_true, if_false]
  · simp only [hj, decide_false, Bool.and_false, ite_self]

theorem bit_setBit (v i : Nat) (b : Bool) (j : Nat) : bit (setBit v i b) j = if j = i then b else bit v j := by
  unfold bit setBit
  rw [Nat.one_shiftLeft]
  cases b with
  | true =>
    rw [if_pos rfl, Nat.testBit_or, Nat.testBit_two_pow]
    by_cases hj : j = i
    · rw [if_pos hj, decide_eq_true hj.symm, Bool.or_true]
    · rw [if_neg hj, decide_eq_false (Ne.symm hj), Bool.or_false]
  | false =>
    rw [if_neg Bool.false_ne_true, and_two_pow_eq_ite]
    by_cases hv : v.testBit i = true
    · rw [if_pos hv, testBit_sub_two_pow hv]
      by_cases hj : j = i
      · rw [if_pos hj, decide_eq_false (not_not_intro hj), Bool.false_and]
      · rw [if_neg hj, decide_eq_true hj, Bool.true_and]
    · rw [if_neg hv, Nat.sub_zero]
      by_cases hj : j = i
      · rw [if_pos hj, hj, Bool.eq_false_iff.mpr hv]
      · rw [if_neg hj]

/-- The bits a list names are set one after the other, each where it is marked. -/
theorem bit_foldl_setBit (mark val : Nat → Bool) (is : List Nat) (v j : Nat) :
    bit (is.foldl (fun n i => if mark i then setBit n i (val i) else n) v) j = if j ∈ is ∧ mark j = true then val j else bit v j := by
  induction is generalizing v with
  | nil => simp
  | cons i is ih =>
    rw [List.foldl_cons, ih, apply_ite (bit · j), bit_setBit]
    by_cases hj : j = i
    · subst hj; by_cases hm : mark j = true <;> simp [hm]
    · simp [hj]

theorem Tbl.get_setAll {α : Type} [DecidableEq α] (d : α) (f : Nat → α) (ks : List Nat) (t : Tbl α) (j : Nat) :
    Tbl.get d (Tbl.setAll d f ks t) j = if j ∈ ks then f j else Tbl.get d t j := by
  induction ks generalizing t with
  | nil => rfl
  | cons k ks ih =>
    rw [Tbl.setAll, ih, Tbl.get_set]
    by_cases hj : j = k
    · subst hj; simp
    · simp [hj, Ne.symm hj]

theorem mem_bitsOf {v n i : Nat} : i ∈ bitsOf v n ↔ i < n ∧ bit v i = true := by
  simp [bitsOf]

/-! ### Gates and triggers -/

/-- The gates of the columns named take the exit, those of the others stay. -/
theorem State.gate_setGates (s : State) (cols x : Nat) (ends : Option Nat) (m : Bool) (c : Nat) :
    (s.setGates cols x ends m).gate c =
      if c < 16 ∧ bit cols c = true then (if x = 0 then {} else ⟨x, ends, s.cad.gateNo + 1, m⟩) else s.gate c := by
  simp only [← mem_bitsOf]
  exact Tbl.get_setAll ..

theorem State.exit_setGates (s : State) {cols c : Nat} (hc : c < 16) (hb : bit cols c = true) (x : Nat) (ends : Option Nat) (m : Bool) :
    ((s.setGates cols x ends m).gate c).exit = x := by
  rw [State.gate_setGates, if_pos ⟨hc, hb⟩]
  split
  case isTrue hx => exact hx.symm
  case isFalse => rfl

/-! ### One table entry (R102 to R107) -/

/-- The table runs and has reached an entry of action `code` in the entry's own wall frame. -/
def State.AtEntry (s : State) (code : Nat) : Prop :=
  s.sweepRuns = true ∧ s.on CAD_STATE.TABLE_RUN = true ∧ s.cad.ptr < 4096 ∧ entryAction s.entry = code ∧ entryFrame s.entry = s.cad.frameIx

/-- The count at which the entry the table has reached is due. -/
def State.entryDue (s : State) : Nat := s.cad.frameAt + entryOffset s.entry

/-- The table's bookkeeping for an entry that acts: the counter moved on to its time, the sweep flagged while coasting, the pointer moved on. -/
def State.entryTaken (s : State) : State := ((s.advance s.entryDue).scheduled).onCad fun c => { c with ptr := c.ptr + 1 }

/-- The rows that run one entry, with the action code of each. -/
def entryRows : List (Instr × Nat) :=
  [(Instr.openA, 1), (.openB, 2), (.close, 3), (.read, 4), (.gap, 5), (.expo, 6), (.armEntry, 7), (.disarm, 8), (.tableNop, 0)]

theorem exec_entryRow {x : Instr × Nat} (h : x ∈ entryRows) : ∃ act, ∀ s : State, exec x.1 s = .next (s.runEntry x.2 act) := by
  simp only [entryRows, List.mem_cons, List.not_mem_nil, or_false] at h
  rcases h with rfl | rfl | rfl | rfl | rfl | rfl | rfl | rfl | rfl
  all_goals exact ⟨_, fun _ => rfl⟩

section
variable {s : State} {code : Nat} (h : s.AtEntry code) (act : State → Nat → State)
include h

/-- In its own wall frame an entry is skipped when late, else it acts after the table's bookkeeping. -/
theorem State.runEntry_of_atEntry :
    s.runEntry code act =
      if s.entryLate (entryFrame s.entry) s.entryDue = true then s.skipEntry.onCad fun c => { c with ptr := c.ptr + 1 }
      else act s.entryTaken s.entry := by
  obtain ⟨hruns, htable, hptr, hcode, hframe⟩ := h
  have hreach : s.reachFrame (entryFrame s.entry) = s := if_neg fun hnext => by omega
  have hdue : s.cad.sweepDue = false := by
    unfold State.sweepRuns at hruns
    simpa using (Bool.and_eq_true_iff.mp hruns).2
  unfold State.runEntry
  rw [if_pos (by simp [hruns, htable, hptr, hcode])]
  dsimp only
  rw [hreach, if_neg (by simp [hdue, hframe])]
  rfl

theorem State.runEntry_of_late (hl : s.entryLate (entryFrame s.entry) s.entryDue = true) :
    s.runEntry code act = s.skipEntry.onCad fun c => { c with ptr := c.ptr + 1 } := by
  rw [State.runEntry_of_atEntry h act, if_pos hl]

theorem State.runEntry_of_onTime (hl : s.entryLate (entryFrame s.entry) s.entryDue = false) :
    s.runEntry code act = act s.entryTaken s.entry := by
  rw [State.runEntry_of_atEntry h act, hl, if_neg Bool.false_ne_true]

end

theorem exec_sweepEnd_of_atEntry {s : State} (h : s.AtEntry 15) : exec .sweepEnd s = .next (s.onCad fun c => { c with ptr := 4096 }) := by
  obtain ⟨hruns, htable, hptr, hcode, -⟩ := h
  exact if_pos (by simp [hruns, htable, hptr, hcode])

/-- The lines an EXPO entry names take the levels it gives. -/
theorem bit_expoLevels (a v : Nat) {i : Nat} (hi : i < 4) :
    bit ((List.range 4).foldl (fun n i => if bit a (4 + i) then setBit n i (bit a i) else n) v) i =
      if bit a (4 + i) then bit a i else bit v i := by
  rw [bit_foldl_setBit (fun i => bit a (4 + i)) (bit a)]
  simp [hi]

/-- Settles O23: each row runs the entry the table has reached, which in its own wall frame is skipped when late and else acts after the table's
bookkeeping. -/
theorem tableEntriesRun : Obligations.TableEntriesRun := by
  intro s ready due onTime b e
  have acts : ∀ {code : Nat} (act : State → Nat → State), ready code → onTime → (.next (s.runEntry code act) : Out) = .next (act b e) :=
    fun act h ht => congrArg _ (State.runEntry_of_onTime h act ht)
  refine ⟨fun x hx h hl => ?late, ⟨s.bump CAD_ERRCNT0.LATE_CNT 1, (s.bump_one _).1, (s.bump_one _).2, rfl⟩,
    acts _, acts _, acts _, acts _, acts _, fun h ht => ?expo, fun h ht => ?arm, fun h ht => ?disarm, acts _, exec_sweepEnd_of_atEntry⟩
  case late =>
    obtain ⟨act, hact⟩ := exec_entryRow hx
    rw [hact, State.runEntry_of_late h act hl]
  case expo => exact ⟨_, acts _ h ht, rfl, rfl, fun i hi => bit_expoLevels _ _ hi⟩
  case arm =>
    refine ⟨_, acts _ h ht, ?_, ?_, ?_, ?_, fun n hn => State.trg_setTrg_ne _ _ hn.symm, rfl⟩
    all_goals rw [State.trg_setTrg]
  case disarm =>
    exact ⟨b.setTrg (entryArg e % 4) fun g => { g with armed := false }, by rw [State.trg_setTrg],
      fun n hn => State.trg_setTrg_ne _ _ hn.symm, rfl, acts _ h ht⟩

end Sys2Proof.Machine
end

section
/-!
PROOF. Triggers (ch. 03, R114 to R116): which edges count, what an edge that fires leaves, and the opening and the end of an exposure.
-/
namespace Sys2Proof.Machine

/-- An edge of TRIGn that counts: the active one of an enabled trigger with an armed entry while CADENCE runs. -/
def State.edgeCounts (s : State) (n : Nat) (rising : Bool) : Bool :=
  decide (n < 4) && s.cadenceRuns && s.on (CAD_TRIG_CFG.EN n) && decide (rising = !s.on (CAD_TRIG_CFG.POL n)) && (s.trg n).armed

/-- Trigger `n` has fired at an edge at `f`: its entry is used up, and its exposure waits for its delay after the tick nearest to the edge. -/
def State.firedAt (s : State) (n f : Nat) : State :=
  (s.advance (f / 8)).setTrg n fun g => { g with
    armed := false, fired := true, runTap := g.tap, runCols := g.cols, opensAt := some (stampTick f + s.get (CAD_TRIG_DLY.DLY n)) }

theorem State.trg_firedAt (s : State) (n f : Nat) :
    (s.firedAt n f).trg n = { s.trg n with
      armed := false, fired := true, runTap := (s.trg n).tap, runCols := (s.trg n).cols
      opensAt := some ((f + 4) / 8 + s.get (CAD_TRIG_DLY.DLY n)) } :=
  (s.advance (f / 8)).trg_setTrg n _

theorem exec_triggerEdge (n f : Nat) (rising : Bool) (s : State) :
    exec (.triggerEdge n f rising) s =
      if s.edgeCounts n rising = true then
        if (s.trg n).busy (f / 8) = true then .next (((s.advance (f / 8)).bump CAD_ERRCNT1.TRIG_IGN_CNT 1).raise 0x050B [n, (s.advance (f / 8)).fwc])
        else .next (if s.get (CAD_TRIG_DLY.DLY n) = 0 then (s.firedAt n f).triggerOpen n (stampTick f) else s.firedAt n f)
      else .next (s.advance (f / 8)) := rfl

section
variable {n f : Nat} {rising : Bool} {s : State}

theorem exec_triggerEdge_of_busy (h : s.edgeCounts n rising = true) (hb : (s.trg n).busy (f / 8) = true) :
    exec (.triggerEdge n f rising) s =
      .next (((s.advance (f / 8)).bump CAD_ERRCNT1.TRIG_IGN_CNT 1).raise 0x050B [n, (s.advance (f / 8)).fwc]) := by
  rw [exec_triggerEdge, if_pos h, if_pos hb]

theorem exec_triggerEdge_of_free (h : s.edgeCounts n rising = true) (hb : (s.trg n).busy (f / 8) = false) :
    exec (.triggerEdge n f rising) s =
      .next (if s.get (CAD_TRIG_DLY.DLY n) = 0 then (s.firedAt n f).triggerOpen n (stampTick f) else s.firedAt n f) := by
  rw [exec_triggerEdge, if_pos h, hb, if_neg Bool.false_ne_true]

theorem exec_triggerEdge_of_idle (h : s.edgeCounts n rising = false) : exec (.triggerEdge n f rising) s = .next (s.advance (f / 8)) := by
  rw [exec_triggerEdge, h, if_neg Bool.false_ne_true]

theorem exec_triggerDelayOpen_of_due {a : Nat} (h : (s.trg n).opensAt = some a) :
    exec (.triggerDelayOpen n) s = .next (((s.advance a).commandGates (s.trg n).runCols).triggerOpen n a) := by
  change execTriggerDelayOpen n s = _
  rw [execTriggerDelayOpen, h]

theorem exec_triggerDelayOpen_of_none (h : (s.trg n).opensAt = none) : exec (.triggerDelayOpen n) s = .next s := by
  change execTriggerDelayOpen n s = _
  rw [execTriggerDelayOpen, h]

/-- The exposure of trigger `n` has ended at count `a`: its columns stand at DG. -/
def State.endExposure (s : State) (n a : Nat) : State :=
  (((s.advance a).commandGates (s.trg n).runCols).setGates (s.trg n).runCols 0 none false).setTrg n
    fun g => { g with endsAt := none, lastEnd := some a }

theorem exec_triggerExposureEnd_of_due {a : Nat} (h : (s.trg n).endsAt = some a) :
    exec (.triggerExposureEnd n) s = .next (s.endExposure n a) := by
  change execTriggerExposureEnd n s = _
  simp only [execTriggerExposureEnd, h, State.endExposure]

theorem exec_triggerExposureEnd_of_none (h : (s.trg n).endsAt = none) : exec (.triggerExposureEnd n) s = .next s := by
  change execTriggerExposureEnd n s = _
  simp only [execTriggerExposureEnd, h]

/-- A triggered opening of a tap that is free. -/
theorem State.triggerOpen_of_free (a : Nat) (h : s.tapBusy (s.trg n).runTap = false) :
    s.triggerOpen n a = (s.setGates (s.trg n).runCols ((s.trg n).runTap + 1) none false).setTrg n
      fun g => { g with opensAt := none, endsAt := some (a + s.get (CAD_TRIG_LEN.LEN n)) } :=
  if_neg (by rw [h]; exact Bool.false_ne_true)

end

/-- Settles O25: an edge that counts finds its trigger's exposure busy or fires it, and the two due counts open the gates and close them. -/
theorem triggersOpenAndEnd : Obligations.TriggersOpenAndEnd := by
  refine ⟨fun n f rising s hn hrun hen hpol harm => ?edge, fun n f rising s h => exec_triggerEdge_of_idle ?idle,
    fun n a s => exec_triggerDelayOpen_of_due, fun n s => exec_triggerDelayOpen_of_none, fun n a s h => ?opening, fun n a s h => ?ending,
    fun n s => exec_triggerExposureEnd_of_none⟩
  case edge =>
    have hcounts : s.edgeCounts n rising = true := by simp [State.edgeCounts, hn, hrun, hen, hpol, harm]
    refine ⟨fun hb => ?busy, fun hb => ?free⟩
    case busy =>
      obtain ⟨hframe, hcount⟩ := (s.advance (f / 8)).bump_one CAD_ERRCNT1.TRIG_IGN_CNT
      exact ⟨_, hframe, hcount, exec_triggerEdge_of_busy hcounts hb⟩
    case free =>
      refine ⟨s.firedAt n f, ?_, ?_, ?_, ?_, ?_, fun k hk => State.trg_setTrg_ne _ _ hk.symm, rfl, exec_triggerEdge_of_free hcounts hb⟩
      all_goals rw [State.trg_firedAt]
  case idle =>
    rcases h with h | h | h | h <;> simp [State.edgeCounts, h]
  case opening =>
    rw [State.triggerOpen_of_free a h]
    refine ⟨_, rfl, ?_, ?_, fun c hc hb => State.exit_setGates s hc hb ..⟩
    all_goals rw [State.trg_setTrg]
  case ending =>
    refine ⟨_, exec_triggerExposureEnd_of_due h, ?_, ?_, fun c hc hb => State.exit_setGates _ hc hb .., fun g => rfl⟩
    all_goals rw [State.endExposure, State.trg_setTrg]

end Sys2Proof.Machine
end

section
/-!
PROOF. The mains tracker and the edges (ch. 03, R86 to R93, R562, R563): what an update of a tracker's record writes, what an edge in its window, a
missing edge and a FREE instant make of it, and the commands behind them.
-/
namespace Sys2Proof.Machine

/-! ### The record of the mains tracker -/

/-- The registers that show the mains tracker's record. -/
def mainsRegs : List Field := [CAD_STATE.MAINS_ST, CAD_MAINS_PER_LO.PER_LO, CAD_MAINS_PER_HI.PER_HI]

/-- Nothing but the mains tracker's record differs, and of the registers the listed ones. -/
def OnlyMains (fs : List Field) (s t : State) : Prop := Only fs { s with cad := { s.cad with mains := t.cad.mains } } t

theorem OnlyMains.refl (fs : List Field) (s : State) : OnlyMains fs s s := Only.refl fs s

theorem OnlyMains.set {fs : List Field} {s t : State} (h : OnlyMains fs s t) {f : Field} (v : Nat) (hf : f ∈ fs) : OnlyMains fs s (t.set f v) :=
  Only.set h v hf

/-- The tracker's record may change in any way. -/
theorem OnlyMains.record {fs : List Field} {s t : State} (h : OnlyMains fs s t) (k : Trk) :
    OnlyMains fs s (t.onCad fun c => { c with mains := k }) :=
  ⟨congrArg (State.onCad · fun c => { c with mains := k }) h.1, h.2⟩

theorem OnlyMains.setTrk {fs : List Field} {s t : State} (h : OnlyMains fs s t) (hs : mainsRegs ⊆ fs) (f : Trk → Trk) :
    OnlyMains fs s (t.setTrk true f) :=
  (((h.record _).set _ (hs (by simp [mainsRegs]))).set _ (hs (by simp [mainsRegs]))).set _ (hs (by simp [mainsRegs]))

/-- A register that does not show the mains tracker reads as before. -/
theorem State.setTrk_get (s : State) (f : Trk → Trk) {g : Field} (h : g.key ∉ mainsRegs.map Field.key) : (s.setTrk true f).get g = s.get g :=
  ((OnlyMains.refl mainsRegs s).setTrk (List.Subset.refl _) f).2 g h

/-- Only the scan tracker's p ends a gap. -/
theorem State.movedP_mains (s : State) (old new : Nat) : s.movedP true old new = s := rfl

theorem OnlyMains.storeErr {s t : State} (h : OnlyMains (CAD_MAINS_ERR.ERR :: mainsRegs) s t) (e : Int) :
    OnlyMains (CAD_MAINS_ERR.ERR :: mainsRegs) s (t.storeErr true e) :=
  h.set _ (List.mem_cons_self ..)

theorem unsigned_lt (w : Nat) (z : Int) : unsigned w z < 2 ^ w := by
  have hpos := Nat.two_pow_pos w
  unfold unsigned
  omega

/-- The error register holds e, held at the limits. -/
theorem State.storeErr_err (s : State) (e : Int) :
    (s.storeErr true e).get CAD_MAINS_ERR.ERR = unsigned 32 (clampInt (-(2 ^ 31)) (2 ^ 31 - 1) (e / 8192)) :=
  s.get_set_of_lt (unsigned_lt 32 _)

theorem State.storeErr_get (s : State) (e : Int) {g : Field} (h : CAD_MAINS_ERR.ERR.key ≠ g.key) : (s.storeErr true e).get g = s.get g :=
  s.get_set_ne _ h

theorem State.tol_storeErr (s : State) (e : Int) : (s.storeErr true e).tol true = s.get CAD_ACQ.MAINS_TOL * 2000 * 65536 :=
  congrArg (· * 2000 * 65536) (s.storeErr_get e (by decide))

/-! ### An edge at a tracker (R88, R91, R563) -/

section
variable {s : State} {m : Bool} {t p per : Nat}

theorem State.inputEdge_of_glitch (hst : (s.trk m).st ≠ 4) (hp : (s.trk m).p = some p) (hper : (s.trk m).per = some per)
    (hout : per < 64 * ((t : Int) - p).natAbs) (bad : Bool) : s.inputEdge m t bad = s.bump CAD_ERRCNT1.GLITCH_CNT 1 := by
  simp only [State.inputEdge, if_neg hst, hp, hper, if_pos hout]

theorem State.inputEdge_of_inWindow (hst : (s.trk m).st ≠ 4) (hp : (s.trk m).p = some p) (hper : (s.trk m).per = some per)
    (hin : 64 * ((t : Int) - p).natAbs ≤ per) : s.inputEdge m t false = s.edgeFor m p per t := by
  simp only [State.inputEdge, if_neg hst, hp, hper, if_neg (Nat.not_lt.mpr hin), Bool.false_eq_true, if_false]

theorem State.inputEdge_of_measuring (hst : (s.trk m).st ≠ 4) (hp : (s.trk m).p = none) : s.inputEdge m t false = s.edgeMeasure m t := by
  simp only [State.inputEdge, if_neg hst, hp, Bool.false_eq_true, if_false]

end

/-- P after an edge at phase error `e`. -/
def State.nextPer (s : State) (per : Nat) (e : Int) : Nat := ((per : Int) + e / 2 ^ s.get CAD_TRK.KI).toNat

/-- The mains tracker after an edge in tolerance while LOCKED (R91): P and p follow `e`, which is stored. -/
def State.mainsTracked (s : State) (p per : Nat) (e : Int) : State :=
  (s.storeErr true e).setTrk true fun k => { k with
    p := some ((p : Int) + s.nextPer per e + e / 2 ^ s.get CAD_TRK.KP).toNat
    last := some p, per := some (s.nextPer per e), miss := 0, taken := false }

theorem State.edgeFor_of_locked {s : State} {p per t : Nat} (hst : s.cad.mains.st = 2)
    (htol : ((t : Int) - p).natAbs ≤ s.get CAD_ACQ.MAINS_TOL * 2000 * 65536) :
    s.edgeFor true p per t = (s.mainsTracked p per ((t : Int) - p)).reviewTrackers := by
  have hstored : ((s.storeErr true ((t : Int) - p)).trk true).st = 2 := hst
  have hgood : (s.storeErr true ((t : Int) - p)).edgeGood true p per ((t : Int) - p) = s.mainsTracked p per ((t : Int) - p) := by
    simp only [State.edgeGood, hstored, s.storeErr_get _ (show CAD_MAINS_ERR.ERR.key ≠ CAD_TRK.KI.key by decide),
      s.storeErr_get _ (show CAD_MAINS_ERR.ERR.key ≠ CAD_TRK.KP.key by decide), Nat.reduceEqDiff, false_and, or_self, if_false, State.movedP_mains]
    rfl
  rw [← s.tol_storeErr ((t : Int) - p)] at htol
  simp only [State.edgeFor, if_pos htol, hgood, if_true]

/-- The frame of an edge in tolerance. -/
theorem State.mainsTracked_only (s : State) (p per : Nat) (e : Int) : OnlyMains (CAD_MAINS_ERR.ERR :: mainsRegs) s (s.mainsTracked p per e) :=
  ((OnlyMains.refl _ s).storeErr e).setTrk (List.subset_cons_self ..) _

theorem State.edgeMeasure_first {s : State} (h : s.cad.mains.first = none) (t : Nat) :
    s.edgeMeasure true t = s.setTrk true fun k => { k with first := some t } := by
  have h : (s.trk true).first = none := h
  simp only [State.edgeMeasure, if_true, h]

/-- A prediction given up is let go of, and nothing else of the record. -/
theorem State.regainedP_mains (s : State) (old : Option Nat) :
    ∃ h : Option Nat, (s.regainedP true old).cad.mains = { s.cad.mains with held := h } := by
  unfold State.regainedP
  split
  · exact ⟨none, rfl⟩
  · exact ⟨s.cad.mains.held, rfl⟩

/-- The second edge of a measurement gives P and p. -/
theorem State.edgeMeasure_second {s : State} {t1 : Nat} (h : s.cad.mains.first = some t1) (t : Nat) :
    ∃ o : Option Nat, (s.edgeMeasure true t).cad.mains = { s.cad.mains with
      first := none, per := some (t - t1), p := some (t + (t - t1)), agree := 0, miss := 0, taken := false, held := o } := by
  have h : (s.trk true).first = some t1 := h
  simp only [State.edgeMeasure, if_true, h]
  exact State.regainedP_mains ..

/-! ### MAINS_ZX_EDGE, SCAN_FRM_EDGE and SCAN_LINE_EDGE -/

@[simp] theorem State.advance_on (s : State) (t : Nat) (g : Field) : (s.advance t).on g = s.on g := rfl
@[simp] theorem State.advance_cadenceRuns (s : State) (t : Nat) : (s.advance t).cadenceRuns = s.cadenceRuns := rfl

section
variable {f : Nat} {rising : Bool} {s : State}

theorem State.mainsSt_ne {a b : Nat} (h : s.cad.mains.st = a) (hab : a ≠ b) (t : Nat) : ((s.advance t).trk true).st ≠ b :=
  fun e => hab (h.symm.trans e)

theorem exec_mainsZxEdge_of_active (hrun : s.cadenceRuns = true) (hsrc : s.get CAD_SRC.MAINS_SRC = 3) (hpol : rising = !s.on CAD_MAINS_CFG.POL)
    (hst : s.cad.mains.st ≠ 0) :
    exec (.mainsZxEdge f rising) s = .next ((s.advance (f / 8)).inputEdge true (f * 8192) false) :=
  if_pos (by simp [hrun, hsrc, hpol, hst])

theorem exec_mainsZxEdge_of_idle (h : s.cadenceRuns = false ∨ s.get CAD_SRC.MAINS_SRC ≠ 3 ∨ rising = s.on CAD_MAINS_CFG.POL) :
    exec (.mainsZxEdge f rising) s = .next (s.advance (f / 8)) :=
  if_neg (by rcases h with h | h | h <;> simp [h])

/-- The line count of the frame that ends differs from the one configured (R89). -/
def State.linesBad (s : State) : Bool :=
  match s.cad.lines with
  | none => false
  | some k => decide (s.get CAD_SCAN_CFG.LINES ≠ 0 ∧ k ≠ s.get CAD_SCAN_CFG.LINES)

theorem exec_scanFrmEdge_of_active (hrun : s.cadenceRuns = true) (hsrc : s.get CAD_SRC.SCAN_SRC = 1) (hpol : rising = !s.on CAD_SCAN_CFG.POL)
    (hst : s.cad.scan.st ≠ 0) :
    exec (.scanFrmEdge f rising) s =
      .next (((if s.linesBad then (s.advance (f / 8)).raise 0x050C [s.cad.lines.getD 0] else s.advance (f / 8)).onCad
        fun c => { c with lines := some 0 }).inputEdge false (f * 8192) s.linesBad) :=
  if_pos (by simp [hrun, hsrc, hpol, hst])

theorem exec_scanLineEdge_of_active (hrun : s.cadenceRuns = true) (hsrc : s.get CAD_SRC.SCAN_SRC = 1) (hpol : rising = !s.on CAD_SCAN_CFG.LINE_POL) :
    exec (.scanLineEdge f rising) s = .next ((s.advance (f / 8)).onCad fun c => { c with lines := c.lines.map (· + 1) }) :=
  if_pos (by simp [hrun, hsrc, hpol])

theorem State.linesBad_of_fits (h : s.cad.lines = none ∨ s.get CAD_SCAN_CFG.LINES = 0 ∨ s.cad.lines = some (s.get CAD_SCAN_CFG.LINES)) :
    s.linesBad = false := by
  unfold State.linesBad
  cases hl : s.cad.lines with
  | none => rfl
  | some k =>
    rw [hl, Option.some.injEq] at h
    exact decide_eq_false fun ⟨h0, hk⟩ => h.elim nofun (Or.rec h0 hk)

theorem State.linesBad_of_differs {k : Nat} (hl : s.cad.lines = some k) (h0 : s.get CAD_SCAN_CFG.LINES ≠ 0) (hk : k ≠ s.get CAD_SCAN_CFG.LINES) :
    s.linesBad = true := by
  simp [State.linesBad, hl, h0, hk]

end

/-- Settles O27: an active edge goes to its tracker, where it is a glitch, an edge in tolerance or one that measures the period. -/
theorem trackersFollowTheirEdges : Obligations.TrackersFollowTheirEdges := by
  refine ⟨fun f p per rising s hrun hsrc hpol hp hper => ⟨fun hst hin htol => ?tracked, fun h0 h4 hout => ?glitch⟩,
    fun f rising s hrun hsrc hpol hst hp => ⟨fun hfirst => ?first, fun t1 hfirst => ?second⟩, fun f rising s h => exec_mainsZxEdge_of_idle h,
    fun f rising s hrun hsrc hpol hst => ⟨fun h => ?fits, fun k hl h0 hk => ?differs⟩, fun f rising s => exec_scanLineEdge_of_active⟩
  case tracked =>
    refine ⟨(s.advance (f / 8)).mainsTracked p per ((f * 8192 : Nat) - (p : Nat)), ?_, rfl, rfl, hst, rfl, rfl, ?_, State.mainsTracked_only ..⟩
    · rw [exec_mainsZxEdge_of_active hrun hsrc hpol (by omega),
        State.inputEdge_of_inWindow (s := s.advance (f / 8)) (m := true) (State.mainsSt_ne hst (by decide) _) hp hper hin,
        State.edgeFor_of_locked (s := s.advance (f / 8)) hst htol]
    · exact (State.setTrk_get _ _ (by decide)).trans (State.storeErr_err ..)
  case glitch =>
    obtain ⟨hframe, hcount⟩ := (s.advance (f / 8)).bump_one CAD_ERRCNT1.GLITCH_CNT
    refine ⟨_, ?_, hframe, hcount⟩
    rw [exec_mainsZxEdge_of_active hrun hsrc hpol h0, State.inputEdge_of_glitch (s := s.advance (f / 8)) (m := true) h4 hp hper hout]
  case first =>
    rw [exec_mainsZxEdge_of_active hrun hsrc hpol (by omega),
      State.inputEdge_of_measuring (s := s.advance (f / 8)) (m := true) (State.mainsSt_ne hst (by decide) _) hp,
      State.edgeMeasure_first (s := s.advance (f / 8)) hfirst]
    exact ⟨_, rfl, rfl⟩
  case second =>
    rw [exec_mainsZxEdge_of_active hrun hsrc hpol (by omega),
      State.inputEdge_of_measuring (s := s.advance (f / 8)) (m := true) (State.mainsSt_ne hst (by decide) _) hp]
    obtain ⟨o, ho⟩ := State.edgeMeasure_second (s := s.advance (f / 8)) hfirst (f * 8192)
    refine ⟨_, rfl, ?_, ?_, ?_, ?_⟩
    all_goals rw [ho]
    exact hst
  case fits =>
    rw [exec_scanFrmEdge_of_active hrun hsrc hpol hst, State.linesBad_of_fits h]
    rfl
  case differs =>
    rw [exec_scanFrmEdge_of_active hrun hsrc hpol hst, State.linesBad_of_differs hl h0 hk, hl]
    rfl

end Sys2Proof.Machine
end

section
/-!
PROOF. Trackers without edges (ch. 03, R88 to R93, R562): the FREE instant, the missing edge and what brings it, and a change of source.
-/
namespace Sys2Proof.Machine

/-! ### The FREE instant (R562) -/

/-- The mains period a FREE tracker takes, in ticks × 2⁻¹⁶. -/
def State.freePer (s : State) : Nat := s.get CAD_FREE_MAINS.PERIOD * 65536

/-- The mains tracker after its reference instant at `p`: e is 0, P is the period register, p is a period later. -/
def State.mainsOnP (s : State) (p : Nat) : State :=
  ((s.advance (tickOf p)).storeErr true 0).setTrk true fun k => { k with
    p := some (p + s.freePer), per := some s.freePer, agree := min 8 (k.agree + 1), taken := false
    st := if k.st = 1 ∧ min 8 (k.agree + 1) = 8 then 2 else k.st }

theorem exec_freeReferenceInstant_of_mains {s : State} {p : Nat} (hrun : s.cadenceRuns = true) (hsrc : s.get CAD_SRC.MAINS_SRC = 5)
    (hp : s.cad.mains.p = some p) :
    exec (.freeReferenceInstant true) s =
      .next (if s.cad.mains.st = 1 ∧ min 8 (s.cad.mains.agree + 1) = 8 then (s.mainsOnP p).raise 0x0506 [5, s.freePer]
        else s.mainsOnP p).reviewTrackers := by
  have hper : ((s.advance (tickOf p)).storeErr true 0).get CAD_FREE_MAINS.PERIOD * sub = s.freePer :=
    congrArg (· * 65536) (State.storeErr_get _ 0 (by decide))
  have hsrc : s.trkSrc true = 5 := hsrc
  have hp : (s.trk true).p = some p := hp
  change execFreeReferenceInstant true s = _
  simp only [execFreeReferenceInstant, hrun, hsrc, hp, decide_true, Bool.and_true, if_true, hper]
  rfl

theorem State.mainsOnP_only (s : State) (p : Nat) : OnlyMains (CAD_MAINS_ERR.ERR :: mainsRegs) (s.advance (tickOf p)) (s.mainsOnP p) :=
  ((OnlyMains.refl _ (s.advance (tickOf p))).storeErr 0).setTrk (List.subset_cons_self ..) _

theorem State.mainsOnP_err (s : State) (p : Nat) : (s.mainsOnP p).get CAD_MAINS_ERR.ERR = 0 :=
  (State.setTrk_get _ _ (by decide)).trans (State.storeErr_err ..)

/-! ### The missing edge (R92) -/

/-- A LOCKED tracker misses an edge: it coasts, with `n` missing edges left. -/
def Trk.toCoasting (n : Nat) (k : Trk) : Trk := { k with st := 3, left := n }

/-- A coasting tracker misses an edge while some are left. -/
def Trk.coastOn (k : Trk) : Trk := { k with left := k.left - 1 }

/-- A coasting tracker with none left is LOST and gives up the prediction `q`. -/
def Trk.toLost (q : Nat) (k : Trk) : Trk := { k with st := 4, p := none, held := some q }

/-- The mains tracker with its edge for `p` gone by, the next one a period later, and what its state makes of it. -/
def State.mainsPassed (s : State) (p per : Nat) (f : Trk → Trk) : State :=
  (s.setTrk true fun k => { k with p := some (p + per), last := some p, taken := false }).setTrk true f

theorem State.mainsPassed_only (s : State) (p per : Nat) (f : Trk → Trk) : OnlyMains mainsRegs s (s.mainsPassed p per f) :=
  ((OnlyMains.refl _ s).setTrk (List.Subset.refl _) _).setTrk (List.Subset.refl _) _

section
variable {s : State} {p per : Nat} (hp : s.cad.mains.p = some p) (hper : s.cad.mains.per = some per)
include hp hper

theorem State.edgeMissing_of_locked (hst : s.cad.mains.st = 2) :
    s.edgeMissing true =
      ((s.mainsPassed p per (.toCoasting (s.get CAD_COAST.COUNT - 1))).raise 0x0504 [s.trkSrc true, s.fwc]).reviewTrackers := by
  have hsrc := fun f : Trk → Trk => s.setTrk_get f (show CAD_SRC.MAINS_SRC.key ∉ _ by decide)
  have hcount := fun f : Trk → Trk => s.setTrk_get f (show CAD_COAST.COUNT.key ∉ _ by decide)
  simp only [State.edgeMissing, State.trk, if_true, hp, hper, hst, Nat.reduceEqDiff, if_false, State.trkSrc, hsrc, hcount]
  rfl

theorem State.edgeMissing_of_coasting (hst : s.cad.mains.st = 3) (hleft : 0 < s.cad.mains.left) :
    s.edgeMissing true = (s.mainsPassed p per .coastOn).reviewTrackers := by
  simp only [State.edgeMissing, State.trk, if_true, hp, hper, hst, Nat.reduceEqDiff, if_false, if_pos hleft]
  rfl

theorem State.edgeMissing_of_spent (hst : s.cad.mains.st = 3) (hleft : s.cad.mains.left = 0) :
    s.edgeMissing true =
      ((s.mainsPassed p per (.toLost (p + per))).raise 0x0505 [s.trkSrc true, s.fwc]).reviewTrackers := by
  have hsrc := fun f : Trk → Trk => s.setTrk_get f (show CAD_SRC.MAINS_SRC.key ∉ _ by decide)
  simp only [State.edgeMissing, State.trk, if_true, hp, hper, hst, Nat.reduceEqDiff, if_false, hleft, Nat.lt_irrefl, State.trkSrc, hsrc]
  rfl

end

/-! ### What brings a missing edge: a window that closes, publications without chain time (R88, R90) -/

section
variable {s : State} {m : Bool} {p per : Nat}

theorem exec_trackerWindowClose_of_input (hrun : s.cadenceRuns = true) (hst : (s.trk m).st ≠ 0) (hsrc : s.trkSrc m ≠ 5) (hnet : s.onNet m = false)
    (hp : (s.trk m).p = some p) (hper : (s.trk m).per = some per) :
    exec (.trackerWindowClose m) s = .next ((s.advance ((p + per / 64) / 65536)).edgeMissing m) := by
  have hnet : (s.advance ((p + per / 64) / sub)).onNet m = false := hnet
  change execTrackerWindowClose m s = _
  simp only [execTrackerWindowClose, hrun, hst, hsrc, hp, hper, hnet, ne_eq, not_false_eq_true, decide_true, Bool.and_true, if_true,
    Bool.false_and, Bool.false_eq_true, if_false]
  rfl

theorem exec_trackerWindowClose_of_idle (h : s.cadenceRuns = false ∨ (s.trk m).st = 0 ∨ s.trkSrc m = 5) :
    exec (.trackerWindowClose m) s = .next s :=
  if_neg (by rcases h with h | h | h <;> simp [h])

/-- Without chain time every publication is missing. -/
theorem State.netMissing_of_no_chain (h : s.on TIM_STATUS.CHAIN_OK = false) : s.netMissing m = true := by
  simp [State.netMissing, h]

theorem exec_netComputedStart_of_no_chain {b : Pub} (hrun : s.cadenceRuns = true) (hnet : s.onNet m = true) (h0 : (s.trk m).st ≠ 0)
    (h4 : (s.trk m).st ≠ 4) (hp : (s.trk m).p = some p) (hper : (s.trk m).per = some per) (hpub : s.pubOf m = some b)
    (hok : s.on TIM_STATUS.CHAIN_OK = false) :
    exec (.netComputedStart m) s = .next ((s.advance (tickOf p)).edgeMissing m) := by
  have hmiss : (s.advance (tickOf p)).netMissing m = true := State.netMissing_of_no_chain hok
  have hedge : s.netEdge m = (s.advance (tickOf p)).edgeMissing m := by
    simp only [State.netEdge, hpub, if_neg h4, hp, hper, hmiss, if_true]
  rw [← hedge]
  exact if_pos (by simp [hrun, hnet, h0])

theorem exec_netComputedStart_of_idle (h : s.cadenceRuns = false ∨ s.onNet m = false ∨ (s.trk m).st = 0) :
    exec (.netComputedStart m) s = .next s :=
  if_neg (by rcases h with h | h | h <;> simp [h])

end

/-! ### A write of CAD_SRC (R87, R93) -/

section
variable {b : State} {p : Path} {w : Nat} (hmay : b.mayWrite p CAD_SRC.SCAN_SRC = true)
  (hscan : CAD_SRC.SCAN_SRC.of w = b.get CAD_SRC.SCAN_SRC)
include hmay hscan

theorem State.effCadSrc_of_same (hmains : CAD_SRC.MAINS_SRC.of w = b.get CAD_SRC.MAINS_SRC) : b.effCadSrc p w = b := by
  simp [State.effCadSrc, hmay, hscan, hmains]

theorem State.effCadSrc_of_mains (hmains : CAD_SRC.MAINS_SRC.of w ≠ b.get CAD_SRC.MAINS_SRC) (hcode : CAD_SRC.MAINS_SRC.of w ∈ [0, 3, 4, 5]) :
    b.effCadSrc p w = ((b.set CAD_SRC.MAINS_SRC (CAD_SRC.MAINS_SRC.of w)).selectSrc true).reviewTime := by
  simp only [List.mem_cons, List.not_mem_nil, or_false] at hcode
  simp [State.effCadSrc, hmay, hscan, hmains, hcode]

end

theorem exec_cadSrcWrite_of_takes {s : State} {p : Path} {w : Word} (h : s.takes p 0x05004 w.toNat = true) :
    exec (.cadSrcWrite p w) s = .next ((s.booked p 0x05004 w.toNat).effCadSrc p w.toNat) :=
  congrArg _ (State.regWrite_takes h _)

/-- Settles O28: a FREE instant falls on p, a missing edge goes by the tracker's state, and a new code passes the tracker through OFF. -/
theorem trackersRunWithoutEdges : Obligations.TrackersRunWithoutEdges := by
  refine ⟨fun p s hrun hsrc hp => ?free, fun m p per s hrun hst hsrc hp hper hnet => ?window, fun m s => exec_trackerWindowClose_of_idle,
    fun p per s hp hper => ⟨fun hst => ?locked, fun hst hleft => ?coasting, fun hst hleft => ?spent⟩,
    fun m p per b s => exec_netComputedStart_of_no_chain, fun m s => exec_netComputedStart_of_idle,
    fun p w s htakes hmay => ⟨_, rfl, fun hscan hmains => ?same, fun hscan hmains hcode => ?mains⟩⟩
  case free =>
    have hexec := exec_freeReferenceInstant_of_mains hrun hsrc hp
    refine ⟨s.mainsOnP p, rfl, rfl, rfl, s.mainsOnP_err p, s.mainsOnP_only p, fun hst hagree => ?locks, fun h => ?stays⟩
    case locks =>
      have hlock : s.cad.mains.st = 1 ∧ min 8 (s.cad.mains.agree + 1) = 8 := ⟨hst, by omega⟩
      exact ⟨if_pos hlock, hexec.trans (by rw [if_pos hlock]; rfl)⟩
    case stays =>
      have hlock : ¬ (s.cad.mains.st = 1 ∧ min 8 (s.cad.mains.agree + 1) = 8) := by omega
      exact ⟨if_neg hlock, hexec.trans (by rw [if_neg hlock])⟩
  case window => exact exec_trackerWindowClose_of_input hrun hst (by omega) hnet hp hper
  case locked =>
    exact ⟨s.mainsPassed p per (.toCoasting (s.get CAD_COAST.COUNT - 1)), rfl, rfl, rfl, hper, s.mainsPassed_only p per _,
      State.edgeMissing_of_locked hp hper hst⟩
  case coasting =>
    exact ⟨s.mainsPassed p per .coastOn, hst, rfl, rfl, s.mainsPassed_only p per _,
      State.edgeMissing_of_coasting hp hper hst hleft⟩
  case spent =>
    exact ⟨s.mainsPassed p per (.toLost (p + per)), rfl, rfl, hper, s.mainsPassed_only p per _,
      State.edgeMissing_of_spent hp hper hst hleft⟩
  case same => rw [exec_cadSrcWrite_of_takes htakes, State.effCadSrc_of_same hmay hscan hmains]
  case mains =>
    exact ⟨_, (Only.refl _ _).set _ (List.mem_singleton_self _), State.get_set_of_lt _ (Field.of_lt _ _),
      by rw [exec_cadSrcWrite_of_takes htakes, State.effCadSrc_of_mains hmay hscan hmains hcode]⟩

end Sys2Proof.Machine
end

section
/-!
PROOF. Calibration steps (ch. 05, R160 to R166; ch. 02, R71, R73): what one bank and one column group make of a result, what a look at the aged
set leaves, and the commands that end a step or a bank re-calibration.
-/
namespace Sys2Proof.Machine

/-! ### One bank of a slice step (R160 to R162) -/

/-- A bank with one strike more, the refusal of its spare for quantity `q` raised. -/
def State.strike (s : State) (b q : Nat) : State :=
  (s.setBank b fun k => { k with strikes := k.strikes + 1 }).raise 0x0702 [b, (s.bank b).spare, q]

/-- A bank whose slice `sl` is parked, the parking raised and level 1 called. -/
def State.parkSlice (s : State) (b sl : Nat) : State :=
  ((s.setBank b fun k => { k with parked := sl, recal := true }).raise 0x0703 [b, sl]).callRecovery 0x0703 b 1 true false

theorem State.bank_raise (s : State) (code : Nat) (data : List Nat) (b : Nat) : (s.raise code data).bank b = s.bank b := by
  rw [State.bank, State.raise_cnv]
  rfl

theorem State.spare_strike (s : State) (b q : Nat) : ((s.strike b q).bank b).spare = (s.bank b).spare := by
  rw [State.strike, State.bank_raise, State.bank_setBank]

theorem State.setBank_congr (s : State) {b : Nat} {f g : Bank → Bank} (h : f (s.bank b) = g (s.bank b)) : s.setBank b f = s.setBank b g := by
  unfold State.bank at h
  simp only [State.setBank, State.onCnv, h]

section
variable {b q : Nat} {r : SliceResult} {s : State}

theorem State.sliceBank_of_plausible (h : s.implausible r = none) : s.sliceBank b r = ((s.takeSlice r).rotate b, false) := by
  rw [State.sliceBank, h]

/-- The model parks the spare the struck bank has, which is the one it had. -/
theorem State.sliceBank_of_implausible (h : s.implausible r = some q) :
    s.sliceBank b r =
      if (s.bank b).strikes + 1 < s.get CAL_LIMIT.STRIKES then (s.strike b q, true)
      else ((s.strike b q).parkSlice b (s.bank b).spare, true) := by
  have hpark : (s.strike b q).setBank b (fun k => { k with parked := k.spare, recal := true }) =
      (s.strike b q).setBank b fun k => { k with parked := (s.bank b).spare, recal := true } :=
    State.setBank_congr _ (by rw [State.spare_strike])
  rw [State.sliceBank, h, State.parkSlice, ← hpark]
  rfl

end

theorem State.bank_rotate (s : State) (b : Nat) :
    (s.rotate b).bank b = { s.bank b with
      active := (s.bank b).active.map fun x => if x = s.oldestActive b then (s.bank b).spare else x
      spare := s.oldestActive b, strikes := 0 } :=
  s.bank_setBank b _

/-! ### One column group of a packet calibration (R71, R73) -/

theorem within_iff (a b d : Int) : within a b d = true ↔ b - d ≤ a ∧ a ≤ b + d := decide_eq_true_iff

/-- A measured charge is accepted: within 0.25 percent of the value in force and 2 percent of the baseline. -/
def State.qpAccepts (s : State) (k q : Nat) : Bool :=
  within ((q : Int) * 400) ((s.coef k : Int) * 400) (s.coef k) && within ((q : Int) * 50) ((s.baseCoef k : Int) * 50) (s.baseCoef k)

theorem State.qpAccepts_iff (s : State) (k q : Nat) :
    s.qpAccepts k q = true ↔ (s.coef k : Int) * 399 ≤ q * 400 ∧ (q : Int) * 400 ≤ s.coef k * 401 ∧
      (s.baseCoef k : Int) * 49 ≤ q * 50 ∧ (q : Int) * 50 ≤ s.baseCoef k * 51 := by
  rw [State.qpAccepts, Bool.and_eq_true, within_iff, within_iff]
  omega

section
variable {tap g q : Nat} {s : State}

theorem State.qpGroup_of_accepted (h : s.qpAccepts (qpKey tap g) q = true) :
    s.qpGroup tap g q =
      ((s.onArr fun a => { a with qpNext := Tbl.set 0 a.qpNext (qpKey tap g) (q + 1) }).setStamp (qpKey tap g), false) :=
  if_pos h

theorem State.qpGroup_of_refused (h : ¬ s.qpAccepts (qpKey tap g) q = true) : s.qpGroup tap g q = (s.raise 0x0645 [g, tap, q], true) :=
  if_neg h

end

/-! ### The aged set (R166) -/

/-- The aged kinds `a` stored, and the open sweeps and the spotlight frame of the stopes `p` flagged as aged. -/
def State.flagAged (s : State) (a : Nat) (p : Nat → Bool) : State :=
  ((s.set CAL_STATUS.AGED a).onEng fun g =>
    { g with out := g.out.map fun o => if p o.stope = true then { o with cond := o.cond ||| 2 ^ cdAGED } else o }).spotFlag cdAGED p

@[simp] theorem State.flagAged_cnv (s : State) (a : Nat) (p : Nat → Bool) : (s.flagAged a p).cnv = s.cnv := rfl
@[simp] theorem State.flagAged_saf (s : State) (a : Nat) (p : Nat → Bool) : (s.flagAged a p).saf = s.saf := rfl
@[simp] theorem State.flagAged_aged (s : State) (a : Nat) (p : Nat → Bool) : (s.flagAged a p).get CAL_STATUS.AGED = a % 8 :=
  State.get_set_self _ _ _
@[simp] theorem State.flagAged_out (s : State) (a : Nat) (p : Nat → Bool) :
    (s.flagAged a p).eng.out = s.eng.out.map fun o => if p o.stope = true then { o with cond := o.cond ||| 2 ^ cdAGED } else o := rfl

theorem State.flagAged_only (s : State) (a : Nat) (p : Nat → Bool) :
    Only [CAL_STATUS.AGED] { s.spotFlag cdAGED p with eng := { s.eng with out := (s.flagAged a p).eng.out } } (s.flagAged a p) :=
  (Only.refl [CAL_STATUS.AGED] { s.spotFlag cdAGED p with eng := (s.flagAged a p).eng }).set a (List.mem_singleton_self _)

theorem State.reviewAged_eq (s : State) :
    s.reviewAged =
      if s.agedKinds = 0 ∨ s.cnv.wasAged = true then
        (s.flagAged s.agedKinds s.agedBanks).onCnv fun c => { c with wasAged := decide (s.agedKinds ≠ 0) }
      else ((s.flagAged s.agedKinds s.agedBanks).onCnv fun c => { c with wasAged := true }).raise 0x0802
        [s.agedKinds, (s.flagAged s.agedKinds s.agedBanks).fwc] := by
  unfold State.reviewAged State.flagAged
  dsimp only
  split
  case isTrue => rfl
  case isFalse h =>
    have hgrows : decide (s.agedKinds ≠ 0) = true := decide_eq_true fun h0 => h (.inl h0)
    rw [hgrows]

/-- The set of aged stopes does not grow from empty. -/
theorem State.reviewAged_of_quiet {s : State} (h : s.agedKinds = 0 ∨ s.cnv.wasAged = true) :
    s.reviewAged = (s.flagAged s.agedKinds s.agedBanks).onCnv fun c => { c with wasAged := decide (s.agedKinds ≠ 0) } :=
  s.reviewAged_eq.trans (if_pos h)

theorem State.reviewAged_of_growing {s : State} (h : ¬ (s.agedKinds = 0 ∨ s.cnv.wasAged = true)) :
    s.reviewAged = ((s.flagAged s.agedKinds s.agedBanks).onCnv fun c => { c with wasAged := true }).raise 0x0802
        [s.agedKinds, (s.flagAged s.agedKinds s.agedBanks).fwc] :=
  s.reviewAged_eq.trans (if_neg h)

@[simp] theorem State.reviewAged_banks (s : State) : s.reviewAged.cnv.banks = s.cnv.banks := by
  by_cases h : s.agedKinds = 0 ∨ s.cnv.wasAged = true
  · rw [State.reviewAged_of_quiet h, State.onCnv_cnv, State.flagAged_cnv]
  · rw [State.reviewAged_of_growing h, State.raise_cnv, State.onCnv_cnv, State.flagAged_cnv]

@[simp] theorem State.reviewAged_saf (s : State) : s.reviewAged.saf = s.saf := by
  by_cases h : s.agedKinds = 0 ∨ s.cnv.wasAged = true
  · rw [State.reviewAged_of_quiet h, State.onCnv_saf, State.flagAged_saf]
  · rw [State.reviewAged_of_growing h, State.raise_saf, State.onCnv_saf, State.flagAged_saf]

/-! ### The commands that end a step (R160, R163) -/

section
variable {f : Nat} {s : State}

theorem exec_sliceStepDone_of_none (res : List SliceSample) (h : s.cnv.step = none) : exec (.sliceStepDone res) s = .next s := by
  change execSliceStepDone res s = _
  rw [execSliceStepDone, h]

/-- What a slice step's end finds for the spare of a bank. -/
def State.spareResult (s : State) (res : List SliceSample) (b : Nat) : SliceResult :=
  match res.find? fun m => decide (m.bank = b) with
  | some m => s.fitSample { m with slice := (s.bank b).spare }
  | none => s.sliceNow b (s.bank b).spare

/-- The end of a slice step over all banks that rotate; the flag says whether one was refused. -/
def State.sliceBanks (s : State) (res : List SliceSample) : State × Bool :=
  (List.range 2048).foldl (fun a b =>
    if (a.1.bank b).rotates = true then
      ((a.1.sliceBank b (a.1.spareResult res b)).1, a.2 || (a.1.sliceBank b (a.1.spareResult res b)).2)
    else a) (s, false)

theorem exec_sliceStepDone_of_slice (res : List SliceSample) (h : s.cnv.step = some (1, f)) :
    exec (.sliceStepDone res) s =
      .next (((((s.advance (f + 192000)).reviewAged.sliceBanks res).1.stepRan 1
        ((s.advance (f + 192000)).reviewAged.sliceBanks res).2).reviewAged).schedule) := by
  change execSliceStepDone res s = _
  rw [execSliceStepDone, h]
  rfl

theorem exec_pktCalStepDone_of_none (res : List (Nat × Nat)) (h : s.cnv.step = none) : exec (.pktCalStepDone res) s = .next s := by
  change execPktCalStepDone res s = _
  rw [execPktCalStepDone, h]

/-- The Q_P a packet calibration's end finds for a column group. -/
def State.groupResult (s : State) (res : List (Nat × Nat)) (tap g : Nat) : Nat :=
  match res.find? fun r => decide (r.1 = g) with
  | some r => r.2 % 2 ^ 24
  | none => s.coef (qpKey tap g)

/-- The end of a packet calibration over all column groups of a tap; the flag says whether one was refused. -/
def State.qpGroups (s : State) (res : List (Nat × Nat)) (tap : Nat) : State × Bool :=
  (List.range 1024).foldl (fun a g =>
    ((a.1.qpGroup tap g (a.1.groupResult res tap g)).1, a.2 || (a.1.qpGroup tap g (a.1.groupResult res tap g)).2)) (s, false)

theorem exec_pktCalStepDone_of_packet {kind : Nat} (res : List (Nat × Nat)) (h : s.cnv.step = some (kind, f)) (hkind : kind ≠ 1) :
    exec (.pktCalStepDone res) s =
      .next ((((((s.advance (f + 160000)).reviewAged.qpGroups res (kind - 2)).1.resetCalRows (kind - 2)).stepRan kind
        ((s.advance (f + 160000)).reviewAged.qpGroups res (kind - 2)).2).reviewAged).schedule) := by
  have hticks : stepTicks kind = 160000 := if_neg hkind
  change execPktCalStepDone res s = _
  simp only [execPktCalStepDone, h, if_neg hkind, hticks]
  rfl

theorem exec_calKindDue_of_kind {kind : Nat} (h : 1 ≤ kind ∧ kind ≤ 3) :
    exec (.calKindDue kind) s = .next (s.advance (s.lastStep kind + s.interval kind)) :=
  congrArg _ (if_pos (by omega))

end

/-! ### The bank re-calibration (R162) -/

section
variable {b : Nat} {res : List SliceSample} {s : State}

/-- The result of slice `sl` of a bank's re-calibration. -/
def State.recalResult (s : State) (b : Nat) (res : List SliceSample) (sl : Nat) : SliceResult :=
  match res.find? fun m => decide (m.bank = b ∧ m.slice = sl) with
  | some m => s.fitSample m
  | none => s.sliceNow b sl

/-- The slices of a bank whose results lie within limits. -/
def State.recalGood (s : State) (b : Nat) (res : List SliceSample) : List Nat :=
  [0, 1, 2, 3, 4].filter fun sl => s.nearBase (s.recalResult b res sl)

/-- The slices within limits have taken their coefficients. -/
def State.recalTaken (s : State) (b : Nat) (res : List SliceSample) : State :=
  (s.recalGood b res).foldl (fun t sl => t.takeSlice (s.recalResult b res sl)) s

theorem State.recalBank_of_whole (h : (s.recalGood b res).length = 5) :
    s.recalBank b res =
      (((s.recalTaken b res).setBank b fun k =>
        { k with parked := 7, strikes := 0, failed := false, degraded := false, recal := false }).raise 0x0705 [b], false) :=
  if_pos h

theorem State.recalBank_of_failed (h : (s.recalGood b res).length < 4) :
    s.recalBank b res =
      (((s.recalTaken b res).setBank b fun k => { k with failed := true, degraded := false, recal := false }).raise 0x0706
        [b, (s.recalGood b res).length], true) :=
  (if_neg (show ¬ (s.recalGood b res).length = 5 by omega)).trans (if_neg (show ¬ (s.recalGood b res).length = 4 by omega))

theorem exec_bankRecalDone_of_idle (h : s.cnv.recal = false) : exec (.bankRecalDone res) s = .next s :=
  if_pos (by rw [h]; rfl)

/-- The re-calibration is over with no bank degraded and none failed. -/
def State.recalOver (s : State) : State :=
  ((s.onCnv fun c => { c with recal := false }).set CNV_STATUS.DEGRADED_CNT 0).onSaf fun f => { f with bankFailed := false }

theorem State.recalOver_only (s : State) :
    Only [CNV_STATUS.DEGRADED_CNT] { s with cnv := { s.cnv with recal := false }, saf := { s.saf with bankFailed := false } } s.recalOver :=
  (Only.refl _ _).set 0 (List.mem_singleton_self _)

theorem State.recalOver_degraded (s : State) : s.recalOver.get CNV_STATUS.DEGRADED_CNT = 0 :=
  (s.onCnv fun c => { c with recal := false }).get_set_self CNV_STATUS.DEGRADED_CNT 0

/-- `u` is the state whose banks the re-calibration goes through. -/
theorem exec_bankRecalDone_of_no_bank {arg : Nat} {u : State} (hrecal : s.cnv.recal = true)
    (hu : (s.advance (s.saf.since + recalTicks)).reviewAged = u) (hbanks : u.cnv.banks = []) (hown : u.saf.l1 = some (0x0703, arg)) :
    exec (.bankRecalDone res) s = .next ((u.recalOver.actionDone 0x0703 arg).reviewAged).schedule := by
  change execBankRecalDone res s = _
  rw [execBankRecalDone, hrecal, Bool.not_true, if_neg Bool.false_ne_true, hu]
  extract_lets +onlyGivenNames s1 r t t1 t2 own
  have hr : r = (u, false) := by simp only [r, s1, hbanks, List.filter_nil, List.foldl_nil]
  have ht2 : t2 = u.recalOver := by
    simp only [t2, t1, t, hr, hbanks, State.onCnv_cnv, State.set_cnv, List.filter_nil, List.length_nil, List.any_nil, State.recalOver]
  have hown : own = some (0x0703, arg) := by
    simp only [own, ht2, State.recalOver, State.onSaf_saf, State.set_saf, State.onCnv_saf, hown]
    rfl
  have hfailed : ¬ r.2 = true := by rw [hr]; exact Bool.false_ne_true
  rw [hown, ht2]
  exact congrArg Host.Outcome.next (if_neg hfailed)

end

/-- Settles O29: one bank and one column group go by the verdict on their result, and each command is its fold over banks or groups between two looks
at the aged set. -/
theorem calibrationStepsEnd : Obligations.CalibrationStepsEnd := by
  refine ⟨fun b r s => ⟨State.sliceBank_of_plausible, fun q hq hlt => ?strike, fun q hq hle => ?parked⟩, fun b s => ?rotate,
    fun res f s h => ⟨_, ?slices, exec_sliceStepDone_of_slice res h⟩, fun res s => exec_sliceStepDone_of_none res,
    fun tap g q s => ⟨_, rfl, fun h => State.qpGroup_of_accepted ((s.qpAccepts_iff _ q).mpr h), fun h => State.qpGroup_of_refused ?refused⟩,
    fun res kind f s h hkind => ⟨_, ?groups, exec_pktCalStepDone_of_packet res h (by omega)⟩, fun res s => exec_pktCalStepDone_of_none res,
    fun kind s hlo hhi => exec_calKindDue_of_kind ⟨hlo, hhi⟩, fun res s => exec_bankRecalDone_of_idle,
    fun res code arg s hrecal hbanks hown hcode => ?noBank,
    fun res b s => ⟨s.recalResult b res, s.recalGood b res, s.recalTaken b res, fun _ => rfl, rfl, rfl, State.recalBank_of_whole,
      State.recalBank_of_failed⟩,
    fun s => ⟨s.advance s.firstAging, _, _, rfl, rfl, State.flagAged_aged .., State.flagAged_out .., State.flagAged_only ..,
      congrArg _ (State.reviewAged_eq _)⟩⟩
  case strike => exact (State.sliceBank_of_implausible hq).trans (if_pos hlt)
  case parked => exact (State.sliceBank_of_implausible hq).trans (if_neg (Nat.not_lt.mpr hle))
  case rotate =>
    refine ⟨s.rotate b, rfl, ?_, ?_, ?_, fun k hk => State.bank_setBank_ne _ _ hk.symm, rfl⟩
    all_goals rw [State.bank_rotate]
  case slices =>
    unfold State.sliceBanks
    rfl
  case groups =>
    unfold State.qpGroups
    rfl
  case refused =>
    rw [State.qpAccepts_iff]
    omega
  case noBank =>
    subst hcode
    refine ⟨_, State.recalOver_only _, State.recalOver_degraded _, exec_bankRecalDone_of_no_bank hrecal rfl ?_ ?_⟩
    · rw [State.reviewAged_banks, State.advance_cnv, hbanks]
    · rw [State.reviewAged_saf, State.advance_saf, hown]

end Sys2Proof.Machine
end

section
/-!
PROOF. The maker's baseline and the monitor converter (ch. 05, R171 to R180): the writes of page 0x08 that act on the working copy, the record a
conversion leaves in the buffer, its code, and the commands of page 0x09.
-/
namespace Sys2Proof.Machine

/-! ### The maker's baseline (R171) -/

section
variable {p : Path} {b s : State}

theorem State.effBaseCmd_of_idle (hbusy : b.on CAL_BASE_STATUS.BUSY = false) (hmay : b.mayWrite p CAL_BASE_CMD.COMMIT = true) (w : Nat) :
    b.effBaseCmd p w =
      if CAL_BASE_CMD.COMMIT.of w = 1 then (if CAL_BASE_CMD.CAPTURE.of w = 1 then b.baseCapture else b).baseCommit p
      else if CAL_BASE_CMD.CAPTURE.of w = 1 then b.baseCapture else b :=
  if_neg (by rw [hbusy, hmay]; exact Bool.false_ne_true)

theorem exec_calBaseCapture_of_idle (ht : s.takes p 0x0804C 2 = true) (hmay : (s.booked p 0x0804C 2).mayWrite p CAL_BASE_CMD.COMMIT = true)
    (hbusy : (s.booked p 0x0804C 2).on CAL_BASE_STATUS.BUSY = false) :
    exec (.calBaseCapture p) s = .next (s.booked p 0x0804C 2).baseCapture :=
  congrArg Host.Outcome.next ((State.regWrite_takes ht _).trans (State.effBaseCmd_of_idle hbusy hmay 2))

theorem exec_calBaseCommit_of_idle (ht : s.takes p 0x0804C 1 = true) (hmay : (s.booked p 0x0804C 1).mayWrite p CAL_BASE_CMD.COMMIT = true)
    (hbusy : (s.booked p 0x0804C 1).on CAL_BASE_STATUS.BUSY = false) :
    exec (.calBaseCommit p) s = .next ((s.booked p 0x0804C 1).baseCommit p) :=
  congrArg Host.Outcome.next ((State.regWrite_takes ht _).trans (State.effBaseCmd_of_idle hbusy hmay 1))

theorem exec_calBaseValWrite_of_takes {w : Word} (ht : s.showBase.takes p 0x08048 w.toNat = true) :
    exec (.calBaseValWrite p w) s = .next ((s.showBase.booked p 0x08048 w.toNat).effBaseVal p w.toNat) :=
  congrArg Host.Outcome.next (State.regWrite_takes ht _)

theorem State.effBaseVal_of_idle (hbusy : b.on CAL_BASE_STATUS.BUSY = false) (hmay : b.mayWrite p CAL_BASE_VAL.VAL = true) (w : Nat) :
    b.effBaseVal p w = b.setWork b.baseSel (w % 2 ^ coefWidth b.baseSel) :=
  if_neg (by rw [hbusy, hmay]; exact Bool.false_ne_true)

theorem State.effBaseVal_of_busy (hbusy : b.on CAL_BASE_STATUS.BUSY = true) (w : Nat) : b.effBaseVal p w = b :=
  if_pos (by rw [hbusy]; rfl)

theorem State.work_setWork_same (s : State) (k v : Nat) : Tbl.get (coefNominal k) (s.setWork k v).cnv.work k = v := Tbl.get_set_same _ _ _ _

theorem State.work_setWork_other (s : State) (d v : Nat) {k j : Nat} (h : k ≠ j) :
    Tbl.get d (s.setWork k v).cnv.work j = Tbl.get d s.cnv.work j :=
  Tbl.get_set_other _ _ _ _ h

/-- An operation whose index block is not worn is in progress once started (R495). -/
theorem State.startOp_op {code area path role : Nat} {content : Tbl Nat}
    (h : Tbl.get false s.nvs.worn (areaBlocks area (s.nextBank area).1).1 = false) :
    (s.startOp code area path role content).nvs.op.isSome = true := by
  simp only [State.startOp, h, Bool.false_eq_true, if_false, State.onNvs_nvs, Option.isSome_some]

theorem State.baseCommit_of_starts (hfree : b.storeRefuses = none)
    (hworn : Tbl.get false b.nvs.worn (areaBlocks 2 (b.nextBank 2).1).1 = false) :
    b.baseCommit p =
      ((b.startOp 1 2 (pathNo p) 3 b.cnv.work).set CAL_BASE_STATUS.BUSY 1).onCnv fun c => { c with commit := true } := by
  have hop := Option.isNone_eq_false_iff.mpr (State.startOp_op (code := 1) (path := pathNo p) (role := 3) (content := b.cnv.work) hworn)
  simp only [State.baseCommit, hfree, hop, Bool.false_eq_true, if_false]

/-- A commit the store refuses is reported with its code (R500). -/
def State.commitRefused (s : State) (c : Nat) : State := (s.set NVS_STATUS.LAST_RESULT c).set CAL_BASE_STATUS.LAST_OK 0

theorem State.commitRefused_only (s : State) (c : Nat) :
    Only [NVS_STATUS.LAST_RESULT, CAL_BASE_STATUS.LAST_OK] s (s.commitRefused c) :=
  ((Only.refl _ s).set c (List.mem_cons_self ..)).set 0 (List.mem_cons_of_mem _ (List.mem_singleton_self _))

theorem State.baseCommit_of_refused {c : Nat} (h : b.storeRefuses = some c) : b.baseCommit p = (b.commitRefused c).raise 0x0805 [c] := by
  rw [State.baseCommit, h]
  rfl

end

/-! ### The record buffer (R178) -/

/-- What a run of writes leaves in a table. -/
theorem Tbl.get_foldl_set {α : Type} [DecidableEq α] (d : α) (a : Nat) (v : Nat → α) (n : Nat) (t : Tbl α) (k : Nat) :
    Tbl.get d ((List.range n).foldl (fun t i => Tbl.set d t (a + i) (v i)) t) k = if a ≤ k ∧ k < a + n then v (k - a) else Tbl.get d t k := by
  induction n with
  | zero => rw [List.range_zero, List.foldl_nil, if_neg (by omega)]
  | succ n ih =>
    rw [List.range_succ, List.foldl_append, List.foldl_cons, List.foldl_nil, Tbl.get_set, ih]
    by_cases hk : a + n = k
    · rw [if_pos hk, if_pos (by omega), show k - a = n by omega]
    · rw [if_neg hk]
      by_cases hin : a ≤ k ∧ k < a + n
      · rw [if_pos hin, if_pos (by omega)]
      · rw [if_neg hin, if_neg (by omega)]

/-- The registers that a record put into the buffer may write, those of the events it may raise among them. -/
def monBufRegs : List Field :=
  [MON_BUF_WR.WR, MON_BUF_WR.WRAPS, MON_BUF_RD.RD, MON_STATUS.OVERRUN_CNT, HST_ERRCNT2.EVENT_LOST, CHN_ERRCNT4.PORT_DROP]

theorem State.putRecordMon_sameRegs (s : State) (bytes : List Nat) : SameRegs monBufRegs s (s.putRecordMon bytes) := by
  unfold State.putRecordMon
  extract_lets -merge +onlyGivenNames _ wr next _ t t1 t2
  have ht1 : SameRegs monBufRegs s t1 := by
    have ht : SameRegs monBufRegs s (t.set MON_BUF_WR.WR next) := (SameRegs.of_regs rfl).set _ (by decide)
    unfold t1 State.when
    split
    · exact ht.set _ (by decide)
    · exact ht
  clear_value t1 next
  have hcount : SameRegs monBufRegs s ((t1.set MON_BUF_RD.RD next).bump MON_STATUS.OVERRUN_CNT 1) :=
    (ht1.set (f := MON_BUF_RD.RD) next (by decide)).set (f := MON_STATUS.OVERRUN_CNT) _ (by decide)
  have ht2 : SameRegs monBufRegs s t2 := hcount.trans (.of_regs rfl)
  clear_value t2
  split
  · split
    · exact ht2
    · exact (ht2.trans (.of_regs rfl)).trans ((State.raise_raised _ _ _).2.weaken (by decide))
  · exact ht1.trans (.of_regs rfl)

theorem State.putRecordMon_get {g : Field} (s : State) (bytes : List Nat) (h : g.key ∉ monBufRegs.map Field.key) :
    (s.putRecordMon bytes).get g = s.get g :=
  s.putRecordMon_sameRegs bytes g h

theorem State.putRecordMon_sequence (s : State) (bytes : List Nat) :
    (s.putRecordMon bytes).mon.len = s.mon.len ∧ (s.putRecordMon bytes).mon.stopping = s.mon.stopping := by
  unfold State.putRecordMon
  extract_lets -merge +onlyGivenNames _ _ _ _ t t1 t2
  have ht1 : t1.mon.len = s.mon.len ∧ t1.mon.stopping = s.mon.stopping := by
    unfold t1 State.when
    split <;> exact ⟨rfl, rfl⟩
  split
  · split
    · exact ht1
    · rw [State.raise_mon]
      exact ht1
  · exact ht1

/-- The buffer's memory with the 8 bytes of a record from byte `a` on. -/
def Mon.withRecord (m : Mon) (a : Nat) (bytes : List Nat) : Mon :=
  { m with sram := (List.range 8).foldl (fun t i => Tbl.set 0 t (a + i) (bytes.getD i 0)) m.sram }

theorem Mon.sram_withRecord (m : Mon) (a : Nat) (bytes : List Nat) (k : Nat) :
    Tbl.get 0 (m.withRecord a bytes).sram k = if a ≤ k ∧ k < a + 8 then bytes.getD (k - a) 0 else Tbl.get 0 m.sram k :=
  Tbl.get_foldl_set 0 a (fun i => bytes.getD i 0) 8 m.sram k

/-- A record finds room at the write pointer, which moves on by 8. -/
def State.recordStored (s : State) (bytes : List Nat) : State :=
  ((s.onMon fun m => m.withRecord (s.get MON_BUF_CFG.BASE + s.get MON_BUF_WR.WR) bytes).set MON_BUF_WR.WR (s.get MON_BUF_WR.WR + 8)).onMon
    fun m => { m with full := decide (s.get MON_BUF_WR.WR + 8 = s.get MON_BUF_RD.RD) }

theorem State.putRecordMon_of_room {s : State} (hfull : s.mon.full = false) (hsize : s.get MON_BUF_WR.WR + 8 < 2 ^ s.get MON_BUF_CFG.LOG2SIZE)
    (bytes : List Nat) : s.putRecordMon bytes = s.recordStored bytes := by
  have hwr : s.get MON_BUF_WR.WR % 2 ^ s.get MON_BUF_CFG.LOG2SIZE = s.get MON_BUF_WR.WR := Nat.mod_eq_of_lt (by omega)
  have hwraps : decide (s.get MON_BUF_WR.WR + 8 = 0) = false := rfl
  simp only [State.putRecordMon, hfull, hwr, Nat.mod_eq_of_lt hsize, hwraps, State.when_false, Bool.false_eq_true, if_false]
  rfl

theorem State.recordStored_only (s : State) (bytes : List Nat) :
    Only [MON_BUF_WR.WR]
      { s with mon := { s.mon with sram := (s.recordStored bytes).mon.sram, full := decide (s.get MON_BUF_WR.WR + 8 = s.get MON_BUF_RD.RD) } }
      (s.recordStored bytes) :=
  (Only.refl _ _).set _ (List.mem_singleton_self _)

theorem State.recordStored_sram (s : State) (bytes : List Nat) (k : Nat) :
    Tbl.get 0 (s.recordStored bytes).mon.sram k =
      if s.get MON_BUF_CFG.BASE + s.get MON_BUF_WR.WR ≤ k ∧ k < s.get MON_BUF_CFG.BASE + s.get MON_BUF_WR.WR + 8 then
        bytes.getD (k - (s.get MON_BUF_CFG.BASE + s.get MON_BUF_WR.WR)) 0
      else Tbl.get 0 s.mon.sram k :=
  Mon.sram_withRecord ..

theorem State.recordStored_wr {s : State} (h : s.get MON_BUF_WR.WR + 8 < 2 ^ MON_BUF_WR.WR.width) (bytes : List Nat) :
    (s.recordStored bytes).get MON_BUF_WR.WR = s.get MON_BUF_WR.WR + 8 :=
  State.get_set_of_lt _ h

theorem State.recordStored_rd (s : State) (bytes : List Nat) : (s.recordStored bytes).get MON_BUF_RD.RD = s.get MON_BUF_RD.RD :=
  State.get_set_ne _ (f := MON_BUF_WR.WR) _ (by decide)

/-! ### From volts to a code (R172, R173) -/

section
variable {uv vref g d : Nat} {err : Int}

theorem monCode_of_full (h : 2 * vref * d ≤ uv * g) : monCode uv vref g d err = 16383 := if_pos h

theorem monCode_of_exact (h : uv * g < 2 * vref * d) :
    monCode uv vref g d 0 = min 16383 ((uv * g * 16384 + vref * d) / (2 * vref * d)) := by
  have hcast : ((uv : Int) * g * 16384 + vref * d) / (2 * vref * d) = ((uv * g * 16384 + vref * d) / (2 * vref * d) : Nat) := by
    rw [Int.natCast_ediv, Int.natCast_add, Int.natCast_mul, Int.natCast_mul, Int.natCast_mul, Int.natCast_mul, Int.natCast_mul]
    rfl
  rw [monCode, if_neg (Nat.not_le.mpr h), hcast]
  generalize (uv * g * 16384 + vref * d) / (2 * vref * d) = n
  omega

theorem State.codeOf_of_ground {c : MonConv} (h : 24 ≤ c.chan) (s : State) : s.codeOf c uv vref err = 0 := if_pos h

theorem State.codeOf_of_bandgap {c : MonConv} (hchan : c.chan < 22) (hself : c.chan ≠ 17) (href : c.ref = 0) (s : State) :
    s.codeOf c uv vref err = monCode uv bandgap (2 ^ c.gain) (monDivider c.chan) err := by
  rw [State.codeOf, if_neg (by omega), if_neg (by omega), if_pos href, if_neg hself]

end

/-! ### A conversion ends (R174, R175, R178) -/

section
variable {s : State}

theorem State.startMonitor_of_stopped (h : s.on MON_CTRL.RUN = false) : s.startMonitor = s :=
  if_neg (by simp [h])

theorem State.startMonitor_of_converting (h : s.mon.conv.isNone = false) : s.startMonitor = s :=
  if_neg (by simp [h])

theorem State.startMonitor_of_ready (hruns : s.monitorRuns = true) (hrun : s.on MON_CTRL.RUN = true) (hconv : s.mon.conv = none) :
    s.startMonitor = s.startConv 0 :=
  if_pos (by simp [hruns, hrun, hconv])

theorem exec_monitorConversionDone_of_idle (uv vref : Nat) (err : Int) (hconv : s.mon.conv = none) (hrun : s.on MON_CTRL.RUN = false) :
    exec (.monitorConversionDone uv vref err) s = .next s := by
  change execMonitorConversionDone uv vref err s = _
  rw [execMonitorConversionDone, State.startMonitor_of_stopped hrun, hconv]

/-- The latest record of a channel is shown, and its conversion is over. -/
def State.showRecord (s : State) (c : MonConv) (bytes : List Nat) : State :=
  ((s.set (MON_LAST.VALID c.chan) 1).set (MON_LAST.REC c.chan) (ofLeBytes (bytes.take 2))).onMon fun m => { m with conv := none }

theorem State.showRecord_get_run (s : State) (c : MonConv) (bytes : List Nat) : (s.showRecord c bytes).get MON_CTRL.RUN = s.get MON_CTRL.RUN := by
  have hkeys : (MON_LAST.VALID c.chan).key ≠ MON_CTRL.RUN.key ∧ (MON_LAST.REC c.chan).key ≠ MON_CTRL.RUN.key := by
    simp only [Field.key, MON_LAST.VALID, MON_LAST.REC, MON_CTRL.RUN]
    omega
  exact (State.get_set_ne _ _ hkeys.2).trans (State.get_set_ne _ _ hkeys.1)

theorem State.startConv_converting (s : State) (entry : Nat) : (s.startConv entry).mon.conv.isNone = false := rfl

/-- After the conversion of an entry the sequence goes on, or the run ends. -/
def State.nextConversion (s : State) (entry : Nat) : State :=
  if (s.on MON_CTRL.RUN && !s.mon.stopping) = true then s.startConv (if entry < s.mon.len then entry + 1 else 0)
  else (s.set MON_STATUS.RUNNING 0).onMon fun m => { m with stopping := false }

theorem State.nextConversion_of_run (hrun : s.on MON_CTRL.RUN = true) (hstop : s.mon.stopping = false) (entry : Nat) :
    s.nextConversion entry = s.startConv (if entry < s.mon.len then entry + 1 else 0) :=
  if_pos (by rw [hrun, hstop]; rfl)

section
variable {c : MonConv} {uv vref : Nat} {err : Int}

/-- The state at the end of a conversion within its limits: the record of its code in the buffer and shown. -/
def State.recorded (s : State) (c : MonConv) (uv vref : Nat) (err : Int) : State :=
  ((s.advance (c.start + (c.samp + 44) * 40)).putRecordMon (monRecordOf c (s.codeOf c uv vref err) false)).showRecord c
    (monRecordOf c (s.codeOf c uv vref err) false)

theorem State.recorded_on_run (s : State) : (s.recorded c uv vref err).on MON_CTRL.RUN = s.on MON_CTRL.RUN := by
  rw [State.on, State.recorded, State.showRecord_get_run, State.putRecordMon_get _ _ (by decide)]
  rfl

theorem State.recorded_sequence (s : State) :
    (s.recorded c uv vref err).mon.len = s.mon.len ∧ (s.recorded c uv vref err).mon.stopping = s.mon.stopping :=
  State.putRecordMon_sequence (s.advance _) _

theorem exec_monitorConversionDone_of_unlimited (hconv : s.mon.conv = some c) (hchan : c.chan < 24)
    (hlim : s.on (MON_LIM.EN c.entry) = false) :
    exec (.monitorConversionDone uv vref err) s = .next ((s.recorded c uv vref err).nextConversion c.entry).startMonitor.pump := by
  have hlim : (s.advance (c.start + (c.samp + 44) * monCycle)).on (MON_LIM.EN c.entry) = false := hlim
  change execMonitorConversionDone uv vref err s = _
  rw [execMonitorConversionDone, State.startMonitor_of_converting (by rw [hconv]; rfl), hconv]
  simp only [hlim, Bool.false_and, if_pos hchan, Bool.false_eq_true, if_false]
  rfl

theorem exec_monitorConversionDone_of_running (hconv : s.mon.conv = some c) (hchan : c.chan < 24) (hlim : s.on (MON_LIM.EN c.entry) = false)
    (hrun : s.on MON_CTRL.RUN = true) (hstop : s.mon.stopping = false) :
    exec (.monitorConversionDone uv vref err) s =
      .next ((s.recorded c uv vref err).startConv (if c.entry < s.mon.len then c.entry + 1 else 0)).pump := by
  obtain ⟨hlen, hstay⟩ : (s.recorded c uv vref err).mon.len = s.mon.len ∧ (s.recorded c uv vref err).mon.stopping = s.mon.stopping :=
    s.recorded_sequence
  rw [exec_monitorConversionDone_of_unlimited hconv hchan hlim,
    State.nextConversion_of_run (s.recorded_on_run.trans hrun) (hstay.trans hstop), hlen,
    State.startMonitor_of_converting (State.startConv_converting _ _)]

end

end

/-! ### RUN and the reference (R175, R176) -/

section
variable {b s : State} {p : Path} {w : Nat}

theorem State.effMonCtrl_of_clear (hwas : b.on MON_CTRL.RUN = true) (hnow : (b.writeFields p 0x09000 w).on MON_CTRL.RUN = false) :
    b.effMonCtrl p w = (b.writeFields p 0x09000 w).onMon fun m => { m with stopping := m.conv.isSome } :=
  if_pos (by rw [hwas, hnow]; rfl)

theorem State.effMonCtrl_of_set (hwas : b.on MON_CTRL.RUN = false) (hnow : (b.writeFields p 0x09000 w).on MON_CTRL.RUN = true) :
    b.effMonCtrl p w = (b.writeFields p 0x09000 w).startMonitor := by
  simp only [State.effMonCtrl, hwas, hnow, Bool.false_and, Bool.not_false, Bool.and_true, Bool.false_eq_true, if_false, if_true]

theorem State.effMonCtrl_of_same (h : b.on MON_CTRL.RUN = (b.writeFields p 0x09000 w).on MON_CTRL.RUN) :
    b.effMonCtrl p w = b.writeFields p 0x09000 w := by
  simp only [State.effMonCtrl, h, Bool.and_not_self, Bool.not_and_self, Bool.false_eq_true, if_false]

theorem exec_monCtrlRunWrite_of_takes {w : Word} (h : s.takes p 0x09000 w.toNat = true) :
    exec (.monCtrlRunWrite p w) s = .next ((s.booked p 0x09000 w.toNat).effMonCtrl p w.toNat) :=
  congrArg _ (State.regWrite_takes h _)

theorem exec_monRefSettled_of_settling (hruns : s.monitorRuns = true) (h : s.on MON_STATUS.REF_SETTLED = false) :
    exec .monRefSettled s = .next ((s.advance (s.mon.refAt + refSettle s.mon.ref)).set MON_STATUS.REF_SETTLED 1) :=
  if_pos (by rw [hruns, h]; rfl)

theorem exec_monRefSettled_of_settled (h : s.on MON_STATUS.REF_SETTLED = true) : exec .monRefSettled s = .next s :=
  if_neg (by simp [h])

end

/-! ### The temperatures (R180) -/

/-- A diode's temperature and the mean of the first three, stored. -/
def State.tempStored (s : State) (n v : Nat) : State :=
  (s.set (MON_TEMP.DEGC n) v).set MON_TDIE.DEGC (s.set (MON_TEMP.DEGC n) v).dieMean

theorem exec_monTempUpdate_of_valid {n : Nat} {s : State} (hn : n < 8) (hruns : s.monitorRuns = true) (h : s.on (MON_LAST.VALID (9 + n)) = true) :
    exec (.monTempUpdate n) s =
      .next ((s.diodeTemp n (s.get (MON_LAST.REC (9 + n)) % 2 ^ 14)).2.tempStored n (s.diodeTemp n (s.get (MON_LAST.REC (9 + n)) % 2 ^ 14)).1) :=
  if_pos (by simp [hn, hruns, h])

theorem State.diodeTemp_eq (s : State) (n code : Nat) :
    s.diodeTemp n code =
      if (Config.diodeTrim n).2.1 = (Config.diodeTrim n).1.1 then s.free
      else (unsigned 16 ((Config.diodeTrim n).1.2 + roundHalfEven (((code : Nat) - ((Config.diodeTrim n).1.1 : Int)) *
        ((Config.diodeTrim n).2.2 - (Config.diodeTrim n).1.2) * (((Config.diodeTrim n).2.1 : Int) - (Config.diodeTrim n).1.1).sign)
        (((Config.diodeTrim n).2.1 : Int) - (Config.diodeTrim n).1.1).natAbs), s) := by
  by_cases h : (Config.diodeTrim n).2.1 = (Config.diodeTrim n).1.1
  · rw [if_pos h]
    exact if_pos (by omega)
  · rw [if_neg h]
    exact if_neg (by omega)

theorem State.tempStored_only (s : State) (n v : Nat) : Only [MON_TEMP.DEGC n, MON_TDIE.DEGC] s (s.tempStored n v) :=
  ((Only.refl _ s).set v (List.mem_cons_self ..)).set _ (List.mem_cons_of_mem _ (List.mem_singleton_self _))

theorem State.tempStored_temp {n m : Nat} (hm : m < 8) (s : State) (v : Nat) :
    (s.tempStored n v).get (MON_TEMP.DEGC m) = (s.set (MON_TEMP.DEGC n) v).get (MON_TEMP.DEGC m) :=
  State.get_set_ne _ _ (by simp only [Field.key, MON_TEMP.DEGC, MON_TDIE.DEGC]; omega)

theorem State.tempStored_die (s : State) (n v : Nat) :
    (s.tempStored n v).get MON_TDIE.DEGC = unsigned 16 (roundHalfEven (signed 16 ((s.tempStored n v).get (MON_TEMP.DEGC 0)) +
      signed 16 ((s.tempStored n v).get (MON_TEMP.DEGC 1)) + signed 16 ((s.tempStored n v).get (MON_TEMP.DEGC 2))) 3) % 2 ^ MON_TDIE.DEGC.width := by
  rw [s.tempStored_temp (by omega), s.tempStored_temp (by omega), s.tempStored_temp (by omega), State.tempStored, State.get_set_self,
    State.dieMean]
  simp only [List.foldl_cons, List.foldl_nil, Int.zero_add]

/-- Settles O30: a write acts by its effect after its bookkeeping, a conversion's end by its record and its code, and a temperature by the line of its
diode's trim. -/
theorem baselineAndMonitor : Obligations.BaselineAndMonitor := by
  refine ⟨fun p s ht hmay hbusy => exec_calBaseCapture_of_idle ht hmay hbusy,
    fun p w s ht => ⟨_, rfl, fun hmay hbusy => ?value, fun hbusy => ?locked⟩,
    fun p s ht hmay hbusy => ⟨_, rfl, fun hfree hworn => ?starts, fun c hc => ?refused⟩,
    fun uv vref err s => exec_monitorConversionDone_of_idle uv vref err,
    fun uv vref err c s hconv hchan hlim hrun hstop =>
      ⟨_, _, _, rfl, rfl, rfl, exec_monitorConversionDone_of_running hconv hchan hlim hrun hstop⟩,
    fun uv vref err c s hchan hself href => ?bandgap, fun uv vref err c s h => s.codeOf_of_ground h,
    fun bytes s hfull hsize hwidth => ?room,
    fun p w s ht => ⟨_, _, rfl, rfl, fun hwas hnow => ?clear, fun hwas hnow hruns hconv => ?start, fun h => ?same⟩,
    fun s hruns => ⟨exec_monRefSettled_of_settling hruns, exec_monRefSettled_of_settled⟩, fun n s hn hruns hvalid => ?temp⟩
  case value =>
    refine ⟨_, (exec_calBaseValWrite_of_takes ht).trans (congrArg _ (State.effBaseVal_of_idle hbusy hmay _)), State.work_setWork_same _ _ _,
      fun d k hk => State.work_setWork_other _ d _ hk.symm, rfl⟩
  case locked => rw [exec_calBaseValWrite_of_takes ht, State.effBaseVal_of_busy hbusy]
  case starts => rw [exec_calBaseCommit_of_idle ht hmay hbusy, State.baseCommit_of_starts hfree hworn]
  case refused =>
    refine ⟨_, State.commitRefused_only _ c, State.get_set_self _ _ 0, ?_⟩
    rw [exec_calBaseCommit_of_idle ht hmay hbusy, State.baseCommit_of_refused hc]
  case bandgap =>
    rw [State.codeOf_of_bandgap hchan hself href]
    exact ⟨fun h => monCode_of_full h, fun herr h => herr ▸ monCode_of_exact h⟩
  case room =>
    refine ⟨_, rfl, ?_⟩
    rw [State.putRecordMon_of_room hfull hsize]
    refine ⟨State.recordStored_wr hwidth bytes, s.recordStored_rd bytes, fun i hi => ?_, fun a ha => ?_, s.recordStored_only bytes⟩
    · rw [State.recordStored_sram, if_pos (by omega), Nat.add_sub_cancel_left]
    · rw [State.recordStored_sram, if_neg (by omega)]
  case clear => rw [exec_monCtrlRunWrite_of_takes ht, State.effMonCtrl_of_clear hwas hnow]
  case start => rw [exec_monCtrlRunWrite_of_takes ht, State.effMonCtrl_of_set hwas hnow, State.startMonitor_of_ready hruns hnow hconv]
  case same => rw [exec_monCtrlRunWrite_of_takes ht, State.effMonCtrl_of_same h]
  case temp =>
    refine ⟨_, _, exec_monTempUpdate_of_valid hn hruns hvalid, s.diodeTemp_eq n _, ?_, State.tempStored_only .., State.tempStored_die ..⟩
    rw [State.tempStored_temp hn, State.get_set_self]

end Sys2Proof.Machine
end

section
/-!
PROOF. The spotlight source and the pithead's intake (ch. 10, R344 to R355): the packet that leaves next and when, the in-line buffer, the write
that stops STAGED and the clearing of the staging regions, the spot buffer, and the partition of the kibble store.
-/
namespace Sys2Proof.Machine

/-! ### Fields and tables -/

theorem State.on_of_eq {s : State} {f : Field} (h : s.get f = 1) : s.on f = true := decide_eq_true h
theorem State.on_of_ne {s : State} {f : Field} (h : s.get f ≠ 1) : s.on f = false := decide_eq_false h

theorem State.isPithead_of_eq {s : State} (h : s.get CHN_STATE.TALLY = 1) : s.isPithead = true := decide_eq_true h
theorem State.isPithead_of_ne {s : State} (h : s.get CHN_STATE.TALLY ≠ 1) : s.isPithead = false := decide_eq_false h

/-- A path that may write no field of a register changes nothing by its plain write (R10). -/
theorem State.writeFields_of_mayNot {s : State} {p : Path} {off : Nat} (hpath : isPerPath off = false)
    (h : ∀ f ∈ fieldsAt off, s.mayWrite p f = false) (w : Nat) : s.writeFields p off w = s := by
  have hnone : (fieldsAt off).filter (s.mayWrite p) = [] := List.filter_eq_nil_iff.mpr fun f hf => by simp [h f hf]
  rw [State.writeFields, pathOffset_of_notPerPath hpath, hnone, List.foldl_nil]

/-- A field with no range of a plain register takes the bits a path that may write it writes (R9). -/
theorem State.writeFields_get_rw {off : Nat} (h : isPlainWord off = true) {f : Field} (hf : f ∈ fieldsAt off) (hacc : f.acc = .rw)
    (hrange : fieldRange f = none) {b : State} {p : Path} (hmay : b.mayWrite p f = true) (w : Nat) : (b.writeFields p off w).get f = f.of w := by
  rw [State.writeFields_get h hf, if_pos hmay, Field.taken_of_no_range (.inl hacc) hrange]

/-- A table kept where a test on the number accepts holds the default elsewhere. -/
theorem Tbl.get_keep {α : Type} (d : α) (q : Nat → Bool) (t : Tbl α) (k : Nat) :
    Tbl.get d (Tbl.keep q t) k = if q k then Tbl.get d t k else d := by
  unfold Tbl.keep
  induction t with
  | nil => exact (ite_self d).symm
  | cons e t ih =>
    obtain ⟨a, v⟩ := e
    cases hq : q a with
    | true =>
      rw [List.filter_cons_of_pos (p := fun e : Nat × α => q e.1) hq, Tbl.get_cons, Tbl.get_cons, ih]
      split
      case isTrue h => rw [← h, hq, if_pos rfl]
      case isFalse => rfl
    | false =>
      rw [List.filter_cons_of_neg (p := fun e : Nat × α => q e.1) (by simp [hq]), ih, Tbl.get_cons]
      split
      case isTrue h => rw [if_neg (by rintro rfl; rw [hq] at h; cases h)]
      case isFalse => rfl

/-! ### SPOT_PACKET_SEND (R347) -/

section
variable {s : State} {it : SpotItem} {rest : List SpotItem} {f : SpotFrame}

theorem exec_spotPacketSend_of_queue (h : s.spot.queue = it :: rest) :
    exec .spotPacketSend s =
      .next (((s.onSpot fun p => { p with queue := rest, queued := p.queued - it.packet.size }).sendSpot it).reviewSpot) := by
  change execSpotPacketSend s = _
  simp only [execSpotPacketSend, h]

theorem exec_spotPacketSend_of_staged (hq : s.spot.queue = []) (hf : s.spot.frame = some f) (hs : f.staged = true) (hc : f.complete = true)
    (hi : f.items = it :: rest) :
    exec .spotPacketSend s =
      .next (((s.onSpot fun p => { p with frame := if rest.isEmpty then none else some { f with items := rest } }).sendSpot it).reviewSpot) := by
  change execSpotPacketSend s = _
  simp only [execSpotPacketSend, hq, hf, hs, hc, hi, Bool.and_self, if_true]

theorem exec_spotPacketSend_of_nothing (hq : s.spot.queue = []) (hf : ∀ f, s.spot.frame = some f → f.staged = false ∨ f.complete = false) :
    exec .spotPacketSend s = .next s := by
  change execSpotPacketSend s = _
  cases hframe : s.spot.frame with
  | none => simp only [execSpotPacketSend, hq, hframe]
  | some f =>
    have hno : (f.staged && f.complete) = false := Bool.and_eq_false_iff.mpr (hf f hframe)
    simp only [execSpotPacketSend, hq, hframe, hno, Bool.false_eq_true, if_false]

end

/-! ### The in-line buffer (R354, R355) -/

/-- A lost line is noted in the frames and the lines lost early, and nowhere else. -/
theorem State.loseLine_eq (s : State) (src sweep : Nat) :
    s.loseLine src sweep =
      s.onPipe fun p => { p with frames := (s.loseLine src sweep).pipe.frames, early := (s.loseLine src sweep).pipe.early } := by
  unfold State.loseLine
  simp only [State.onPipe]
  split
  · rfl
  · split <;> rfl

theorem State.loseLine_get (s : State) (src sweep : Nat) (g : Field) : (s.loseLine src sweep).get g = s.get g := rfl

theorem State.loseLine_inlineRaised (s : State) (src sweep : Nat) : (s.loseLine src sweep).pipe.inlineRaised = s.pipe.inlineRaised := by
  rw [State.loseLine_eq]; rfl

theorem State.loseLine_full (s : State) (src sweep : Nat) : (s.loseLine src sweep).pipe.full = s.pipe.full := by
  rw [State.loseLine_eq]; rfl

section
variable {s : State} {it : SpotItem}

theorem State.toInline_of_off (h : s.get PIPE_CTRL.EN ≠ 1) : s.toInline it = s :=
  if_pos (by rw [State.on_of_ne h]; rfl)

variable (hen : s.get PIPE_CTRL.EN = 1)
include hen

theorem State.toInline_of_room (hroom : s.inlineCount + it.count ≤ 262144) :
    s.toInline it = s.onPipe fun p => { p with inline := p.inline ++ [it] } := by
  simp only [State.toInline, State.on_of_eq hen, if_neg (Nat.not_lt.mpr hroom), Bool.not_true, Bool.false_eq_true, if_false]

theorem State.toInline_of_full (hfull : 262144 < s.inlineCount + it.count) :
    s.toInline it =
      if s.pipe.inlineRaised = it.sweep + 1 then (s.bump PIPE_ERRCNT1.INLINE_DROP 1).loseLine it.src it.sweep
      else (((s.bump PIPE_ERRCNT1.INLINE_DROP 1).loseLine it.src it.sweep).onPipe fun p => { p with inlineRaised := it.sweep + 1 }).raise 0x0D04
        [it.stope, it.sweep] := by
  have hraised : ((s.bump PIPE_ERRCNT1.INLINE_DROP 1).loseLine it.src it.sweep).pipe.inlineRaised = s.pipe.inlineRaised :=
    State.loseLine_inlineRaised ..
  simp only [State.toInline, State.on_of_eq hen, if_pos hfull, hraised, Bool.not_true, Bool.false_eq_true, if_false]

end

/-- An item that enters the in-line buffer, or finds no room there, moves INLINE_DROP and the counters of a lost event at most. -/
theorem State.toInline_get (s : State) (it : SpotItem) {g : Field}
    (h : g.key ∉ [PIPE_ERRCNT1.INLINE_DROP, HST_ERRCNT2.EVENT_LOST, CHN_ERRCNT4.PORT_DROP].map Field.key) :
    (s.toInline it).get g = s.get g := by
  simp only [List.map_cons, List.map_nil, List.mem_cons, List.not_mem_nil, or_false, not_or] at h
  obtain ⟨hdrop, hlost, hport⟩ := h
  have hbump : ((s.bump PIPE_ERRCNT1.INLINE_DROP 1).loseLine it.src it.sweep).get g = s.get g := s.get_set_ne _ (Ne.symm hdrop)
  by_cases hen : s.get PIPE_CTRL.EN = 1
  · rcases Nat.lt_or_ge 262144 (s.inlineCount + it.count) with hfull | hroom
    · rw [State.toInline_of_full hen hfull]
      split
      · exact hbump
      · rw [State.raise_get _ _ _ (by simp [hlost, hport]), State.onPipe_get, hbump]
    · rw [State.toInline_of_room hen hroom, State.onPipe_get]
  · rw [State.toInline_of_off hen]

/-! ### An item leaves (R347) -/

/-- The instant the rate limit lets a packet of `n` bytes go, and the one it sets for the next. -/
def State.spotPaced (s : State) (n : Nat) : State :=
  (s.advance s.spot.nextAt).onSpot fun p => { p with nextAt := (s.advance s.spot.nextAt).fwc + s.spotTicks n }

/-- An item on its way: in the in-line buffer on the pithead, out of a port on a crew unit. -/
def State.spotLeft (s : State) (it : SpotItem) : State :=
  if s.isPithead then (s.spotPaced it.packet.size).toInline it else (s.spotPaced it.packet.size).send it.packet

theorem State.sendSpot_of_close {s : State} {it : SpotItem} (h : it.kind = 4) :
    s.sendSpot it = (s.spotLeft it).set EXP_SPOT_STATUS.FRAMES ((s.spotLeft it).get EXP_SPOT_STATUS.FRAMES + 1) := if_pos h

theorem State.sendSpot_of_open {s : State} {it : SpotItem} (h : it.kind ≠ 4) : s.sendSpot it = s.spotLeft it := if_neg h

theorem State.spotLeft_eq (s : State) (it : SpotItem) :
    s.spotLeft it =
      if s.get CHN_STATE.TALLY = 1 then (s.spotPaced it.packet.size).toInline it else (s.spotPaced it.packet.size).send it.packet := by
  simp only [State.spotLeft, State.isPithead, decide_eq_true_eq]
  rfl

theorem State.spotLeft_frames (s : State) (it : SpotItem) :
    (s.spotLeft it).get EXP_SPOT_STATUS.FRAMES = s.get EXP_SPOT_STATUS.FRAMES := by
  rw [State.spotLeft_eq]
  split
  · rw [State.toInline_get _ _ (by decide)]; rfl
  · exact (State.send_raised _ _).2 _ (by decide)

/-- FRAMES counts, modulo its 16 bits, with a CLOSE that leaves. -/
theorem State.sendSpot_frames {s : State} {it : SpotItem} (h : it.kind = 4) :
    (s.sendSpot it).get EXP_SPOT_STATUS.FRAMES = (s.get EXP_SPOT_STATUS.FRAMES + 1) % 65536 := by
  rw [State.sendSpot_of_close h, State.get_set_self, State.spotLeft_frames]
  rfl

theorem State.sendSpot_only {s : State} {it : SpotItem} (h : it.kind = 4) : Only [EXP_SPOT_STATUS.FRAMES] (s.spotLeft it) (s.sendSpot it) := by
  rw [State.sendSpot_of_close h]
  exact (Only.refl _ _).set _ (List.mem_singleton_self _)

theorem State.reviewSpot_only (s : State) : Only [EXP_SPOT_STATUS.RUN, EXP_SPOT_STATUS.SENDING] s s.reviewSpot :=
  ((Only.refl _ s).put _ (List.mem_cons_self ..)).put _ (List.mem_cons_of_mem _ (List.mem_singleton_self _))

/-! ### EXP_SPOT_CTRL (R344, R348) -/

theorem isPlainWord_spotCtrl : isPlainWord 0x06400 = true := by decide +kernel

/-- Every field of EXP_SPOT_CTRL is the installer's. -/
theorem mayWrite_spotCtrl (b : State) (p : Path) : ∀ f ∈ fieldsAt 0x06400, b.mayWrite p f = b.mayWrite p EXP_SPOT_CTRL.EN := by
  have hrole : ∀ f ∈ fieldsAt 0x06400, f.role = EXP_SPOT_CTRL.EN.role := by decide +kernel
  intro f hf
  rw [State.mayWrite, State.mayWrite, hrole f hf]

theorem exec_expSpotCtrlWrite_of_takes {s : State} {p : Path} {w : Word} (h : s.takes p 0x06400 w.toNat = true) :
    exec (.expSpotCtrlWrite p w) s = .next ((s.booked p 0x06400 w.toNat).effSpotCtrl p w.toNat) :=
  congrArg _ (State.regWrite_takes h _)

section
variable {b : State} {p : Path} {w : Nat}

theorem State.writeFields_spotCtrl_of_mayNot (h : b.mayWrite p EXP_SPOT_CTRL.EN = false) : b.writeFields p 0x06400 w = b :=
  State.writeFields_of_mayNot (by decide) (fun f hf => (mayWrite_spotCtrl b p f hf).trans h) w

theorem State.effSpotCtrl_of_mayNot (h : b.mayWrite p EXP_SPOT_CTRL.EN = false) : b.effSpotCtrl p w = b := by
  simp only [State.effSpotCtrl, h, Bool.false_and, Bool.false_eq_true, if_false, State.writeFields_spotCtrl_of_mayNot h]

theorem State.effSpotCtrl_of_goesOn (hen : (b.writeFields p 0x06400 w).get EXP_SPOT_CTRL.EN = 1)
    (hmethod : (b.writeFields p 0x06400 w).get EXP_SPOT_CTRL.METHOD = b.get EXP_SPOT_CTRL.METHOD) :
    b.effSpotCtrl p w = b.writeFields p 0x06400 w :=
  if_neg (by simp [State.on, hen, hmethod])

variable (hmay : b.mayWrite p EXP_SPOT_CTRL.EN = true)
include hmay

theorem State.writeFields_spotCtrl_en : (b.writeFields p 0x06400 w).get EXP_SPOT_CTRL.EN = EXP_SPOT_CTRL.EN.of w :=
  State.writeFields_get_rw isPlainWord_spotCtrl (by decide +kernel) rfl (by decide +kernel) hmay w

theorem State.writeFields_spotCtrl_method : (b.writeFields p 0x06400 w).get EXP_SPOT_CTRL.METHOD = EXP_SPOT_CTRL.METHOD.of w :=
  State.writeFields_get_rw isPlainWord_spotCtrl (by decide +kernel) rfl (by decide +kernel)
    ((mayWrite_spotCtrl b p EXP_SPOT_CTRL.METHOD (by decide +kernel)).trans hmay) w

theorem State.effSpotCtrl_of_stops
    (h : (b.writeFields p 0x06400 w).get EXP_SPOT_CTRL.EN ≠ 1 ∨
      (b.writeFields p 0x06400 w).get EXP_SPOT_CTRL.METHOD ≠ b.get EXP_SPOT_CTRL.METHOD) :
    b.effSpotCtrl p w = (b.writeFields p 0x06400 w).stopStaged :=
  if_pos (by simpa [hmay, State.on] using h)

end

/-! ### STAGED stops (R348) -/

/-- The source without the frame it stages. -/
def State.unstaged (s : State) : State :=
  match s.spot.frame with
  | some f => if f.staged then s.onSpot fun p => { p with frame := none } else s
  | none => s

/-- CLEARING is to be 1 where an engine holds staged lines. -/
def State.markClearing (s : State) : State := if s.eng.engs.any fun e => e.2.staged then s.set EXP_SPOT_STATUS.CLEARING 1 else s

theorem State.stopStaged_eq (s : State) : s.stopStaged = s.unstaged.markClearing.reviewSpot :=
  (apply_ite State.reviewSpot (s.unstaged.eng.engs.any fun e => e.2.staged) (s.unstaged.set EXP_SPOT_STATUS.CLEARING 1) s.unstaged).symm

theorem State.unstaged_of_staged {s : State} {f : SpotFrame} (h : s.spot.frame = some f) (hs : f.staged = true) :
    s.unstaged = s.onSpot fun p => { p with frame := none } := by
  simp only [State.unstaged, h, hs, if_true]

theorem State.unstaged_of_other {s : State} (h : ∀ f, s.spot.frame = some f → f.staged = false) : s.unstaged = s := by
  cases hframe : s.spot.frame with
  | none => simp only [State.unstaged, hframe]
  | some f => simp only [State.unstaged, hframe, h f hframe, Bool.false_eq_true, if_false]

/-- Without the staged frame nothing but the source's record differs. -/
theorem State.unstaged_eq (s : State) : s.unstaged = { s with spot := s.unstaged.spot } := by
  unfold State.unstaged
  split
  · split <;> rfl
  · rfl

theorem State.markClearing_spot (s : State) : s.markClearing.spot = s.spot := by
  unfold State.markClearing; split <;> rfl

theorem State.markClearing_only (s : State) : Only [EXP_SPOT_STATUS.CLEARING] s s.markClearing := by
  unfold State.markClearing
  split
  · exact (Only.refl _ s).set _ (List.mem_singleton_self _)
  · exact .refl _ s

theorem State.markClearing_get (s : State) :
    s.markClearing.get EXP_SPOT_STATUS.CLEARING = if s.eng.engs.any fun e => e.2.staged then 1 else s.get EXP_SPOT_STATUS.CLEARING := by
  unfold State.markClearing
  split
  · exact s.get_set_self _ 1
  · rfl

/-! ### SPOT_CLEAR_DONE (R346, R348) -/

/-- The staging regions of every engine that holds staged lines, cleared. -/
def State.clearStaging (s : State) : State := s.onEng fun g => { g with engs := g.engs.map fun e => (e.1, e.2.clearStaging) }

theorem exec_spotClearDone_of_idle {s : State} (h : s.get EXP_SPOT_STATUS.CLEARING ≠ 1) : exec .spotClearDone s = .next s :=
  if_neg (by rw [State.on_of_ne h]; exact Bool.false_ne_true)

theorem exec_spotClearDone_of_clearing {s : State} (h : s.get EXP_SPOT_STATUS.CLEARING = 1) :
    exec .spotClearDone s = .next (s.clearStaging.set EXP_SPOT_STATUS.CLEARING 0) :=
  if_pos (State.on_of_eq h)

theorem State.clearStaging_engine (s : State) (e : Nat) : s.clearStaging.engine e = (s.engine e).clearStaging :=
  Tbl.get_map ({} : Eng) Eng.clearStaging rfl s.eng.engs e

/-- A value kept where two tests hold is lost where not both do. -/
theorem ite_ite_eq_ite_not {α : Type} (x y : Bool) (v d : α) : (if x then if y then v else d else d) = if !(x && y) then d else v := by
  cases x <;> cases y <;> rfl

/-- An address lies in a staging region where one of the two clears takes it. -/
theorem isStaging_eq_not (a : Nat) :
    isStaging a = !(decide (a < dsram + 0x3FF000 ∨ dsram + 0x3FF000 + 0x400 ≤ a) && decide (a < dsram ∨ dsram + 0x300000 ≤ a)) := by
  rw [Bool.eq_iff_iff]
  simp only [isStaging, Bool.or_eq_true, Bool.not_eq_true', Bool.and_eq_false_iff, decide_eq_true_eq, decide_eq_false_iff_not]
  simp only [dsram]
  omega

section
variable {g : Eng}

theorem Eng.clearStaging_of_other (h : g.staged = false) : g.clearStaging = g :=
  if_neg (by rw [h]; exact Bool.false_ne_true)

variable (h : g.staged = true)
include h

theorem Eng.clearStaging_of_staged :
    g.clearStaging = { g with mem := memClear (memClear g.mem dsram 0x300000) (dsram + 0x3FF000) 0x400
                              bad := Tbl.keep (fun k => !isStaging (8 * k)) g.bad, staged := false } :=
  if_pos h

/-- Nothing but the memory, its errors and the mark of the staged lines differs. -/
theorem Eng.clearStaging_eq : g.clearStaging = { g with mem := g.clearStaging.mem, bad := g.clearStaging.bad, staged := false } := by
  rw [Eng.clearStaging_of_staged h]

theorem Eng.clearStaging_mem (a : Nat) :
    Tbl.get (0 : Byte) g.clearStaging.mem a = if isStaging a then 0 else Tbl.get (0 : Byte) g.mem a := by
  have hkeep : ∀ (m : List Host.Cell) (b n : Nat), memClear m b n = Tbl.keep (fun k => decide (k < b ∨ b + n ≤ k)) m := fun _ _ _ => rfl
  rw [Eng.clearStaging_of_staged h, hkeep, hkeep, Tbl.get_keep, Tbl.get_keep, isStaging_eq_not]
  exact ite_ite_eq_ite_not ..

theorem Eng.clearStaging_bad (k : Nat) : Tbl.get 0 g.clearStaging.bad k = if isStaging (8 * k) then 0 else Tbl.get 0 g.bad k := by
  rw [Eng.clearStaging_of_staged h, Tbl.get_keep]
  cases isStaging (8 * k) <;> rfl

end

/-! ### The spot buffer (R353 to R355) -/

/-- A dropped packet: the line it carried is lost. -/
def State.spotLost (s : State) (k : Packet) : State := if (spotOf k).kind = 3 then s.loseLine k.src k.sweep else s

theorem State.spotLost_full (s : State) (k : Packet) : (s.spotLost k).pipe.full = s.pipe.full := by
  unfold State.spotLost
  split
  · exact State.loseLine_full ..
  · rfl

theorem State.spotLost_get (s : State) (k : Packet) (g : Field) : (s.spotLost k).get g = s.get g := by
  unfold State.spotLost; split <;> rfl

section
variable {s : State} {k : Packet}

theorem State.spotIntake_of_off (h : s.get PIPE_CTRL.EN ≠ 1 ∨ s.get PIPE_MEM.SPOT_MIB = 0) :
    s.spotIntake k = (s.spotLost k).bump PIPE_ERRCNT0.SPOT_DROP 1 :=
  if_pos (by simpa [State.on] using h)

section
variable (hen : s.get PIPE_CTRL.EN = 1) (hmib : s.get PIPE_MEM.SPOT_MIB ≠ 0)
include hen hmib

theorem State.spotIntake_of_full (h : s.get PIPE_MEM.SPOT_MIB * 1048576 < s.spotUsed + k.size) :
    s.spotIntake k =
      if s.pipe.full then (s.spotLost k).bump PIPE_ERRCNT0.SPOT_DROP 1
      else (((s.spotLost k).bump PIPE_ERRCNT0.SPOT_DROP 1).onPipe fun p => { p with full := true }).raise 0x0D03
        [min 4095 ((s.spotUsed + 65535) / 65536)] := by
  have hfull : ((s.spotLost k).bump PIPE_ERRCNT0.SPOT_DROP 1).pipe.full = s.pipe.full := s.spotLost_full k
  have hsize : s.spotSize < s.spotUsed + k.size := h
  rw [← hfull]
  simp only [State.spotIntake, State.on_of_eq hen, hmib, if_pos hsize, decide_false, Bool.not_true, Bool.or_self, Bool.false_eq_true, if_false]
  rfl

theorem State.spotIntake_of_room (h : s.spotUsed + k.size ≤ s.get PIPE_MEM.SPOT_MIB * 1048576) :
    s.spotIntake k =
      (s.onPipe fun p => { p with blank := false, spot := p.spot ++ [spotOf k], level := p.level + k.size }).reviewPipe := by
  have hsize : ¬ s.spotSize < s.spotUsed + k.size := Nat.not_lt.mpr h
  simp only [State.spotIntake, State.on_of_eq hen, hmib, if_neg hsize, decide_false, Bool.not_true, Bool.or_self, Bool.false_eq_true, if_false]
  rfl

end

theorem exec_spot_of_misfit (d : Bool) (h : k.fits 0x28 = false) : exec (.spot d k) s = .next (s.bump CHN_ERRCNT1.TAG_DROP 1) :=
  congrArg Host.Outcome.next (State.onPacket_of_misfit d _ h)

section
variable (d : Bool) (hfits : k.fits 0x28 = true) (hlive : s.stale k = false) (hdst : k.dst = s.get CHN_STATE.TALLY) (hone : k.dst ≠ 63)
include hfits hlive hdst hone

/-- A spotlight packet delivered to the unit is the pithead's to take. -/
theorem exec_spot_of_delivered : exec (.spot d k) s = .next (if s.isPithead then s.spotIntake k else s) := by
  change Host.Outcome.next (s.onPacket d k 0x28 _) = _
  rw [State.onPacket_of_heard d _ hfits (.inl hlive), if_neg hone, if_pos (show k.dst = s.tally from hdst)]

theorem exec_spot_of_crew (h : s.get CHN_STATE.TALLY ≠ 1) : exec (.spot d k) s = .next s := by
  rw [exec_spot_of_delivered d hfits hlive hdst hone, State.isPithead_of_ne h]
  rfl

theorem exec_spot_of_pithead (h : s.get CHN_STATE.TALLY = 1) : exec (.spot d k) s = .next (s.spotIntake k) := by
  rw [exec_spot_of_delivered d hfits hlive hdst hone, if_pos (State.isPithead_of_eq h)]

end

end

theorem State.reviewPipe_only (s : State) : Only [PIPE_STATUS.RUN, PIPE_STATUS.CTX_ON, PIPE_STATUS.LEVEL] s s.reviewPipe := by
  unfold State.reviewPipe
  split
  · exact .refl _ s
  · exact (((Only.refl _ s).put _ (by simp)).set _ (by simp)).set _ (by simp)

/-! ### PIPE_MEM (R353) -/

theorem isPlainWord_pipeMem : isPlainWord 0x0D004 = true := by decide +kernel

theorem fieldsAt_pipeMem : fieldsAt 0x0D004 = [PIPE_MEM.SPOT_MIB, PIPE_MEM.TBL_MIB] := by decide +kernel

theorem exec_pipeMemWrite_of_takes {s : State} {p : Path} {w : Word} (h : s.takes p 0x0D004 w.toNat = true) :
    exec (.pipeMemWrite p w) s = .next ((s.booked p 0x0D004 w.toNat).effPipeMem p w.toNat) :=
  congrArg _ (State.regWrite_takes h _)

/-- The MiB of the four parts of the kibble store after a write of PIPE_MEM. -/
def State.partsMib (b : State) (w : Nat) : Nat := PIPE_MEM.SPOT_MIB.of w + PIPE_MEM.TBL_MIB.of w + b.get ENG_POOL.MIB + b.get CHN_INTAKE.HWM_MIB

section
variable {b : State} {p : Path} {w : Nat}

theorem State.effPipeMem_of_mayNot (h : b.mayWrite p PIPE_MEM.SPOT_MIB = false) : b.effPipeMem p w = b :=
  if_pos (by rw [h]; rfl)

variable (hmay : b.mayWrite p PIPE_MEM.SPOT_MIB = true)
include hmay

theorem State.effPipeMem_of_refused (h : b.get PIPE_CTRL.EN = 1 ∨ 96 < b.partsMib w) : b.effPipeMem p w = b.raise 0x0D06 [w] := by
  have h : b.on PIPE_CTRL.EN = true ∨ 96 < b.partsMib w := h.imp_left State.on_of_eq
  simp only [State.effPipeMem, hmay, Bool.not_true, Bool.false_eq_true, if_false]
  exact if_pos h

theorem State.effPipeMem_of_fits (hen : b.get PIPE_CTRL.EN ≠ 1) (hsum : b.partsMib w ≤ 96) : b.effPipeMem p w = b.writeFields p 0x0D004 w := by
  have h : ¬ (b.on PIPE_CTRL.EN = true ∨ 96 < b.partsMib w) := by
    rw [State.on_of_ne hen]
    exact not_or.mpr ⟨Bool.false_ne_true, Nat.not_lt.mpr hsum⟩
  simp only [State.effPipeMem, hmay, Bool.not_true, Bool.false_eq_true, if_false]
  exact if_neg h

theorem State.writeFields_pipeMem :
    Only [PIPE_MEM.SPOT_MIB, PIPE_MEM.TBL_MIB] b (b.writeFields p 0x0D004 w) ∧
      (b.writeFields p 0x0D004 w).get PIPE_MEM.SPOT_MIB = PIPE_MEM.SPOT_MIB.of w ∧
      (b.writeFields p 0x0D004 w).get PIPE_MEM.TBL_MIB = PIPE_MEM.TBL_MIB.of w := by
  have htbl : b.mayWrite p PIPE_MEM.TBL_MIB = true := hmay
  refine ⟨?_, ?_, ?_⟩
  · rw [← fieldsAt_pipeMem]
    exact State.writeFields_only_of_isPlainWord isPlainWord_pipeMem b p w
  · exact State.writeFields_get_rw isPlainWord_pipeMem (by simp [fieldsAt_pipeMem]) rfl (by decide +kernel) hmay w
  · exact State.writeFields_get_rw isPlainWord_pipeMem (by simp [fieldsAt_pipeMem]) rfl (by decide +kernel) htbl w

end

/-- Settles O56: an item leaves by the head of the queue or of the staged frame, a written register acts by its effect after its bookkeeping, a
cleared engine by the two staging regions, and a delivered packet by the room of the spot buffer. -/
theorem spotlightFramesLeaveAndArrive : Obligations.SpotlightFramesLeaveAndArrive := by
  refine ⟨fun s => ⟨fun it rest => exec_spotPacketSend_of_queue, fun f it rest => exec_spotPacketSend_of_staged, exec_spotPacketSend_of_nothing⟩,
    fun it s => ⟨_, _, rfl, rfl, ?leaves⟩,
    fun it s => ⟨State.toInline_of_off, State.toInline_of_room, fun hen hfull => ⟨_, rfl, State.toInline_of_full hen hfull⟩⟩,
    State.reviewSpot_only, fun p w s ht => ⟨_, _, rfl, State.writeFields_only_of_isPlainWord isPlainWord_spotCtrl _ p w.toNat, ?control⟩,
    fun s => ⟨s.unstaged.markClearing, s.stopStaged_eq, ?stops⟩, fun s => ⟨exec_spotClearDone_of_idle, fun h => ?clears⟩,
    fun d k s hfits hlive hdst hone => ⟨exec_spot_of_crew d hfits hlive hdst hone, fun ht hen hmib hroom => ?joins, fun ht => ?drops⟩,
    fun d k s => exec_spot_of_misfit d, State.reviewPipe_only, fun p w s ht => ⟨_, _, rfl, rfl, ?memory⟩⟩
  case leaves =>
    refine ⟨fun hk ht => ?_, fun hk ht => ?_, fun hk => ⟨?_, State.sendSpot_frames hk⟩⟩
    · rw [State.sendSpot_of_open hk, State.spotLeft_eq, if_pos ht]; rfl
    · rw [State.sendSpot_of_open hk, State.spotLeft_eq, if_neg ht]; rfl
    · exact s.spotLeft_eq it ▸ State.sendSpot_only hk
  case control =>
    rw [exec_expSpotCtrlWrite_of_takes ht]
    refine ⟨fun h => ⟨State.writeFields_spotCtrl_of_mayNot h, by rw [State.effSpotCtrl_of_mayNot h]⟩,
      fun hmay => ⟨State.writeFields_spotCtrl_en hmay, State.writeFields_spotCtrl_method hmay, fun h => ?_, fun hen hmethod => ?_⟩⟩
    · rw [State.effSpotCtrl_of_stops hmay h]
    · rw [State.effSpotCtrl_of_goesOn hen hmethod]
  case stops =>
    rw [State.markClearing_spot]
    refine ⟨?_, ?_, fun f hf hs => ?_, fun h => ?_⟩
    · rw [← State.unstaged_eq]
      exact State.markClearing_only _
    · rw [State.markClearing_get, State.unstaged_eq]; rfl
    · rw [State.unstaged_of_staged hf hs]; rfl
    · rw [State.unstaged_of_other h]
  case clears =>
    refine ⟨_, exec_spotClearDone_of_clearing h, State.get_set_self _ _ 0, (Only.refl _ s.clearStaging).set _ (List.mem_singleton_self _),
      fun e => ?_⟩
    rw [show (s.clearStaging.set EXP_SPOT_STATUS.CLEARING 0).engine e = (s.engine e).clearStaging from s.clearStaging_engine e]
    exact ⟨Eng.clearStaging_of_other, fun h => ⟨Eng.clearStaging_eq h, Eng.clearStaging_mem h, Eng.clearStaging_bad h⟩⟩
  case joins => rw [exec_spot_of_pithead d hfits hlive hdst hone ht, State.spotIntake_of_room hen hmib hroom]; rfl
  case drops =>
    rw [exec_spot_of_pithead d hfits hlive hdst hone ht, ← s.spotLost_get k]
    obtain ⟨hframe, hcount⟩ := (s.spotLost k).bump_one PIPE_ERRCNT0.SPOT_DROP
    exact ⟨_, _, rfl, hframe, hcount, fun h => congrArg _ (State.spotIntake_of_off h),
      fun hen hmib hfull => congrArg _ (State.spotIntake_of_full hen hmib hfull)⟩
  case memory =>
    rw [exec_pipeMemWrite_of_takes ht]
    refine ⟨fun h => by rw [State.effPipeMem_of_mayNot h], fun hmay h => by rw [State.effPipeMem_of_refused hmay h], fun hmay hen hsum => ?_⟩
    rw [State.effPipeMem_of_fits hmay hen hsum]
    exact ⟨_, rfl, State.writeFields_pipeMem hmay⟩

end Sys2Proof.Machine
end

section
/-!
PROOF. Reported time as it is rated, stepped and slewed (ch. 11, R373 to R381): what a slew that ends leaves, the rows of the step table, the writes
of other paths than the foreman's, and the instants at which time lapses by itself.
-/
namespace Sys2Proof.Machine

/-! ### The slew that ends (R374, R377) -/

section
variable (s : State)

theorem State.dropSlew_slew : s.dropSlew.tim.slew = none := rfl

theorem State.dropSlew_slewing : s.dropSlew.on TIM_STATUS.SLEWING = false :=
  State.on_of_ne (by rw [State.dropSlew, State.get_set_self]; exact Nat.zero_ne_one)

theorem State.dropSlew_get {g : Field} (h : TIM_STATUS.SLEWING.key ≠ g.key) : s.dropSlew.get g = s.get g :=
  State.get_set_ne _ _ h

theorem State.dropSlew_jump : s.dropSlew.jump = (s.get TIM_JUMP.US : Int) * 1000 * 65536 := by
  rw [State.jump, State.dropSlew_get s (by decide)]
  rfl

end

/-! ### A step (R376) -/

/-- Reported time set where it was not valid: it moves by the step and is valid from now on. -/
def State.timeSet (s : State) (x : Int) : State := (s.shiftTime x).set TIM_STATUS.STATE 1

/-- The slew that a refused step starts instead. -/
def State.slewStarted (s : State) (x : Int) : State :=
  ((s.onTim fun t => { t with slew := some (x, s.fwc) }).set TIM_STATUS.STEP_REFUSED 1).set TIM_STATUS.SLEWING 1

theorem State.timeSet_only (s : State) (x : Int) : Only [TIM_STATUS.STATE] (s.shiftTime x) (s.timeSet x) :=
  (Only.refl _ _).set _ (List.mem_singleton_self _)

theorem State.timeSet_state (s : State) (x : Int) : (s.timeSet x).get TIM_STATUS.STATE = 1 := State.get_set_self ..

theorem State.slewStarted_only (s : State) (x : Int) :
    Only [TIM_STATUS.STEP_REFUSED, TIM_STATUS.SLEWING] (s.onTim fun t => { t with slew := some (x, s.fwc) }) (s.slewStarted x) :=
  ((Only.refl _ _).set _ (by simp)).set _ (by simp)

theorem State.slewStarted_refused (s : State) (x : Int) : (s.slewStarted x).get TIM_STATUS.STEP_REFUSED = 1 := by
  rw [State.slewStarted, State.get_set_ne _ _ (by decide), State.get_set_self]
  rfl

theorem State.slewStarted_slewing (s : State) (x : Int) : (s.slewStarted x).get TIM_STATUS.SLEWING = 1 := State.get_set_self ..

section
variable {s : State} {x : Int}

theorem State.applyStep_of_unset (h : s.get TIM_STATUS.STATE = 0 ∨ s.get TIM_STATUS.STATE = 3) :
    s.applyStep x = ((s.dropSlew.timeSet x).raise 0x0401 [unsigned 80 x, s.fwc]).skipAll.reviewTime := by
  rw [← State.dropSlew_get s (by decide)] at h
  exact congrArg (fun t : State => t.skipAll.reviewTime) (if_pos h)

variable (h : s.get TIM_STATUS.STATE = 1 ∨ s.get TIM_STATUS.STATE = 2)
include h

/-- In VALID and HOLDOVER the first row of the table does not apply. -/
theorem State.dropSlew_notUnset : ¬ (s.dropSlew.get TIM_STATUS.STATE = tmUNSET ∨ s.dropSlew.get TIM_STATUS.STATE = tmINVALID) := by
  rw [State.dropSlew_get s (by decide), tmUNSET, tmINVALID]
  omega

theorem State.applyStep_of_within (hx : (x.natAbs : Int) ≤ (s.get TIM_JUMP.US : Int) * 1000 * 65536) :
    s.applyStep x = ((s.dropSlew.shiftTime x).raise 0x0402 [unsigned 80 x]).skipAll.reviewTime := by
  rw [← s.dropSlew_jump] at hx
  exact congrArg (fun t : State => t.skipAll.reviewTime) ((if_neg (State.dropSlew_notUnset h)).trans (if_pos hx))

theorem State.applyStep_of_beyond (hx : (s.get TIM_JUMP.US : Int) * 1000 * 65536 < (x.natAbs : Int)) :
    s.applyStep x = ((s.dropSlew.slewStarted x).raise 0x0403 [unsigned 80 x, s.get TIM_JUMP.US]).skipAll.reviewTime := by
  rw [← s.dropSlew_get (g := TIM_JUMP.US) (by decide)]
  rw [← s.dropSlew_jump] at hx
  exact congrArg (fun t : State => t.skipAll.reviewTime) ((if_neg (State.dropSlew_notUnset h)).trans (if_neg (Int.not_le.mpr hx)))

end

/-! ### The writes of TIM_RATE, TIM_STEP2 and TIM_STEP_CMD (R374, R376, R378 to R380) -/

section
variable {s : State} {p : Path} {w : Word}

theorem exec_timRateWrite_of_takes (h : s.takes p 0x04024 w.toNat = true) :
    exec (.timRateWrite p w) s = .next ((s.booked p 0x04024 w.toNat).effTimRate p w.toNat) :=
  congrArg _ (State.regWrite_takes h _)

theorem exec_timStepCommit_of_takes (h : s.takes p 0x04030 w.toNat = true) :
    exec (.timStepCommit p w) s = .next ((s.booked p 0x04030 w.toNat).effTimStep p w.toNat) :=
  congrArg _ (State.regWrite_takes h _)

theorem exec_timStepAccept_of_takes (h : s.takes p 0x04034 w.toNat = true) :
    exec (.timStepAccept p w) s = .next ((s.booked p 0x04034 w.toNat).effTimAccept p w.toNat) :=
  congrArg _ (State.regWrite_takes h _)

end

section
variable {b : State} {p : Path}

theorem State.applyRate_only (b : State) (w : Nat) : Only [TIM_RATE.ADJ] b.reanchor (b.applyRate w) :=
  (Only.refl _ _).set _ (List.mem_singleton_self _)

theorem State.applyRate_adj (b : State) (w : Word) : (b.applyRate w.toNat).get TIM_RATE.ADJ = w.toNat :=
  (State.get_set_self ..).trans (Nat.mod_eq_of_lt w.isLt)

theorem State.stepHigh_only (b : State) (w : Nat) : Only [TIM_STEP2.NS] b (b.set TIM_STEP2.NS w) :=
  (Only.refl _ b).set _ (List.mem_singleton_self _)

theorem State.stepHigh_ns (b : State) (w : Word) : (b.set TIM_STEP2.NS w.toNat).get TIM_STEP2.NS = w.toNat :=
  (State.get_set_self ..).trans (Nat.mod_eq_of_lt w.isLt)

theorem State.effTimRate_of_ignored (h : b.hostIgnored p = true) (w : Nat) : b.effTimRate p w = b.bump TIM_ERRCNT1.HOST_IGN 1 := if_pos h

theorem State.effTimStep_of_ignored (h : b.hostIgnored p = true) (w : Nat) : b.effTimStep p w = b.bump TIM_ERRCNT1.HOST_IGN 1 := if_pos h

theorem State.effTimRate_of_heeded (h : b.hostIgnored p = false) (w : Nat) :
    b.effTimRate p w = ((b.applyRate w).noteHost p).reviewTime := if_neg (Bool.eq_false_iff.mp h)

theorem State.effTimStep_of_heeded (h : b.hostIgnored p = false) (w : Nat) :
    b.effTimStep p w = ((b.set TIM_STEP2.NS w).noteHost p).applyStep (b.set TIM_STEP2.NS w).stepDelta := if_neg (Bool.eq_false_iff.mp h)

section
variable {w : Nat} (hcmd : TIM_STEP_CMD.ACCEPT.of w = 1) (hmay : b.mayWrite p TIM_STEP_CMD.ACCEPT = true)
include hcmd hmay

theorem State.effTimAccept_of_ignored (h : b.hostIgnored p = true) : b.effTimAccept p w = b.bump TIM_ERRCNT1.HOST_IGN 1 := by
  simp only [State.effTimAccept, hcmd, hmay, h, ne_eq, not_true_eq_false, Bool.not_true, Bool.false_eq_true, or_self, if_false, if_true]

variable (h : b.hostIgnored p = false)
include h

theorem State.effTimAccept_of_idle (hslew : b.on TIM_STATUS.SLEWING = false) : b.effTimAccept p w = b := by
  simp only [State.effTimAccept, hcmd, hmay, h, hslew, ne_eq, not_true_eq_false, Bool.not_true, Bool.false_eq_true, or_self, if_false]

theorem State.effTimAccept_of_slewing (hslew : b.on TIM_STATUS.SLEWING = true) :
    b.effTimAccept p w = ((b.dropSlew.shiftTime b.slewLeft).raise 0x0405 [unsigned 80 b.slewLeft]).skipAll.reviewTime := by
  simp only [State.effTimAccept, hcmd, hmay, h, hslew, ne_eq, not_true_eq_false, Bool.not_true, Bool.false_eq_true, or_self, if_false, if_true]

end

end

/-! ### Time lapses (R377, R380, R381) -/

/-- The count at which the whole remainder `r` of a slew begun at `f` is applied at PPM. -/
def State.slewDue (s : State) (r : Int) (f : Nat) : Nat :=
  f + (r.natAbs * 1000000 + (32768 * s.get TIM_SLEW.PPM - 1)) / (32768 * s.get TIM_SLEW.PPM)

section
variable {s : State} {f : Nat}

theorem exec_timeSlewDone_of_slew {r : Int} (h : s.tim.slew = some (r, f)) :
    exec .timeSlewDone s =
      .next (((s.advance (s.slewDue r f)).dropSlew.raise 0x0404 [(s.advance (s.slewDue r f)).fwc]).reviewTime) := by
  change execTimeSlewDone s = _
  rw [execTimeSlewDone, h]
  rfl

theorem exec_hostDisciplineLapse_of_pithead (h : s.tim.lastHost = some f) (ht : s.get CHN_STATE.TALLY = 1) :
    exec .hostDisciplineLapse s = .next (s.advance (f + s.get TIM_HOLD.HOST_S * 2000000000)).reviewTime := by
  change execHostDisciplineLapse s = _
  simp only [execHostDisciplineLapse, h, State.isPithead_of_eq ht, if_true]
  rfl

/-- Holdover has lasted too long: reported time is INVALID and the holdover is over. -/
def State.timeLapsed (s : State) : State := (s.set TIM_STATUS.STATE 3).onTim fun t => { t with holdAt := none }

theorem State.timeLapsed_only (s : State) : Only [TIM_STATUS.STATE] (s.onTim fun t => { t with holdAt := none }) s.timeLapsed :=
  (Only.refl _ (s.onTim fun t => { t with holdAt := none })).set 3 (List.mem_singleton_self _)

theorem State.timeLapsed_state (s : State) : s.timeLapsed.get TIM_STATUS.STATE = 3 := State.get_set_self s TIM_STATUS.STATE 3

theorem exec_timeInvalid_of_holdover (h : s.tim.holdAt = some f) (hst : s.get TIM_STATUS.STATE = 2) (hmax : s.get TIM_HOLD.MAX_S ≠ 0) :
    exec .timeInvalid s = .next (((s.advance (f + s.get TIM_HOLD.MAX_S * 2000000000)).timeLapsed.raise 0x0408
      [(s.advance (f + s.get TIM_HOLD.MAX_S * 2000000000)).holdSeconds]).endPulses.reviewTime) := by
  change execTimeInvalid s = _
  rw [execTimeInvalid, h]
  exact if_pos ⟨hst, hmax⟩

end

/-- Settles O32: a write is its effect after its bookkeeping, which is the one count in HOST_IGN where R379 ignores it; a step goes by its row of
R376, and time lapses at the instant its slew, its discipline or its holdover ends. -/
theorem timeIsRatedSteppedAndSlewed : Obligations.TimeIsRatedSteppedAndSlewed := by
  refine ⟨fun s => ⟨s.reanchor, rfl, rfl, rfl, rfl⟩, fun p w s ht => ⟨_, rfl, fun h => ?rateIgnored, fun h => ?rate⟩,
    fun p w s ht => ⟨_, _, rfl, State.stepHigh_only _ w.toNat, State.stepHigh_ns _ w, fun h => ?stepIgnored, fun h => ?step⟩,
    fun x s => ⟨s.dropSlew, rfl, s.dropSlew_slew, s.dropSlew_slewing, fun h => ?unset, fun h => State.applyStep_of_within h, fun h hx => ?beyond⟩,
    fun p w s hcmd ht hmay => ⟨_, rfl, ?accept⟩, fun r f s h => ⟨_, rfl, exec_timeSlewDone_of_slew h⟩,
    fun f s => exec_hostDisciplineLapse_of_pithead,
    fun f s h hst hmax => ⟨_, _, rfl, State.timeLapsed_only _, State.timeLapsed_state _, exec_timeInvalid_of_holdover h hst hmax⟩⟩
  case rateIgnored => rw [exec_timRateWrite_of_takes ht, State.effTimRate_of_ignored h]
  case rate =>
    refine ⟨_, State.applyRate_only _ w.toNat, State.applyRate_adj _ w, ?_⟩
    rw [exec_timRateWrite_of_takes ht, State.effTimRate_of_heeded h]
    rfl
  case stepIgnored => rw [exec_timStepCommit_of_takes ht, State.effTimStep_of_ignored h]
  case step =>
    rw [exec_timStepCommit_of_takes ht, State.effTimStep_of_heeded h]
    rfl
  case unset => exact ⟨_, State.timeSet_only .., State.timeSet_state .., State.applyStep_of_unset h⟩
  case beyond =>
    exact ⟨_, State.slewStarted_only .., State.slewStarted_refused .., State.slewStarted_slewing .., State.applyStep_of_beyond h hx⟩
  case accept =>
    rw [exec_timStepAccept_of_takes ht]
    refine ⟨fun h => ?_, fun h hslew => ?_, fun h hslew => ?_⟩
    · rw [State.effTimAccept_of_ignored hcmd hmay h]
    · rw [State.effTimAccept_of_idle hcmd hmay h hslew]
    · rw [State.effTimAccept_of_slewing hcmd hmay h hslew]
      rfl

end Sys2Proof.Machine
end

section
/-!
PROOF. The pulse outputs (ch. 11, R395 to R399): why a setting is refused, the output as a legal one enables it, its rise at the edge that is due and
its fall.
-/
namespace Sys2Proof.Machine

/-! ### One output's record -/

@[simp] theorem State.tpulse_setTpulse_same (s : State) (n : Nat) (f : Pulse → Pulse) : (s.setTpulse n f).tpulse n = f (s.tpulse n) :=
  Tbl.get_set_same _ _ _ _
theorem State.tpulse_setTpulse_ne (s : State) {n m : Nat} (f : Pulse → Pulse) (h : m ≠ n) : (s.setTpulse n f).tpulse m = s.tpulse m :=
  Tbl.get_set_other _ _ _ _ h.symm
@[simp] theorem State.setTpulse_get (s : State) (n : Nat) (f : Pulse → Pulse) (g : Field) : (s.setTpulse n f).get g = s.get g := rfl

/-- The fields of one output's TIM_TPn_CFG are kept apart. -/
theorem tpCfg_key_ne (n : Nat) : (TIM_TP_CFG.EN n).key ≠ (TIM_TP_CFG.MODE n).key ∧ (TIM_TP_CFG.EN n).key ≠ (TIM_TP_CFG.RESULT n).key ∧
    (TIM_TP_CFG.MODE n).key ≠ (TIM_TP_CFG.RESULT n).key := by
  simp only [Field.key, TIM_TP_CFG.EN, TIM_TP_CFG.MODE, TIM_TP_CFG.RESULT]
  omega

/-! ### The settings (R395) -/

section
variable {s : State} {n m : Nat}

theorem State.tpResult_of_narrow (h : s.get (TIM_TP_WIDTH.NS n) < 10) : s.tpResult n m = 1 := if_pos h

variable (hw : 10 ≤ s.get (TIM_TP_WIDTH.NS n))
include hw

theorem State.tpResult_of_once (h : m = 0) : s.tpResult n m = 0 := by
  subst h
  simp only [State.tpResult, if_neg (Nat.not_lt.mpr hw), Nat.zero_ne_one, false_and, if_false]

variable (hm : m = 1)
include hm

theorem State.tpResult_of_short (h : s.get (TIM_TP_PERIOD.NS n) < 100) : s.tpResult n m = 2 :=
  (if_neg (Nat.not_lt.mpr hw)).trans (if_pos ⟨hm, h⟩)

theorem State.tpResult_of_crowded (hper : 100 ≤ s.get (TIM_TP_PERIOD.NS n))
    (h : s.get (TIM_TP_PERIOD.NS n) < 2 * s.get (TIM_TP_WIDTH.NS n) + 20) : s.tpResult n m = 3 :=
  (if_neg (Nat.not_lt.mpr hw)).trans ((if_neg fun ⟨_, hlt⟩ => Nat.not_lt.mpr hper hlt).trans (if_pos ⟨hm, h⟩))

end

theorem State.tpResult_lt (s : State) (n m : Nat) : s.tpResult n m < 2 ^ (TIM_TP_CFG.RESULT n).width := by
  change s.tpResult n m < 4
  simp only [State.tpResult]
  split
  · decide
  · split
    · decide
    · split <;> decide

/-! ### TIM_TPn_CFG (R395, R396, R399) -/

theorem exec_tpEnable_of_takes {s : State} {p : Path} {n : Fin 4} {w : Word} (h : s.takes p (0x04100 + 32 * n.val) w.toNat = true) :
    exec (.tpEnable p n w) s = .next ((s.booked p (0x04100 + 32 * n.val) w.toNat).effTpCfg p n.val w.toNat) :=
  congrArg _ (State.regWrite_takes h _)

/-- An output that is disabled: nothing is due and its land is low. -/
def State.tpEnded (s : State) (n m : Nat) : State := ((s.set (TIM_TP_CFG.EN n) 0).set (TIM_TP_CFG.MODE n) m).setTpulse n fun _ => {}

/-- The fields of an output that is enabled. -/
def State.tpSet (s : State) (n m : Nat) : State :=
  ((s.set (TIM_TP_CFG.MODE n) m).set (TIM_TP_CFG.RESULT n) 0).set (TIM_TP_CFG.EN n) 1

/-- An output as it is enabled: its next edge is the first at least 1 µs ahead (R396). -/
def State.tpStarted (s : State) (n m : Nat) : State :=
  (s.tpSet n m).setTpulse n fun q => { q with next := (s.tpSet n m).firstEdge n ((s.tpSet n m).timeNow + 1000 * 65536) }

section
variable {b : State} {p : Path} {n w : Nat} (hmay : b.mayWrite p (TIM_TP_CFG.EN n) = true)
include hmay

theorem State.effTpCfg_of_off (hen : (TIM_TP_CFG.EN n).of w = 0) : b.effTpCfg p n w = b.tpEnded n ((TIM_TP_CFG.MODE n).of w) := by
  simp only [State.effTpCfg, hmay, hen, Bool.not_true, Bool.false_eq_true, if_false, if_true]
  rfl

variable (hen : (TIM_TP_CFG.EN n).of w = 1)
include hen

theorem State.effTpCfg_of_refused (h : b.tpResult n ((TIM_TP_CFG.MODE n).of w) ≠ 0) :
    b.effTpCfg p n w = b.set (TIM_TP_CFG.RESULT n) (b.tpResult n ((TIM_TP_CFG.MODE n).of w)) := by
  simp only [State.effTpCfg, hmay, hen, Nat.one_ne_zero, Bool.not_true, Bool.false_eq_true, if_false]
  exact if_pos h

theorem State.effTpCfg_of_legal (h : b.tpResult n ((TIM_TP_CFG.MODE n).of w) = 0) (hwas : b.on (TIM_TP_CFG.EN n) = false) :
    b.effTpCfg p n w =
      if (TIM_TP_CFG.MODE n).of w = 0 ∧
          (b.tpStarted n ((TIM_TP_CFG.MODE n).of w)).edgeTime n 0 ≤ (b.tpStarted n ((TIM_TP_CFG.MODE n).of w)).timeNow
      then (b.tpStarted n ((TIM_TP_CFG.MODE n).of w)).raise 0x040D [n] else b.tpStarted n ((TIM_TP_CFG.MODE n).of w) := by
  simp only [State.effTpCfg, hmay, hen, h, hwas, Nat.one_ne_zero, Bool.not_true, Bool.false_eq_true, ne_eq, not_true_eq_false, if_false]
  rfl

end

section
variable (s : State) (n m : Nat)

theorem State.tpEnded_en : (s.tpEnded n m).get (TIM_TP_CFG.EN n) = 0 := by
  rw [State.tpEnded, State.setTpulse_get, State.get_set_ne _ _ (tpCfg_key_ne n).1.symm, State.get_set_self]
  rfl

theorem State.tpEnded_only :
    Only [TIM_TP_CFG.EN n, TIM_TP_CFG.MODE n] { s with tim := { s.tim with tp := (s.tpEnded n m).tim.tp } } (s.tpEnded n m) :=
  ((Only.refl _ (s.setTpulse n fun _ => {})).set 0 (by simp)).set m (by simp)

theorem State.tpStarted_next :
    ((s.tpStarted n m).tpulse n).next = (s.tpStarted n m).firstEdge n ((s.tpStarted n m).timeNow + 1000 * 65536) :=
  congrArg Pulse.next (State.tpulse_setTpulse_same ..)

theorem State.tpStarted_en : (s.tpStarted n m).get (TIM_TP_CFG.EN n) = 1 := by
  rw [State.tpStarted, State.setTpulse_get, State.tpSet, State.get_set_self]
  rfl

theorem State.tpStarted_result : (s.tpStarted n m).get (TIM_TP_CFG.RESULT n) = 0 := by
  rw [State.tpStarted, State.setTpulse_get, State.tpSet, State.get_set_ne _ _ (tpCfg_key_ne n).2.1, State.get_set_self]
  rfl

theorem State.tpStarted_mode : (s.tpStarted n m).get (TIM_TP_CFG.MODE n) = m % 2 ^ (TIM_TP_CFG.MODE n).width := by
  rw [State.tpStarted, State.setTpulse_get, State.tpSet, State.get_set_ne _ _ (tpCfg_key_ne n).1,
    State.get_set_ne _ _ (tpCfg_key_ne n).2.2.symm, State.get_set_self]

theorem State.tpStarted_only :
    Only [TIM_TP_CFG.EN n, TIM_TP_CFG.MODE n, TIM_TP_CFG.RESULT n] { s with tim := { s.tim with tp := (s.tpStarted n m).tim.tp } }
      (s.tpStarted n m) :=
  (((Only.refl _ _).set (f := TIM_TP_CFG.MODE n) m (by simp)).set (f := TIM_TP_CFG.RESULT n) 0 (by simp)).set
    (f := TIM_TP_CFG.EN n) 1 (by simp)

end

/-! ### The edges (R396, R397, R400) -/

/-- The count at which reported time reaches edge `k` of an output. -/
def State.edgeCount (s : State) (n k : Nat) : Nat := (s.countAt (s.edgeTime n k)).toNat

/-- The unit at edge `k` of an output, with COARSE on the next CANARY cycle. -/
def State.atEdge (s : State) (n k : Nat) : State :=
  s.advance (if s.coarse = true then s.fwc + (s.edgeCount n k - s.fwc + 79) / 80 * 80 else s.edgeCount n k)

/-- The edge after edge `k`: the following one in periodic mode, none in once mode. -/
def State.edgeAfter (s : State) (n k : Nat) : Option Nat := if s.on (TIM_TP_CFG.MODE n) then some (k + 1) else none

/-- The ticks a pulse stays high: twice WIDTH, and twice that in holdover or while the origin holds over. -/
def State.pulseTicks (s : State) (n : Nat) : Nat :=
  (if s.get TIM_STATUS.STATE = 2 ∨ s.on TIM_STATUS.ORIGIN_HOLD = true then 4 else 2) * s.get (TIM_TP_WIDTH.NS n)

section
variable {n : Fin 4} {k : Nat} {s : State}

theorem exec_tpulseRise_of_none (h : (s.tpulse n.val).next = none) : exec (.tpulseRise n) s = .next s := by
  change execTpulseRise n s = _
  rw [execTpulseRise, h]

section
variable (h : (s.tpulse n.val).next = some k)
include h

theorem exec_tpulseRise_of_running (hrun : s.pulsesRun = true) :
    exec (.tpulseRise n) s = .next ((s.atEdge n k).setTpulse n fun p =>
      { p with next := s.edgeAfter n k, high := true, fall := (s.atEdge n k).fwc + s.pulseTicks n }) := by
  have hrun' : (s.atEdge n k).pulsesRun = true := hrun
  have hticks : (if s.get TIM_STATUS.STATE = tmHOLDOVER ∨ s.on TIM_STATUS.ORIGIN_HOLD = true then 2 * (2 * s.get (TIM_TP_WIDTH.NS n))
      else 2 * s.get (TIM_TP_WIDTH.NS n)) = s.pulseTicks n := by
    by_cases hwide : s.get TIM_STATUS.STATE = 2 ∨ s.on TIM_STATUS.ORIGIN_HOLD = true
    · exact (if_pos hwide).trans (by rw [State.pulseTicks, if_pos hwide]; omega)
    · exact (if_neg hwide).trans (by rw [State.pulseTicks, if_neg hwide])
  rw [← hticks]
  change execTpulseRise n s = _
  rw [execTpulseRise, h]
  exact congrArg _ (congrArg _ (funext fun p => if_pos hrun'))

theorem exec_tpulseRise_of_quiet (hrun : s.pulsesRun = false) :
    exec (.tpulseRise n) s = .next ((s.atEdge n k).setTpulse n fun p => { p with next := s.edgeAfter n k }) := by
  have hrun' : ¬ (s.atEdge n k).pulsesRun = true := Bool.eq_false_iff.mp hrun
  change execTpulseRise n s = _
  rw [execTpulseRise, h]
  exact congrArg _ (congrArg _ (funext fun p => if_neg hrun'))

end

theorem exec_tpulseFall_of_high (h : (s.tpulse n.val).high = true) :
    exec (.tpulseFall n) s = .next ((s.advance (s.tpulse n.val).fall).setTpulse n fun p => { p with high := false }) := if_pos h

theorem exec_tpulseFall_of_low (h : (s.tpulse n.val).high = false) : exec (.tpulseFall n) s = .next s := if_neg (Bool.eq_false_iff.mp h)

end

/-- Settles O33: a write of TIM_TPn_CFG ends, refuses or starts its output by EN and the settings, and an edge writes one output's record. -/
theorem pulseOutputs : Obligations.PulseOutputs := by
  refine ⟨fun n m s => ⟨_, rfl, State.tpResult_of_narrow, State.tpResult_of_short, State.tpResult_of_crowded, State.tpResult_of_once⟩,
    fun p n w s ht hmay => ⟨_, _, rfl, rfl, fun hen => ?ended, fun hen hres => ?refused, fun hen hres hwas => ?started⟩,
    fun n k s h => ⟨s.edgeCount n k, s.atEdge n k, ?rise⟩, fun n s => exec_tpulseRise_of_none, fun n s h => ?fall,
    fun n s => exec_tpulseFall_of_low⟩
  case ended =>
    rw [exec_tpEnable_of_takes ht, State.effTpCfg_of_off hmay hen]
    exact ⟨_, rfl, State.tpEnded_en .., State.tpulse_setTpulse_same .., fun k hk => State.tpulse_setTpulse_ne _ _ hk, State.tpEnded_only ..⟩
  case refused =>
    rw [exec_tpEnable_of_takes ht, State.effTpCfg_of_refused hmay hen hres]
    exact ⟨_, rfl, (State.get_set_self ..).trans (Nat.mod_eq_of_lt (State.tpResult_lt ..)), (Only.refl _ _).set _ (List.mem_singleton_self _)⟩
  case started =>
    rw [exec_tpEnable_of_takes ht, State.effTpCfg_of_legal hmay hen hres hwas]
    exact ⟨_, State.tpStarted_next .., State.tpStarted_en .., State.tpStarted_result .., State.tpStarted_mode .., State.tpStarted_only .., rfl⟩
  case rise =>
    have hself (f : Pulse → Pulse) : ((s.atEdge n k).setTpulse n f).tpulse n = f (s.tpulse n) := State.tpulse_setTpulse_same ..
    cases hrun : s.pulsesRun with
    | true =>
      exact ⟨_, rfl, rfl, exec_tpulseRise_of_running h hrun, congrArg Pulse.next (hself _),
        fun _ => ⟨congrArg Pulse.high (hself _), congrArg Pulse.fall (hself _)⟩, nofun, fun j hj => State.tpulse_setTpulse_ne _ _ hj, rfl⟩
    | false =>
      have hquiet := hself fun p => { p with next := s.edgeAfter n k }
      exact ⟨_, rfl, rfl, exec_tpulseRise_of_quiet h hrun, congrArg Pulse.next hquiet, nofun, fun _ => by rw [hquiet],
        fun j hj => State.tpulse_setTpulse_ne _ _ hj, rfl⟩
  case fall =>
    exact ⟨_, exec_tpulseFall_of_high h, congrArg Pulse.high (State.tpulse_setTpulse_same ..), fun j hj => State.tpulse_setTpulse_ne _ _ hj, rfl⟩

end Sys2Proof.Machine
end

section
/-!
PROOF. Where an event goes (ch. 12, R430; R302, R460, R482, R505): while SYS and the firmware run it is emitted, to the queue or to the pithead;
until then the pages of the always-on controller and of the canary have a wait of 16 each.
-/
namespace Sys2Proof.Machine

/-- The events of a stopped unit wait: SYS is stopped, the firmware boots, or the foreman stays in the ROM loader. -/
def State.eventsWait (s : State) : Prop := s.pagesUp = false ∨ s.pwr.boot ≠ 0 ∨ s.pwr.rom = true

section
variable {s : State} {code : Nat} (data : List Nat)

theorem State.raise_of_running (hup : s.pagesUp = true) (hboot : s.pwr.boot = 0) (hrom : s.pwr.rom = false) :
    s.raise code data = s.emit (s.mkEvent code data) :=
  if_pos (by rw [hup, hboot, hrom]; rfl)

theorem State.emit_of_crew (h : s.inCrew = true) (e : Event) : s.emit e = s.sendCtl 0x18 5 1 (eventBytes e) := if_pos h

theorem State.emit_of_room (h : s.inCrew = false) (hroom : s.events.length < 1024) (e : Event) :
    s.emit e = { s with events := s.events ++ [e] } := by
  rw [State.emit, h, State.enqueueEvent, if_pos hroom]
  rfl

variable (h : s.eventsWait)
include h

theorem State.eventsWait.not_running : ¬ (s.pagesUp && decide (s.pwr.boot = 0) && !s.pwr.rom) = true := by
  rw [Bool.and_eq_true, Bool.and_eq_true, decide_eq_true_eq, Bool.not_eq_true']
  rintro ⟨⟨hup, hboot⟩, hrom⟩
  rcases h with h | h | h
  · rw [hup] at h; cases h
  · exact h hboot
  · rw [hrom] at h; cases h

theorem State.raise_of_aon (hpage : code / 256 ∈ [0x01, 0x02, 0x11]) :
    s.raise code data = if s.heldAon.length < 16 then { s with heldAon := s.heldAon ++ [s.mkEvent code data] } else s :=
  (if_neg h.not_running).trans (if_pos (by simpa using hpage))

theorem State.raise_of_canary (hpage : code / 256 ∈ [0x03, 0x0F, 0x12]) :
    s.raise code data = if s.heldCanary.length < 16 then { s with heldCanary := s.heldCanary ++ [s.mkEvent code data] } else s := by
  have hcanary : code / 256 = 0x03 ∨ code / 256 = 0x0F ∨ code / 256 = 0x12 := by simpa using hpage
  exact (if_neg h.not_running).trans ((if_neg (by omega)).trans (if_pos hcanary))

end

/-- Settles O7: `raise` emits while SYS and the firmware run, and otherwise picks the wait by the page of the code. -/
theorem eventsReachTheForeman : Obligations.EventsReachTheForeman := by
  refine fun s code data => ⟨fun hup hboot hrom hcrew hroom => ?_, fun hup hboot hrom hcrew => ?_, State.raise_of_aon data,
    State.raise_of_canary data, s.raise_raised code data⟩
  · exact (State.raise_of_running data hup hboot hrom).trans (State.emit_of_room hcrew hroom _)
  · exact (State.raise_of_running data hup hboot hrom).trans (State.emit_of_crew hcrew _)

end Sys2Proof.Machine
end

section
/-!
PROOF. The commands of a submission ring (ch. 12, R419 to R426, R431): the read its descriptor was fetched by, the wait behind earlier commands, the
status of a command with an error, the effect of one without, and the entry in the bound completion ring.
-/
namespace Sys2Proof.Machine

/-! ### The read a descriptor arrives for (R419, R421) -/

theorem takeFirst_eq_none {α : Type} {p : α → Bool} {l : List α} (h : ∀ x ∈ l, p x = false) : takeFirst p l = none := by
  induction l with
  | nil => rfl
  | cons x l ih => simp [takeFirst, h x, ih fun y hy => h y (List.mem_cons_of_mem _ hy)]

theorem takeFirst_append {α : Type} {p : α → Bool} {q : α} (a b : List α) (ha : ∀ x ∈ a, p x = false) (hq : p q = true) :
    takeFirst p (a ++ q :: b) = some (q, a ++ b) := by
  induction a with
  | nil => simp [takeFirst, hq]
  | cons x a ih => simp [takeFirst, ha x, ih fun y hy => ha y (List.mem_cons_of_mem _ hy)]

/-- The unit with the descriptor of a submission ring at hand: the reads left, none of the ring ahead, and the consumer index moved on. -/
def State.descriptorAtHand (s : State) (sq : Nat) (left : List HostRead) : State :=
  (s.onHst fun h => { h with reads := left, sqFetched := Tbl.erase h.sqFetched sq }).stepIndex 0 sq

section
variable {s : State} {d : Desc} (opc : Nat)

/-- A read is not the one by which a ring's descriptor is fetched. -/
theorem descriptorRead_eq_false {q : HostRead} (h : q.kind ≠ 0 ∨ q.ring ≠ d.sq) : decide (q.kind = 0 ∧ q.ring = d.sq) = false :=
  decide_eq_false fun ⟨hkind, hring⟩ => h.elim (· hkind) (· hring)

theorem State.execFetched_of_no_read (h : s.canIssue = false ∨ ∀ q ∈ s.hst.reads, q.kind ≠ 0 ∨ q.ring ≠ d.sq) :
    s.execFetched opc d = .next s := by
  refine congrArg Host.Outcome.next ?_
  rcases h with h | h
  · exact if_neg (by rw [h]; exact Bool.false_ne_true)
  · rw [State.descriptor, takeFirst_eq_none fun q hq => descriptorRead_eq_false (h q hq)]
    exact ite_self s

theorem State.execFetched_of_read {q : HostRead} {a b : List HostRead} (hissue : s.canIssue = true) (hreads : s.hst.reads = a ++ q :: b)
    (hkind : q.kind = 0) (hring : q.ring = d.sq) (ha : ∀ x ∈ a, x.kind ≠ 0 ∨ x.ring ≠ d.sq) :
    s.execFetched opc d = .next ((s.descriptorAtHand d.sq (a ++ b)).beginCommand opc d).settleRings := by
  refine congrArg Host.Outcome.next ((if_pos hissue).trans ?_)
  rw [State.descriptor, hreads, takeFirst_append a b (fun x hx => descriptorRead_eq_false (ha x hx)) (decide_eq_true ⟨hkind, hring⟩)]
  rfl

end

/-! ### A command begins (R420) -/

section
variable {s : State} {d : Desc} (opc : Nat)

theorem State.beginCommand_of_waits (h : (∃ c ∈ s.hst.held, c.2.sq = d.sq) ∨ s.waitsBehind d = true) :
    s.beginCommand opc d = s.onHst fun h => { h with held := h.held ++ [(opc, d)] } :=
  if_pos (by simpa [List.any_eq_true] using h)

theorem State.beginCommand_of_free (hheld : ∀ c ∈ s.hst.held, c.2.sq ≠ d.sq) (hwait : s.waitsBehind d = false) :
    s.beginCommand opc d = s.startCommand opc d :=
  if_neg (by simpa [hwait] using hheld)

end

/-! ### The error of a command (R426) -/

section
variable {s : State} {opc : Nat} {d : Desc}

theorem State.commandError_of_unknown (h : opc ∉ opcodes) : s.commandError opc d = some 1 :=
  if_pos (by simpa using h)

variable (hopc : opc ∈ opcodes)
include hopc

/-- A known opcode is no error of its own: the operands decide next. -/
theorem State.commandError_of_known : s.commandError opc d =
    if !s.operandsFit opc d then some 2
    else if opc = opBULK_WRITE && !s.holds .bar0 .installer then some 3
    else if !d.isLocal && !s.reaches d.tally then some 4
    else none :=
  if_neg (by simpa using hopc)

theorem State.commandError_of_misfit (hfit : s.operandsFit opc d = false) : s.commandError opc d = some 2 :=
  (State.commandError_of_known hopc).trans (if_pos (by rw [hfit]; rfl))

variable (hfit : s.operandsFit opc d = true)
include hfit

theorem State.commandError_of_fit : s.commandError opc d =
    if opc = opBULK_WRITE && !s.holds .bar0 .installer then some 3 else if !d.isLocal && !s.reaches d.tally then some 4 else none :=
  (State.commandError_of_known hopc).trans (if_neg (by rw [hfit]; exact Bool.false_ne_true))

variable (hrole : opc = opBULK_WRITE → s.holds .bar0 .installer = true)
include hrole

/-- The unit addressed decides last. -/
theorem State.commandError_of_allowed : s.commandError opc d = if !d.isLocal && !s.reaches d.tally then some 4 else none :=
  (State.commandError_of_fit hopc hfit).trans (if_neg (by
    rw [Bool.and_eq_true, decide_eq_true_eq, Bool.not_eq_true']
    rintro ⟨hbulk, hno⟩
    rw [hrole hbulk] at hno
    cases hno))

theorem State.commandError_of_unreachable (htally : 1 < d.tally) (h : bit s.joinedMap d.tally = false ∨ (s.peer d.tally).dead = true) :
    s.commandError opc d = some 4 := by
  have hfar : d.isLocal = false := decide_eq_false (Nat.not_le.mpr htally)
  have hreach : s.reaches d.tally = false := by
    unfold State.reaches
    rcases h with h | h <;> simp [h]
  exact (State.commandError_of_allowed hopc hfit hrole).trans (if_pos (by rw [hfar, hreach]; rfl))

theorem State.commandError_of_local (htally : d.tally ≤ 1) : s.commandError opc d = none := by
  have hnear : d.isLocal = true := decide_eq_true htally
  exact (State.commandError_of_allowed hopc hfit hrole).trans (if_neg (by rw [hnear]; exact Bool.false_ne_true))

end

theorem State.commandError_of_unroled {s : State} {d : Desc} (hfit : s.operandsFit opBULK_WRITE d = true)
    (hrole : s.holds .bar0 .installer = false) : s.commandError opBULK_WRITE d = some 3 :=
  (State.commandError_of_fit (by decide) hfit).trans (if_pos (by rw [hrole]; rfl))

/-! ### A command with an error -/

section
variable {s : State} {opc e : Nat} {d : Desc}

theorem State.startCommand_of_error (h : s.commandError opc d = some e) (hplain : opc ≠ opBULK_WRITE ∨ e ≠ 3) :
    s.startCommand opc d = s.complete d.sq d.cid opc e [] := by
  have hno : ¬ (opc = opBULK_WRITE ∧ e = 3) := fun ⟨hbulk, hstatus⟩ => hplain.elim (· hbulk) (· hstatus)
  simp only [State.startCommand, h, if_neg hno]

theorem State.startCommand_of_unroled (h : s.commandError opBULK_WRITE d = some 3) :
    s.startCommand opBULK_WRITE d = (s.bookBulk 0 d.tally d.engine 3 0 0).complete d.sq d.cid opBULK_WRITE 3 [] := by
  simp only [State.startCommand, h, and_self, if_true]

end

/-! ### A command without an error (R424 to R426, R431, R509 to R512) -/

/-- A command takes the next TAG and is in flight; the count at which its request is sent, if it leaves as a packet. -/
def State.inFlight (s : State) (opc : Nat) (d : Desc) (sent : Option Nat) : State :=
  s.onHst fun h => { h with tag := (h.tag + 1) % 65536, flight := h.flight ++ [⟨opc, d, s.hst.tag, sent, 0, 0, 0, 0xFFFFFFFF⟩] }

/-- The head of a proxied command: TAG, COUNT, ROLES and OFFSET. -/
def State.proxyHead (s : State) (d : Desc) : List Nat := leBytes s.hst.tag 2 ++ [d.count, s.rolesByte] ++ leBytes d.offset 4

section
variable {s : State} {d : Desc}

theorem State.startCommand_nop (h : s.commandError opNOP d = none) : s.startCommand opNOP d = s.complete d.sq d.cid opNOP 0 [] := by
  simp only [State.startCommand, h, if_true]

theorem State.startCommand_bulk_of_full (h : s.commandError opBULK_WRITE d = none) (hroom : s.sbRoom = false) :
    s.startCommand opBULK_WRITE d = (s.bump NVS_ERRCNT1.SB_REFUSED 1).complete d.sq d.cid opBULK_WRITE 3 [] := by
  simp only [State.startCommand, h, hroom]
  rfl

theorem State.startCommand_bulk_of_room (h : s.commandError opBULK_WRITE d = none) (hroom : s.sbRoom = true) :
    s.startCommand opBULK_WRITE d = ((s.inFlight opBULK_WRITE d none).touchSession .bar0 .installer).pumpBulks := by
  simp only [State.startCommand, h, hroom]
  rfl

section
variable (hlocal : d.tally ≤ 1)
include hlocal

theorem Desc.isLocal_of_le : d.isLocal = true := decide_eq_true hlocal

theorem State.startCommand_regRead_of_local (h : s.commandError opREG_READ d = none) :
    s.startCommand opREG_READ d = (readWords .bar0 d.count d.offset s).1.complete d.sq d.cid opREG_READ 0
      (((readWords .bar0 d.count d.offset s).2.map fun w => leBytes w 4).flatten) := by
  simp only [State.startCommand, h, Desc.isLocal_of_le hlocal]
  rfl

theorem State.startCommand_regWrite_of_local (h : s.commandError opREG_WRITE d = none) :
    s.startCommand opREG_WRITE d = (writeWords .bar0 d.words 0 d.offset (s, 0, 0)).1.complete d.sq d.cid opREG_WRITE
      (writeStatus (writeWords .bar0 d.words 0 d.offset (s, 0, 0)).2.1 (writeWords .bar0 d.words 0 d.offset (s, 0, 0)).2.2)
      (leBytes (writeWords .bar0 d.words 0 d.offset (s, 0, 0)).2.1 2) := by
  simp only [State.startCommand, h, Desc.isLocal_of_le hlocal]
  rfl

end

section
variable (hfar : 1 < d.tally)
include hfar

theorem Desc.isLocal_of_lt : d.isLocal = false := decide_eq_false (Nat.not_le.mpr hfar)

theorem State.startCommand_regRead_of_crew (h : s.commandError opREG_READ d = none) :
    s.startCommand opREG_READ d = (s.inFlight opREG_READ d (some s.fwc)).sendCtl 0x14 4 d.tally (s.proxyHead d) := by
  simp only [State.startCommand, h, Desc.isLocal_of_lt hfar]
  rfl

theorem State.startCommand_regWrite_of_crew (h : s.commandError opREG_WRITE d = none) :
    s.startCommand opREG_WRITE d = (s.inFlight opREG_WRITE d (some s.fwc)).sendCtl 0x15 4 d.tally
      (s.proxyHead d ++ (d.words.map fun w => leBytes w 4).flatten) := by
  simp only [State.startCommand, h, Desc.isLocal_of_lt hfar]
  rfl

end

/-- A session command completes with the status and the result of its session operation. -/
theorem State.startCommand_session {opc : Nat} (hopc : opc ∈ [0x10, 0x11, 0x12]) (h : s.commandError opc d = none) :
    s.startCommand opc d = (s.sessionCommand opc d).1.complete d.sq d.cid opc (s.sessionCommand opc d).2.1 (s.sessionCommand opc d).2.2 := by
  simp only [List.mem_cons, List.not_mem_nil, or_false] at hopc
  rw [State.startCommand, h]
  rcases hopc with rfl | rfl | rfl <;> rfl

theorem State.startCommand_close (h : s.commandError opSESSION_CLOSE d = none) :
    s.startCommand opSESSION_CLOSE d = (s.closeSession 0 d.role 0).complete d.sq d.cid opSESSION_CLOSE 0 [] :=
  State.startCommand_session (by decide) h

theorem State.startCommand_of_lockedOut {opc : Nat} (hopc : opc ∈ [0x10, 0x11]) (h : s.commandError opc d = none)
    (hlock : s.lockedOut 0 d.role = true) : s.startCommand opc d = s.complete d.sq d.cid opc 9 [] := by
  have hclose : opc ≠ opSESSION_CLOSE := by rintro rfl; revert hopc; decide
  have hsession : s.sessionCommand opc d = (s, 9, []) := (if_neg hclose).trans (if_pos hlock)
  rw [State.startCommand_session (List.mem_append_left [0x12] hopc) h, hsession]

section
variable (hlock : s.lockedOut 0 d.role = false)
include hlock

theorem State.startCommand_challenge (h : s.commandError opSESSION_CHALLENGE d = none) :
    s.startCommand opSESSION_CHALLENGE d = (s.challenge 0 d.role).1.complete d.sq d.cid opSESSION_CHALLENGE 0
      ((s.challenge 0 d.role).2.nonce ++ leBytes (s.challenge 0 d.role).2.ctr 8) := by
  have hsession : s.sessionCommand opSESSION_CHALLENGE d =
      ((s.challenge 0 d.role).1, 0, (s.challenge 0 d.role).2.nonce ++ leBytes (s.challenge 0 d.role).2.ctr 8) :=
    (if_neg (by decide)).trans ((if_neg (by rw [hlock]; exact Bool.false_ne_true)).trans (if_pos rfl))
  rw [State.startCommand_session (by decide) h, hsession]

theorem State.startCommand_open (h : s.commandError opSESSION_OPEN d = none) :
    s.startCommand opSESSION_OPEN d = (s.respond 0 d.role ((d.operands.drop 8).take 32)).1.complete d.sq d.cid opSESSION_OPEN
      (if (s.respond 0 d.role ((d.operands.drop 8).take 32)).2 then 0 else 9) [] := by
  have hsession : s.sessionCommand opSESSION_OPEN d = ((s.respond 0 d.role ((d.operands.drop 8).take 32)).1,
      if (s.respond 0 d.role ((d.operands.drop 8).take 32)).2 then 0 else 9, []) :=
    (if_neg (by decide)).trans ((if_neg (by rw [hlock]; exact Bool.false_ne_true)).trans (if_neg (by decide)))
  rw [State.startCommand_session (by decide) h, hsession]

end

end

/-! ### The completion of a command (R418, R421, R426) -/

/-- The 64 bytes of a completion entry (R426). -/
def State.completionEntry (s : State) (sq cid opc status : Nat) (result : List Nat) : List Nat :=
  leBytes cid 2 ++ [sq, opc] ++ leBytes status 2 ++ leBytes (s.get (HST_SQ_STATUS.INDEX sq)) 2 ++ (result ++ zeroBytes 48).take 48 ++
    leBytes (s.fwc / 64) 4 ++ zeroBytes 3 ++ [s.get (HST_CQ_STATUS.PHASE (s.get (HST_SQ_CFG.CQ sq)))]

theorem State.hostWrite_of_issues {s : State} (h : s.canIssue = true) (addr : Nat) (bytes : List Nat) :
    s.hostWrite addr bytes = s.onHst fun h => { h with writes := h.writes ++ [⟨addr, bytes⟩] } := by
  rw [State.hostWrite, h]
  rfl

/-- One more entry of a completion ring is not yet signalled; the first notes its count. -/
def State.countUnsignalled (s : State) (n : Nat) : State :=
  s.onHst fun h => { h with
    unsignalled := Tbl.set 0 h.unsignalled n (Tbl.get 0 h.unsignalled n + 1)
    firstUnsignalled := if Tbl.get 0 h.unsignalled n = 0 then Tbl.set none h.firstUnsignalled n (some s.fwc) else h.firstUnsignalled }

section
variable {s : State} {sq cid opc st : Nat} {res : List Nat}

theorem State.complete_of_off
    (h : s.canIssue = false ∨ s.get (HST_CQ_CFG.EN (s.get (HST_SQ_CFG.CQ sq))) ≠ 1 ∨ s.get CHN_STATE.TALLY ≠ 1) :
    s.complete sq cid opc st res = s := by
  refine if_pos ?_
  rcases h with h | h | h
  · rw [h]; rfl
  · rw [State.on_of_ne h, Bool.not_false, Bool.or_true]; rfl
  · rw [State.isPithead_of_ne h, Bool.not_false, Bool.or_true]

theorem State.complete_of_on (hissue : s.canIssue = true) (hen : s.get (HST_CQ_CFG.EN (s.get (HST_SQ_CFG.CQ sq))) = 1)
    (hpit : s.get CHN_STATE.TALLY = 1) {n : Nat} (hn : n = s.get (HST_SQ_CFG.CQ sq)) :
    s.complete sq cid opc st res = (((s.onHst fun h => { h with
      writes := h.writes ++ [⟨s.ringAddr 1 n (s.get (HST_CQ_STATUS.INDEX n)), s.completionEntry sq cid opc st res⟩] }).stepIndex 1 n).countUnsignalled
        n).signalCq n := by
  subst hn
  rw [← State.hostWrite_of_issues hissue]
  exact if_neg (by rw [hissue, State.on_of_eq hen, State.isPithead_of_eq hpit]; exact Bool.false_ne_true)

end

theorem State.stepIndex_hst (s : State) (k n : Nat) : (s.stepIndex k n).hst = s.hst := by
  simp only [State.stepIndex]
  split <;> rfl

/-- A frame of registers goes on over a change of the host interface's record. -/
theorem Only.onHst {fs : List Field} {s t : State} {f : Hst → Hst} (h : Only fs (s.onHst f) t) (g : Hst → Hst) :
    Only fs { s with hst := (t.onHst g).hst } (t.onHst g) := by
  obtain ⟨hframe, hregs⟩ := h
  exact ⟨by rw [hframe]; rfl, hregs⟩

theorem State.stepIndex_only (s : State) (k n : Nat) : Only [ringIndex k n, ringPhase k n] s (s.stepIndex k n) := by
  have h : Only [ringIndex k n, ringPhase k n] s (s.set (ringIndex k n) ((s.get (ringIndex k n) + 1) % s.ringSize k n)) :=
    (Only.refl _ s).set _ (by simp)
  simp only [State.stepIndex]
  split
  · exact h.set _ (by simp)
  · exact h

/-- The phase of a completion ring stands beside its index, in the same register. -/
theorem State.stepIndex_cq_index (s : State) (n : Nat) :
    (s.stepIndex 1 n).get (HST_CQ_STATUS.INDEX n) = (s.get (HST_CQ_STATUS.INDEX n) + 1) % s.ringSize 1 n % 65536 := by
  have hkey : (ringPhase 1 n).key ≠ (HST_CQ_STATUS.INDEX n).key := by
    simp [ringPhase, HST_CQ_STATUS.PHASE, HST_CQ_STATUS.INDEX, Field.key]
  have hset (v : Nat) : (s.set (ringIndex 1 n) v).get (HST_CQ_STATUS.INDEX n) = v % 65536 := State.get_set_self ..
  simp only [State.stepIndex]
  split
  · rw [State.get_set_ne _ _ hkey, hset]; rfl
  · rw [hset]; rfl

/-- Settles O49: a descriptor that arrives begins its command, which starts unless it must wait; a started command completes by its error or by its
opcode's effect. -/
theorem hostCommandsComplete : Obligations.HostCommandsComplete := by
  refine ⟨fun d s h => ?noRead, fun d q a b s hissue hreads hkind hring ha => ?read, fun opc d s => ?begun, fun opc d s => ?errors,
    fun d s => ?effects, fun sq cid opc st res s => ?completed⟩
  case noRead =>
    have hstay (opc : Nat) : s.execFetched opc d = .next s := State.execFetched_of_no_read opc h
    exact ⟨hstay opNOP, hstay opREG_READ, hstay opREG_WRITE, hstay opBULK_WRITE, hstay opSESSION_CHALLENGE, hstay opSESSION_OPEN, hstay opSESSION_CLOSE⟩
  case read =>
    have hbegin (opc : Nat) : s.execFetched opc d = _ := State.execFetched_of_read opc hissue hreads hkind hring ha
    refine ⟨s.descriptorAtHand d.sq (a ++ b), rfl, hbegin opNOP, hbegin opREG_READ, hbegin opREG_WRITE, hbegin opBULK_WRITE,
      hbegin opSESSION_CHALLENGE, hbegin opSESSION_OPEN, hbegin opSESSION_CLOSE, fun hheld hwait => ?_⟩
    have hstart (opc : Nat) {t : State} (h : (s.descriptorAtHand d.sq (a ++ b)).startCommand opc d = t) :
        s.execFetched opc d = .next t.settleRings := by
      rw [hbegin, State.beginCommand_of_free opc (by rw [State.descriptorAtHand, State.stepIndex_hst]; exact hheld) hwait, h]
    exact ⟨fun h => hstart opNOP (State.startCommand_nop h),
      fun h hl => ⟨_, rfl, hstart opREG_READ (State.startCommand_regRead_of_local hl h)⟩,
      fun h hl => ⟨_, rfl, hstart opREG_WRITE (State.startCommand_regWrite_of_local hl h)⟩,
      fun h hroom => ⟨_, rfl, hstart opBULK_WRITE (State.startCommand_bulk_of_room h hroom)⟩,
      fun h hlock => hstart opSESSION_CHALLENGE (State.startCommand_challenge hlock h),
      fun h hlock => ⟨_, rfl, hstart opSESSION_OPEN (State.startCommand_open hlock h)⟩,
      fun h => hstart opSESSION_CLOSE (State.startCommand_close h)⟩
  case begun =>
    exact ⟨State.beginCommand_of_waits opc, State.beginCommand_of_free opc, fun e => State.startCommand_of_error, State.startCommand_of_unroled⟩
  case errors =>
    exact ⟨State.commandError_of_unknown, State.commandError_of_misfit, State.commandError_of_unroled,
      State.commandError_of_unreachable, State.commandError_of_local⟩
  case effects =>
    exact ⟨State.startCommand_nop, fun h hl => ⟨_, rfl, State.startCommand_regRead_of_local hl h⟩,
      fun h hl => ⟨_, rfl, State.startCommand_regWrite_of_local hl h⟩, fun h hf => ⟨_, rfl, State.startCommand_regRead_of_crew hf h⟩,
      fun h hf => ⟨_, rfl, State.startCommand_regWrite_of_crew hf h⟩, State.startCommand_bulk_of_full,
      fun h hroom => ⟨_, rfl, State.startCommand_bulk_of_room h hroom⟩, State.startCommand_close,
      fun opc hopc => State.startCommand_of_lockedOut hopc, fun h hlock => State.startCommand_challenge hlock h,
      fun h hlock => ⟨_, rfl, State.startCommand_open hlock h⟩⟩
  case completed =>
    refine ⟨State.complete_of_off, fun hissue hen hpit => ⟨_, _, rfl, State.complete_of_on hissue hen hpit rfl, ?_, ?_, ?_⟩⟩
    · rw [State.countUnsignalled, State.onHst_hst, State.stepIndex_hst]; rfl
    · exact (State.stepIndex_only _ 1 _).onHst _
    · exact State.stepIndex_cq_index _ _

end Sys2Proof.Machine
end

section
/-!
PROOF. Host reads, proxies and bulk (ch. 12, R410, R431 to R434, R468): how an outstanding read ends, what a crew unit does with the packets of a
command for it, and how the pithead's command in flight completes by its response or by the lack of one.
-/
namespace Sys2Proof.Machine

/-! ### An outstanding read ends (R410, R434, R468) -/

/-- The unit with one outstanding read ended. -/
def State.withoutRead (s : State) (i : Nat) : State := s.onHst fun h => { h with reads := s.hst.reads.eraseIdx i }

section
variable {i st : Nat} {bs : List Byte} {s : State}

section
variable (h : s.hst.reads.length ≤ i)
include h

theorem State.outstanding_of_le : s.outstanding i = none := by
  rw [State.outstanding, List.getElem?_eq_none h]

theorem exec_hostReadCompletion_of_none : exec (.hostReadCompletion i st bs) s = .next s := by
  change execHostReadCompletion i st bs s = _
  rw [execHostReadCompletion, State.outstanding_of_le h]

theorem exec_completionTimeout_of_none : exec (.completionTimeout i) s = .next s := by
  change execCompletionTimeout i s = _
  rw [execCompletionTimeout, State.outstanding_of_le h]

end

section
variable {r : HostRead} (h : s.hst.reads[i]? = some r)
include h

theorem State.outstanding_of_some : s.outstanding i = some (r, s.hst.reads.eraseIdx i) := by
  rw [State.outstanding, h]

theorem exec_completionTimeout_of_read : exec (.completionTimeout i) s = .next ((s.withoutRead i).readFailed r) := by
  change execCompletionTimeout i s = _
  rw [execCompletionTimeout, State.outstanding_of_some h]
  rfl

/-- A completion of an outstanding read is dropped, fails, is used or is no answer to it. -/
theorem exec_hostReadCompletion_of_read :
    exec (.hostReadCompletion i st bs) s = .next (if !s.canIssue then s.dropRead r (s.hst.reads.eraseIdx i)
      else if st ≠ 0 then (s.withoutRead i).readFailed r
      else if bs.length = r.len then (s.withoutRead i).readDone r (bs.map BitVec.toNat) else s) := by
  change execHostReadCompletion i st bs s = _
  simp only [execHostReadCompletion, State.outstanding_of_some h, State.withoutRead, apply_ite Host.Outcome.next]

theorem exec_hostReadCompletion_of_dropped (hissue : s.canIssue = false) :
    exec (.hostReadCompletion i st bs) s = .next (s.dropRead r (s.hst.reads.eraseIdx i)) := by
  rw [exec_hostReadCompletion_of_read h, hissue]
  rfl

variable (hissue : s.canIssue = true)
include hissue

theorem exec_hostReadCompletion_of_failed (hst : st ≠ 0) : exec (.hostReadCompletion i st bs) s = .next ((s.withoutRead i).readFailed r) := by
  rw [exec_hostReadCompletion_of_read h, hissue, Bool.not_true, if_neg Bool.false_ne_true, if_pos hst]

theorem exec_hostReadCompletion_of_short (hst : st = 0) (hlen : bs.length ≠ r.len) : exec (.hostReadCompletion i st bs) s = .next s := by
  rw [exec_hostReadCompletion_of_read h, hissue, Bool.not_true, if_neg Bool.false_ne_true, if_neg (not_not_intro hst), if_neg hlen]

theorem exec_hostReadCompletion_of_done (hst : st = 0) (hlen : bs.length = r.len) :
    exec (.hostReadCompletion i st bs) s = .next ((s.withoutRead i).readDone r (bs.map BitVec.toNat)) := by
  rw [exec_hostReadCompletion_of_read h, hissue, Bool.not_true, if_neg Bool.false_ne_true, if_neg (not_not_intro hst), if_pos hlen]

end

end

section
variable {r : HostRead} {rest : List HostRead} {s : State}

theorem State.dropRead_of_bulk (hkind : 2 ≤ r.kind) : s.dropRead r rest = s.bump HST_ERRCNT0.CPL_DROP 1 := if_pos hkind

theorem State.dropRead_of_forced (hkind : r.kind ≤ 1) (hforced : s.dataForced = true) :
    s.dropRead r rest = (s.bump HST_ERRCNT0.CPL_DROP 1).onHst fun h => { h with reads := rest, refetch := h.refetch ++ [r] } :=
  (if_neg (by omega)).trans (if_pos hforced)

theorem State.dropRead_of_unforced (hkind : r.kind ≤ 1) (hforced : s.dataForced = false) :
    s.dropRead r rest = (s.bump HST_ERRCNT0.CPL_DROP 1).onHst fun h =>
      { h with reads := rest, sqFetched := if r.kind = 0 then Tbl.erase h.sqFetched r.ring else h.sqFetched } :=
  (if_neg (by omega)).trans (if_neg (by rw [hforced]; exact Bool.false_ne_true))

end

/-! ### What a read was for (R421, R424) -/

section
variable {r : HostRead} {s : State}

theorem State.readDone_of_descriptor (hkind : r.kind = 0) (bs : List Nat) :
    s.readDone r bs = (((s.onHst fun h => { h with sqFetched := Tbl.erase h.sqFetched r.ring }).stepIndex 0 r.ring).beginCommand
      (parseDesc r.ring bs).1 (parseDesc r.ring bs).2).settleRings :=
  if_pos hkind

theorem State.readFailed_of_descriptor (hkind : r.kind = 0) :
    s.readFailed r = ((s.onHst fun h => { h with sqFetched := Tbl.erase h.sqFetched r.ring }).bump HST_ERRCNT0.HOST_RD_ERR 1).halt 0 r.ring 2 := by
  simp only [State.readFailed, hkind]
  rfl

/-- One more buffer of a data ring is at hand: its address and cookie. -/
def State.bufferAtHand (s : State) (n : Nat) (bs : List Nat) : State :=
  s.onHst fun h => { h with drReady := Tbl.set [] h.drReady n (Tbl.get [] h.drReady n ++ [(bytesAt bs 0 8, bytesAt bs 8 8)]) }

theorem State.readDone_of_buffer (hkind : r.kind = 1) (bs : List Nat) : s.readDone r bs = (s.bufferAtHand r.ring bs).pump := by
  simp only [State.readDone, hkind]
  rfl

theorem State.readFailed_of_buffer (hkind : r.kind = 1) : s.readFailed r = (s.bump HST_ERRCNT0.HOST_RD_ERR 1).halt 2 r.ring 2 := by
  simp only [State.readFailed, hkind]
  rfl

section
variable (hnone : ∀ f ∈ s.hst.flight, f.tag ≠ r.index)
include hnone

theorem State.find_transfer_of_none : s.hst.flight.find? (fun f => decide (f.tag = r.index)) = none :=
  List.find?_eq_none.mpr fun f hf => by simpa using hnone f hf

variable (hkind : 2 ≤ r.kind)
include hkind

theorem State.readDone_of_no_transfer (bs : List Nat) : s.readDone r bs = s := by
  rw [State.readDone, if_neg (by omega), if_neg (by omega), State.find_transfer_of_none hnone]

theorem State.readFailed_of_no_transfer : s.readFailed r = s := by
  rw [State.readFailed, if_neg (by omega), State.find_transfer_of_none hnone]

end

section
variable {f : Flight} {l : List Flight} (hflight : s.hst.flight = f :: l) (htag : f.tag = r.index)
include hflight htag

/-- The data are those of the oldest command in flight. -/
theorem State.find_transfer : s.hst.flight.find? (fun f => decide (f.tag = r.index)) = some f := by
  rw [hflight]
  exact List.find?_cons_of_pos (decide_eq_true htag)

variable (hkind : 2 ≤ r.kind)
include hkind

theorem State.readDone_of_transfer (bs : List Nat) : s.readDone r bs = (s.bulkData f bs).settleRings := by
  rw [State.readDone, if_neg (by omega), if_neg (by omega), State.find_transfer hflight htag]

theorem State.readFailed_of_transfer : s.readFailed r = (s.endBulk f 7 f.written f.refused (f.crc ^^^ 0xFFFFFFFF)).settleRings := by
  rw [State.readFailed, if_neg (by omega), State.find_transfer hflight htag]

end

end

/-! ### The packets of a command for a crew unit (R431, R432) -/

/-- A packet that is heard and addressed to the unit does what its row does. -/
theorem State.onPacket_of_delivered {s : State} {k : Packet} {dt : Nat} (d : Bool) (f : State → State) (hfits : k.fits dt = true)
    (hlive : s.stale k = false) (hdst : k.dst = s.get CHN_STATE.TALLY) (hone : k.dst ≠ 63) : s.onPacket d k dt f = f s := by
  rw [State.onPacket_of_heard d f hfits (.inl hlive), if_neg hone, if_pos (show k.dst = s.tally from hdst)]

theorem State.crewTakes_of_other {s : State} {k : Packet} (h : s.isCrew = false ∨ k.src ≠ 1) (f : State → State) :
    s.crewTakes k f = s.bump CHN_ERRCNT1.TAG_DROP 1 :=
  if_neg (by rcases h with h | h <;> simp [h])

theorem State.crewTakes_of_crew {s : State} {k : Packet} (hcrew : s.isCrew = true) (hsrc : k.src = 1) (f : State → State) :
    s.crewTakes k f = f s :=
  if_pos (by rw [hcrew, hsrc]; rfl)

/-- The rows of the packets that a crew unit takes from the pithead alone, with their data types. -/
def crewRows : List (Nat × (Bool → Packet → Instr)) := [(0x14, .proxyRd), (0x15, .proxyWr), (0x2C, .bulk)]

theorem exec_crewRow {r : Nat × (Bool → Packet → Instr)} (h : r ∈ crewRows) :
    ∃ f : Packet → State → State, ∀ d k s, exec (r.2 d k) s = .next (s.onPacket d k r.1 fun t => t.crewTakes k (f k)) := by
  simp only [crewRows, List.mem_cons, List.not_mem_nil, or_false] at h
  rcases h with rfl | rfl | rfl
  all_goals exact ⟨_, fun _ _ _ => rfl⟩

/-- The data words of a PROXY_WR written on the proxy path, with the words rejected and the words not taken. -/
def Packet.proxyWrite (k : Packet) (s : State) : State × Nat × Nat :=
  writeWords (.proxy (k.at_ 3 1)) ((List.range (k.at_ 2 1)).map fun i => k.at_ (8 + 4 * i) 4) 0 (k.at_ 4 4) (s, 0, 0)

section
variable {s : State} {k : Packet} (d : Bool) (hlive : s.stale k = false) (hdst : k.dst = s.get CHN_STATE.TALLY) (hone : k.dst ≠ 63)
include hlive hdst hone

theorem exec_crewRow_of_other {r : Nat × (Bool → Packet → Instr)} (hr : r ∈ crewRows) (h : s.isCrew = false ∨ k.src ≠ 1)
    (hfits : k.fits r.1 = true) : exec (r.2 d k) s = .next (s.bump CHN_ERRCNT1.TAG_DROP 1) := by
  obtain ⟨f, hrow⟩ := exec_crewRow hr
  rw [hrow, State.onPacket_of_delivered d _ hfits hlive hdst hone, State.crewTakes_of_other h]

variable (hcrew : s.isCrew = true) (hsrc : k.src = 1)
include hcrew hsrc

/-- A packet that a crew unit takes has its own effect. -/
theorem State.onPacket_of_taken {dt : Nat} (hfits : k.fits dt = true) (f : State → State) :
    s.onPacket d k dt (fun t => t.crewTakes k f) = f s := by
  rw [State.onPacket_of_delivered d _ hfits hlive hdst hone, State.crewTakes_of_crew hcrew hsrc]

theorem exec_proxyRd_of_taken (hfits : k.fits 0x14 = true) :
    exec (.proxyRd d k) s = .next ((readWords (.proxy (k.at_ 3 1)) (k.at_ 2 1) (k.at_ 4 4) s).1.answerProxy (k.at_ 0 2) (k.at_ 2 1) 0 (k.at_ 4 4)
      (readWords (.proxy (k.at_ 3 1)) (k.at_ 2 1) (k.at_ 4 4) s).2) :=
  congrArg _ (State.onPacket_of_taken d hlive hdst hone hcrew hsrc hfits _)

theorem exec_proxyWr_of_taken (hfits : k.fits 0x15 = true) :
    exec (.proxyWr d k) s = .next ((k.proxyWrite s).1.answerProxy (k.at_ 0 2) (k.at_ 2 1)
      (if (k.proxyWrite s).2.1 ≠ 0 then 1 else if (k.proxyWrite s).2.2 ≠ 0 then 2 else 0) (k.at_ 4 4) []) :=
  congrArg _ (State.onPacket_of_taken d hlive hdst hone hcrew hsrc hfits _)

theorem exec_bulk_of_taken (hfits : k.fits 0x2C = true) : exec (.bulk d k) s = .next (s.bulkPacket k) :=
  congrArg _ (State.onPacket_of_taken d hlive hdst hone hcrew hsrc hfits _)

end

section
variable {s : State} {k : Packet}

theorem State.bulkPacket_of_none (hfirst : bit (k.at_ 2 1) 0 = false) (h : s.hst.bulkIn = none) : s.bulkPacket k = s := by
  simp only [State.bulkPacket, hfirst, h, Bool.false_eq_true, if_false]

theorem State.bulkPacket_of_other {b : BulkIn} (hfirst : bit (k.at_ 2 1) 0 = false) (h : s.hst.bulkIn = some b) (hxfer : b.xfer ≠ k.at_ 0 2) :
    s.bulkPacket k = s := by
  simp only [State.bulkPacket, hfirst, h, Bool.false_eq_true, if_false]
  exact if_pos hxfer

/-- The words of the first packet of a transfer, written where the installer's role, the power state and the shift book let them. -/
def Packet.bulkFirst (k : Packet) (s : State) : State × BulkSum :=
  bulkEngine (bit (k.at_ 3 1) 1 && decide (s.power ≠ stSAFETALK) && s.sbRoom) (bit (k.at_ 2 1) 2) (k.at_ 4 2) (toWords (k.payload.drop 16))
    (k.at_ 8 4) (s, ⟨0, 0, 0xFFFFFFFF⟩)

theorem State.bulkPacket_of_first (hfirst : bit (k.at_ 2 1) 0 = true) (hlast : bit (k.at_ 2 1) 1 = false) :
    s.bulkPacket k = (k.bulkFirst s).1.onHst fun h =>
      { h with bulkIn := some ⟨k.at_ 0 2, (k.bulkFirst s).2.written, (k.bulkFirst s).2.refused, (k.bulkFirst s).2.crc⟩ } := by
  simp only [State.bulkPacket, hfirst, hlast, if_true, Bool.false_eq_true, if_false]
  exact if_neg (not_not_intro rfl)

end

/-! ### The response to a proxied command (R431, R433) -/

section
variable {s : State} {k : Packet}

theorem State.proxyResponse_of_none (h : ∀ f ∈ s.hst.flight, f.tag ≠ k.at_ 0 2 ∨ f.desc.tally ≠ k.src ∨ f.sent = none) :
    s.proxyResponse k = s := by
  have hnone : s.hst.flight.find? (fun f => decide (f.tag = k.at_ 0 2 ∧ f.desc.tally = k.src) && f.sent.isSome) = none := by
    refine List.find?_eq_none.mpr fun f hf => ?_
    rcases h f hf with h | h | h <;> simp [h]
  rw [State.proxyResponse, hnone]

section
variable {f : Flight} {l : List Flight} (hflight : s.hst.flight = f :: l) (htag : f.tag = k.at_ 0 2) (htally : f.desc.tally = k.src)
  (hsent : f.sent.isSome = true)
include hflight htag htally hsent

/-- The response is that to the oldest command in flight. -/
theorem State.find_response : s.hst.flight.find? (fun f => decide (f.tag = k.at_ 0 2 ∧ f.desc.tally = k.src) && f.sent.isSome) = some f := by
  rw [hflight]
  exact List.find?_cons_of_pos (by rw [decide_eq_true ⟨htag, htally⟩, hsent]; rfl)

theorem State.proxyResponse_regRead (hopc : f.opc = opREG_READ) :
    s.proxyResponse k = (s.endFlight f (statusOf (k.at_ 3 1)) (k.payload.drop 8)).settleRings := by
  simp only [State.proxyResponse, State.find_response hflight htag htally hsent, hopc]
  rfl

theorem State.proxyResponse_regWrite_of_accepted (hopc : f.opc = opREG_WRITE) (hst : k.at_ 3 1 ≠ 1) :
    s.proxyResponse k = (s.endFlight f (statusOf (k.at_ 3 1)) [0, 0]).settleRings := by
  simp only [State.proxyResponse, State.find_response hflight htag htally hsent, hopc, hst]
  rfl

theorem State.proxyResponse_regWrite_of_rejected (hopc : f.opc = opREG_WRITE) (hst : k.at_ 3 1 = 1) :
    s.proxyResponse k =
      (({ s with freeIx := s.freeIx + 1 } : State).endFlight f 3 (leBytes (Config.freeValue s.freeIx % 65536) 2)).settleRings := by
  simp only [State.proxyResponse, State.find_response hflight htag htally hsent, hopc, hst]
  rfl

theorem State.proxyResponse_bulk (hopc : f.opc = opBULK_WRITE) :
    s.proxyResponse k = (s.endBulk f (statusOf (k.at_ 3 1)) (k.at_ 8 4) (k.at_ 12 4) (k.at_ 16 4)).settleRings := by
  simp only [State.proxyResponse, State.find_response hflight htag htally hsent, hopc]
  rfl

end

section
variable (d : Bool) (hfits : k.fits 0x16 = true) (hdst : k.dst = s.get CHN_STATE.TALLY) (hone : k.dst ≠ 63) (hlive : s.stale k = false)
include hfits hdst hone hlive

theorem exec_proxyRsp_of_delivered : exec (.proxyRsp d k) s = .next (if s.isPithead then s.proxyResponse k else s) :=
  congrArg _ (State.onPacket_of_delivered d _ hfits hlive hdst hone)

theorem exec_proxyRsp_of_pithead (h : s.get CHN_STATE.TALLY = 1) : exec (.proxyRsp d k) s = .next (s.proxyResponse k) := by
  rw [exec_proxyRsp_of_delivered d hfits hdst hone hlive, if_pos (State.isPithead_of_eq h)]

theorem exec_proxyRsp_of_discarded
    (h : s.get CHN_STATE.TALLY ≠ 1 ∨ ∀ f ∈ s.hst.flight, f.tag ≠ k.at_ 0 2 ∨ f.desc.tally ≠ k.src ∨ f.sent = none) :
    exec (.proxyRsp d k) s = .next s := by
  rw [exec_proxyRsp_of_delivered d hfits hdst hone hlive]
  rcases h with h | h
  · rw [State.isPithead_of_ne h]; rfl
  · rw [State.proxyResponse_of_none h, ite_self]

end

end

/-! ### No response (R433) -/

theorem firstSent_eq_none {l : List Flight} (h : ∀ f ∈ l, f.sent = none) : firstSent l = none := by
  induction l with
  | nil => rfl
  | cons f l ih => simp only [firstSent, h f (List.mem_cons_self ..), ih fun g hg => h g (List.mem_cons_of_mem _ hg)]

theorem exec_proxyTimeout_of_none {s : State} (h : ∀ f ∈ s.hst.flight, f.sent = none) : exec .proxyTimeout s = .next s := by
  change execProxyTimeout s = _
  rw [execProxyTimeout, firstSent_eq_none h]

/-- The unit once a proxied command has waited HST_PROXY.MS ms: the timeout is counted and raised. -/
def State.proxyLate (s : State) (f : Flight) (t0 : Nat) : State :=
  ((s.advance (t0 + s.get HST_PROXY.MS * 2000000)).bump HST_ERRCNT2.PROXY_TIMEOUT 1).raise 0x0E0A [f.desc.tally, f.tag]

theorem exec_proxyTimeout_of_sent {s : State} {f : Flight} {t0 : Nat} (hflight : s.hst.flight = [f]) (hsent : f.sent = some t0) :
    exec .proxyTimeout s = .next (if f.opc = opBULK_WRITE then (s.proxyLate f t0).endBulk f 5 0 0 0
      else (s.proxyLate f t0).endFlight f 5 []).settleRings := by
  have hfirst : firstSent s.hst.flight = some (f, t0) := by simp only [hflight, firstSent, hsent]
  change execProxyTimeout s = _
  rw [execProxyTimeout, hfirst]
  rfl

/-- Settles O50: a read ends by what it was for, a packet addressed to the unit by its row, and a command in flight by the first that answers it. -/
theorem hostReadsProxiesAndBulk : Obligations.HostReadsProxiesAndBulk := by
  refine ⟨fun i st bs s h => ⟨exec_hostReadCompletion_of_none h, exec_completionTimeout_of_none h⟩, fun i st bs r s h hissue => ?dropped,
    fun i st bs r s h => ⟨_, rfl, exec_completionTimeout_of_read h, exec_hostReadCompletion_of_failed h, exec_hostReadCompletion_of_short h,
      exec_hostReadCompletion_of_done h⟩,
    fun r bs s => ?purpose, fun d k s hdst hone hlive => ?crew, fun k s => ?bulk, fun d k s hfits hdst hone hlive => ?response,
    fun s => exec_proxyTimeout_of_none, fun f t0 s hflight hsent => ?late⟩
  case dropped =>
    obtain ⟨hframe, hcount⟩ := s.bump_one HST_ERRCNT0.CPL_DROP
    rw [exec_hostReadCompletion_of_dropped h hissue]
    exact ⟨_, hframe, hcount, fun hkind => congrArg _ (State.dropRead_of_bulk hkind),
      fun hkind hforced => congrArg _ (State.dropRead_of_forced hkind hforced),
      fun hkind hforced => congrArg _ (State.dropRead_of_unforced hkind hforced)⟩
  case purpose =>
    exact ⟨fun hkind => State.readDone_of_descriptor hkind bs,
      fun hkind => ⟨s.bufferAtHand r.ring bs, State.readDone_of_buffer hkind bs, rfl, Tbl.get_set_same ..⟩,
      fun hkind hnone => ⟨State.readDone_of_no_transfer hnone hkind bs, State.readFailed_of_no_transfer hnone hkind⟩,
      fun f l hkind hflight htag => ⟨State.readDone_of_transfer hflight htag hkind bs, State.readFailed_of_transfer hflight htag hkind⟩,
      State.readFailed_of_descriptor, State.readFailed_of_buffer⟩
  case crew =>
    refine ⟨fun h r hr hfits => exec_crewRow_of_other d hlive hdst hone hr h hfits, fun hcrew hsrc => ⟨fun hfits => ⟨_, rfl, ?_⟩,
      fun hfits => ⟨_, rfl, ?_⟩, exec_bulk_of_taken d hlive hdst hone hcrew hsrc⟩⟩
    · exact exec_proxyRd_of_taken d hlive hdst hone hcrew hsrc hfits
    · rw [exec_proxyWr_of_taken d hlive hdst hone hcrew hsrc hfits, State.answerProxy, List.map_nil, List.flatten_nil, List.append_nil]
      rfl
  case bulk =>
    exact ⟨State.bulkPacket_of_none, fun b => State.bulkPacket_of_other, fun hfirst hlast => ⟨_, rfl, State.bulkPacket_of_first hfirst hlast⟩⟩
  case response =>
    refine ⟨exec_proxyRsp_of_discarded d hfits hdst hone hlive, fun f l hpit hflight htag htally hsent => ?_⟩
    rw [exec_proxyRsp_of_pithead d hfits hdst hone hlive hpit]
    exact ⟨fun hopc => congrArg _ (State.proxyResponse_regRead hflight htag htally hsent hopc),
      fun hopc hst => congrArg _ (State.proxyResponse_regWrite_of_accepted hflight htag htally hsent hopc hst),
      fun hopc hst => congrArg _ (State.proxyResponse_regWrite_of_rejected hflight htag htally hsent hopc hst),
      fun hopc => congrArg _ (State.proxyResponse_bulk hflight htag htally hsent hopc)⟩
  case late =>
    rw [exec_proxyTimeout_of_sent hflight hsent]
    exact ⟨_, rfl, fun hopc => by rw [if_pos (show f.opc = opBULK_WRITE from hopc)]; rfl,
      fun hopc => by rw [if_neg (show f.opc ≠ opBULK_WRITE from hopc)]; rfl⟩

end Sys2Proof.Machine
end

section
/-!
PROOF. The link and the function (ch. 12, R408 to R412, R422, R429, R434 to R438, R455): what a reset returns to its reset value and what it keeps, the
halts of the rings and their vectors, the grace, the timers of the rings, and a read through BAR2.
-/
namespace Sys2Proof.Machine

/-! ### An event of R412 (R435, R437) -/

/-- The host interface's registers and record as an event of R412 leaves them: those of the rings at their reset values, what survives kept. -/
def State.ringsReset (s : State) : State :=
  { s with
    regs := Tbl.keep (fun k => !isRingKey k) s.regs
    hst := { writes := s.hst.writes, waiting := s.hst.waiting, sent := s.hst.sent, tag := s.hst.tag, pet := s.hst.pet, bar2Denied := s.hst.bar2Denied
             eventLost := s.hst.eventLost, bulkIn := s.hst.bulkIn, drLost := s.hst.drLost } }

/-- The bits of HST_STATUS that such an event clears. -/
def resetBits : List Field := [HST_STATUS.BME, HST_STATUS.D3HOT, HST_STATUS.ARMED]

theorem isRingKey_key {f : Field} (h : f.lo < 32) : isRingKey f.key = decide (0x0E100 ≤ f.off ∧ f.off < 0x0EB00) := by
  have hoff : f.key / 32 = f.off := by rw [Field.key]; omega
  rw [isRingKey, hoff]

theorem State.ringsReset_get (s : State) (f : Field) (h : f.lo < 32) :
    s.ringsReset.get f = if 0x0E100 ≤ f.off ∧ f.off < 0x0EB00 then f.reset else s.get f := by
  change Tbl.get f.reset (Tbl.keep (fun k => !isRingKey k) s.regs) f.key = _
  rw [Tbl.get_keep, isRingKey_key h]
  by_cases hring : 0x0E100 ≤ f.off ∧ f.off < 0x0EB00
  · simp [hring]
  · rw [decide_eq_false hring, if_neg hring]; rfl

theorem State.functionReset_eq (s : State) :
    s.functionReset = (((s.ringsReset.zeros resetBits).reviewHost.closePath 0 3).resetRest).onHst fun h =>
      { h with flrAt := some (((s.ringsReset.zeros resetBits).reviewHost.closePath 0 3).resetRest).fwc } := rfl

theorem State.zeros_resetBits (s : State) :
    Only resetBits s (s.zeros resetBits) ∧ ∀ f ∈ resetBits, (s.zeros resetBits).get f = 0 :=
  ⟨Only.zeros _ _ (.refl _ s) fun _ hf => hf, fun _ hf => State.zeros_get _ (by decide) hf s⟩

section
variable {s : State}

theorem State.hostReset_of_above (h : stSTANDBY < s.power) : s.hostReset = s.functionReset := if_pos (decide_eq_true h)

theorem State.hostReset_of_standby (h : s.power ≤ stSTANDBY) : s.hostReset = s :=
  if_neg (by rw [State.above, decide_eq_false (Nat.not_lt.mpr h)]; exact Bool.false_ne_true)

/-! ### The pins, the link and the resets (R412, R435, R455) -/

/-- The link going down does not touch the power state. -/
theorem State.power_dlDown (s : State) : (s.set HST_LINK.DL_UP 0).power = s.power := by
  simp only [State.power, State.set_pwr, State.get_set_ne s (f := HST_LINK.DL_UP) (g := PWR_STATUS.STATE) 0 (by decide)]

theorem exec_functionLevelReset (s : State) : exec .functionLevelReset s = .next s.hostReset := rfl

theorem exec_hotReset (s : State) : exec .hotReset s = .next (s.set HST_LINK.DL_UP 0).hostReset := rfl

theorem exec_perstNAssert_of_asserted (h : s.pwr.perst = true) : exec .perstNAssert s = .next s := if_pos h

/-- PERST_N asserted takes the link down. -/
def State.perstDown (s : State) : State := (s.onPwr fun p => { p with perst := true }).set HST_LINK.DL_UP 0

theorem State.power_perstDown (s : State) : s.perstDown.power = s.power := State.power_dlDown _

theorem exec_perstNAssert_of_released (h : s.pwr.perst = false) : exec .perstNAssert s = .next s.perstDown.hostReset :=
  if_neg (by rw [h]; exact Bool.false_ne_true)

theorem exec_perstNRelease_of_released (h : s.pwr.perst = false) : exec .perstNRelease s = .next s :=
  if_neg (by rw [h]; exact Bool.false_ne_true)

theorem exec_perstNRelease_of_wake (h : s.pwr.perst = true) (hstandby : s.power = stSTANDBY) (hen : s.get PWR_WAKE.PERST_EN = 1) :
    exec .perstNRelease s = .next ((s.onPwr fun p => { p with perst := false }).command true stIDLE) :=
  (if_pos h).trans (congrArg _ (if_pos (by rw [decide_eq_true hstandby, State.on_of_eq hen]; rfl)))

theorem exec_perstNRelease_of_stays (h : s.pwr.perst = true) (hstay : s.power ≠ stSTANDBY ∨ s.get PWR_WAKE.PERST_EN ≠ 1) :
    exec .perstNRelease s = .next (s.onPwr fun p => { p with perst := false }) :=
  (if_pos h).trans (congrArg _ (if_neg (by
    rw [Bool.and_eq_true, decide_eq_true_eq]
    rintro ⟨hstandby, hen⟩
    exact hstay.elim (· hstandby) (· (of_decide_eq_true hen)))))

theorem exec_flrDone_of_none (h : s.hst.flrAt = none) : exec .flrDone s = .next s := by
  change execFlrDone s = _
  rw [execFlrDone, h]

theorem exec_flrDone_of_noted (h : s.hst.flrAt.isSome = true) :
    exec .flrDone s = .next ((s.onHst fun h => { h with flrAt := none }).raise 0x0E03 [s.fwc]) := by
  obtain ⟨f, hf⟩ := Option.isSome_iff_exists.mp h
  change execFlrDone s = _
  rw [execFlrDone, hf]

theorem exec_dlUp_of_held (h : s.power ≤ stSTANDBY ∨ s.pwr.perst = true ∨ s.saf.railFatal = true) : exec .dlUp s = .next s := by
  refine if_neg ?_
  rcases h with h | h | h
  · rw [State.above, decide_eq_false (Nat.not_lt.mpr h)]
    exact Bool.false_ne_true
  · rw [h, Bool.not_true, Bool.and_false]
    exact Bool.false_ne_true
  · rw [h, Bool.not_true, Bool.and_false]
    exact Bool.false_ne_true

theorem exec_dlUp_of_free (hpower : stSTANDBY < s.power) (hperst : s.pwr.perst = false) (hfatal : s.saf.railFatal = false) :
    exec .dlUp s = .next ((s.set HST_LINK.DL_UP 1).reviewHost).settleRings.pump :=
  if_pos (by rw [State.above, decide_eq_true hpower, hperst, hfatal]; rfl)

end

/-! ### LINK_CHANGED (R412) -/

/-- A speed and a width that the link can have. -/
def linkLegal (sp wd : Nat) : Prop := 1 ≤ sp ∧ sp ≤ 6 ∧ (wd = 1 ∨ wd = 2 ∨ wd = 4 ∨ wd = 8)

/-- The link as HST_LINK shows it. -/
def State.linkSet (s : State) (sp wd : Nat) (fl : Bool) : State := ((s.set HST_LINK.SPEED sp).set HST_LINK.WIDTH wd).put HST_LINK.FLIT fl

section
variable {sp wd : Nat} {fl : Bool} {s : State}

theorem exec_linkChanged_of_illegal (h : ¬ linkLegal sp wd) : exec (.linkChanged sp wd fl) s = .next s := if_neg h

theorem exec_linkChanged_of_legal (h : linkLegal sp wd) :
    exec (.linkChanged sp wd fl) s = .next (if s.get HST_LINK.SPEED = sp ∧ s.get HST_LINK.WIDTH = wd then s.linkSet sp wd fl else
      (s.linkSet sp wd fl).raise 0x0E0B [s.get HST_LINK.SPEED, s.get HST_LINK.WIDTH, sp, wd]) :=
  if_pos h

theorem State.linkSet_only : Only [HST_LINK.SPEED, HST_LINK.WIDTH, HST_LINK.FLIT] s (s.linkSet sp wd fl) :=
  (((Only.refl _ s).set _ (by simp)).set _ (by simp)).put _ (by simp)

theorem State.linkSet_speed (h : sp < 16) : (s.linkSet sp wd fl).get HST_LINK.SPEED = sp := by
  rw [State.linkSet, State.put_eq, State.get_set_ne _ _ (by decide), State.get_set_ne _ _ (by decide), State.get_set_of_lt _ h]

theorem State.linkSet_width (h : wd < 16) : (s.linkSet sp wd fl).get HST_LINK.WIDTH = wd := by
  rw [State.linkSet, State.put_eq, State.get_set_ne _ _ (by decide), State.get_set_of_lt _ h]

theorem State.linkSet_flit : (s.linkSet sp wd fl).get HST_LINK.FLIT = if fl then 1 else 0 := by
  rw [State.linkSet, State.put_eq, State.get_set_self]
  cases fl <;> rfl

end

/-! ### Bus Master Enable and D3hot (R411, R434) -/

section
variable {s : State}

theorem exec_bmeClear_of_clear (h : s.get HST_STATUS.BME ≠ 1) : exec .bmeClear s = .next s :=
  if_neg (by rw [State.on_of_ne h]; exact Bool.false_ne_true)

theorem exec_bmeClear_of_set (h : s.get HST_STATUS.BME = 1) : exec .bmeClear s =
    .next ((((s.set HST_STATUS.BME 0).onHst fun h => { h with bmeCleared := some s.fwc }).haltAll 1).raise 0x0E02 [s.fwc]).reviewHost :=
  if_pos (State.on_of_eq h)

theorem exec_d3hotEntry_of_d3hot (h : s.get HST_STATUS.D3HOT = 1) : exec .d3hotEntry s = .next s := if_pos (State.on_of_eq h)

theorem exec_d3hotEntry_of_d0 (h : s.get HST_STATUS.D3HOT ≠ 1) : exec .d3hotEntry s =
    .next ((((s.set HST_STATUS.D3HOT 1).onHst fun h => { h with d3Entered := some s.fwc }).haltAll 5).raise 0x0E02 [s.fwc]).reviewHost :=
  if_neg (by rw [State.on_of_ne h]; exact Bool.false_ne_true)

/-- The grace counts again once Bus Master Enable is set in D0. -/
def State.graceKept (s : State) : State :=
  s.onHst fun h => { h with graceOver := h.graceOver && !(s.on HST_STATUS.BME && !s.on HST_STATUS.D3HOT) }

theorem State.busAgain_eq (s : State) : s.busAgain = s.graceKept.reviewHost.pumpBulks := by
  refine congrArg (fun t : State => t.reviewHost.pumpBulks) ?_
  unfold State.graceKept
  cases s.on HST_STATUS.BME && !s.on HST_STATUS.D3HOT with
  | true => simp only [if_true, Bool.not_true, Bool.and_false]
  | false => simp only [Bool.false_eq_true, if_false, Bool.not_false, Bool.and_true]; rfl

/-- Bus Master Enable set: its clearing is no longer noted. -/
def State.bmeAgain (s : State) : State := ((s.set HST_STATUS.BME 1).onHst fun h => { h with bmeCleared := none }).graceKept

/-- Back in D0: the entry to D3hot is no longer noted. -/
def State.d0Again (s : State) : State := ((s.set HST_STATUS.D3HOT 0).onHst fun h => { h with d3Entered := none }).graceKept

theorem State.bmeAgain_only (s : State) :
    Only [HST_STATUS.BME] { s with hst := { s.hst with bmeCleared := none, graceOver := s.bmeAgain.hst.graceOver } } s.bmeAgain :=
  ⟨rfl, fun g hg => (SameRegs.refl _ s).set 1 (List.mem_singleton_self _) g hg⟩

theorem State.d0Again_only (s : State) :
    Only [HST_STATUS.D3HOT] { s with hst := { s.hst with d3Entered := none, graceOver := s.d0Again.hst.graceOver } } s.d0Again :=
  ⟨rfl, fun g hg => (SameRegs.refl _ s).set 0 (List.mem_singleton_self _) g hg⟩

theorem State.bmeAgain_bme (s : State) : s.bmeAgain.get HST_STATUS.BME = 1 := State.get_set_self s HST_STATUS.BME 1

theorem State.d0Again_d3hot (s : State) : s.d0Again.get HST_STATUS.D3HOT = 0 := State.get_set_self s HST_STATUS.D3HOT 0

theorem State.bmeAgain_graceOver (s : State) : s.bmeAgain.hst.graceOver = (s.hst.graceOver && s.on HST_STATUS.D3HOT) := by
  have hbme : (s.set HST_STATUS.BME 1).on HST_STATUS.BME = true := State.on_of_eq (State.get_set_self s _ 1)
  have hd3 : (s.set HST_STATUS.BME 1).on HST_STATUS.D3HOT = s.on HST_STATUS.D3HOT := by rw [State.on, State.get_set_ne s _ (by decide), State.on]
  change (s.hst.graceOver && !((s.set HST_STATUS.BME 1).on HST_STATUS.BME && !(s.set HST_STATUS.BME 1).on HST_STATUS.D3HOT)) = _
  rw [hbme, hd3, Bool.true_and, Bool.not_not]

theorem State.d0Again_graceOver (s : State) : s.d0Again.hst.graceOver = (s.hst.graceOver && !s.on HST_STATUS.BME) := by
  have hd3 : (s.set HST_STATUS.D3HOT 0).on HST_STATUS.D3HOT = false := State.on_of_ne (by rw [State.get_set_self]; decide)
  have hbme : (s.set HST_STATUS.D3HOT 0).on HST_STATUS.BME = s.on HST_STATUS.BME := by rw [State.on, State.get_set_ne s _ (by decide), State.on]
  change (s.hst.graceOver && !((s.set HST_STATUS.D3HOT 0).on HST_STATUS.BME && !(s.set HST_STATUS.D3HOT 0).on HST_STATUS.D3HOT)) = _
  rw [hbme, hd3, Bool.not_false, Bool.and_true]

theorem exec_bmeSet (s : State) : exec .bmeSet s = .next s.bmeAgain.reviewHost.pumpBulks := by
  change Host.Outcome.next (State.busAgain _) = _
  rw [State.busAgain_eq]
  rfl

theorem exec_d0Return (s : State) : exec .d0Return s = .next s.d0Again.reviewHost.pumpBulks := by
  change Host.Outcome.next (State.busAgain _) = _
  rw [State.busAgain_eq]
  rfl

end

/-! ### A ring halts (R409, R438) -/

/-- A ring stands with a cause. -/
def State.ringHalt (s : State) (k n cause : Nat) : State := (s.set (ringHalted k n) 1).set (ringCause k n) cause

section
variable {k n cause : Nat} {s : State}

theorem State.haltRing_of_standing (h : s.get (ringHalted k n) = 1 ∨ s.get CHN_STATE.TALLY ≠ 1) : s.haltRing k n cause = s := by
  refine if_pos ?_
  rcases h with h | h
  · rw [State.on_of_eq h]; rfl
  · rw [State.isPithead_of_ne h]; exact Bool.or_true _

theorem State.ringHalt_only (s : State) (k n cause : Nat) : Only [ringHalted k n, ringCause k n] s (s.ringHalt k n cause) :=
  ((Only.refl _ s).set _ (by simp)).set _ (by simp)

/-- The unit with RING_HALTED on its way. -/
def State.haltRaised (s : State) (k n cause : Nat) : State := (s.ringHalt k n cause).raise 0x0E01 [k, n, cause, s.get (ringIndex k n)]

/-- A field that neither the halt nor an event on its way touches reads as before. -/
theorem State.haltRaised_get {g : Field} (hkeys : g.key ∉ [ringHalted k n, ringCause k n].map Field.key)
    (hraise : g.key ∉ [HST_ERRCNT2.EVENT_LOST.key, CHN_ERRCNT4.PORT_DROP.key]) (s : State) :
    (s.haltRaised k n cause).get g = s.get g :=
  (State.raise_get _ _ _ hraise).trans ((s.ringHalt_only k n cause).2 g hkeys)

/-- Fields of other registers are kept elsewhere. -/
theorem Field.key_notMem_pair {f a b : Field} (hf : f.lo < 32) (ha : a.lo < 32) (hb : b.lo < 32) (hoffa : f.off ≠ a.off) (hoffb : f.off ≠ b.off) :
    f.key ∉ [a.key, b.key] := by
  simp only [List.mem_cons, List.not_mem_nil, or_false, not_or, Field.key]
  omega

theorem State.haltRaised_cqVector (s : State) (n cause : Nat) : (s.haltRaised 1 n cause).get (HST_CQ_CFG.VECTOR n) = s.get (HST_CQ_CFG.VECTOR n) :=
  have hlo : 24 < 32 := by decide
  State.haltRaised_get (k := 1) (n := n)
    (Field.key_notMem_pair hlo (show 31 < 32 by decide) hlo (show 0x0E308 + 16 * n ≠ 0x0E30C + 16 * n by omega)
      (show 0x0E308 + 16 * n ≠ 0x0E30C + 16 * n by omega))
    (Field.key_notMem_pair hlo (by decide) (by decide) (show 0x0E308 + 16 * n ≠ 0x0E024 by omega) (show 0x0E308 + 16 * n ≠ 0x0B070 by omega)) s

theorem State.haltRaised_drVector (s : State) (n cause : Nat) : (s.haltRaised 2 n cause).get (HST_DR_CFG.VECTOR n) = s.get (HST_DR_CFG.VECTOR n) :=
  have hlo : 24 < 32 := by decide
  State.haltRaised_get (k := 2) (n := n)
    (Field.key_notMem_pair hlo (show 31 < 32 by decide) hlo (show 0x0E508 + 16 * n ≠ 0x0E50C + 16 * n by omega)
      (show 0x0E508 + 16 * n ≠ 0x0E50C + 16 * n by omega))
    (Field.key_notMem_pair hlo (by decide) (by decide) (show 0x0E508 + 16 * n ≠ 0x0E024 by omega) (show 0x0E508 + 16 * n ≠ 0x0B070 by omega)) s

section
variable (hpit : s.get CHN_STATE.TALLY = 1)
include hpit

theorem State.haltRing_runs (hrun : s.get (ringHalted k n) ≠ 1) : ¬ (s.on (ringHalted k n) || !s.isPithead) = true := by
  rw [State.on_of_ne hrun, State.isPithead_of_eq hpit]
  exact Bool.false_ne_true

theorem State.haltRing_sq (hrun : s.get (ringHalted 0 n) ≠ 1) : s.haltRing 0 n cause = s.haltRaised 0 n cause :=
  if_neg (State.haltRing_runs hpit hrun)

theorem State.haltRing_cq (hrun : s.get (ringHalted 1 n) ≠ 1) :
    s.haltRing 1 n cause = (s.haltRaised 1 n cause).vector (s.get (HST_CQ_CFG.VECTOR n)) := by
  rw [← s.haltRaised_cqVector n cause]
  exact if_neg (State.haltRing_runs hpit hrun)

theorem State.haltRing_dr (hrun : s.get (ringHalted 2 n) ≠ 1) :
    s.haltRing 2 n cause = (s.haltRaised 2 n cause).vector (s.get (HST_DR_CFG.VECTOR n)) := by
  rw [← s.haltRaised_drVector n cause]
  exact if_neg (State.haltRing_runs hpit hrun)

end

end

/-! ### Vectors (R409) -/

section
variable {v : Nat} {s : State}

theorem State.vector_of_masked (h : bit (s.msixWord (0x0EC00 + 16 * v + 12)) 0 = true) :
    s.vector v = s.onHst fun h => { h with msixPending := setBit h.msixPending v true } :=
  if_pos h

section
variable (h : bit (s.msixWord (0x0EC00 + 16 * v + 12)) 0 = false)
include h

theorem State.vector_of_issues (hissue : s.canIssue = true) :
    s.vector v = s.onHst fun h => { h with
      writes := h.writes ++ [⟨s.msixWord (0x0EC00 + 16 * v) + s.msixWord (0x0EC00 + 16 * v + 4) * 2 ^ 32, leBytes (s.msixWord (0x0EC00 + 16 * v + 8)) 4⟩]
      sent := h.sent ++ [v] } := by
  simp only [State.vector, State.hostWrite, h, hissue, State.when_true]
  rfl

theorem State.vector_of_silent (hissue : s.canIssue = false) : s.vector v = s := by
  simp only [State.vector, State.hostWrite, h, hissue, State.when_false]
  rfl

end

end

/-! ### The grace (R434) -/

/-- The grace ends HST_GRACE.MS ms after a count, by the cause that began it. -/
def State.graceEnded (s : State) (f cause : Nat) : State :=
  (((s.advance (f + s.get HST_GRACE.MS * 2000000)).onHst fun h => { h with graceOver := true }).raise 0x0E04 [cause]).reviewHost

section
variable {s : State} {f : Nat}

theorem State.graceFrom_of_none (hbme : s.hst.bmeCleared = none) (hd3 : s.hst.d3Entered = none) : s.graceFrom = none := by
  rw [State.graceFrom, hbme, hd3]

theorem State.graceFrom_of_bme (hbme : s.hst.bmeCleared = some f) (hfirst : ∀ g : Nat, s.hst.d3Entered = some g → f ≤ g) :
    s.graceFrom = some (f, 0) := by
  rw [State.graceFrom, hbme]
  cases hd3 : s.hst.d3Entered with
  | none => rfl
  | some g => exact if_pos (hfirst g hd3)

theorem State.graceFrom_of_d3hot (hbme : s.hst.bmeCleared = none) (hd3 : s.hst.d3Entered = some f) : s.graceFrom = some (f, 1) := by
  rw [State.graceFrom, hbme, hd3]

theorem exec_hostGraceExpired_of_none (h : s.graceFrom = none) : exec .hostGraceExpired s = .next s := by
  change execHostGraceExpired s = _
  rw [execHostGraceExpired, h]

theorem exec_hostGraceExpired_of_over (h : s.hst.graceOver = true ∨ s.get CHN_STATE.TALLY ≠ 1) : exec .hostGraceExpired s = .next s := by
  have hover : (s.hst.graceOver || !s.isPithead) = true := by
    rcases h with h | h
    · rw [h]; rfl
    · rw [State.isPithead_of_ne h]; exact Bool.or_true _
  change execHostGraceExpired s = _
  unfold execHostGraceExpired
  split
  · rfl
  · exact if_pos hover

theorem exec_hostGraceExpired_of_running {cause : Nat} (hover : s.hst.graceOver = false) (hpit : s.get CHN_STATE.TALLY = 1)
    (h : s.graceFrom = some (f, cause)) : exec .hostGraceExpired s = .next (s.graceEnded f cause) := by
  change execHostGraceExpired s = _
  simp only [execHostGraceExpired, h]
  exact if_neg (by rw [hover, State.isPithead_of_eq hpit]; exact Bool.false_ne_true)

end

/-! ### The timers of the rings (R422, R429) -/

section
variable {s : State}

section
variable {n : Fin 32}

theorem exec_cqModerationTimer_of_idle
    (h : Tbl.get none s.hst.firstUnsignalled n.val = none ∨ s.get (HST_CQ_CFG.MOD_US n.val) = 0 ∨ s.get CHN_STATE.TALLY ≠ 1) :
    exec (.cqModerationTimer n) s = .next s := by
  change execCqModerationTimer n s = _
  unfold execCqModerationTimer
  rcases h with h | h
  · rw [h]
  · have hoff : s.get (HST_CQ_CFG.MOD_US n.val) = 0 ∨ s.isPithead = false := h.imp_right State.isPithead_of_ne
    simp only
    split
    · rfl
    · exact if_pos hoff

theorem exec_cqModerationTimer_of_waiting {f : Nat} (h : Tbl.get none s.hst.firstUnsignalled n.val = some f)
    (hus : s.get (HST_CQ_CFG.MOD_US n.val) ≠ 0) (hpit : s.get CHN_STATE.TALLY = 1) :
    exec (.cqModerationTimer n) s = .next ((s.advance (f + s.get (HST_CQ_CFG.MOD_US n.val) * 2000)).signalCq n.val) := by
  change execCqModerationTimer n s = _
  simp only [execCqModerationTimer, h]
  exact if_neg (by rw [State.isPithead_of_eq hpit]; simp [hus])

end

section
variable {n : Fin 16}

theorem exec_drFlushTimeout_of_idle
    (h : Tbl.get none s.hst.dr n.val = none ∨ s.get (HST_DR_CFG.FLUSH n.val) = 0 ∨ s.get CHN_STATE.TALLY ≠ 1) :
    exec (.drFlushTimeout n) s = .next s := by
  change execDrFlushTimeout n s = _
  unfold execDrFlushTimeout
  rcases h with h | h
  · rw [h]
  · have hoff : s.get (HST_DR_CFG.FLUSH n.val) = 0 ∨ s.isPithead = false := h.imp_right State.isPithead_of_ne
    simp only
    split
    · rfl
    · exact if_pos hoff

theorem exec_drFlushTimeout_of_filling {b : DrBuf} (h : Tbl.get none s.hst.dr n.val = some b) (hms : s.get (HST_DR_CFG.FLUSH n.val) ≠ 0)
    (hpit : s.get CHN_STATE.TALLY = 1) :
    exec (.drFlushTimeout n) s =
      .next ((s.advance (b.since + s.get (HST_DR_CFG.FLUSH n.val) * 2000000)).closeBuffer n.val true).pump := by
  change execDrFlushTimeout n s = _
  simp only [execDrFlushTimeout, h]
  exact if_neg (by rw [State.isPithead_of_eq hpit]; simp [hms])

end

end

/-! ### BAR2 (R408) -/

section
variable {off : Nat} {s : State}

theorem exec_bar2Read_of_silent (h : s.answers .bar0 0x0E020 = false) (write : Bool) : exec (.bar2Read off write) s = .next s :=
  if_pos (by rw [h]; rfl)

section
variable (h : s.answers .bar0 0x0E020 = true)
include h

theorem exec_bar2Write : exec (.bar2Read off true) s = .next (s.bump HST_ERRCNT1.BAR2_DENIED 1) :=
  (if_neg (by rw [h]; exact Bool.false_ne_true)).trans (if_pos rfl)

/-- A read goes by the maker's session and the tally. -/
theorem exec_bar2Read_of_answers : exec (.bar2Read off false) s =
    if s.holds .bar0 .maker && s.isPithead then
      if off + 0x2000000 * s.get HST_BAR2.BASE < 0x6000000 then
        .next { (readKibble 4 (off + 0x2000000 * s.get HST_BAR2.BASE) s).2 with answer := (readKibble 4 (off + 0x2000000 * s.get HST_BAR2.BASE) s).1 }
      else .next { s with answer := 0 }
    else .next { s.denyBar2 off with answer := 0 } :=
  (if_neg (by rw [h]; exact Bool.false_ne_true)).trans (if_neg Bool.false_ne_true)

theorem exec_bar2Read_of_denied (hdeny : s.holds .bar0 .maker = false ∨ s.isPithead = false) :
    exec (.bar2Read off false) s = .next { s.denyBar2 off with answer := 0 } := by
  refine (exec_bar2Read_of_answers h).trans (if_neg ?_)
  rcases hdeny with hdeny | hdeny <;> simp [hdeny]

variable (hmaker : s.holds .bar0 .maker = true) (hpit : s.isPithead = true)
include hmaker hpit

theorem exec_bar2Read_of_inside (hin : off + 0x2000000 * s.get HST_BAR2.BASE < 0x6000000) :
    exec (.bar2Read off false) s =
      .next { (readKibble 4 (off + 0x2000000 * s.get HST_BAR2.BASE) s).2 with answer := (readKibble 4 (off + 0x2000000 * s.get HST_BAR2.BASE) s).1 } :=
  (exec_bar2Read_of_answers h).trans ((if_pos (by rw [hmaker, hpit]; rfl)).trans (if_pos hin))

theorem exec_bar2Read_of_beyond (hout : 0x6000000 ≤ off + 0x2000000 * s.get HST_BAR2.BASE) :
    exec (.bar2Read off false) s = .next { s with answer := 0 } :=
  (exec_bar2Read_of_answers h).trans ((if_pos (by rw [hmaker, hpit]; rfl)).trans (if_neg (Nat.not_lt.mpr hout)))

end

theorem State.denyBar2_of_recent {f : Nat} (h : s.hst.bar2Denied = some f) (hlt : s.fwc < f + 2000000000) :
    s.denyBar2 off = s.bump HST_ERRCNT1.BAR2_DENIED 1 := by
  simp only [State.denyBar2, h]
  exact if_neg (by rw [decide_eq_true_eq]; exact Nat.not_le.mpr hlt)

end

/-- Where the store finds a byte of an offset. -/
def State.kibbleAt (s : State) (o : Nat) : Nat × Nat :=
  Config.kibblePlace [s.get PIPE_MEM.SPOT_MIB, s.get PIPE_MEM.TBL_MIB, s.get ENG_POOL.MIB, s.get CHN_INTAKE.HWM_MIB] o

theorem State.kibbleByte_eq (s : State) (o : Nat) :
    s.kibbleByte o = if (s.kibbleAt o).1 = 5 then (memByte s.pipe.table (s.kibbleAt o).2, s)
      else if (s.kibbleAt o).2 < (s.kibbleArea (s.kibbleAt o).1).length then ((s.kibbleArea (s.kibbleAt o).1).getD (s.kibbleAt o).2 0 % 256, s)
      else if s.pipe.blank then (0, s)
      else (Config.freeValue s.freeIx % 256, { s with freeIx := s.freeIx + 1 }) := by
  refine ite_congr rfl (fun _ => rfl) fun _ => ?_
  change (match (s.kibbleArea (s.kibbleAt o).1)[(s.kibbleAt o).2]? with
    | some b => (b % 256, s)
    | none => _) = _
  split
  case h_1 b hb =>
    obtain ⟨hlt, -⟩ := List.getElem?_eq_some_iff.mp hb
    rw [if_pos hlt, List.getD_eq_getElem?_getD, hb, Option.getD_some]
  case h_2 hnone => rw [if_neg (Nat.not_lt.mpr (List.getElem?_eq_none_iff.mp hnone))]; rfl

/-- Settles O51: each event of the link or of the function is one branch of its row, and what it keeps is read off the branch's state. -/
theorem linkAndFunctionEventsReachTheHostInterface : Obligations.LinkAndFunctionEventsReachTheHostInterface := by
  refine ⟨fun s => ?reset, fun s => ?pins, fun sp wd fl s => ⟨fun h => ?illegal, fun hlo hhi hwd => ?legal⟩,
    fun s => ⟨exec_bmeClear_of_clear, exec_bmeClear_of_set, exec_d3hotEntry_of_d3hot, exec_d3hotEntry_of_d0,
      ⟨_, s.bmeAgain_only, s.bmeAgain_bme, s.bmeAgain_graceOver, exec_bmeSet s⟩,
      ⟨_, s.d0Again_only, s.d0Again_d3hot, s.d0Again_graceOver, exec_d0Return s⟩⟩,
    fun k n cause s => ⟨State.haltRing_of_standing, fun hrun hpit hcause hw1 hw hkey => ?halt⟩,
    fun v s => ⟨State.vector_of_masked, State.vector_of_issues, State.vector_of_silent⟩,
    fun s => ⟨fun hbme hd3 => exec_hostGraceExpired_of_none (State.graceFrom_of_none hbme hd3), exec_hostGraceExpired_of_over,
      fun f hover hpit hbme hfirst => exec_hostGraceExpired_of_running hover hpit (State.graceFrom_of_bme hbme hfirst),
      fun f hover hpit hbme hd3 => exec_hostGraceExpired_of_running hover hpit (State.graceFrom_of_d3hot hbme hd3)⟩,
    fun n s => ⟨exec_cqModerationTimer_of_idle, fun f => exec_cqModerationTimer_of_waiting⟩,
    fun n s => ⟨exec_drFlushTimeout_of_idle, fun b => exec_drFlushTimeout_of_filling⟩, fun off s => ?bar2,
    fun o s => ⟨_, rfl, s.kibbleByte_eq o⟩⟩
  case reset =>
    obtain ⟨honly, hzero⟩ := s.ringsReset.zeros_resetBits
    exact ⟨s.ringsReset, _, honly, hzero _ (by simp [resetBits]), hzero _ (by simp [resetBits]), hzero _ (by simp [resetBits]), rfl,
      fun f hlo hmin hmax => (s.ringsReset_get f hlo).trans (if_pos ⟨hmin, hmax⟩),
      fun f hlo hout => (s.ringsReset_get f hlo).trans (if_neg (by omega)), rfl, s.functionReset_eq⟩
  case pins =>
    refine ⟨fun h => ?_, fun h => ?_,
      exec_perstNAssert_of_asserted, fun hp h => ?_, fun hp h => ?_, exec_perstNRelease_of_released, exec_perstNRelease_of_wake,
      exec_perstNRelease_of_stays, exec_flrDone_of_none, exec_flrDone_of_noted, exec_dlUp_of_held, exec_dlUp_of_free⟩
    · rw [exec_functionLevelReset, exec_hotReset, State.hostReset_of_above h, State.hostReset_of_above (by rwa [State.power_dlDown])]
      exact ⟨rfl, rfl⟩
    · rw [exec_functionLevelReset, exec_hotReset, State.hostReset_of_standby h, State.hostReset_of_standby (by rwa [State.power_dlDown])]
      exact ⟨rfl, rfl⟩
    · rw [exec_perstNAssert_of_released hp, State.hostReset_of_above (by rwa [State.power_perstDown])]; rfl
    · rw [exec_perstNAssert_of_released hp, State.hostReset_of_standby (by rwa [State.power_perstDown])]; rfl
  case illegal =>
    refine exec_linkChanged_of_illegal fun hlegal => ?_
    obtain ⟨hlo, hhi, hwd⟩ := hlegal
    rcases h with h | h | h
    · omega
    · omega
    · exact h (by simpa using hwd)
  case legal =>
    have hwd' : wd = 1 ∨ wd = 2 ∨ wd = 4 ∨ wd = 8 := by simpa using hwd
    exact ⟨_, State.linkSet_only, State.linkSet_speed (by omega), State.linkSet_width (by omega), State.linkSet_flit,
      exec_linkChanged_of_legal ⟨hlo, hhi, hwd'⟩⟩
  case halt =>
    refine ⟨s.ringHalt k n cause, s.ringHalt_only k n cause, ?_, ?_, ?_, ?_, ?_⟩
    · exact (State.get_set_ne _ _ hkey).trans (State.get_set_of_lt s (by rw [hw1]; decide))
    · exact State.get_set_of_lt _ (by rcases hw with hw | hw <;> rw [hw] <;> omega)
    · rintro rfl; exact State.haltRing_sq hpit hrun
    · rintro rfl; exact State.haltRing_cq hpit hrun
    · rintro rfl; exact State.haltRing_dr hpit hrun
  case bar2 =>
    refine ⟨fun h => ⟨exec_bar2Read_of_silent h true, exec_bar2Read_of_silent h false⟩, fun h => ⟨exec_bar2Write h,
      fun hmaker hpit hin => ⟨_, _, _, _, _, rfl, rfl, rfl, rfl, rfl, exec_bar2Read_of_inside h hmaker hpit hin⟩, exec_bar2Read_of_beyond h,
      fun hdeny => ⟨_, exec_bar2Read_of_denied h hdeny, rfl⟩, fun f hdeny hdenied hlt => ?_⟩⟩
    rw [exec_bar2Read_of_denied h hdeny, State.denyBar2_of_recent hdenied hlt]

end Sys2Proof.Machine
end

section
/-!
PROOF. A cycle with nothing waiting (R31, log entry 4), what a reset of the domains leaves (R9, R453, R484), and VAON (R454, R522).
-/
namespace Sys2Proof.Machine

/-! ### The idle step -/

theorem State.advance_of_later {s : State} {t : Nat} (hle : s.fwc ≤ t) (hlt : t < 2 ^ 80) : s.advance t = { s with fwc := t } := by
  rw [State.advance, Nat.max_eq_right hle, Nat.mod_eq_of_lt hlt]

theorem State.idle_of_room {s : State} (h : s.fwc + 80 < 2 ^ 80) :
    s.idle = { s with fwc := if s.on (PLL_STATUS.LOCKED 1) then s.fwc + 1 else if s.on PWR_CLK.CANARY_RUN then s.fwc + 80 else s.fwc } := by
  unfold State.idle State.pllTOn
  split
  · exact State.advance_of_later (by omega) (by omega)
  · split
    · exact State.advance_of_later (by omega) h
    · rfl

/-- Settles O2: an empty queue idles, and the counter advances by what drives the TIME domain. -/
theorem emptyQueueIdles : Obligations.EmptyQueueIdles := by
  intro s hempty hroom
  have hstep : step s = .next s.idle := by rw [step, hempty]
  exact hstep.trans (congrArg _ (State.idle_of_room hroom))

/-! ### A reset of the domains -/

theorem Field.key_div {f : Field} (h : f.lo < 32) : f.key / 32 = f.off := by
  rw [Field.key]; omega

/-- The flags of page 0x01 that the clocks drive. -/
def clockFlags : List Field := [PWR_CLK.CANARY_RUN, PWR_CLK.LOCKED, PWR_CLK.GATED, PWR_CLK.REF_PRESENT]

theorem key_notMem_clockFlags {f : Field} (h : f.lo < 32) (hpage : pageOf f.off ≠ 0x01) : f.key ∉ clockFlags.map Field.key := by
  intro hmem
  have hall : ∀ k ∈ clockFlags.map Field.key, pageOf (k / 32) = 0x01 := by decide
  exact hpage (Field.key_div h ▸ hall _ hmem)

theorem State.toResets_get {g : Field} (fs : List Field) (h : g.key ∉ fs.map Field.key) (s : State) : (s.toResets fs).get g = s.get g := by
  induction fs generalizing s with
  | nil => rfl
  | cons f fs ih =>
    rw [List.map_cons, List.mem_cons, not_or] at h
    exact (ih h.2 (s.toReset f)).trans (State.get_set_ne _ _ (Ne.symm h.1))

/-- A register that a reset of the domains keeps, by its number. -/
def isKeptKey (canary rws : Bool) (k : Nat) : Bool :=
  decide (pageOf (k / 32) = 0x01 ∨ pageOf (k / 32) = 0x11 ∨ (canary = true ∧ pageOf (k / 32) = 0x03)) || (rws && isRwsKey k)

theorem State.resetBut_get (s : State) (canary rws : Bool) {f : Field} (h : f.key ∉ clockFlags.map Field.key) :
    (s.resetBut canary rws).get f = if isKeptKey canary rws f.key then s.get f else f.reset := by
  refine (State.toResets_get _ ?_ _).trans (Tbl.get_keep f.reset (isKeptKey canary rws) s.regs f.key)
  cases canary
  · exact h
  · exact fun hmem => h (List.mem_cons_of_mem _ hmem)

/-- In STANDBY and at start-up nothing but pages 0x01 and 0x11 keeps its value (R484). -/
theorem State.resetDomains_get (s : State) {f : Field} (h : f.lo < 32) (h01 : pageOf f.off ≠ 0x01) (h11 : pageOf f.off ≠ 0x11) :
    s.resetDomains.get f = f.reset := by
  refine (s.resetBut_get false false (key_notMem_clockFlags h h01)).trans (if_neg ?_)
  simp [isKeptKey, Field.key_div h, h01, h11]

/-! ### VAON -/

theorem exec_vaonGood_of_on {s : State} (h : s.pwr.vaon = true) (addr : Nat) (strap : Bool) : exec (.vaonGood addr strap) s = .next s := if_pos h

/-- The power-on reset: every register at its reset value, the straps sampled, what the store's cells hold kept. -/
def State.poweredOn (s : State) (addr : Nat) (strap : Bool) : State :=
  { s.resetDomains with
    regs := [], latched := [], lnk := {}, fwc := 0, heldAon := [], i2c := { addr := addr % 8 }, strap, pwr := { perst := s.pwr.perst } }

/-- The state OFF. -/
def State.poweredOff (s : State) : State :=
  { s.resetDomains with
    regs := [], latched := [], lnk := {}, fwc := 0, heldAon := [], i2c := { addr := s.i2c.addr }, pwr := { vaon := false, perst := s.pwr.perst } }

theorem exec_vaonGood_of_off {s : State} (h : s.pwr.vaon = false) (addr : Nat) (strap : Bool) :
    exec (.vaonGood addr strap) s = .next ((s.poweredOn addr strap).raise 0x0101 [0, stSTANDBY]) :=
  if_neg (by rw [h]; exact Bool.false_ne_true)

theorem exec_vaonFail_of_on {s : State} (h : s.pwr.vaon = true) : exec .vaonFail s = .next s.poweredOff := if_pos h

/-- Settles O8: VAON good powers a unit in OFF on, and VAON fail turns it OFF; both empty the register store and keep the cells. -/
theorem vaonStartsAndStopsTheUnit : Obligations.VaonStartsAndStopsTheUnit :=
  ⟨fun addr strap s h => ⟨s.poweredOn addr strap, exec_vaonGood_of_off h addr strap, fun _ => rfl, rfl, rfl, rfl, rfl, rfl, rfl, rfl, rfl, rfl⟩,
    fun addr strap _ h => exec_vaonGood_of_on h addr strap,
    fun s h => ⟨s.poweredOff, exec_vaonFail_of_on h, rfl, fun _ => rfl, rfl, rfl, rfl⟩⟩

end Sys2Proof.Machine
end

section
/-!
PROOF. The rails (ch. 13, R451 to R453, R545): a rail marked good in its order or before it, a rail that fails, what a fatal one holds in reset, and the
lands while VDDIO is down.
-/
namespace Sys2Proof.Machine

/-! ### A rail becomes good (R451, R452) -/

/-- Rail `i` marked good and no longer below 0.3 V. -/
def State.railMarked (s : State) (i : Nat) : State :=
  (s.putBit PWR_RAIL.GOOD i true).onPwr fun p => { p with railLow := setBit p.railLow i false }

section
variable {s : State} {i : Nat}

theorem State.railMarked_only : Only [PWR_RAIL.GOOD] (s.onPwr fun p => { p with railLow := setBit p.railLow i false }) (s.railMarked i) :=
  (Only.refl _ _).set _ (List.mem_singleton_self _)

theorem State.railMarked_good : (s.railMarked i).get PWR_RAIL.GOOD = setBit (s.get PWR_RAIL.GOOD) i true % 2 ^ 9 := State.get_set_self ..

theorem State.railViolates_only :
    Only [PWR_RAIL.GOOD, PWR_RAIL.SEQ_VIOL] (s.onPwr fun p => { p with railLow := setBit p.railLow i false })
      ((s.railMarked i).set PWR_RAIL.SEQ_VIOL 1) :=
  (State.railMarked_only.weaken (by simp)).set 1 (by simp)

theorem State.railViolates_good :
    ((s.railMarked i).set PWR_RAIL.SEQ_VIOL 1).get PWR_RAIL.GOOD = setBit (s.get PWR_RAIL.GOOD) i true % 2 ^ 9 :=
  (State.get_set_ne _ _ (by decide)).trans State.railMarked_good

theorem State.railViolates_violation : ((s.railMarked i).set PWR_RAIL.SEQ_VIOL 1).get PWR_RAIL.SEQ_VIOL = 1 := State.get_set_self ..

end

section
variable {s : State} {i : Fin 9} (hvaon : s.pwr.vaon = true) (hgood : s.bitOf PWR_RAIL.GOOD i.val = false)
include hvaon hgood

theorem exec_railGood_of_unmarked :
    exec (.railGood i) s = .next (if s.outOfOrder i.val then ((s.railMarked i.val).set PWR_RAIL.SEQ_VIOL 1).raise 0x0104
      [(s.railMarked i.val).get PWR_RAIL.GOOD] else s.railMarked i.val).reviewRails :=
  if_neg (by rw [hvaon, hgood]; exact Bool.false_ne_true)

theorem exec_railGood_of_inOrder (h : s.outOfOrder i.val = false) : exec (.railGood i) s = .next (s.railMarked i.val).reviewRails := by
  rw [exec_railGood_of_unmarked hvaon hgood, h]; rfl

theorem exec_railGood_of_outOfOrder (h : s.outOfOrder i.val = true) :
    exec (.railGood i) s = .next ((((s.railMarked i.val).set PWR_RAIL.SEQ_VIOL 1).raise 0x0104
      [((s.railMarked i.val).set PWR_RAIL.SEQ_VIOL 1).get PWR_RAIL.GOOD]).reviewRails) := by
  rw [exec_railGood_of_unmarked hvaon hgood, h, State.get_set_ne _ _ (by decide)]; rfl

end

/-! ### A rail fails (R453) -/

/-- Rail `i` no longer good and its FAULT bit set. -/
def State.railFaulted (s : State) (i : Nat) : State := (s.putBit PWR_RAIL.GOOD i false).putBit PWR_RAIL.FAULT i true

/-- The unit after RAIL_FAULT, the recovery it calls and HOLD. -/
def State.railCalled (s : State) (i : Nat) : State :=
  ((((s.railFaulted i).raise 0x0103 [i, s.fwc]).railFatalFor i).callRecovery 0x0103 i 2 false false).enterHold 0x0103

section
variable {s : State} {i : Nat}

theorem State.railFaulted_only : Only [PWR_RAIL.GOOD, PWR_RAIL.FAULT] s (s.railFaulted i) :=
  ((Only.refl _ s).set _ (by simp)).set _ (by simp)

theorem State.railFaulted_good : (s.railFaulted i).get PWR_RAIL.GOOD = setBit (s.get PWR_RAIL.GOOD) i false % 2 ^ 9 := by
  rw [State.railFaulted, State.putBit_eq, State.get_set_ne _ _ (by decide)]
  exact State.get_set_self ..

theorem State.railFaulted_fault : (s.railFaulted i).get PWR_RAIL.FAULT = setBit (s.get PWR_RAIL.FAULT) i true % 2 ^ 9 := by
  rw [State.railFaulted, State.putBit_eq, State.get_set_self, State.putBit_eq, State.get_set_ne _ _ (by decide)]
  rfl

variable (hgood : s.bitOf PWR_RAIL.GOOD i = true)
include hgood

theorem State.railFail_of_standby (hpower : s.power = stSTANDBY) (hrun : s.on PWR_CLK.CANARY_RUN = false) :
    s.railFail i = (s.putBit PWR_RAIL.GOOD i false).reviewForcing := by
  have habove : s.above = false := by rw [State.above, hpower]; rfl
  have hrun' : (s.putBit PWR_RAIL.GOOD i false).on PWR_CLK.CANARY_RUN = false := by
    rwa [State.on, State.putBit_eq, State.get_set_ne _ _ (by decide)]
  simp only [State.railFail, hgood, habove, hrun', Bool.not_true, Bool.false_and, Bool.false_eq_true, if_false]

theorem State.railFail_of_above (hpower : stSTANDBY < s.power) :
    s.railFail i =
      if i ≤ 2 then (if (s.railCalled i).on PWR_CLK.CANARY_RUN then ((s.railCalled i).trip trRAIL).reviewForcing
        else (s.railCalled i).reviewForcing).holdDomains
      else if (s.railCalled i).on PWR_CLK.CANARY_RUN then ((s.railCalled i).trip trRAIL).reviewForcing else (s.railCalled i).reviewForcing := by
  have habove : s.above = true := decide_eq_true hpower
  have hoff : decide (s.power ≠ 0) = true := decide_eq_true (Nat.ne_zero_of_lt hpower)
  simp only [State.railFail, hgood, habove, hoff, Bool.not_true, Bool.and_self, Bool.true_and, Bool.false_eq_true, if_false, if_true,
    decide_eq_true_eq]
  rfl

end

theorem exec_railFault_of_vaon {s : State} (h : s.pwr.vaon = true) (i : Fin 9) : exec (.railFault i) s = .next (s.railFail i.val) :=
  congrArg _ (if_pos h)

/-- Every rail of groups 2 to 6 has failed and lies below 0.3 V. -/
def State.railsDown (s : State) : State :=
  (((List.range 9).foldl State.railFail s).set PWR_RAIL.SEQ_VIOL 0).onPwr fun p => { p with railLow := 0x1FF }

theorem State.railsDown_violation (s : State) : s.railsDown.get PWR_RAIL.SEQ_VIOL = 0 := by
  rw [State.railsDown, State.onPwr_get, State.get_set_self]
  rfl

theorem exec_railDown_of_vaon {s : State} (h : s.pwr.vaon = true) : exec .railDown s = .next s.railsDown := if_pos h

/-! ### What a fatal rail holds in reset (R9, R453) -/

/-- The domains that a failed VDDIO, VCORE or VMID holds in reset, as that reset leaves them. -/
def State.domainsHeld (s : State) : State := (s.resetBut s.vmidGood true).onSaf fun f => { f with railFatal := true }

theorem State.holdDomains_eq (s : State) : s.holdDomains = s.domainsHeld.reviewForcing := rfl

theorem State.domainsHeld_sysRuns (s : State) : s.domainsHeld.sysRuns = false := by
  rw [State.sysRuns, show s.domainsHeld.saf.railFatal = true from rfl, Bool.not_true, Bool.and_false]

theorem State.domainsHeld_record (s : State) : s.domainsHeld.fwc = s.fwc ∧ s.domainsHeld.nvs = s.nvs.cells ∧ s.domainsHeld.events = [] := by
  rw [State.domainsHeld]
  cases s.vmidGood <;> exact ⟨rfl, rfl, rfl⟩

theorem State.domainsHeld_get (s : State) {f : Field} (h : f.key ∉ clockFlags.map Field.key) :
    s.domainsHeld.get f = if isKeptKey s.vmidGood true f.key then s.get f else f.reset := s.resetBut_get s.vmidGood true h

section
variable (s : State) {f : Field} (hlo : f.lo < 32)
include hlo

theorem State.domainsHeld_get_of_other (h01 : pageOf f.off ≠ 0x01) (h03 : pageOf f.off ≠ 0x03) (h11 : pageOf f.off ≠ 0x11) :
    s.domainsHeld.get f = if isRwsKey f.key then s.get f else f.reset := by
  have hkept : isKeptKey s.vmidGood true f.key = isRwsKey f.key := by simp [isKeptKey, Field.key_div hlo, h01, h03, h11]
  rw [s.domainsHeld_get (key_notMem_clockFlags hlo h01), hkept]

theorem State.domainsHeld_get_of_aon (h : (pageOf f.off = 0x01 ∧ f.key ∉ clockFlags.map Field.key) ∨ pageOf f.off = 0x11) :
    s.domainsHeld.get f = s.get f := by
  have hclock : f.key ∉ clockFlags.map Field.key := h.elim And.right fun h11 => key_notMem_clockFlags hlo (by rw [h11]; decide)
  refine (s.domainsHeld_get hclock).trans (if_pos ?_)
  rcases h with ⟨h01, -⟩ | h11
  · simp [isKeptKey, Field.key_div hlo, h01]
  · simp [isKeptKey, Field.key_div hlo, h11]

theorem State.domainsHeld_get_of_canary (h03 : pageOf f.off = 0x03) :
    s.domainsHeld.get f = if s.bitOf PWR_RAIL.GOOD 2 ∨ isRwsKey f.key = true then s.get f else f.reset := by
  have hkept : isKeptKey s.vmidGood true f.key = (s.bitOf PWR_RAIL.GOOD 2 || isRwsKey f.key) := by
    simp [isKeptKey, Field.key_div hlo, h03, State.vmidGood]
  rw [s.domainsHeld_get (key_notMem_clockFlags hlo (by rw [h03]; decide)), hkept]
  exact if_congr (by rw [Bool.or_eq_true]) rfl rfl

end

/-! ### The lands (R545) -/

theorem State.atLand_of_down {s : State} (h : bit s.pwr.railLow 0 = true) (level : Bool) : s.atLand level = none := if_pos h

theorem State.atLand_of_up {s : State} (h : bit s.pwr.railLow 0 = false) (level : Bool) : s.atLand level = some level :=
  if_neg (by rw [h]; exact Bool.false_ne_true)

/-- Settles O9: a rail is marked or fails by the power state, a fatal one resets what its domains hold, and a land follows VDDIO. -/
theorem railsAreWatched : Obligations.RailsAreWatched := by
  refine ⟨fun i s hvaon hgood h => ⟨_, exec_railGood_of_inOrder hvaon hgood h, State.railMarked_good, State.railMarked_only⟩,
    fun i s hvaon hgood h => ⟨_, exec_railGood_of_outOfOrder hvaon hgood h, State.railViolates_good, State.railViolates_violation,
      State.railViolates_only⟩,
    fun i s hvaon hpower hgood hrun => ⟨s.putBit PWR_RAIL.GOOD i.val false, ?standby, State.get_set_self ..,
      (Only.refl _ s).putBit _ _ (List.mem_singleton_self _)⟩,
    fun i s hvaon hpower hgood => ⟨_, _, State.railFaulted_only, State.railFaulted_good, State.railFaulted_fault, rfl, _, rfl, ?above⟩,
    fun s => ?held, fun s hvaon => ⟨_, exec_railDown_of_vaon hvaon, s.railsDown_violation, rfl⟩,
    fun n s => ⟨fun h => ⟨State.atLand_of_down h _, State.atLand_of_down h _, State.atLand_of_down h _⟩,
      fun h => ⟨State.atLand_of_up h _, State.atLand_of_up h _, State.atLand_of_up h _⟩⟩⟩
  case standby => rw [exec_railFault_of_vaon hvaon, State.railFail_of_standby hgood hpower hrun]
  case above => rw [exec_railFault_of_vaon hvaon, State.railFail_of_above hgood hpower]; rfl
  case held =>
    obtain ⟨hfwc, hnvs, hevents⟩ := s.domainsHeld_record
    exact ⟨_, s.holdDomains_eq, rfl, s.domainsHeld_sysRuns, hfwc, hnvs, hevents, fun f => s.domainsHeld_get_of_other,
      fun f => s.domainsHeld_get_of_aon, fun f => s.domainsHeld_get_of_canary⟩

end Sys2Proof.Machine
end

section
/-!
PROOF. The power commands (ch. 13, R454, R455, R457, R560; R478, R502, R515): a write of PWR_CMD as a checked command, what the check and a transition do
by the power state, and entry to STANDBY.
-/
namespace Sys2Proof.Machine

/-! ### A write of PWR_CMD -/

theorem State.pwrCmd_of_takes {s : State} {p : Path} {n : Nat} (h : s.takes p 0x01000 n = true) :
    s.pwrCmd p n = (s.booked p 0x01000 n).effPwrCmd p n := State.regWrite_takes h _

section
variable {b : State} {p : Path}

/-- The commands that need no session: targets 1 to 3, and the foreman's 4. -/
theorem State.effPwrCmd_of_open {n : Nat} (h : (1 ≤ n ∧ n ≤ 3) ∨ n = 4 ∧ p = .foreman) : b.effPwrCmd p n = b.commandEnds true n := by
  have htarget : PWR_CMD.TARGET.of n = n := by
    change n >>> 0 % 2 ^ 3 = n
    rw [Nat.shiftRight_zero]
    omega
  have hrange : ¬ (n = 0 ∨ stCAPTURE < n) := by
    rw [stCAPTURE]; omega
  have hopen : n ≠ stCAPTURE ∨ p = .foreman := h.imp (fun ⟨_, hle⟩ => by rw [stCAPTURE]; omega) And.right
  rw [State.effPwrCmd, htarget]
  exact (if_neg hrange).trans (if_pos hopen)

variable (hp : p ≠ .foreman)
include hp

theorem State.effPwrCmd_capture :
    b.effPwrCmd p 4 =
      if b.holds p .operator then
        if b.sbRoom then
          ((b.commandEnds true 4).sbEnter 1 (pathNo p) 7 0 0x01000 4 [4, (b.commandEnds true 4).get PWR_STATUS.RESULT]).touchSession p .operator
        else b.bump NVS_ERRCNT1.SB_REFUSED 1
      else (b.sbReject p .operator 0x01000 4).commandEnds false 4 := by
  have htarget : PWR_CMD.TARGET.of 4 = stCAPTURE := by decide
  rw [State.effPwrCmd, htarget]
  exact (if_neg (by decide)).trans (if_neg (not_or.mpr ⟨fun h => h rfl, hp⟩))

theorem State.effPwrCmd_of_session (h : b.holds p .operator = true) (hroom : b.sbRoom = true) :
    b.effPwrCmd p 4 =
      ((b.commandEnds true 4).sbEnter 1 (pathNo p) 7 0 0x01000 4 [4, (b.commandEnds true 4).get PWR_STATUS.RESULT]).touchSession p .operator :=
  (State.effPwrCmd_capture hp).trans ((if_pos h).trans (if_pos hroom))

theorem State.effPwrCmd_of_no_session (h : b.holds p .operator = false) :
    b.effPwrCmd p 4 = (b.sbReject p .operator 0x01000 4).commandEnds false 4 :=
  (State.effPwrCmd_capture hp).trans (if_neg (by rw [h]; exact Bool.false_ne_true))

end

/-! ### A checked command (R455, R502, R560) -/

/-- The command refused with a RESULT, before PWR_CMD_REFUSED is raised. -/
def State.commandRefused (s : State) (r : Nat) : State := (s.set PWR_STATUS.RESULT r).bump PWR_ERRCNT.REFUSED 1

/-- The command accepted, before its transition begins. -/
def State.commandAccepted (s : State) : State := (s.set PWR_STATUS.RESULT 0).abortBist

theorem State.commandResult_le (s : State) (session : Bool) (n : Nat) : s.commandResult session n ≤ 7 := by
  rw [State.commandResult]
  repeat' split
  all_goals decide

section
variable {b : State} {session : Bool} {n : Nat}

theorem State.commandRefused_only (r : Nat) : Only [PWR_STATUS.RESULT, PWR_ERRCNT.REFUSED] b (b.commandRefused r) :=
  ((Only.refl _ b).set _ (by simp)).bump _ (by simp)

theorem State.commandRefused_result : (b.commandRefused (b.commandResult session n)).get PWR_STATUS.RESULT = b.commandResult session n := by
  rw [State.commandRefused, State.bump_eq, State.get_set_ne _ _ (by decide)]
  exact State.get_set_of_lt b (Nat.lt_succ_of_le (b.commandResult_le session n))

theorem State.commandRefused_count (r : Nat) : (b.commandRefused r).get PWR_ERRCNT.REFUSED = min 65535 (b.get PWR_ERRCNT.REFUSED + 1) := by
  rw [State.commandRefused, State.bump_eq, State.get_set_ne b (f := PWR_STATUS.RESULT) r (by decide)]
  exact State.get_set_of_lt _ (Nat.lt_succ_of_le (Nat.min_le_left ..))

theorem State.command_of_refused (h : b.commandResult session n ≠ 0) :
    b.command session n = (b.commandRefused (b.commandResult session n)).raise 0x0102 [n, b.commandResult session n] := if_pos h

section
variable (h : b.commandResult session n = 0)
include h

theorem State.command_of_awaiting (hawait : b.awaitsReference = true) :
    b.command session n = ((b.set PWR_STATUS.RESULT 0).resetDomains).set PWR_STATUS.BUSY 0 := by
  simp only [State.command, h, hawait, ne_eq, not_true_eq_false, if_false, if_true]

theorem State.command_of_accepted (hawait : b.awaitsReference = false) : b.command session n = b.commandAccepted.goTo n := by
  simp only [State.command, h, hawait, ne_eq, not_true_eq_false, if_false, Bool.false_eq_true]
  rfl

end

theorem State.commandEnds_of_other (h : b.power ≠ stHOLD) : b.commandEnds session n = b.command session n := if_neg fun hc => h hc.1

theorem State.commandEnds_of_hold (h : b.power = stHOLD) :
    b.commandEnds session n = if ((b.command session n).power = stIDLE ∨ (b.command session n).power = stREADY) ∧ b.get SAF_STATUS.LEVEL = 2
      then (b.command session n).endRecovery else b.command session n := by
  rw [State.commandEnds]
  exact if_congr (and_iff_right h) rfl rfl

end

/-! ### Beginning a transition (R454) -/

section
variable {b : State} {n : Nat}

theorem State.goTo_of_standby (h : b.power = stSTANDBY) : b.goTo n = b.beginStartup := if_pos h

theorem State.beginStartup_busy (s : State) : s.beginStartup.get PWR_STATUS.BUSY = 1 := by
  rw [State.beginStartup, State.onPwr_get, State.get_set_self]
  rfl

theorem State.beginStartup_get {s : State} {f : Field} (h : PWR_STATUS.BUSY.key ≠ f.key) : s.beginStartup.get f = s.get f := by
  rw [State.beginStartup, State.onPwr_get, State.get_set_ne _ _ h]

theorem State.goTo_standby (h : b.power ≠ stSTANDBY) : b.goTo stSTANDBY = b.standby := (if_neg h).trans (if_pos rfl)

theorem State.goTo_of_hold (h : b.power = stHOLD) (hn : n ≠ stSTANDBY) : b.goTo n = b.endHold n :=
  (if_neg (by rw [h]; decide)).trans ((if_neg hn).trans (if_pos h))

theorem State.goTo_of_idle (h : b.power = stIDLE) (hn : n ≠ stSTANDBY) : b.goTo n = b.intoReady :=
  (if_neg (by rw [h]; decide)).trans ((if_neg hn).trans ((if_neg (by rw [h]; decide)).trans (if_pos h)))

theorem State.goTo_idle_of_ready (h : b.power = stREADY) : b.goTo stIDLE = b.intoIdle := by
  have hne : ∀ m, m ≠ 3 → b.power ≠ m := fun m hm hb => hm (hb.symm.trans h)
  exact (if_neg (hne 1 (by decide))).trans ((if_neg (by decide)).trans ((if_neg (hne 5 (by decide))).trans ((if_neg (hne 2 (by decide))).trans
    (if_pos ⟨h, rfl⟩))))

/-- The transition waits for the sweep. -/
def State.transitionWaits (s : State) (n : Nat) : State := (s.set PWR_STATUS.PENDING n).set PWR_STATUS.BUSY 1

theorem State.goTo_of_sweep (h : (b.power, n) ∈ [(stREADY, stCAPTURE), (stCAPTURE, stREADY)]) : b.goTo n = b.transitionWaits n := by
  simp only [List.mem_cons, Prod.mk.injEq, List.not_mem_nil, or_false] at h
  rcases h with ⟨hb, rfl⟩ | ⟨hb, rfl⟩ <;> simp [State.goTo, State.transitionWaits, hb, stSTANDBY, stIDLE, stREADY, stCAPTURE, stHOLD]

theorem State.transitionWaits_only : Only [PWR_STATUS.PENDING, PWR_STATUS.BUSY] b (b.transitionWaits n) :=
  ((Only.refl _ b).set _ (by simp)).set _ (by simp)

theorem State.transitionWaits_pending (hn : n < 8) : (b.transitionWaits n).get PWR_STATUS.PENDING = n :=
  (State.get_set_ne _ _ (by decide)).trans (State.get_set_of_lt b hn)

theorem State.transitionWaits_busy : (b.transitionWaits n).get PWR_STATUS.BUSY = 1 := State.get_set_self ..

end

/-! ### Entry to STANDBY (R31, R454, R484) -/

/-- What the unit has written to the store before it enters STANDBY. -/
def State.storeDrained (s : State) : State := drainBook 256 ((if s.nvs.img.isSome then s else s.closeOp).sbClose)

/-- The unit in STANDBY, before PWR_STATE_CHANGED is raised. -/
def State.atStandby (s : State) : State :=
  ((s.storeDrained.resetDomains.set PWR_STATUS.PENDING 0).set PWR_STATUS.STATE stSTANDBY).set PWR_STATUS.BUSY 0

section
variable (s : State)

theorem State.toStandby_eq : s.toStandby = s.atStandby.raise 0x0101 [s.get PWR_STATUS.STATE, stSTANDBY] := rfl

theorem State.atStandby_state : s.atStandby.get PWR_STATUS.STATE = stSTANDBY :=
  (State.get_set_ne _ _ (by decide)).trans (State.get_set_self ..)

theorem State.atStandby_busy : s.atStandby.get PWR_STATUS.BUSY = 0 := State.get_set_self ..

theorem State.atStandby_pending : s.atStandby.get PWR_STATUS.PENDING = 0 :=
  (State.get_set_ne _ _ (by decide)).trans ((State.get_set_ne _ _ (by decide)).trans (State.get_set_self ..))

theorem State.atStandby_serial : s.atStandby.serial = s.serial :=
  (Kept.ite (Kept.refl s) (Kept.refl s).closeOp).sbClose.drainBook.resetDomains.serial

theorem State.atStandby_get {f : Field} (h : f.lo < 32) (h01 : pageOf f.off ≠ 0x01) (h11 : pageOf f.off ≠ 0x11) :
    s.atStandby.get f = f.reset := by
  have hkey : ∀ g : Field, g.lo < 32 → pageOf g.off = 0x01 → g.key ≠ f.key := fun g hg hpage heq => by
    have hoff : g.off = f.off := by rw [← Field.key_div hg, heq, Field.key_div h]
    exact h01 (hoff ▸ hpage)
  rw [State.atStandby, State.get_set_ne _ _ (hkey _ (by decide) (by decide)), State.get_set_ne _ _ (hkey _ (by decide) (by decide)),
    State.get_set_ne _ _ (hkey _ (by decide) (by decide)), State.resetDomains_get _ h h01 h11]

end

theorem exec_standbyAfterCommit_of_ended {s : State} (hpending : s.get PWR_STATUS.PENDING = stSTANDBY)
    (hop : (s.nvs.op.map NvsOp.area).getD 0 ≠ 2) : exec .standbyAfterCommit s = .next s.toStandby := if_pos ⟨hpending, hop⟩

/-! ### A command that nothing stands against (R454, R455) -/

/-- Nothing is under way that a command would have to wait for. -/
structure State.Quiet (b : State) : Prop where
  busy : b.get PWR_STATUS.BUSY = 0
  order : b.get PWR_RAIL.SEQ_VIOL = 0
  startup : b.pwr.startup = 0
  bist : b.nvs.bist = none

section
variable {b : State} {n : Nat} (hq : b.Quiet)
include hq

theorem State.Quiet.awaitsReference : b.awaitsReference = false := by
  simp [State.awaitsReference, hq.startup]

theorem State.Quiet.commandResult (hpower : b.power ≠ stSAFETALK ∧ b.power ≠ stHOLD)
    (hrails : b.power = stSTANDBY → b.get PWR_RAIL.GOOD = 0x1FF) (hlisted : listed b.power n = true) : b.commandResult true n = 0 := by
  have hbusy : b.on PWR_STATUS.BUSY = false := State.on_of_ne (by rw [hq.busy]; decide)
  have horder : b.on PWR_RAIL.SEQ_VIOL = false := State.on_of_ne (by rw [hq.order]; decide)
  have hgood : ¬ (b.power = stSTANDBY ∧ n ≠ stSTANDBY ∧ b.get PWR_RAIL.GOOD ≠ 0x1FF) := fun h => h.2.2 (hrails h.1)
  simp only [State.commandResult, hpower.1, hpower.2, hbusy, horder, hgood, hlisted, Bool.false_and, Bool.not_true, Bool.false_eq_true,
    Bool.true_eq_false, if_false, and_false, false_and]

theorem State.Quiet.commandEnds (hpower : b.power ≠ stSAFETALK ∧ b.power ≠ stHOLD) (hrails : b.power = stSTANDBY → b.get PWR_RAIL.GOOD = 0x1FF)
    (hlisted : listed b.power n = true) : b.commandEnds true n = (b.set PWR_STATUS.RESULT 0).goTo n := by
  have hidle : (b.set PWR_STATUS.RESULT 0).abortBist = b.set PWR_STATUS.RESULT 0 := by
    rw [State.abortBist, State.set_nvs, hq.bist]
  rw [State.commandEnds_of_other hpower.2, State.command_of_accepted (hq.commandResult hpower hrails hlisted) hq.awaitsReference,
    State.commandAccepted, hidle]

end

/-- RESULT does not enter into the power state. -/
theorem State.power_setResult (b : State) (r : Nat) : (b.set PWR_STATUS.RESULT r).power = b.power := by
  rw [State.power, State.set_pwr, State.get_set_ne _ _ (by decide)]
  rfl

/-! ### The four commands -/

/-- A command on a path that needs no session for it is checked and carried out. -/
theorem exec_pwrCmd_of_open {c : Instr} {p : Path} {n : Nat} {s : State}
    (hrow : (c, n) ∈ [(.pwrCmdStandby p, 1), (.pwrCmdIdle p, 2), (.pwrCmdReady p, 3)] ∨ (c, n) = (.pwrCmdCapture .foreman, 4) ∧ p = .foreman)
    (ht : s.takes p 0x01000 n = true) : exec c s = .next ((s.booked p 0x01000 n).commandEnds true n) := by
  have heff := State.pwrCmd_of_takes ht
  simp only [List.mem_cons, Prod.mk.injEq, List.not_mem_nil, or_false] at hrow
  rcases hrow with (⟨rfl, rfl⟩ | ⟨rfl, rfl⟩ | ⟨rfl, rfl⟩) | ⟨⟨rfl, rfl⟩, rfl⟩
  · exact congrArg _ (heff.trans (State.effPwrCmd_of_open (.inl (by decide))))
  · exact congrArg _ (heff.trans (State.effPwrCmd_of_open (.inl (by decide))))
  · exact congrArg _ (heff.trans (State.effPwrCmd_of_open (.inl (by decide))))
  · exact congrArg _ (heff.trans (State.effPwrCmd_of_open (.inr ⟨rfl, rfl⟩)))

theorem exec_pwrCmdCapture_of_takes {p : Path} {s : State} (ht : s.takes p 0x01000 4 = true) :
    exec (.pwrCmdCapture p) s = .next ((s.booked p 0x01000 4).effPwrCmd p 4) := congrArg _ (State.pwrCmd_of_takes ht)

/-- Settles O10: a write of PWR_CMD is a checked command, whose check and whose transition go by the power state. -/
theorem powerCommandsAreChecked : Obligations.PowerCommandsAreChecked := by
  refine ⟨fun c p n s hrow ht => ?checked,
    fun b => ⟨fun h => ⟨b.set PWR_STATUS.BUSY 1, State.goTo_of_standby h, (Only.refl _ b).set 1 (by simp), State.get_set_self ..⟩,
      State.goTo_standby, fun h => ⟨State.goTo_of_hold h (by decide), State.goTo_of_hold h (by decide)⟩, fun h => State.goTo_of_idle h (by decide),
      State.goTo_idle_of_ready, fun n h => ?sweep⟩,
    fun p s hp ht => ⟨fun h hroom => ⟨_, rfl, ?session⟩, fun h => ?noSession⟩, fun s => exec_standbyAfterCommit_of_ended,
    fun s => ⟨s.atStandby, s.toStandby_eq, s.atStandby_state, s.atStandby_busy, s.atStandby_pending, rfl, s.atStandby_serial, rfl, rfl,
      fun f => s.atStandby_get⟩,
    fun p s ht => ?idle, fun p s ht => ?ready, fun p s ht => ?standby, fun s ht => ?capture⟩
  case checked =>
    rw [exec_pwrCmd_of_open hrow ht]
    refine ⟨fun hr h => ?_, fun hr h hawait => ?_, fun hr h hawait => ?_, fun hr h hawait => ⟨_, rfl, ?_⟩⟩
    · exact ⟨_, congrArg _ ((State.commandEnds_of_other h).trans (State.command_of_refused hr)), State.commandRefused_only _,
        State.commandRefused_result, State.commandRefused_count _⟩
    · rw [State.commandEnds_of_other h, State.command_of_awaiting hr hawait]
    · rw [State.commandEnds_of_other h, State.command_of_accepted hr hawait]; rfl
    · rw [State.commandEnds_of_hold h, State.command_of_accepted hr hawait]; rfl
  case sweep =>
    have hn : n < 8 := by
      simp only [List.mem_cons, Prod.mk.injEq, List.not_mem_nil, or_false] at h
      omega
    exact ⟨_, State.goTo_of_sweep h, State.transitionWaits_only, State.transitionWaits_pending hn, State.transitionWaits_busy⟩
  case session => rw [exec_pwrCmdCapture_of_takes ht, State.effPwrCmd_of_session hp h hroom]
  case noSession => rw [exec_pwrCmdCapture_of_takes ht, State.effPwrCmd_of_no_session hp h]
  case idle =>
    intro b hpower hbusy horder hgood hstart hbist
    have hends := State.Quiet.commandEnds (n := 2) ⟨hbusy, horder, hstart, hbist⟩ (by rw [hpower]; decide) (fun _ => hgood) (by rw [hpower]; rfl)
    rw [exec_pwrCmd_of_open (.inl (by simp)) ht, hends, State.goTo_of_standby ((b.power_setResult 0).trans hpower)]
    exact ⟨_, rfl, rfl, State.beginStartup_busy _, (State.beginStartup_get (by decide)).trans (State.get_set_self ..),
      ((Only.refl _ _).set (f := PWR_STATUS.RESULT) 0 (by simp)).set (f := PWR_STATUS.BUSY) 1 (by simp)⟩
  case ready =>
    intro b hpower hbusy horder hstart hbist
    have hends := State.Quiet.commandEnds (n := 3) ⟨hbusy, horder, hstart, hbist⟩ (by rw [hpower]; decide)
      (fun h => absurd (h.symm.trans hpower) (by decide)) (by rw [hpower]; rfl)
    have hidle := (b.power_setResult 0).trans hpower
    rw [exec_pwrCmd_of_open (.inl (by simp)) ht, hends, State.goTo_of_idle hidle (by decide), State.intoReady, State.toPower, hidle]
    exact ⟨_, (((Only.refl _ b).set 0 (by simp)).set stREADY (by simp)).set 0 (by simp),
      (State.get_set_ne _ _ (by decide)).trans ((State.get_set_ne _ _ (by decide)).trans (State.get_set_self ..)),
      (State.get_set_ne _ _ (by decide)).trans (State.get_set_self ..), State.get_set_self .., rfl⟩
  case standby =>
    intro b hpower hbusy horder hstart hbist hop
    have hends := State.Quiet.commandEnds (n := 1) ⟨hbusy, horder, hstart, hbist⟩ (by rw [hpower]; decide)
      (fun h => absurd (h.symm.trans hpower) (by decide)) (by rw [hpower]; rfl)
    have hidle := (b.power_setResult 0).trans hpower
    rw [exec_pwrCmd_of_open (.inl (by simp)) ht, hends]
    refine congrArg _ ((State.goTo_standby (by rw [hidle]; decide)).trans (if_neg ?_))
    rw [State.set_nvs, hop]
    decide
  case capture =>
    intro b hpower hbusy horder hstart hbist
    have hends := State.Quiet.commandEnds (n := 4) ⟨hbusy, horder, hstart, hbist⟩ (by rw [hpower]; decide)
      (fun h => absurd (h.symm.trans hpower) (by decide)) (by rw [hpower]; rfl)
    have hready := (b.power_setResult 0).trans hpower
    rw [exec_pwrCmd_of_open (.inr ⟨rfl, rfl⟩) ht, hends, State.goTo_of_sweep (by rw [hready]; decide)]
    exact ⟨_, rfl, State.transitionWaits_pending (by decide), State.transitionWaits_busy,
      (State.get_set_ne _ _ (by decide)).trans ((State.get_set_ne _ _ (by decide)).trans (State.get_set_self ..)),
      Only.trans ((Only.refl _ b).set 0 (by simp)) (State.transitionWaits_only.weaken (by simp))⟩

end Sys2Proof.Machine
end

section
/-!
PROOF. The PLLs (ch. 13, R439 to R449): the reference qualified or missed, a lock stage by stage, a loss and an abandoned lock, RELOCK and the clock
outputs. One rule says what the lock and gate flags of a PLL read and leave; the stage of a PLL stands outside the registers.
-/
namespace Sys2Proof.Machine

/-! ### The fields of a PLL -/

/-- The fields that the lock and gate flags of a PLL stand in. -/
def pllFlagFields (x : Nat) : List Field := [PLL_STATUS.LOCKED x, PLL_STATUS.GATED x, PWR_CLK.LOCKED, PWR_CLK.GATED]

/-- What else a PLL shows. -/
def pllDataFields (x : Nat) : List Field :=
  [PLL_STATUS.SEARCHING x, PLL_STATUS.REFMODE_ACT x, PLL_STATUS.N x, PLL_STATUS.REF_LOSS x, PLL_STATUS.BAND x, PLL_CNT.LOSS_CNT x, PLL_CNT.LOCK_CNT x]

theorem pllFlag_key_notMem : ∀ x : Fin 3, (PLL_STATUS.LOCKED x).key ∉ (pllDataFields x).map Field.key ∧
    (PLL_STATUS.GATED x).key ∉ (pllDataFields x).map Field.key := by decide

theorem pllData_key_notMem : ∀ x : Fin 3, ∀ f ∈ pllDataFields x, f.key ∉ (pllFlagFields x).map Field.key := by decide

/-! ### Stages and flags -/

section
variable {s t : State} {x y n : Nat} {locked : Bool}

theorem State.setStage_stage : (s.setStage x n).pllStage x = n := Tbl.get_set_same ..
theorem State.setStage_stage_ne (h : x ≠ y) : (s.setStage x n).pllStage y = s.pllStage y := Tbl.get_set_other _ _ _ _ h

theorem Only.pllFlags {fs : List Field} (h : Only fs s t) (hfs : ∀ f ∈ pllFlagFields x, f ∈ fs) : Only fs s (t.pllFlags x locked) :=
  (((h.put _ (hfs _ (by simp [pllFlagFields]))).put _ (hfs _ (by simp [pllFlagFields]))).putBit _ _ (hfs _ (by simp [pllFlagFields]))).putBit _ _
    (hfs _ (by simp [pllFlagFields]))

end

section
variable {s t : State} {x : Fin 3} {locked : Bool}

theorem State.pllFlags_get_data {f : Field} (h : f ∈ pllDataFields x) : (s.pllFlags x locked).get f = s.get f :=
  ((Only.refl _ s).pllFlags fun _ => id).2 f (pllData_key_notMem x f h)

theorem State.pllFlags_locked : (s.pllFlags x locked).get (PLL_STATUS.LOCKED x) = ofBool locked := by
  have hkeys : ∀ x : Fin 3, (PLL_STATUS.LOCKED x).key ∉ [PLL_STATUS.GATED x, PWR_CLK.LOCKED, PWR_CLK.GATED].map Field.key := by decide
  refine (((((Only.refl _ _).put _ (by simp)).putBit _ _ (by simp)).putBit _ _ (by simp)).2 _ (hkeys x)).trans (State.get_set_self ..) |>.trans ?_
  cases locked <;> rfl

theorem State.pllFlags_gated : (s.pllFlags x locked).get (PLL_STATUS.GATED x) = ofBool (!locked) := by
  have hkeys : ∀ x : Fin 3, (PLL_STATUS.GATED x).key ∉ [PWR_CLK.LOCKED, PWR_CLK.GATED].map Field.key := by decide
  refine ((((Only.refl _ _).putBit _ _ (by simp)).putBit _ _ (by simp)).2 _ (hkeys x)).trans (State.get_set_self ..) |>.trans ?_
  cases locked <;> rfl

/-- What a PLL shows besides does not touch its flags. -/
theorem Only.pllLocked_get (h : Only (pllDataFields x) (s.pllFlags x locked) t) : t.get (PLL_STATUS.LOCKED x) = ofBool locked :=
  (h.2 _ (pllFlag_key_notMem x).1).trans State.pllFlags_locked

theorem Only.pllGated_get (h : Only (pllDataFields x) (s.pllFlags x locked) t) : t.get (PLL_STATUS.GATED x) = ofBool (!locked) :=
  (h.2 _ (pllFlag_key_notMem x).2).trans State.pllFlags_gated

end

/-! ### The reference (R442) -/

theorem State.putRef_only (s : State) (b : Bool) : Only [PWR_CLK.REF_PRESENT, LNK_REF_STATUS.REF_PRESENT] s (s.putRef b) :=
  ((Only.refl _ s).put _ (by simp)).put _ (by simp)

theorem State.putRef_get (s : State) (b : Bool) : (s.putRef b).get PWR_CLK.REF_PRESENT = ofBool b := by
  rw [State.putRef, State.put_eq, State.get_set_ne _ _ (by decide), State.put_eq, State.get_set_self]
  cases b <;> rfl

theorem State.putRef_link (s : State) (b : Bool) : (s.putRef b).get LNK_REF_STATUS.REF_PRESENT = ofBool b := by
  rw [State.putRef, State.put_eq, State.get_set_self]
  cases b <;> rfl

/-- PLL `x` starts its lock when it waits for its reference. -/
def State.startIfWaiting (s : State) (x : Nat) : State := if s.pllStage x = 1 then s.startLock x else s

theorem State.startIfWaiting_of_other {s : State} {x : Nat} (h : s.pllStage x ≠ 1) : s.startIfWaiting x = s := if_neg h

section
variable {s : State} {n : Nat} (hrun : s.on PWR_CLK.CANARY_RUN = true)
include hrun

theorem exec_refQualificationWindow_of_qualified (h : 1584 ≤ n ∧ n ≤ 1616) :
    exec (.refQualificationWindow n) s = .next ((((s.putRef true).startIfWaiting 0).startIfWaiting 1).startIfWaiting 2) := by
  refine (if_pos hrun).trans ?_
  simp only [decide_eq_true h, Bool.not_true, Bool.and_false, Bool.false_eq_true, if_false, if_true]
  rfl

theorem exec_refQualificationWindow_of_missed (h : n < 1584 ∨ 1616 < n) :
    exec (.refQualificationWindow n) s = .next (if s.on PWR_CLK.REF_PRESENT then (s.putRef false).raise 0x0C08 [s.fwc] else s.putRef false) := by
  have hout : decide (1584 ≤ n ∧ n ≤ 1616) = false := decide_eq_false (by omega)
  refine (if_pos hrun).trans ?_
  simp only [hout, Bool.not_false, Bool.and_true, Bool.false_eq_true, if_false]
  rfl

end

/-! ### A lock, stage by stage (R441) -/

section
variable (s : State) (x : Fin 3)

/-- The flags of PLL `x`, whose lock starts. -/
theorem State.startLock_data : Only (pllDataFields x) ((s.setStage x 2).pllFlags x false) (s.startLock x) :=
  (((Only.refl _ ((s.setStage x 2).pllFlags x false)).set (f := PLL_STATUS.SEARCHING x) 1 (by simp [pllDataFields])).set (f := PLL_STATUS.REFMODE_ACT x)
    (s.get (PLL_CFG.REFMODE x)) (by simp [pllDataFields])).set (f := PLL_STATUS.N x) (pllN x (s.get (PLL_CFG.REFMODE x))) (by simp [pllDataFields])

theorem State.startLock_only : Only (pllFlagFields x ++ [PLL_STATUS.SEARCHING x, PLL_STATUS.REFMODE_ACT x, PLL_STATUS.N x]) (s.setStage x 2)
    (s.startLock x) :=
  ((((Only.refl _ (s.setStage x 2)).pllFlags (locked := false) fun _ => List.mem_append_left _).set (f := PLL_STATUS.SEARCHING x) 1
    (by simp)).set (f := PLL_STATUS.REFMODE_ACT x) (s.get (PLL_CFG.REFMODE x)) (by simp)).set (f := PLL_STATUS.N x)
    (pllN x (s.get (PLL_CFG.REFMODE x))) (by simp)

theorem State.startLock_stage : (s.startLock x).pllStage x = 2 := State.setStage_stage

theorem State.startLock_mode : (s.startLock x).get (PLL_STATUS.REFMODE_ACT x) = s.get (PLL_CFG.REFMODE x) % 4 := by
  have hn : ∀ x : Fin 3, (PLL_STATUS.N x).key ≠ (PLL_STATUS.REFMODE_ACT x).key := by decide
  exact (State.get_set_ne _ _ (hn x)).trans (State.get_set_self ..)

theorem State.startLock_searching : (s.startLock x).get (PLL_STATUS.SEARCHING x) = 1 := by
  have hn : ∀ x : Fin 3, (PLL_STATUS.N x).key ≠ (PLL_STATUS.SEARCHING x).key := by decide
  have hmode : ∀ x : Fin 3, (PLL_STATUS.REFMODE_ACT x).key ≠ (PLL_STATUS.SEARCHING x).key := by decide
  exact (State.get_set_ne _ _ (hn x)).trans ((State.get_set_ne _ _ (hmode x)).trans (State.get_set_self ..))

/-- PLL `x` locked: the gates are open and the lock is counted. -/
def State.lockHeld : State := (((s.setStage x 5).pllFlags x true).set (PLL_STATUS.SEARCHING x) 0).bump (PLL_CNT.LOCK_CNT x) 1

theorem State.lockHeld_only : Only (pllFlagFields x ++ [PLL_STATUS.SEARCHING x, PLL_CNT.LOCK_CNT x]) (s.setStage x 5) (s.lockHeld x) :=
  (((Only.refl _ (s.setStage x 5)).pllFlags fun _ => List.mem_append_left _).set _ (by simp)).bump _ (by simp)

theorem State.lockHeld_data : Only [PLL_STATUS.SEARCHING x, PLL_CNT.LOCK_CNT x] ((s.setStage x 5).pllFlags x true) (s.lockHeld x) :=
  ((Only.refl _ _).set _ (by simp)).bump _ (by simp)

theorem State.lockHeld_flags : Only (pllDataFields x) ((s.setStage x 5).pllFlags x true) (s.lockHeld x) :=
  (s.lockHeld_data x).weaken (by simp [pllDataFields])

theorem State.lockHeld_searching : (s.lockHeld x).get (PLL_STATUS.SEARCHING x) = 0 := by
  have hcount : ∀ x : Fin 3, (PLL_CNT.LOCK_CNT x).key ≠ (PLL_STATUS.SEARCHING x).key := by decide
  exact (State.get_set_ne _ _ (hcount x)).trans (State.get_set_self ..)

theorem State.lockHeld_count : (s.lockHeld x).get (PLL_CNT.LOCK_CNT x) = min 65535 (s.get (PLL_CNT.LOCK_CNT x) + 1) := by
  have hsearching : ∀ x : Fin 3, (PLL_STATUS.SEARCHING x).key ≠ (PLL_CNT.LOCK_CNT x).key := by decide
  rw [State.lockHeld, State.bump_eq, State.get_set_ne ((s.setStage x 5).pllFlags x true) _ (hsearching x),
    State.pllFlags_get_data (by simp [pllDataFields])]
  exact State.get_set_of_lt _ (Nat.lt_succ_of_le (Nat.min_le_left ..))

theorem State.lockHeld_band : (s.lockHeld x).get (PLL_STATUS.BAND x) = s.get (PLL_STATUS.BAND x) := by
  have hband : ∀ x : Fin 3, (PLL_STATUS.BAND x).key ∉ [PLL_STATUS.SEARCHING x, PLL_CNT.LOCK_CNT x].map Field.key := by decide
  exact ((s.lockHeld_data x).2 _ (hband x)).trans (State.pllFlags_get_data (by simp [pllDataFields]))

theorem State.lockHeld_mode : (s.lockHeld x).get (PLL_STATUS.REFMODE_ACT x) = s.get (PLL_STATUS.REFMODE_ACT x) := by
  have hmode : ∀ x : Fin 3, (PLL_STATUS.REFMODE_ACT x).key ∉ [PLL_STATUS.SEARCHING x, PLL_CNT.LOCK_CNT x].map Field.key := by decide
  exact ((s.lockHeld_data x).2 _ (hmode x)).trans (State.pllFlags_get_data (by simp [pllDataFields]))

end

/-- The canary's condition of PLL `x` ends, and for PLL-T CADENCE starts anew and time is looked at. -/
def State.lockTold (a : State) (x : Nat) : State :=
  if x = 1 then (if (a.putBit SAF_TRIP.LIVE trPLL_T false).cadenceRuns then (a.putBit SAF_TRIP.LIVE trPLL_T false).startCadence
    else a.putBit SAF_TRIP.LIVE trPLL_T false).reviewTime
  else if x = 2 then a.putBit SAF_TRIP.LIVE trPLL_S false else a

/-- What waited for the lock goes on: the events held, start-up, and a relock of a recovery. -/
def State.lockServed (b : State) (x : Nat) : State :=
  (((if b.pagesUp && decide (b.pwr.boot = 0) then b.deliverHeld else b).startupLock).actionDone 0x0202 x).reviewForcing

/-- The canary's condition of PLL `x` ends. -/
def State.lockTripEnded (a : State) (x : Nat) : State :=
  if x = 1 then a.putBit SAF_TRIP.LIVE trPLL_T false else if x = 2 then a.putBit SAF_TRIP.LIVE trPLL_S false else a

theorem State.lockTold_eq (a : State) (x : Nat) : a.lockTold x =
    if x = 1 then (if (a.lockTripEnded x).cadenceRuns then (a.lockTripEnded x).startCadence else a.lockTripEnded x).reviewTime
    else a.lockTripEnded x := by
  by_cases h : x = 1
  · rw [State.lockTold, if_pos h, if_pos h, State.lockTripEnded, if_pos h]
  · rw [State.lockTold, if_neg h, if_neg h, State.lockTripEnded, if_neg h]

theorem State.pllLock_eq (s : State) (x : Fin 3) : s.pllLock x =
    (((s.lockHeld x).raise 0x0201 [x.val, s.get (PLL_STATUS.BAND x), s.get (PLL_STATUS.REFMODE_ACT x)]).lockTold x).lockServed x := by
  rw [← s.lockHeld_band x, ← s.lockHeld_mode x, State.lockTold_eq]
  rfl

section
variable {s : State} {x : Fin 3}

theorem exec_pllBandSearchDone_of_search (h : s.pllStage x = 2) (b : Fin 64) :
    exec (.pllBandSearchDone x b) s = .next ((s.setStage x 3).set (PLL_STATUS.BAND x) b) := if_pos h

theorem exec_pllLockDeclared_of_acquire (h : s.pllStage x = 3) : exec (.pllLockDeclared x) s = .next (s.setStage x 4) := if_pos h

theorem exec_pllLocked_of_hold (h : s.pllStage x = 4) : exec (.pllLocked x) s =
    .next ((((s.lockHeld x).raise 0x0201 [x.val, s.get (PLL_STATUS.BAND x), s.get (PLL_STATUS.REFMODE_ACT x)]).lockTold x).lockServed x) := by
  rw [← State.pllLock_eq]
  exact if_pos h

end

/-- Settles O11: a window sets or clears the reference and starts the lock of a PLL that waits, and each event of a lock moves its stage on. -/
theorem pllsLockStageByStage : Obligations.PllsLockStageByStage := by
  refine ⟨fun n s hrun hlow hhigh h0 h1 => ⟨s.putRef true, s.putRef_only _, s.putRef_get _, s.putRef_link _, ?qualified⟩,
    fun n s hrun hn => ⟨s.putRef false, s.putRef_only _, s.putRef_get _, s.putRef_link _, exec_refQualificationWindow_of_missed hrun hn⟩,
    fun x s => ⟨_, rfl, s.startLock_stage x, ?locked, (s.startLock_data x).pllGated_get, s.startLock_searching x, s.startLock_mode x,
      s.startLock_only x⟩,
    fun x b s h => ⟨_, exec_pllBandSearchDone_of_search h b, State.setStage_stage, State.get_set_of_lt _ b.isLt, (Only.refl _ _).set _ (by simp)⟩,
    fun x s h => ⟨_, exec_pllLockDeclared_of_acquire h, rfl, State.setStage_stage, fun _ => rfl⟩,
    fun x s h => ⟨s.lockHeld x, _, _, s.lockHeld_only x, (s.lockHeld_flags x).pllLocked_get, (s.lockHeld_flags x).pllGated_get,
      s.lockHeld_searching x, s.lockHeld_count x, rfl, rfl, exec_pllLocked_of_hold h⟩⟩
  case qualified =>
    rw [exec_refQualificationWindow_of_qualified hrun ⟨hlow, hhigh⟩, State.startIfWaiting_of_other (s := s.putRef true) h0,
      State.startIfWaiting_of_other (s := s.putRef true) h1]
    rfl
  case locked => exact State.on_of_ne (by rw [(s.startLock_data x).pllLocked_get]; decide)

/-! ### A loss, and a lock abandoned (R443 to R445) -/

/-- PLL `x` lost for `cause`: it waits, gated, and the loss is counted. -/
def State.lockLost (s : State) (x cause : Nat) : State :=
  (((s.setStage x 1).pllFlags x false).set (PLL_STATUS.REF_LOSS x) cause).bump (PLL_CNT.LOSS_CNT x) 1

section
variable (s : State) (x : Fin 3) (cause : Nat)

theorem State.losePll_eq : s.losePll x cause = (s.lockLost x cause).raise 0x0202 [x.val, cause, s.fwc] := rfl

theorem State.lockLost_only : Only (pllFlagFields x ++ [PLL_STATUS.REF_LOSS x, PLL_CNT.LOSS_CNT x]) (s.setStage x 1) (s.lockLost x cause) :=
  (((Only.refl _ (s.setStage x 1)).pllFlags (locked := false) fun _ => List.mem_append_left _).set (f := PLL_STATUS.REF_LOSS x) cause
    (by simp)).bump (f := PLL_CNT.LOSS_CNT x) 1 (by simp)

theorem State.lockLost_flags : Only (pllDataFields x) ((s.setStage x 1).pllFlags x false) (s.lockLost x cause) :=
  ((Only.refl _ ((s.setStage x 1).pllFlags x false)).set (f := PLL_STATUS.REF_LOSS x) cause (by simp [pllDataFields])).bump
    (f := PLL_CNT.LOSS_CNT x) 1 (by simp [pllDataFields])

theorem State.lockLost_cause (h : cause ≤ 1) : (s.lockLost x cause).get (PLL_STATUS.REF_LOSS x) = cause := by
  have hcount : ∀ x : Fin 3, (PLL_CNT.LOSS_CNT x).key ≠ (PLL_STATUS.REF_LOSS x).key := by decide
  exact (State.get_set_ne _ _ (hcount x)).trans (State.get_set_of_lt _ (Nat.lt_succ_of_le h))

theorem State.lockLost_count : (s.lockLost x cause).get (PLL_CNT.LOSS_CNT x) = min 65535 (s.get (PLL_CNT.LOSS_CNT x) + 1) := by
  have hcause : ∀ x : Fin 3, (PLL_STATUS.REF_LOSS x).key ≠ (PLL_CNT.LOSS_CNT x).key := by decide
  rw [State.lockLost, State.bump_eq, State.get_set_ne ((s.setStage x 1).pllFlags x false) _ (hcause x),
    State.pllFlags_get_data (by simp [pllDataFields])]
  exact State.get_set_of_lt _ (Nat.lt_succ_of_le (Nat.min_le_left ..))

end

section
variable {s : State} {x : Fin 3}

theorem exec_pllLockBreak_of_locked (h : s.pllStage x = 5) : exec (.pllLockBreak x) s = .next (s.pllLost x 0) := if_pos h

theorem exec_pllLockBreak_of_hold (h : s.pllStage x = 4) : exec (.pllLockBreak x) s = .next (s.setStage x 3) :=
  (if_neg (by rw [h]; decide)).trans (if_pos h)

theorem exec_pllLockBreak_of_other (h : s.pllStage x < 4) : exec (.pllLockBreak x) s = .next s := (if_neg (by omega)).trans (if_neg (by omega))

end

/-- PLL `x` misses its reference. -/
def State.missReference (s : State) (x : Nat) : State :=
  if s.pllStage x = 5 then s.pllLost x 1 else if 2 ≤ s.pllStage x then s.abandonLock x else s

theorem exec_pllReferenceMissing (s : State) : exec .pllReferenceMissing s = .next (((s.missReference 0).missReference 1).missReference 2) := rfl

/-- PLL `x` has abandoned its lock for want of its reference. -/
structure State.Abandoned (s : State) (x : Nat) : Prop where
  stage : s.pllStage x = 1
  searching : s.get (PLL_STATUS.SEARCHING x) = 0
  cause : s.get (PLL_STATUS.REF_LOSS x) = 1

theorem abandonKeys_ne (x y : Nat) : (PLL_STATUS.SEARCHING y).key ≠ (PLL_STATUS.REF_LOSS x).key ∧
    (PLL_STATUS.REF_LOSS y).key ≠ (PLL_STATUS.SEARCHING x).key ∧
    (y ≠ x → (PLL_STATUS.SEARCHING y).key ≠ (PLL_STATUS.SEARCHING x).key ∧ (PLL_STATUS.REF_LOSS y).key ≠ (PLL_STATUS.REF_LOSS x).key) := by
  simp only [Field.key, PLL_STATUS.SEARCHING, PLL_STATUS.REF_LOSS]
  omega

section
variable {s : State} {x y : Nat}

theorem State.missReference_of_locked (h : s.pllStage x = 5) : s.missReference x = s.pllLost x 1 := if_pos h

theorem State.missReference_of_locking (h : 2 ≤ s.pllStage x ∧ s.pllStage x ≤ 4) : s.missReference x = s.abandonLock x :=
  (if_neg (by omega)).trans (if_pos h.1)

theorem State.missReference_of_stopped (h : s.pllStage x = 0) : s.missReference x = s := (if_neg (by omega)).trans (if_neg (by omega))

theorem State.abandoned_abandonLock (s : State) (x : Nat) : (s.abandonLock x).Abandoned x where
  stage := State.setStage_stage
  searching := (State.get_set_ne _ _ (abandonKeys_ne x x).2.1).trans (State.get_set_self ..)
  cause := State.get_set_self ..

theorem State.Abandoned.abandonLock (h : s.Abandoned x) (hne : y ≠ x) : (s.abandonLock y).Abandoned x := by
  obtain ⟨hloss, hcause, hother⟩ := abandonKeys_ne x y
  obtain ⟨hsearching, hlosses⟩ := hother hne
  exact {
    stage := (State.setStage_stage_ne hne).trans h.stage
    searching := (State.get_set_ne _ _ hcause).trans ((State.get_set_ne _ _ hsearching).trans h.searching)
    cause := (State.get_set_ne _ _ hlosses).trans ((State.get_set_ne _ _ hloss).trans h.cause) }

theorem State.abandonLock_stage_ne (s : State) (hne : y ≠ x) : (s.abandonLock y).pllStage x = s.pllStage x := State.setStage_stage_ne hne

end

theorem exec_pllReferenceMissing_of_locking {s : State} (h : ∀ x < 3, 2 ≤ s.pllStage x ∧ s.pllStage x ≤ 4) :
    exec .pllReferenceMissing s = .next (((s.abandonLock 0).abandonLock 1).abandonLock 2) := by
  have h1 : 2 ≤ (s.abandonLock 0).pllStage 1 ∧ (s.abandonLock 0).pllStage 1 ≤ 4 := by
    rw [s.abandonLock_stage_ne (by decide)]
    exact h 1 (by decide)
  have h2 : 2 ≤ ((s.abandonLock 0).abandonLock 1).pllStage 2 ∧ ((s.abandonLock 0).abandonLock 1).pllStage 2 ≤ 4 := by
    rw [State.abandonLock_stage_ne _ (by decide), s.abandonLock_stage_ne (by decide)]
    exact h 2 (by decide)
  rw [exec_pllReferenceMissing, State.missReference_of_locking (h 0 (by decide)), State.missReference_of_locking h1,
    State.missReference_of_locking h2]

theorem abandonLocks_abandoned (s : State) : ∀ x < 3, (((s.abandonLock 0).abandonLock 1).abandonLock 2).Abandoned x := by
  intro x hx
  obtain rfl | rfl | rfl : x = 0 ∨ x = 1 ∨ x = 2 := by omega
  · exact ((s.abandoned_abandonLock 0).abandonLock (by decide)).abandonLock (by decide)
  · exact (State.abandoned_abandonLock _ 1).abandonLock (by decide)
  · exact State.abandoned_abandonLock _ 2

/-- Settles O12: a loss is its flags, its cause and its count, and what follows goes by the PLL and by its stage. -/
theorem pllsAreLost : Obligations.PllsAreLost := by
  refine ⟨fun x cause s h => ⟨s.lockLost x cause, s.lockLost_only x cause, (s.lockLost_flags x cause).pllLocked_get,
      (s.lockLost_flags x cause).pllGated_get, s.lockLost_cause x cause h, s.lockLost_count x cause, s.losePll_eq x cause⟩,
    fun x s h => ⟨_, rfl, exec_pllLockBreak_of_locked h⟩, fun x s _ => rfl, fun x s => exec_pllLockBreak_of_hold,
    fun x s => exec_pllLockBreak_of_other, fun s h => ⟨_, exec_pllReferenceMissing_of_locking h, fun x hx => ?abandoned⟩,
    fun s h0 _ _ => ⟨_, rfl, fun h1 h2 => ?lost⟩⟩
  case abandoned =>
    obtain ⟨hstage, hsearching, hcause⟩ := abandonLocks_abandoned s x hx
    exact ⟨hstage, hsearching, hcause⟩
  case lost =>
    rw [exec_pllReferenceMissing, State.missReference_of_locked h0, State.missReference_of_stopped h1, State.missReference_of_stopped h2]

/-! ### RELOCK and the clock outputs (R440, R447) -/

/-- The written word has bit 31, which is RELOCK of PLL_x_CFG and EN of PLL_CLKOUTn. -/
theorem bit31_or (n : Nat) : (n ||| 2 ^ 31) >>> 31 % 2 ^ 1 = 1 := by
  have h : (n ||| 2 ^ 31).testBit 31 = true := by rw [Nat.testBit_or, Nat.testBit_two_pow_self, Bool.or_true]
  rw [Nat.testBit_eq_decide_div_mod_eq, decide_eq_true_eq] at h
  rwa [Nat.shiftRight_eq_div_pow]

section
variable {u : State} {x : Nat}

/-- PLL `x` gated, its lock begun where the reference is present. -/
def State.relocked (u : State) (x : Nat) : State := if u.on PWR_CLK.REF_PRESENT then u.startLock x else (u.pllFlags x false).setStage x 1

theorem State.relock_of_idle (h : x ≤ 1 ∧ u.power = stIDLE ∧ u.pwr.startup = 0) :
    u.relock x = if x = 0 then (u.relocked x).afterLossL else (u.relocked x).afterLossT := if_pos h

theorem State.relock_of_denied (h : x = 2 ∨ u.power ≠ stIDLE) : u.relock x = u.raise 0x0204 [x, u.power] :=
  if_neg fun ⟨hx, hpower, _⟩ => h.elim (fun h => by omega) fun h => h hpower

theorem State.effPllCfg_of_relock {b : State} {p : Path} {n : Nat}
    (h : (b.writeFields p (0x02000 + 16 * x) (n ||| 2 ^ 31)).mayWrite p (PLL_CFG.RELOCK x) = true) :
    b.effPllCfg p x (n ||| 2 ^ 31) = (b.writeFields p (0x02000 + 16 * x) (n ||| 2 ^ 31)).relock x := by
  have hof : (PLL_CFG.RELOCK x).of (n ||| 2 ^ 31) = 1 := bit31_or n
  refine if_pos ?_
  rw [h, hof]
  rfl

theorem State.clkoutResult_le (n : Nat) : u.clkoutResult n ≤ 3 := by
  rw [State.clkoutResult]
  repeat' split
  all_goals decide

end

theorem exec_pllRelock_of_takes {p : Path} {x : Fin 3} {w : Word} {s : State} (ht : s.takes p (0x02000 + 16 * x) (w.toNat ||| 2 ^ 31) = true) :
    exec (.pllRelock p x w) s = .next ((s.booked p (0x02000 + 16 * x) (w.toNat ||| 2 ^ 31)).effPllCfg p x (w.toNat ||| 2 ^ 31)) :=
  congrArg _ (State.regWrite_takes ht _)

theorem clkout_key_ne (n : Nat) : (PLL_CLKOUT.RESULT n).key ≠ (PLL_CLKOUT.EN n).key := by
  simp only [Field.key, PLL_CLKOUT.RESULT, PLL_CLKOUT.EN]
  omega

section
variable {u : State} {n : Nat}

/-- RESULT of the check of clock output `n`. -/
def State.clkoutChecked (u : State) (n : Nat) : State := u.set (PLL_CLKOUT.RESULT n) (u.clkoutResult n)

theorem State.clkoutChecked_result : (u.clkoutChecked n).get (PLL_CLKOUT.RESULT n) = u.clkoutResult n :=
  State.get_set_of_lt u (Nat.lt_of_le_of_lt (State.clkoutResult_le n) (show 3 < 2 ^ 3 by decide))

theorem State.clkoutChecked_only : Only [PLL_CLKOUT.RESULT n] u (u.clkoutChecked n) := (Only.refl _ u).set _ (by simp)

theorem State.clkoutChecked_on : (u.clkoutChecked n).on (PLL_CLKOUT.EN n) = u.on (PLL_CLKOUT.EN n) := by
  rw [State.on, State.clkoutChecked, State.get_set_ne _ _ (clkout_key_ne n)]
  rfl

end

theorem State.effClkout_of_off {b : State} {p : Path} {n w : Nat} (hoff : b.on (PLL_CLKOUT.EN n) = false)
    (hon : (b.writeFields p (0x02040 + 4 * n) w).on (PLL_CLKOUT.EN n) = true) :
    b.effClkout p n w = if (b.writeFields p (0x02040 + 4 * n) w).clkoutResult n = 0 then (b.writeFields p (0x02040 + 4 * n) w).clkoutChecked n
      else (((b.writeFields p (0x02040 + 4 * n) w).clkoutChecked n).set (PLL_CLKOUT.EN n) 0).raise 0x0203
        [n, (b.writeFields p (0x02040 + 4 * n) w).clkoutResult n] := by
  refine if_neg ?_
  rw [hoff, hon]
  decide

theorem exec_pllClkoutEnable_of_takes {p : Path} {n : Fin 2} {w : Word} {s : State} (ht : s.takes p (0x02040 + 4 * n) (w.toNat ||| 2 ^ 31) = true) :
    exec (.pllClkoutEnable p n w) s = .next ((s.booked p (0x02040 + 4 * n) (w.toNat ||| 2 ^ 31)).effClkout p n (w.toNat ||| 2 ^ 31)) :=
  congrArg _ (State.regWrite_takes ht _)

/-- Settles O13: RELOCK goes by the PLL and the power state, and a clock output by the check of its settings. -/
theorem relockAndClockOutputs : Obligations.RelockAndClockOutputs := by
  refine ⟨fun p x w s => ?pll, fun p n w s => ?clkout⟩
  case pll =>
    intro v ht
    refine ⟨_, rfl, fun hmay hx hpower hstart => ⟨_, rfl, ?_⟩, fun hmay h => ?_⟩
    · rw [exec_pllRelock_of_takes ht, State.effPllCfg_of_relock hmay, State.relock_of_idle ⟨hx, hpower, hstart⟩]; rfl
    · rw [exec_pllRelock_of_takes ht, State.effPllCfg_of_relock hmay, State.relock_of_denied h]
  case clkout =>
    intro v ht hoff
    refine ⟨_, rfl, fun hon h => ⟨_, ?_, State.clkoutChecked_only, State.clkoutChecked_result.trans h, State.clkoutChecked_on.trans hon⟩,
      fun hon h => ⟨_, ?_, (State.clkoutChecked_only.weaken (by simp)).set 0 (by simp),
        (State.get_set_ne _ _ (clkout_key_ne n).symm).trans State.clkoutChecked_result, State.get_set_self ..⟩⟩
    · rw [exec_pllClkoutEnable_of_takes ht, State.effClkout_of_off hoff hon, if_pos h]
    · rw [exec_pllClkoutEnable_of_takes ht, State.effClkout_of_off hoff hon, if_neg h]

end Sys2Proof.Machine
end

section
/-!
PROOF. Start-up (ch. 13, R456; ch. 15, R484 to R490): the start-up reset, the end of the foreman's boot, the banks it cannot use, and the lamp check
item by item to its report.
-/
namespace Sys2Proof.Machine

/-! ### The start-up reset (E2 of R456) -/

/-- The unit after the start-up reset, with CANARY started and PLL-S waiting for its reference. -/
def State.startupBegun (s : State) : State :=
  ((({ s.resetDomains with fwc := 0 }).set PWR_CLK.CANARY_RUN 1).setStage 2 1).onPwr fun p => { p with startup := 2 }

theorem exec_startupReset_of_begun {s : State} (h : s.pwr.startup = 1) : exec .startupReset s = .next s.startupBegun.reviewForcing := if_pos h

theorem State.startupBegun_regs (s : State) (f : Field) : s.startupBegun.get f = (s.resetDomains.set PWR_CLK.CANARY_RUN 1).get f := rfl

theorem State.startupBegun_canary (s : State) : s.startupBegun.get PWR_CLK.CANARY_RUN = 1 :=
  (s.startupBegun_regs _).trans (State.get_set_self ..)

theorem State.startupBegun_stage (s : State) : s.startupBegun.pllStage 2 = 1 :=
  Tbl.get_set_same 0 s.resetDomains.pwr.pllStage 2 1

theorem State.startupBegun_get (s : State) {f : Field} (h : f.lo < 32) (h01 : pageOf f.off ≠ 0x01) (h11 : pageOf f.off ≠ 0x11) :
    s.startupBegun.get f = f.reset := by
  have hkey : PWR_CLK.CANARY_RUN.key ≠ f.key := fun heq =>
    key_notMem_clockFlags h h01 (heq ▸ List.mem_map_of_mem (List.mem_cons_self ..))
  rw [s.startupBegun_regs, State.get_set_ne _ _ hkey, State.resetDomains_get _ h h01 h11]

/-! ### The boot (R486) -/

section
variable (s : State) (warm : Bool)

theorem State.startLamp_warm : (s.startLamp warm).get BIST_LAMP.WARM = ofBool warm := by
  rw [State.startLamp, State.onPwr_get, State.get_set_ne _ _ (by decide), State.put_eq, State.get_set_self]
  cases warm <;> rfl

theorem State.startLamp_fail : (s.startLamp warm).get BIST_LAMP.FAIL = 0 := by
  rw [State.startLamp, State.onPwr_get, State.get_set_self]
  rfl

end

/-- What the boot has read of the store, and shows. -/
def State.bootShown (s : State) (crc unc : List Nat) : State := ((s.bootReads crc unc).showBanks).showFirmware

/-- The foreman runs its firmware, or stays in the ROM loader when there is none. -/
def State.bootEnded (s : State) : State := s.onPwr fun p => { p with boot := 0, rom := (s.inBank 1).isNone }

/-- The reboot of a recovery has ended, and the two trips of the foreman are no longer live. -/
def State.rebootEnded (s : State) (crc unc : List Nat) : State :=
  ((((s.bootShown crc unc).firmwareSteps false).bootEnded.putBit SAF_TRIP.LIVE trFOREMAN_LS false).putBit SAF_TRIP.LIVE trFOREMAN_HB false).onSaf
    fun f => { f with reboot := false }

section
variable {s : State} (crc unc : List Nat)

theorem State.bitOf_putBit (s : State) (f : Field) (i : Nat) (v : Bool) {j : Nat} (hj : j < f.width) :
    (s.putBit f i v).bitOf f j = if j = i then v else s.bitOf f j := by
  rw [State.bitOf, State.putBit_eq, State.get_set_self, bit, Nat.testBit_mod_two_pow, decide_eq_true hj, Bool.true_and]
  exact bit_setBit ..

theorem State.rebootEnded_ls : (s.rebootEnded crc unc).bitOf SAF_TRIP.LIVE trFOREMAN_LS = false := by
  refine (State.bitOf_putBit _ _ _ _ (by decide)).trans ((if_neg (by decide)).trans ?_)
  exact (State.bitOf_putBit _ _ _ _ (by decide)).trans (if_pos rfl)

theorem State.rebootEnded_hb : (s.rebootEnded crc unc).bitOf SAF_TRIP.LIVE trFOREMAN_HB = false :=
  (State.bitOf_putBit _ _ _ _ (by decide)).trans (if_pos rfl)

variable (hruns : s.sysRuns = true) (hpin : s.pwr.sysrst = false)
include hruns hpin

theorem exec_foremanBootDone_of_runs : exec (.foremanBootDone crc unc) s =
    if s.pwr.boot = 1 ∧ s.pwr.startup = 4 then
      .next ((((s.bootShown crc unc).firmwareSteps true).bootEnded.onPwr fun p => { p with startup := 5 }).deliverHeld.startLamp false)
    else if s.pwr.boot = 2 then .next (((s.bootShown crc unc).firmwareSteps false).bootEnded.deliverHeld.reportClosed.startLamp true)
    else if s.pwr.boot = 3 then .next (s.rebootEnded crc unc).deliverHeld.settleL2.reviewForcing
    else .next s := if_neg (by rw [hruns, hpin]; decide)

theorem exec_foremanBootDone_of_cold (hboot : s.pwr.boot = 1) (hstart : s.pwr.startup = 4) : exec (.foremanBootDone crc unc) s =
    .next ((((s.bootShown crc unc).firmwareSteps true).bootEnded.onPwr fun p => { p with startup := 5 }).deliverHeld.startLamp false) :=
  (exec_foremanBootDone_of_runs crc unc hruns hpin).trans (if_pos ⟨hboot, hstart⟩)

theorem exec_foremanBootDone_of_warm (hboot : s.pwr.boot = 2) : exec (.foremanBootDone crc unc) s =
    .next (((s.bootShown crc unc).firmwareSteps false).bootEnded.deliverHeld.reportClosed.startLamp true) :=
  (exec_foremanBootDone_of_runs crc unc hruns hpin).trans ((if_neg (by omega)).trans (if_pos hboot))

theorem exec_foremanBootDone_of_reboot (hboot : s.pwr.boot = 3) :
    exec (.foremanBootDone crc unc) s = .next (s.rebootEnded crc unc).deliverHeld.settleL2.reviewForcing :=
  (exec_foremanBootDone_of_runs crc unc hruns hpin).trans ((if_neg (by omega)).trans ((if_neg (by omega)).trans (if_pos hboot)))

end

/-- A record that cannot be read takes its own bank's SEQ and no other (R494). -/
theorem State.spoilBank_bankSeq {b : Nat} (h : [1, 2, 3, 5, 7].contains (recordOf b).1 = true) (s : State) (area bank : Nat) :
    (s.spoilBank b).bankSeq area bank = if 2 * (recordOf b).1 + (recordOf b).2.1 = 2 * area + bank then 0 else s.bankSeq area bank := by
  rw [State.spoilBank, if_pos h]
  exact Tbl.get_set 0 s.nvs.banks _ 0 _

/-! ### The items of the lamp check (R487, R488) -/

section
variable (s : State) (codes readings : List Nat)

/-- One diode of item MONITOR, looked at after those before it. -/
def diodeStep (codes : List Nat) (a : Bool × State) (n : Nat) : Bool × State :=
  (a.1 && decide (-640 ≤ signed 16 (a.2.diodeTemp n (codes.getD (9 + n) 0)).1 ∧ signed 16 (a.2.diodeTemp n (codes.getD (9 + n) 0)).1 ≤ 1600),
    (a.2.diodeTemp n (codes.getD (9 + n) 0)).2)

/-- The rails of item MONITOR lie within 5 % of nominal. -/
def railsNear (codes : List Nat) : Bool := (List.range 9).all fun i => nearBy 5 ((nominalCode i).getD 0) (codes.getD i 0)

theorem State.monitorItem_eq :
    s.monitorItem codes = (List.range 8).foldl (diodeStep codes) (railsNear codes && nearBy 1 5461 (codes.getD 17 0), s) := rfl

/-- What a diode reads may be free (R180), and nothing else of the unit enters or leaves. -/
theorem State.diodeTemp_state (n code : Nat) : (s.diodeTemp n code).2 = { s with freeIx := (s.diodeTemp n code).2.freeIx } := by
  rw [State.diodeTemp_eq]
  split <;> rfl

theorem foldl_diodeStep_state (ns : List Nat) (a : Bool × State) :
    (ns.foldl (diodeStep codes) a).2 = { a.2 with freeIx := (ns.foldl (diodeStep codes) a).2.freeIx } := by
  induction ns generalizing a with
  | nil => rfl
  | cons n ns ih =>
    rw [List.foldl_cons, ih (diodeStep codes a n), diodeStep, State.diodeTemp_state]

theorem foldl_diodeStep_of_failed (ns : List Nat) {a : Bool × State} (h : a.1 = false) : (ns.foldl (diodeStep codes) a).1 = false := by
  induction ns generalizing a with
  | nil => exact h
  | cons n ns ih => exact ih (by rw [diodeStep, h, Bool.false_and])

theorem State.monitorItem_of_rail {codes : List Nat} (h : railsNear codes = false) : (s.monitorItem codes).1 = false := by
  rw [State.monitorItem_eq]
  exact foldl_diodeStep_of_failed codes _ (by rw [h, Bool.false_and])

theorem railsNear_of_off {codes : List Nat} {i c : Nat} (hi : i < 9) (hc : nominalCode i = some c)
    (h : 20 * codes.getD i 0 < 19 * c ∨ 21 * c < 20 * codes.getD i 0) : railsNear codes = false := by
  have hoff : nearBy 5 ((nominalCode i).getD 0) (codes.getD i 0) = false := by
    rw [hc, Option.getD_some, nearBy]
    exact decide_eq_false (by omega)
  rw [railsNear, List.all_eq_false]
  exact ⟨i, List.mem_range.mpr hi, by rw [hoff]; exact Bool.false_ne_true⟩

theorem State.logicItem_iff : s.logicItem readings = true ↔ ∀ k : Nat, k < 4 → s.golden (0x111 + k) = some (readings.getD k 0) := by
  simp only [State.logicItem, List.all_eq_true, List.mem_range, decide_eq_true_eq]

theorem nearBy_canary (n : Nat) : nearBy 10 (canaryNominal / 1000) n = true ↔ 22500 ≤ n ∧ n ≤ 27500 := by
  rw [nearBy, decide_eq_true_eq, show canaryNominal / 1000 = 25000 from rfl]
  omega

theorem State.itemPasses_monitor : s.itemPasses 6 readings = s.monitorItem readings := rfl

theorem State.itemPasses_state_of_other {i : Nat} (h : i ≠ 6) : (s.itemPasses i readings).2 = s := by
  simp only [State.itemPasses, h, if_false]
  split_ifs <;> rfl

theorem State.itemPasses_state (i : Nat) : (s.itemPasses i readings).2 = { s with freeIx := (s.itemPasses i readings).2.freeIx } := by
  by_cases h : i = 6
  · rw [h, s.itemPasses_monitor readings]
    exact foldl_diodeStep_state readings _ _
  · rw [s.itemPasses_state_of_other readings h]

end

/-! ### An item ends (R487, R488) -/

/-- The bit of an item that failed is set. -/
def State.itemMarked (s : State) (ok : Bool) (readings : List Nat) (i : Nat) : State :=
  if ok && (s.itemPasses i readings).1 then (s.itemPasses i readings).2 else (s.itemPasses i readings).2.putBit BIST_LAMP.FAIL i true

/-- Item `i` has ended: KIBBLE leaves the kibble store 0, and the next item begins. -/
def State.itemEnded (s : State) (ok : Bool) (readings : List Nat) (i : Nat) : State :=
  (if i = 2 then (s.itemMarked ok readings i).clearKibble else s.itemMarked ok readings i).onPwr fun p =>
    { p with lampItem := some (nextItem (s.on BIST_LAMP.WARM) i) }

section
variable (s : State) (ok : Bool) (readings : List Nat) (i : Nat)

theorem exec_lampCheckItemDone_of_item {s : State} {i : Nat} (h : s.pwr.lampItem = some i) (hi : i < 8) :
    exec (.lampCheckItemDone ok readings) s = .next (s.itemEnded ok readings i) := by
  change execLampCheckItemDone ok readings s = _
  rw [execLampCheckItemDone, h]
  exact if_neg (by omega)

theorem State.itemMarked_only : Only [BIST_LAMP.FAIL] { s with freeIx := (s.itemPasses i readings).2.freeIx } (s.itemMarked ok readings i) := by
  rw [← s.itemPasses_state readings i, State.itemMarked]
  split
  · exact Only.refl _ _
  · exact (Only.refl _ _).putBit _ _ (List.mem_singleton_self _)

theorem State.itemMarked_fail : (s.itemMarked ok readings i).get BIST_LAMP.FAIL =
    if ok = true ∧ (s.itemPasses i readings).1 = true then s.get BIST_LAMP.FAIL
    else setBit (s.get BIST_LAMP.FAIL) i true % 2 ^ BIST_LAMP.FAIL.width := by
  have hfail : (s.itemPasses i readings).2.get BIST_LAMP.FAIL = s.get BIST_LAMP.FAIL := by
    rw [s.itemPasses_state readings i]
    rfl
  simp only [State.itemMarked, Bool.and_eq_true]
  split
  · exact hfail
  · rw [State.putBit_eq, State.get_set_self, hfail]

theorem State.itemMarked_record : (s.itemMarked ok readings i).freeIx = (s.itemPasses i readings).2.freeIx ∧
    (s.itemMarked ok readings i).pipe = s.pipe := by
  have hframe := (s.itemMarked_only ok readings i).1
  exact ⟨(congrArg State.freeIx hframe :), (congrArg State.pipe hframe :)⟩

/-- A frame of registers goes on over a change of the power record and of the pipeline's. -/
theorem Only.withPwrPipe {fs : List Field} {s t : State} (h : Only fs s t) (p : Pwr) (q : Pipe) :
    Only fs { s with pwr := p, pipe := q } { t with pwr := p, pipe := q } := by
  obtain ⟨hframe, hregs⟩ := h
  exact ⟨by rw [hframe], hregs⟩

theorem State.itemEnded_eq : s.itemEnded ok readings i =
    { s.itemMarked ok readings i with pwr := (s.itemEnded ok readings i).pwr, pipe := (s.itemEnded ok readings i).pipe } := by
  rw [State.itemEnded]
  split <;> rfl

theorem State.itemEnded_only : Only [BIST_LAMP.FAIL]
    { s with pwr := (s.itemEnded ok readings i).pwr, pipe := (s.itemEnded ok readings i).pipe, freeIx := (s.itemEnded ok readings i).freeIx }
    (s.itemEnded ok readings i) := by
  have hmarked := (s.itemMarked_only ok readings i).withPwrPipe (s.itemEnded ok readings i).pwr (s.itemEnded ok readings i).pipe
  rw [← State.itemEnded_eq] at hmarked
  have hfree : (s.itemEnded ok readings i).freeIx = (s.itemPasses i readings).2.freeIx := (congrArg State.freeIx hmarked.1 :)
  rwa [hfree]

theorem State.itemEnded_fail : (s.itemEnded ok readings i).get BIST_LAMP.FAIL = (s.itemMarked ok readings i).get BIST_LAMP.FAIL := by
  rw [State.itemEnded_eq]
  rfl

theorem State.itemEnded_pipe : (s.itemEnded ok readings i).pipe = if i = 2 then { s.pipe with table := [], blank := true } else s.pipe := by
  obtain ⟨-, hpipe⟩ := s.itemMarked_record ok readings i
  rw [State.itemEnded, ← hpipe]
  split <;> rfl

end

/-! ### The report (R489, R490) -/

/-- The lamp check has ended and its time is stored. -/
def State.lampReported (s : State) : State :=
  (s.set BIST_LAMP.TIME_MS (min (2 ^ BIST_LAMP.TIME_MS.width - 1) ((s.fwc - s.pwr.lampAt) / msTicks))).onPwr fun p =>
    { p with lampItem := none, startup := 0 }

section
variable (s : State)

theorem State.lampReported_only : Only [BIST_LAMP.TIME_MS] (s.onPwr fun p => { p with lampItem := none, startup := 0 }) s.lampReported :=
  (Only.refl _ (s.onPwr fun p => { p with lampItem := none, startup := 0 })).set _ (List.mem_singleton_self _)

theorem State.lampReported_time :
    s.lampReported.get BIST_LAMP.TIME_MS = min (2 ^ BIST_LAMP.TIME_MS.width - 1) ((s.fwc - s.pwr.lampAt) / 2000000) :=
  State.get_set_of_lt s (Nat.lt_of_le_of_lt (Nat.min_le_left ..) (by decide))

theorem State.lampReported_warm : s.lampReported.get BIST_LAMP.WARM = s.get BIST_LAMP.WARM := State.get_set_ne _ _ (by decide)

theorem exec_lampCheckDone_of_last {s : State} (h : s.pwr.lampItem = some 8) : exec .lampCheckDone s =
    .next (if s.get BIST_LAMP.FAIL ≠ 0 then (s.lampReported.toPower stSAFETALK).raise 0x1201 [s.get BIST_LAMP.FAIL, s.get BIST_LAMP.WARM]
      else if s.pwr.startup = 5 then ((s.lampReported.onMon fun m => { m with refAt := s.lampReported.fwc }).toPower stIDLE).startMonitor.tripAtStart
      else s.lampReported.afterWarm) := by
  rw [← s.lampReported_warm]
  refine (if_pos h).trans ?_
  split
  · rfl
  · by_cases hcold : s.pwr.startup = 5
    · rw [if_pos hcold]
      exact if_pos (decide_eq_true hcold)
    · rw [if_neg hcold]
      exact if_neg (by rw [decide_eq_false hcold]; exact Bool.false_ne_true)

/-- The power state shown and the unit no longer BUSY, before PWR_STATE_CHANGED is raised. -/
def State.stateShown (n : Nat) : State := (s.set PWR_STATUS.STATE n).set PWR_STATUS.BUSY 0

theorem State.stateShown_only (n : Nat) : Only [PWR_STATUS.STATE, PWR_STATUS.BUSY] s (s.stateShown n) :=
  ((Only.refl _ s).set _ (by simp)).set _ (by simp)

theorem State.stateShown_state {n : Nat} (h : n < 8) : (s.stateShown n).get PWR_STATUS.STATE = n :=
  (State.get_set_ne _ _ (by decide)).trans (State.get_set_of_lt s (Nat.lt_trans h (by decide)))

end

/-- Settles O14: the start-up reset, the end of each boot, an item's test and its end, and the report go by the step of start-up the unit stands at. -/
theorem startUpRunsToTheLampCheck : Obligations.StartUpRunsToTheLampCheck := by
  refine ⟨fun s h => ⟨s.startupBegun, exec_startupReset_of_begun h, fun f => s.startupBegun_get, s.startupBegun_canary, rfl, s.startupBegun_stage,
      rfl, rfl, rfl, ?serial⟩,
    fun crc unc s hruns hpin hboot hstart => ⟨_, exec_foremanBootDone_of_cold crc unc hruns hpin hboot hstart, rfl, State.startLamp_warm _ _,
      State.startLamp_fail _ _⟩,
    fun crc unc s hruns hpin hboot => ⟨_, exec_foremanBootDone_of_warm crc unc hruns hpin hboot, rfl, State.startLamp_warm _ _,
      State.startLamp_fail _ _⟩,
    fun crc unc s hruns hpin hboot => ⟨_, exec_foremanBootDone_of_reboot crc unc hruns hpin hboot, rfl, rfl, State.rebootEnded_ls crc unc,
      State.rebootEnded_hb crc unc⟩,
    fun b s h => ⟨(State.spoilBank_bankSeq h s _ _).trans (if_pos rfl),
      fun area bank hne => (State.spoilBank_bankSeq h s area bank).trans (if_neg (Ne.symm hne))⟩,
    fun ok readings i s h hi => ⟨_, exec_lampCheckItemDone_of_item ok readings h hi, rfl,
      (s.itemEnded_fail ok readings i).trans (s.itemMarked_fail ok readings i), s.itemEnded_only ok readings i, s.itemEnded_pipe ok readings i⟩,
    fun readings s => ⟨rfl, ?others, s.logicItem_iff readings, nearBy_canary _, fun i c hi hc h => s.monitorItem_of_rail (railsNear_of_off hi hc h)⟩,
    fun s h => ⟨s.lampReported, s.lampReported_only, s.lampReported_time, exec_lampCheckDone_of_last h⟩,
    fun n s h => ⟨s.stateShown n, s.stateShown_only n, s.stateShown_state h, State.get_set_self .., rfl⟩⟩
  case serial => exact (Kept.refl s).resetDomains.serial
  case others =>
    intro i hi
    simp only [List.mem_cons, List.not_mem_nil, or_false] at hi
    rcases hi with rfl | rfl | rfl | rfl <;> rfl

end Sys2Proof.Machine
end

section
/-!
PROOF. What the events, the forcing lines and the blocks' own rules at entry to HOLD leave alone (R122, R195, R216, R291, R348, R371, R502): the power
controller, the clocks and the canary. One relation, `Spares s₀ s`, and a walk through the operations on the way; then entry to HOLD itself (R454).
-/
namespace Sys2Proof.Machine

/-- In `s` the registers below page 0x04, the power record and, but for the times of the MREQ edges, the safety record are those of `s₀`. -/
structure Spares (s₀ s : State) : Prop where
  get : ∀ f : Field, f.key < 0x04000 * 32 → s.get f = s₀.get f
  pwr : s.pwr = s₀.pwr
  saf : s.saf = { s₀.saf with mreqRise := s.saf.mreqRise, mreqFall := s.saf.mreqFall }

theorem Spares.entryState {s₀ s : State} (h : Spares s₀ s) : s.saf.entryState = s₀.saf.entryState := 
  (congrArg Saf.entryState h.saf).trans rfl

theorem Spares.refl (s : State) : Spares s s := ⟨fun _ _ => rfl, rfl, rfl⟩

variable {s₀ s : State}

/-! ### The shapes that the operations are built from -/

/-- An update of anything but the register store, the power record and the safety record. -/
theorem Spares.update {pending fwc freeIx serial mono strap answer latched events heldAon heldCanary rol nvs cfg hst i2c tim lnk chn cad arr cnv mon eng
    spot pipe} (h : Spares s₀ s) :
    Spares s₀ { s with
      pending := pending, fwc := fwc, freeIx := freeIx, serial := serial, mono := mono, strap := strap, answer := answer, latched := latched
      events := events, heldAon := heldAon, heldCanary := heldCanary, rol := rol, nvs := nvs, cfg := cfg, hst := hst, i2c := i2c, tim := tim
      lnk := lnk, chn := chn, cad := cad, arr := arr, cnv := cnv, mon := mon, eng := eng, spot := spot, pipe := pipe } :=
  ⟨h.get, h.pwr, h.saf⟩

theorem Spares.onCad {f} (h : Spares s₀ s) : Spares s₀ (s.onCad f) := h.update

theorem Spares.ite {t : State} {c : Prop} [Decidable c] (h : Spares s₀ s) (k : Spares s₀ t) : Spares s₀ (if c then s else t) := by
  split
  · exact h
  · exact k

theorem Spares.iteFst {α : Type} {c : Prop} [Decidable c] {p q : State × α} (h : Spares s₀ p.1) (k : Spares s₀ q.1) :
    Spares s₀ (if c then p else q).1 := by
  split
  · exact h
  · exact k

theorem Spares.foldl {α : Type} {f : State → α → State} {l : List α} (h : Spares s₀ s) (hf : ∀ {t x}, x ∈ l → Spares s₀ t → Spares s₀ (f t x)) :
    Spares s₀ (l.foldl f s) := by
  induction l generalizing s with
  | nil => exact h
  | cons x l ih => exact ih (hf (List.mem_cons_self ..) h) fun hx => hf (List.mem_cons_of_mem _ hx)

/-- A register of page 0x04 or above takes a value. -/
theorem Spares.set {f v} (h : Spares s₀ s) (hf : 0x04000 ≤ f.off := by decide) : Spares s₀ (s.set f v) := by
  refine ⟨fun g hg => (State.get_set_ne _ _ ?_).trans (h.get g hg), h.pwr, h.saf⟩
  have hkey : f.key = f.off * 32 + f.lo := rfl
  omega

/-- The offset of a register of a bank. -/
theorem high_add {a b : Nat} (h : 0x04000 ≤ a) : 0x04000 ≤ a + b := Nat.le_add_right_of_le h

theorem Spares.put {f b} (h : Spares s₀ s) (hf : 0x04000 ≤ f.off := by decide) : Spares s₀ (s.put f b) := h.set hf
theorem Spares.bump {f n} (h : Spares s₀ s) (hf : 0x04000 ≤ f.off := by decide) : Spares s₀ (s.bump f n) := h.set hf
theorem Spares.putBit {f i b} (h : Spares s₀ s) (hf : 0x04000 ≤ f.off := by decide) : Spares s₀ (s.putBit f i b) := h.set hf
theorem Spares.zeros {fs} (h : Spares s₀ s) (hfs : ∀ f ∈ fs, 0x04000 ≤ f.off) : Spares s₀ (s.zeros fs) := h.foldl fun hf k => k.set (hfs _ hf)
theorem Spares.when {c f} (h : Spares s₀ s) (hf : ∀ {t}, Spares s₀ t → Spares s₀ (f t)) : Spares s₀ (s.when c f) := .ite (hf h) h

/-! ### Events and packets -/

theorem Spares.of_raised {t : State} (h : Spares s₀ s) (hr : OnlyRaised s t) : Spares s₀ t := by
  obtain ⟨hrec, hget⟩ := hr
  have hpwr := congrArg State.pwr hrec
  have hsaf := congrArg State.saf hrec
  refine ⟨fun f hf => (hget f ?_).trans (h.get f hf), hpwr.trans h.pwr, ?_⟩
  · intro hmem
    have hhigh : ∀ k ∈ [HST_ERRCNT2.EVENT_LOST, CHN_ERRCNT4.PORT_DROP].map Field.key, 0x04000 * 32 ≤ k := by decide
    exact Nat.not_le.mpr hf (hhigh _ hmem)
  · rw [hsaf]; exact h.saf

theorem Spares.raise {code data} (h : Spares s₀ s) : Spares s₀ (s.raise code data) := h.of_raised (s.raise_raised code data)
theorem Spares.send {k} (h : Spares s₀ s) : Spares s₀ (s.send k) := h.of_raised (s.send_raised k)
theorem Spares.sendOn {d k} (h : Spares s₀ s) : Spares s₀ (s.sendOn d k) := h.of_raised (s.sendOn_raised d k)
theorem Spares.sendCtl {dt vc dst payload} (h : Spares s₀ s) : Spares s₀ (s.sendCtl dt vc dst payload) := h.send
theorem Spares.loseItem {stream n} (h : Spares s₀ s) : Spares s₀ (s.loseItem stream n) := by
  unfold State.loseItem
  exact h.update

/-! ### The ports (R273, R274, R297, R298) -/

theorem Spares.breakAfter {b} (h : Spares s₀ s) : Spares s₀ (s.breakAfter b) := by
  unfold State.breakAfter
  exact h.set.set.update

theorem Spares.portChanged {d active} (h : Spares s₀ s) : Spares s₀ (s.portChanged d active) :=
  .ite (.ite h.raise h.raise.breakAfter) (.ite h.sendOn h)

theorem Spares.dropDelay {d} (h : Spares s₀ s) : Spares s₀ (s.dropDelay d) := by
  unfold State.dropDelay
  exact Spares.set (Spares.update h) (by cases d <;> decide)

theorem Spares.dropQueued {d} (h : Spares s₀ s) : Spares s₀ (s.dropQueued d) := by
  unfold State.dropQueued
  exact (Spares.ite h h.bump).update

theorem Spares.linkDown {d cause next} (h : Spares s₀ s) : Spares s₀ (s.linkDown d cause next) := by
  have hdown : Spares s₀ ((s.set (LNK_STATE.STATE (px d)) next).dropDelay d) := (h.set (high_add (by decide))).dropDelay
  exact .ite hdown.raise.dropQueued.portChanged hdown

theorem Spares.setPort {d f} (h : Spares s₀ s) : Spares s₀ (s.setPort d f) := .ite h.update h.update

theorem Spares.seedLanes {n l} (h : Spares s₀ s) : Spares s₀ (seedLanes n s l).1 := by
  induction n with
  | zero => exact h
  | succ n ih => exact ih.update

theorem Spares.startTraining {d st} (h : Spares s₀ s) : Spares s₀ (s.startTraining d st) := by
  unfold State.startTraining
  exact ((h.seedLanes.set (high_add (by decide))).zeros (by cases d <;> decide)).setPort

theorem Spares.endLoop {d} (h : Spares s₀ s) : Spares s₀ (s.endLoop d) := .ite (h.set (high_add (by decide))).startTraining h
theorem Spares.endLoops (h : Spares s₀ s) : Spares s₀ s.endLoops := h.endLoop.endLoop

theorem Spares.disablePort {d cause} (h : Spares s₀ s) : Spares s₀ (s.disablePort d cause) := by
  unfold State.disablePort
  exact (h.linkDown.zeros (by cases d <;> decide)).setPort

theorem Spares.reviewPort {d} (h : Spares s₀ s) : Spares s₀ (s.reviewPort d) := .ite (.ite h.startTraining h) (.ite h h.disablePort)

theorem Spares.reviewForcing (h : Spares s₀ s) : Spares s₀ s.reviewForcing := .ite h.reviewPort.reviewPort h.reviewPort.reviewPort.update

/-! ### The rings of the host interface (R409, R421, R427 to R430) -/

theorem Spares.hostWrite {addr bytes} (h : Spares s₀ s) : Spares s₀ (s.hostWrite addr bytes) := h.when fun k => k.update

theorem Spares.vector {v} (h : Spares s₀ s) : Spares s₀ (s.vector v) := .ite h.update (h.hostWrite.when fun k => k.update)

theorem Spares.fetchBuffer {n} (h : Spares s₀ s) : Spares s₀ (s.fetchBuffer n) := .ite h.update h

theorem ringIndex_high (k n : Nat) : 0x04000 ≤ (ringIndex k n).off := by
  unfold ringIndex
  split
  · exact high_add (by decide)
  · split <;> exact high_add (by decide)

theorem ringPhase_high (k n : Nat) : 0x04000 ≤ (ringPhase k n).off := by
  unfold ringPhase
  split
  · exact high_add (by decide)
  · split <;> exact high_add (by decide)

theorem Spares.stepIndex {k n} (h : Spares s₀ s) : Spares s₀ (s.stepIndex k n) :=
  .ite ((h.set (ringIndex_high k n)).set (ringPhase_high k n)) (h.set (ringIndex_high k n))

theorem Spares.closeBuffer {n flushed} (h : Spares s₀ s) : Spares s₀ (s.closeBuffer n flushed) := by
  unfold State.closeBuffer
  split
  · exact h
  · exact (Spares.stepIndex (Spares.update h.hostWrite)).vector.fetchBuffer

theorem Spares.takeItem {n it} (h : Spares s₀ s) : Spares s₀ (s.takeItem n it).1 := by
  unfold State.takeItem
  extract_lets -merge +onlyGivenNames _ _ _
  refine .iteFst h.bump.loseItem.raise (.iteFst h ?_)
  extract_lets +onlyGivenNames s1
  have hs1 : Spares s₀ s1 := by
    unfold s1
    split
    · exact .ite h.closeBuffer h
    · exact h
  split
  · exact Spares.update hs1.hostWrite
  · split
    · exact Spares.fetchBuffer (Spares.update hs1.hostWrite)
    · exact .iteFst hs1.fetchBuffer (Spares.update hs1.fetchBuffer).raise

theorem Spares.offer {it blocked} (h : Spares s₀ s) : Spares s₀ (s.offer it blocked).1 := by
  unfold State.offer
  split
  · exact h
  · exact .iteFst h (.iteFst h.takeItem h.takeItem)

theorem Spares.offerAll {its r} (h : Spares s₀ r.1) : Spares s₀ (offerAll its r).1 := by
  induction its generalizing r with
  | nil => exact h
  | cons it rest ih => exact ih h.offer

theorem Spares.drainEvents {es} (h : Spares s₀ s) : Spares s₀ (drainEvents es s) := by
  induction es generalizing s with
  | nil => exact h.update
  | cons e rest ih => exact .ite (ih h.offer) h.offer.update

theorem Spares.drainMonitor {n} (h : Spares s₀ s) : Spares s₀ (drainMonitor n s) := by
  induction n generalizing s with
  | zero => exact h
  | succ n ih => exact .ite h (.ite (ih h.offer.set.update) h)

theorem Spares.reviewIntake (h : Spares s₀ s) : Spares s₀ s.reviewIntake := .ite h.update h
theorem Spares.reviewSpotLevel (h : Spares s₀ s) : Spares s₀ s.reviewSpotLevel := .ite h.update h

theorem Spares.pump (h : Spares s₀ s) : Spares s₀ s.pump := by
  unfold State.pump
  split
  · extract_lets -merge +onlyGivenNames _ r _ _ s1 s2 s3
    have hr : Spares s₀ r.1 := Spares.offerAll (Spares.update h)
    have hs1 : Spares s₀ s1 := hr.update
    have hs2 : Spares s₀ s2 := .ite hs1 (Spares.drainEvents hs1.update)
    have hs3 : Spares s₀ s3 := .ite hs2 hs2.drainMonitor
    exact hs3.reviewIntake.reviewSpotLevel
  · exact h

theorem Spares.deliver {stream ring bytes sweep} (h : Spares s₀ s) : Spares s₀ (s.deliver stream ring bytes sweep) := Spares.pump h.update

/-! ### The record port and the ledger (R195, R208, R329 to R339) -/

theorem Spares.toStope {stope m} (h : Spares s₀ s) : Spares s₀ (s.toStope stope m) := by
  unfold State.toStope
  split
  · exact h.update
  · exact h

theorem Spares.markStale {src stope sweep} (h : Spares s₀ s) : Spares s₀ (s.markStale src stope sweep) := by
  unfold State.markStale State.askRefresh
  exact .ite h.update (.ite (Spares.raise (Spares.update h)).toStope (Spares.raise (Spares.update h)).sendCtl)

theorem Spares.writeBlock {x kind a recs nKey nDelta status} (h : Spares s₀ s) : Spares s₀ (s.writeBlock x kind a recs nKey nDelta status) :=
  h.deliver

theorem Spares.writeSweep {x} (h : Spares s₀ s) : Spares s₀ (s.writeSweep x) := by
  unfold State.writeSweep
  extract_lets -merge +onlyGivenNames _ _
  split
  · exact h.writeBlock
  · extract_lets -merge +onlyGivenNames _ s1 _ _ _ s2 _ _ _ _ _ _ _ s3 s4 _ s5
    have hs1 : Spares s₀ s1 := .ite h.update h
    have hs2 : Spares s₀ s2 := .ite hs1 hs1.bump.markStale
    have hs3 : Spares s₀ s3 := hs2.writeBlock
    have hs4 : Spares s₀ s4 := .ite hs3 (.ite hs3.writeBlock hs3.bump)
    have hs5 : Spares s₀ s5 := .ite hs4 hs4.writeBlock
    exact .ite hs5 hs5.writeBlock

theorem Spares.supersede {src inc} (h : Spares s₀ s) : Spares s₀ (s.supersede src inc) := by
  unfold State.supersede
  exact .ite (Spares.sendCtl (Spares.update h.bump)).raise h.bump

theorem Spares.ledgerJudge {x} (h : Spares s₀ s) : Spares s₀ (s.ledgerJudge x) := by
  unfold State.ledgerJudge
  split
  · exact h.writeSweep
  · exact h.supersede
  · exact h
  · exact Spares.raise (Spares.update h.sendCtl)
  · exact h.bump
  · exact h.bump
  · exact h.bump

theorem Spares.sendSweep {x} (h : Spares s₀ s) : Spares s₀ (s.sendSweep x) := by
  have hin : Spares s₀ (s.intake fun t => t.ledgerJudge x) :=
    .ite (.ite h.reviewIntake.bump (Spares.raise h.reviewIntake.bump.update)) h.reviewIntake.ledgerJudge
  exact .ite hin (.ite (.ite (Spares.foldl (Spares.update h) fun _ k => k.send) (.ite h.bump.update (Spares.raise h.bump.update))) h)

theorem Spares.release {o extra discard} (h : Spares s₀ s) : Spares s₀ (s.release o extra discard) := Spares.sendSweep h.update
theorem Spares.sealAll (h : Spares s₀ s) : Spares s₀ s.sealAll := h.foldl fun _ k => .ite k.release k.release

/-! ### The cadence unit (R80, R118, R120, R122, R143, R147) -/

theorem Spares.stopMreq {cause} (h : Spares s₀ s) : Spares s₀ (s.stopMreq cause) := by
  unfold State.stopMreq
  have hset : Spares s₀ (((s.set EXP_MREQ_STATUS.REQUESTING 0).set EXP_MREQ_STATUS.LEAD_LEFT 0).set EXP_MREQ_STATUS.STOP_CAUSE cause) := h.set.set.set
  refine Spares.raise ⟨hset.get, hset.pwr, ?_⟩
  exact congrArg (fun f : Saf => { f with mreqRise := none, mreqFall := if s.cad.mreq then some s.fwc else f.mreqFall }) h.saf

theorem Spares.reviewMreq (h : Spares s₀ s) : Spares s₀ s.reviewMreq := by
  unfold State.reviewMreq
  split
  · split
    · exact h.stopMreq
    · exact h
  · exact h

theorem Spares.endMark (h : Spares s₀ s) : Spares s₀ s.endMark := by
  have hfields : ∀ e ∈ [(1, CAL_DEFER.SLICE), (2, CAL_DEFER.PKTA), (3, CAL_DEFER.PKTB)], 0x04000 ≤ e.2.off := by decide
  unfold State.endMark
  split
  · exact h
  · exact Spares.update (h.foldl fun he k => .ite (k.bump (hfields _ he)) k)

theorem Spares.stopTable (h : Spares s₀ s) : Spares s₀ s.stopTable := by
  unfold State.stopTable
  exact (Spares.endMark h.set.set.onCad.onCad).onCad.update

theorem Spares.cadHold (h : Spares s₀ s) : Spares s₀ s.cadHold := by
  have hfields : ∀ f ∈ pendingFields, 0x04000 ≤ f.off := by decide +kernel
  have hdiscard : Spares s₀ s.stopTable.discardPending :=
    Spares.update (Spares.set (Spares.set (h.stopTable.foldl fun hf k => k.set (hfields _ hf))))
  unfold State.cadHold
  extract_lets +onlyGivenNames t t1
  have ht1 : Spares s₀ t1 := by
    unfold t1
    split
    · exact hdiscard.update
    · exact hdiscard
  exact ht1.update

/-! ### The spotlight source and the pipeline (R348, R356, R368, R371) -/

theorem Spares.reviewSpot (h : Spares s₀ s) : Spares s₀ s.reviewSpot := by
  unfold State.reviewSpot
  exact h.put.put

theorem Spares.stopStaged (h : Spares s₀ s) : Spares s₀ s.stopStaged := by
  unfold State.stopStaged
  extract_lets +onlyGivenNames s1
  have hs1 : Spares s₀ s1 := by
    unfold s1
    split
    · exact .ite h.update h
    · exact h
  exact .ite hs1.set.reviewSpot hs1.reviewSpot

theorem Spares.reviewPipe (h : Spares s₀ s) : Spares s₀ s.reviewPipe := .ite h h.put.set.set

theorem Spares.outBlock {src sweep ring lines bytes} (h : Spares s₀ s) : Spares s₀ (s.outBlock src sweep ring lines bytes) :=
  .ite h.bump.update (.ite (Spares.loseItem h.bump.update) h.deliver)

theorem Spares.endFrame {f closed cond dropped time} (h : Spares s₀ s) : Spares s₀ (s.endFrame f closed cond dropped time) := by
  unfold State.endFrame
  extract_lets +onlyGivenNames s1 _ s2
  have hs1 : Spares s₀ s1 := h.foldl fun _ k => Spares.outBlock k.update
  have hs2 : Spares s₀ s2 := hs1.update
  exact .ite hs2.bump.raise hs2

theorem Spares.endFrames (h : Spares s₀ s) : Spares s₀ s.endFrames :=
  (Spares.foldl (Spares.update h) fun _ k => k.endFrame).reviewSpot.reviewPipe

/-! ### The self-test, and all blocks together (R502) -/

theorem Spares.abortBist (h : Spares s₀ s) : Spares s₀ s.abortBist := by
  unfold State.abortBist
  split
  · exact h
  · unfold State.endBist
    extract_lets +onlyGivenNames t
    have ht : Spares s₀ t := by
      unfold t
      split
      · exact h
      · exact h.putBit
    exact (Spares.set (Spares.update ht)).set

theorem Spares.holdBlocks (h : Spares s₀ s) : Spares s₀ s.holdBlocks :=
  (Spares.sealAll (Spares.update h.cadHold)).stopStaged.endFrames.endLoops.abortBist

/-! ### A transition and entry to HOLD (R454, R457, R471, R477) -/

/-- What a transition touches below page 0x04 is STATE and BUSY. -/
theorem State.toPower_spares (s : State) (n : Nat) : Spares ((s.set PWR_STATUS.STATE n).set PWR_STATUS.BUSY 0) (s.toPower n) :=
  (Spares.refl _).raise.reviewMreq.reviewForcing

/-- A command to STANDBY waits for a commit. -/
def State.standbyWaits (s : State) : Bool := decide (s.get PWR_STATUS.PENDING = stSTANDBY)

/-- The state at entry is noted, and each block follows its own rule. -/
def State.blocksHeld (s : State) : State := (s.onSaf fun f => { f with entryState := s.power }).holdBlocks

/-- The unit on its way to HOLD: what waited is dropped unless it is STANDBY. -/
def State.holdBegun (s : State) : State := s.blocksHeld.when (!s.standbyWaits) fun t => t.set PWR_STATUS.PENDING 0

theorem State.blocksHeld_spares (s : State) : Spares (s.onSaf fun f => { f with entryState := s.power }) s.blocksHeld := (Spares.refl _).holdBlocks

theorem State.holdBegun_pending (s : State) : s.holdBegun.get PWR_STATUS.PENDING = if s.get PWR_STATUS.PENDING = stSTANDBY then 1 else 0 := by
  rw [State.holdBegun, State.standbyWaits]
  split
  case isTrue h =>
    rw [decide_eq_true h, Bool.not_true, State.when_false, s.blocksHeld_spares.get _ (by decide), State.onSaf_get, h]
    rfl
  case isFalse h =>
    rw [decide_eq_false h, Bool.not_false, State.when_true, State.get_set_self]
    rfl

theorem State.holdBegun_entryState (s : State) : s.holdBegun.saf.entryState = s.power := by
  have hsaf : s.blocksHeld.saf.entryState = s.power := s.blocksHeld_spares.entryState
  rw [State.holdBegun]
  cases s.standbyWaits
  · rw [Bool.not_false, State.when_true, State.set_saf, hsaf]
  · rw [Bool.not_true, State.when_false, hsaf]

/-- The unit in HOLD, before HOLD_ENTERED is raised. -/
def State.inHold (s : State) : State := (s.holdBegun.toPower stHOLD).put PWR_STATUS.BUSY s.standbyWaits

theorem State.enterHold_of_enters {s : State} (h : stIDLE ≤ s.power ∧ s.power ≤ stCAPTURE ∧ s.pwr.startup = 0 ∧ s.pwr.sysrst = false) (cause : Nat) :
    s.enterHold cause = s.inHold.raise 0x0302 [cause, s.get SAF_STATUS.LEVEL] := if_pos h

theorem State.enterHold_of_stays {s : State} (h : ¬ (stIDLE ≤ s.power ∧ s.power ≤ stCAPTURE ∧ s.pwr.startup = 0 ∧ s.pwr.sysrst = false))
    (cause : Nat) : s.enterHold cause = s := if_neg h

theorem State.inHold_get {f : Field} (s : State) (hf : f.key < 0x04000 * 32) (hbusy : PWR_STATUS.BUSY.key ≠ f.key) :
    s.inHold.get f = (s.holdBegun.set PWR_STATUS.STATE stHOLD).get f := by
  rw [State.inHold, State.put_eq, State.get_set_ne _ _ hbusy, (s.holdBegun.toPower_spares stHOLD).get f hf, State.get_set_ne _ _ hbusy]

theorem State.inHold_busy (s : State) : s.inHold.get PWR_STATUS.BUSY = if s.get PWR_STATUS.PENDING = stSTANDBY then 1 else 0 := by
  rw [State.inHold, State.put_eq, State.get_set_self, State.standbyWaits]
  split
  case isTrue h => rw [decide_eq_true h]; rfl
  case isFalse h => rw [decide_eq_false h]; rfl

theorem State.inHold_entryState (s : State) : s.inHold.saf.entryState = s.power :=
  (s.holdBegun.toPower_spares stHOLD).entryState.trans s.holdBegun_entryState

/-- Settles O18: entry to HOLD is its blocks' rules, which spare what waits and the state noted, and then the transition. -/
theorem holdIsEntered : Obligations.HoldIsEntered := by
  intro cause s
  refine ⟨fun h => ?enters, fun h => State.enterHold_of_stays h cause⟩
  obtain ⟨-, hpending, hserial, -, -⟩ := (Kept.refl s).enterHold (cause := cause)
  refine ⟨?_, ?_, ?_, ?_, hpending, hserial⟩ <;> rw [State.enterHold_of_enters h]
  · rw [State.raise_get _ _ _ (by decide), s.inHold_get (by decide) (by decide)]
    exact State.get_set_self ..
  · rw [State.raise_saf, s.inHold_entryState]
  · rw [State.raise_get _ _ _ (by decide), s.inHold_get (by decide) (by decide), State.get_set_ne _ _ (by decide), s.holdBegun_pending]
  · rw [State.raise_get _ _ _ (by decide), s.inHold_busy]

end Sys2Proof.Machine
end

section
/-!
PROOF. A step runs the front command (O1), and no command touches the waiting commands and the identity of the unit (O4).
-/
namespace Sys2Proof.Machine

/-- Settles O1: the queue is not empty, so the step takes its front. -/
theorem frontCommandRuns : Obligations.FrontCommandRuns := by
  intro c rest s h
  unfold step
  rw [h]

/-- Settles O4: the walk through the commands, begun at the state itself. -/
theorem commandsKeepQueueAndIdentity : Obligations.CommandsKeepQueueAndIdentity := by
  intro c s t h
  obtain ⟨-, hpending, hserial, hmono, hcfg⟩ := (Kept.refl s).exec c t h
  exact ⟨hpending, hserial, hmono, hcfg⟩

end Sys2Proof.Machine
end

section
/-!
PROOF. No command of the table and no step ends in a fault or a refusal: every meaning's branches end in a next state.
-/
namespace Sys2Proof.Machine

theorem Answers.next (s : State) : Answers (.next s) := ⟨s, rfl⟩

theorem Answers.ite {o p : Out} {c : Prop} [Decidable c] (h : Answers o) (k : Answers p) : Answers (if c then o else p) := by
  split
  · exact h
  · exact k

theorem execRecoveryTimeout_answers (s : State) : Answers (execRecoveryTimeout s) := by
  unfold execRecoveryTimeout
  refine .ite ?_ (.ite (.next _) (.ite ?_ (.next _)))
  · split
    · exact .next _
    · exact .ite (.next _) (.next _)
  · split <;> exact .next _

theorem execVideoScheduleStep_answers (s : State) : Answers (execVideoScheduleStep s) := by
  unfold execVideoScheduleStep
  refine .ite ?_ (.next _)
  split
  · exact .next _
  · exact .next _
  · exact .ite (.next _) (.next _)
  · exact .next _

theorem execRowResetDone_answers (s : State) : Answers (execRowResetDone s) := by
  unfold execRowResetDone
  split
  · exact .next _
  · exact .ite (.next _) (.ite (.next _) (.next _))

theorem execItemPublish_answers (stope : Nat) (s : State) : Answers (execItemPublish stope s) := by
  unfold execItemPublish
  split
  · exact .next _
  · split <;> exact .next _

theorem execRemapStart_answers (s : State) : Answers (execRemapStart s) := by
  unfold execRemapStart
  refine .ite (.next _) ?_
  split
  · exact .next _
  · extract_lets
    split
    · exact .next _
    · refine .ite (.next _) ?_
      split <;> exact .next _

theorem execLinkFrameReceive_answers (d : Bool) (s : State) : Answers (execLinkFrameReceive d s) := by
  unfold execLinkFrameReceive
  split
  · exact .next _
  · split <;> exact .next _

theorem execTxWake_answers (d : Bool) (s : State) : Answers (execTxWake d s) := by
  unfold execTxWake
  refine .ite (.next _) (.ite (.next _) ?_)
  split <;> exact .next _

theorem execSpotPacketSend_answers (s : State) : Answers (execSpotPacketSend s) := by
  unfold execSpotPacketSend
  split
  · exact .next _
  · split
    · refine .ite ?_ (.next _)
      split <;> exact .next _
    · exact .next _

theorem execPipeItemProcess_answers (s : State) : Answers (execPipeItemProcess s) := by
  unfold execPipeItemProcess
  refine .ite (.next _) ?_
  split <;> exact .next _

theorem execBankRecalDone_answers (res : List SliceSample) (s : State) : Answers (execBankRecalDone res s) := by
  unfold execBankRecalDone
  refine .ite (.next _) ?_
  extract_lets -merge +onlyGivenNames _ _ _ _ _ own
  clear_value own
  split <;> exact .next _

theorem execHostReadCompletion_answers (ix status : Nat) (data : List Byte) (s : State) : Answers (execHostReadCompletion ix status data s) := by
  unfold execHostReadCompletion
  split
  · exact .next _
  · exact .ite (.next _) (.ite (.next _) (.ite (.next _) (.next _)))

theorem exec_answers (c : Instr) (s : State) : Answers (exec c s) := by
  cases c
  case flrDone | l1DeferExpired | openLengthEnd | triggerDelayOpen | triggerExposureEnd | expoPulseEnd | sliceStepDone | monitorConversionDone |
    joinCallDelay | timeSlewDone | tpulseRise | proxyTimeout | storeRewrite | bistDone | sessionIdleTimeout | lockoutEnd | challengeExpiry |
    completionTimeout =>
    simp only [exec, execFlrDone, execL1DeferExpired, execOpenLengthEnd, execTriggerDelayOpen, execTriggerExposureEnd, execExpoPulseEnd,
      execSliceStepDone, execMonitorConversionDone, execJoinCallDelay, execTimeSlewDone, execTpulseRise, execProxyTimeout, execStoreRewrite,
      execBistDone, execSessionIdleTimeout, execLockoutEnd, execChallengeExpiry, execCompletionTimeout]
    split <;> exact .next _
  case lampCheckItemDone | rowLatch | pktCalStepDone | heldPassStart | engineReadyMessage | logMessage | remapCopyDone | remapComplete |
    trainTimeout | replayTimeout | electionTimeout | rollTimeout | pipeFrameTimeout | hostDisciplineLapse | timeInvalid | cqModerationTimer |
    drFlushTimeout | hostGraceExpired =>
    simp only [exec, execLampCheckItemDone, execRowLatch, execPktCalStepDone, execHeldPassStart, execEngineReadyMessage, execLogMessage,
      execRemapCopyDone, execRemapComplete, execTrainTimeout, execReplayTimeout, execElectionTimeout, execRollTimeout, execPipeFrameTimeout,
      execHostDisciplineLapse, execTimeInvalid, execCqModerationTimer, execDrFlushTimeout, execHostGraceExpired]
    split
    · exact .next _
    · exact .ite (.next _) (.next _)
  case freeReferenceInstant | trackerWindowClose | publishSend =>
    simp only [exec, execFreeReferenceInstant, execTrackerWindowClose, execPublishSend]
    refine .ite ?_ (.next _)
    split <;> exact .next _
  case recoveryTimeout => exact execRecoveryTimeout_answers _
  case videoScheduleStep => exact execVideoScheduleStep_answers _
  case rowResetDone => exact execRowResetDone_answers _
  case itemPublish => exact execItemPublish_answers _ _
  case remapStart => exact execRemapStart_answers _
  case linkFrameReceive => exact execLinkFrameReceive_answers _ _
  case txWake => exact execTxWake_answers _ _
  case claim => exact .ite (.next _) (.ite (.next _) (.ite (.next _) (.ite (.next _) (.ite (.next _) (.next _)))))
  case spotPacketSend => exact execSpotPacketSend_answers _
  case pipeItemProcess => exact execPipeItemProcess_answers _
  case bankRecalDone => exact execBankRecalDone_answers _ _
  case hostReadCompletion => exact execHostReadCompletion_answers _ _ _ _
  case vaonGood | vaonFail | railGood | standbyAfterCommit | startupReset | perstNAssert | perstNRelease | d3hotEntry | bmeClear | linkChanged |
    refQualificationWindow | pllBandSearchDone | pllLockDeclared | pllLocked | foremanLockstep | foremanHeartbeatTimeout | oscMissingPulse |
    oscReturn | foremanResetRelease | scanFrmEdge | scanLineEdge | mainsZxEdge | netComputedStart | sweepEnd | cadActHiRead | lockstepFault | skim |
    monRefSettled | monTempUpdate | lclTimerZero | scrubRead | engMemDataRead | quadrantInitDone | laneStuck | laneSignalLoss | clockRecovered |
    eqComplete | keystreamStart | linkUp | trainRetryDelay | widthChangeBoundary | txSleepEntry | packetTransmit | beatWindow | spotClearDone |
    delayExchangeStart | syncSend | chainTimeLost | tpulseFall | hostWdogExpired | nvsRdDataLoRead | nvsRdDataHiRead | i2cWordRead | railDown | dlUp |
    elasticBufferSlip => exact .ite (.next _) (.next _)
  case pllLockBreak | sweepStart | packetForward | accessInc | accessFixed | select | i2cHoldTimeout =>
    exact .ite (.next _) (.ite (.next _) (.next _))
  case registerWrite | sysrstNRelease | canaryCount | triggerEdge | trainingBlockReceive | i2cStuckTimeout | mreqToggle =>
    exact .ite (.ite (.next _) (.next _)) (.next _)
  case sysrstNAssert | canaryTrip => exact .ite (.next _) (.ite (.next _) (.ite (.next _) (.next _)))
  case roll => exact .ite (.next _) (.ite (.ite (.next _) (.next _)) (.next _))
  case lampCheckDone => exact .ite (.ite (.next _) (.ite (.next _) (.next _))) (.next _)
  case foremanBootDone | txBlock | laneBlockReceive => exact .ite (.next _) (.ite (.next _) (.ite (.next _) (.ite (.next _) (.next _))))
  case bar2Read => exact .ite (.next _) (.ite (.next _) (.ite (.ite (.next _) (.next _)) (.next _)))
  all_goals exact .next _

/-- Settles O3: an idle step answers, and the front command answers whatever the state. -/
theorem everyCommandAnswers : Obligations.EveryCommandAnswers := by
  refine ⟨exec_answers, fun s => ?_⟩
  unfold step
  split
  · exact .next _
  · exact exec_answers _ _

end Sys2Proof.Machine
end

section
/-!
PROOF. The causes of the canary (ch. 14, R461 to R465, R561): what latching a cause writes, and what each row makes of a trip.
-/
namespace Sys2Proof.Machine

variable {s : State}

/-! ### A cause latches (R461, R463) -/

/-- The live bit of a cause follows its condition, instants apart. -/
def State.causeLive (s : State) (i : Nat) : State := if i ∈ [0, 6] then s else s.putBit SAF_TRIP.LIVE i true

/-- Cause `i` latched and counted, before the event is raised. -/
def State.causeLatched (s : State) (i : Nat) : State := ((s.causeLive i).putBit SAF_TRIP.LATCHED i true).bump SAF_CNT1.TRIP_CNT 1

theorem State.causeLive_only (s : State) (i : Nat) : Only [SAF_TRIP.LIVE] s (s.causeLive i) := by
  unfold State.causeLive
  split
  · exact .refl _ s
  · exact (Only.refl _ s).putBit i true (by simp)

theorem State.causeLive_live (s : State) (i : Nat) :
    (s.causeLive i).get SAF_TRIP.LIVE =
      if i ∈ [0, 6] then s.get SAF_TRIP.LIVE else setBit (s.get SAF_TRIP.LIVE) i true % 2 ^ SAF_TRIP.LIVE.width := by
  unfold State.causeLive
  split
  · rfl
  · exact State.get_set_self ..

theorem State.causeLatched_only (s : State) (i : Nat) : Only [SAF_TRIP.LIVE, SAF_TRIP.LATCHED, SAF_CNT1.TRIP_CNT] s (s.causeLatched i) :=
  (((s.causeLive_only i).weaken (by simp)).putBit i true (by simp)).bump 1 (by simp)

theorem State.causeLatched_live (s : State) (i : Nat) : (s.causeLatched i).get SAF_TRIP.LIVE = (s.causeLive i).get SAF_TRIP.LIVE :=
  (State.get_set_ne _ _ (by decide)).trans (State.get_set_ne _ _ (by decide))

theorem State.causeLatched_latched (s : State) (i : Nat) :
    (s.causeLatched i).get SAF_TRIP.LATCHED = setBit (s.get SAF_TRIP.LATCHED) i true % 2 ^ SAF_TRIP.LATCHED.width := by
  rw [← (s.causeLive_only i).2 SAF_TRIP.LATCHED (by decide)]
  exact (State.get_set_ne _ _ (by decide)).trans (State.get_set_self ..)

theorem State.causeLatched_count (s : State) (i : Nat) : (s.causeLatched i).get SAF_CNT1.TRIP_CNT = min 65535 (s.get SAF_CNT1.TRIP_CNT + 1) := by
  have hother : ((s.causeLive i).putBit SAF_TRIP.LATCHED i true).get SAF_CNT1.TRIP_CNT = s.get SAF_CNT1.TRIP_CNT :=
    (State.get_set_ne _ _ (by decide)).trans ((s.causeLive_only i).2 _ (by decide))
  rw [← hother]
  exact (State.bump_one _ _).2

theorem State.causeLatched_fwc (s : State) (i : Nat) : (s.causeLatched i).fwc = s.fwc := by
  have h := congrArg State.fwc (s.causeLatched_only i).1
  exact h

theorem State.latchTrip_of_live {i : Nat} (h : s.bitOf SAF_TRIP.LIVE i = true) : s.latchTrip i = s := if_pos h

theorem State.trip_of_live {i : Nat} (h : s.bitOf SAF_TRIP.LIVE i = true) : s.trip i = s := if_pos h

/-- TEST apart, latching is the registers and then the event. -/
theorem State.latchTrip_of_dead {i : Nat} (hi : i < 10) (h : s.bitOf SAF_TRIP.LIVE i = false) :
    s.latchTrip i = (((s.causeLatched i).raise 0x0301 [(s.causeLatched i).get SAF_TRIP.LATCHED, s.fwc]).reviewMreq).reviewForcing := by
  have htest : i ≠ trTEST := by unfold trTEST; omega
  have hlive : (if i = trCAD_LS ∨ i = trMREQ ∨ i = trTEST then s else s.putBit SAF_TRIP.LIVE i true) = s.causeLive i := by
    simp [State.causeLive, trCAD_LS, trMREQ, htest]
  unfold State.latchTrip
  rw [if_neg (Bool.eq_false_iff.mp h)]
  dsimp only
  rw [if_neg htest, hlive]
  exact congrArg (fun f => (((s.causeLatched i).raise 0x0301 [(s.causeLatched i).get SAF_TRIP.LATCHED, f]).reviewMreq).reviewForcing)
    (s.causeLatched_fwc i)

theorem State.trip_of_dead {i : Nat} (h : s.bitOf SAF_TRIP.LIVE i = false) (hreq : i ≠ trREQ) :
    s.trip i = ((s.latchTrip i).callRecovery 0x0301 i 2 false (decide (i = trFOREMAN_HB ∨ i = trFOREMAN_LS))).enterHold 0x0301 := by
  unfold State.trip
  rw [if_neg (Bool.eq_false_iff.mp h)]
  dsimp only
  rw [if_neg hreq]

/-! ### The rows -/

/-- With CANARY stopped nothing trips, and OSC has its own rows. -/
theorem exec_canaryTrip_of_none {i : Fin 11} (h : s.on PWR_CLK.CANARY_RUN = false ∨ i.val = trOSC) : exec (.canaryTrip i) s = .next s := by
  refine if_pos ?_
  obtain h | h := h <;> rw [h] <;> simp

section
variable (hrun : s.on PWR_CLK.CANARY_RUN = true)
include hrun

theorem exec_canaryTrip_of_runs {i : Fin 11} (hosc : i.val ≠ trOSC) : exec (.canaryTrip i) s =
    if i.val = trFOREMAN_LS ∨ i.val = trFOREMAN_HB then .next (if s.foremanRuns then (s.trip i.val).holdForeman else s)
    else if i.val = trREQ then .next ((s.assertRequest).enterHold 0x0301) else .next (s.trip i.val) :=
  if_neg (by simp [hrun, hosc])

theorem exec_canaryTrip_of_foreman {i : Fin 11} (h : i.val = trFOREMAN_LS ∨ i.val = trFOREMAN_HB) :
    exec (.canaryTrip i) s = .next (if s.foremanRuns then (s.trip i.val).holdForeman else s) := by
  rw [exec_canaryTrip_of_runs hrun (by unfold trFOREMAN_LS trFOREMAN_HB at h; unfold trOSC; omega), if_pos h]

theorem exec_canaryTrip_of_request : exec (.canaryTrip 9) s = .next ((s.assertRequest).enterHold 0x0301) :=
  exec_canaryTrip_of_runs hrun (i := 9) (by decide)

theorem exec_canaryTrip_of_block {i : Fin 11} (h : i.val ∉ [1, 2, 8, 9]) : exec (.canaryTrip i) s = .next (s.trip i.val) := by
  simp only [List.mem_cons, List.not_mem_nil, or_false, not_or] at h
  obtain ⟨hls, hhb, hosc, hreq⟩ := h
  exact (exec_canaryTrip_of_runs hrun hosc).trans ((if_neg (not_or.mpr ⟨hls, hhb⟩)).trans (if_neg hreq))

theorem exec_dieTempTrip_of_runs : exec .dieTempTrip s = .next (s.trip trTEMP) := congrArg _ (if_pos hrun)

theorem exec_foremanHeartbeatTimeout_of_runs (h : s.foremanRuns = true) :
    exec .foremanHeartbeatTimeout s = .next ((s.trip trFOREMAN_HB).holdForeman) :=
  if_pos (by rw [h, hrun]; rfl)

end

theorem exec_foremanLockstep_of_runs (hsys : s.sysRuns = true) (hreset : s.pwr.sysrst = false) (hboot : s.pwr.boot = 0 ∨ s.pwr.boot = 3) :
    exec .foremanLockstep s = .next ((((s.raise 0x0309 [s.fwc]).assertRequest.trip trFOREMAN_LS).enterHold 0x0309).holdForeman) :=
  if_pos (by rw [hsys, hreset, decide_eq_true hboot]; rfl)

theorem exec_foremanResetRelease_of_held (h : s.pwr.boot = 4) : exec .foremanResetRelease s = .next (s.onPwr fun p => { p with boot := 3 }) :=
  if_pos h

/-- Settles O16: latching is three registers and an event, a trip adds the recovery and HOLD, and each row goes by its cause. -/
theorem canaryCausesTrip : Obligations.CanaryCausesTrip := by
  refine ⟨fun i s hi h => ⟨s.causeLatched i, s.causeLatched_only i, s.causeLatched_latched i, (s.causeLatched_live i).trans (s.causeLive_live i),
      s.causeLatched_count i, State.latchTrip_of_dead hi h⟩,
    fun i s h => ⟨State.latchTrip_of_live h, State.trip_of_live h⟩, fun i s h hreq => State.trip_of_dead h hreq,
    fun i s hrun => exec_canaryTrip_of_block hrun, fun i s hrun h => exec_canaryTrip_of_foreman hrun (by simpa [trFOREMAN_LS, trFOREMAN_HB] using h),
    fun s => exec_canaryTrip_of_request, fun i s => exec_canaryTrip_of_none, fun s => exec_foremanLockstep_of_runs,
    fun s h hrun => exec_foremanHeartbeatTimeout_of_runs hrun h, fun s => exec_foremanResetRelease_of_held,
    fun s => exec_dieTempTrip_of_runs, fun s => ⟨_, rfl, (Only.refl _ s).putBit _ _ (by simp), State.get_set_self ..⟩⟩

end Sys2Proof.Machine
end

section
/-!
PROOF. The oscillator of the canary, its count, and the toggles of MREQ (ch. 14, R461 to R467; ch. 04, R140).
-/
namespace Sys2Proof.Machine

variable {s : State}

/-! ### The oscillator stops and returns (R464, R467) -/

/-- CANARY shown running or stopped, with the live bit of OSC against it. -/
def State.oscShown (s : State) (run : Bool) : State := (s.set PWR_CLK.CANARY_RUN (ofBool run)).putBit SAF_TRIP.LIVE trOSC !run

theorem State.oscShown_only (s : State) (run : Bool) : Only [PWR_CLK.CANARY_RUN, SAF_TRIP.LIVE] s (s.oscShown run) :=
  ((Only.refl _ s).set _ (by simp)).putBit _ _ (by simp)

theorem State.oscShown_run (s : State) (run : Bool) : (s.oscShown run).get PWR_CLK.CANARY_RUN = ofBool run :=
  (State.get_set_ne _ _ (by decide)).trans (State.get_set_of_lt _ (by cases run <;> decide))

theorem State.oscShown_live (s : State) (run : Bool) :
    (s.oscShown run).get SAF_TRIP.LIVE = setBit (s.get SAF_TRIP.LIVE) trOSC (!run) % 2 ^ SAF_TRIP.LIVE.width := by
  rw [← State.get_set_ne s (f := PWR_CLK.CANARY_RUN) (g := SAF_TRIP.LIVE) (ofBool run) (by decide)]
  exact State.get_set_self ..

theorem exec_oscMissingPulse_of_runs (h : s.on PWR_CLK.CANARY_RUN = true) :
    exec .oscMissingPulse s = .next (if s.on (PLL_STATUS.LOCKED 1) then s.oscShown false else (s.oscShown false).endPulses).reviewForcing := by
  have hpll : (s.oscShown false).pllTOn = s.on (PLL_STATUS.LOCKED 1) := by
    unfold State.pllTOn State.on
    rw [(s.oscShown_only false).2 _ (by decide)]
  rw [← hpll]
  exact if_pos h

theorem exec_oscReturn_of_live (h : s.bitOf SAF_TRIP.LIVE trOSC = true) :
    exec .oscReturn s = .next ((((s.oscShown true).trip trOSC).putBit SAF_TRIP.LIVE trOSC false).latchStanding.reviewForcing) := if_pos h

/-- Where no PLL is lost, RAIL alone may have stood. -/
theorem State.latchStanding_of_locked (ht : bit s.saf.pllCause 1 = true → s.on (PLL_STATUS.LOCKED 1) = true)
    (hs : bit s.saf.pllCause 2 = true → s.on (PLL_STATUS.LOCKED 2) = true) :
    s.latchStanding = if s.get PWR_RAIL.GOOD = 511 then s else s.trip trRAIL := by
  have hnone : ∀ {cause locked : Bool}, (cause = true → locked = true) → (cause && !locked) = false := by decide
  simp only [State.latchStanding, List.foldl_cons, List.foldl_nil, hnone ht, hnone hs, Bool.false_eq_true, if_false, decide_eq_true_eq, ne_eq,
    ite_not]

/-! ### The count of CANARY (R466) -/

section
variable {n : Nat} (hrun : s.foremanRuns = true) (href : s.on PWR_CLK.REF_PRESENT = true)
include hrun href

theorem exec_canaryCount_of_near (hlow : 22500000 ≤ n) (hhigh : n ≤ 27500000) :
    exec (.canaryCount n) s = .next (s.onSaf fun f => { f with drift := false }) := by
  refine (if_pos (by rw [hrun, href]; rfl)).trans (if_neg ?_)
  unfold canaryNominal
  omega

theorem exec_canaryCount_of_far (h : n < 22500000 ∨ 27500000 < n) :
    exec (.canaryCount n) s = .next ((((s.onSaf fun f => { f with drift := true }).raise 0x030A
      [unsigned 32 (((n : Int) - 25000000) * 1000000 / 25000000)]).callRecovery 0x030A 0 2 false false).enterHold 0x030A) := by
  refine (if_pos (by rw [hrun, href]; rfl)).trans (if_pos ?_)
  unfold canaryNominal
  omega

end

/-! ### The toggles of MREQ (R140, R461, R462) -/

theorem exec_mreqToggle_of_quiet (h : s.on EXP_MREQ_STATUS.REQUESTING = false) : exec .mreqToggle s = .next s :=
  if_neg (Bool.eq_false_iff.mp h)

section
variable (hreq : s.on EXP_MREQ_STATUS.REQUESTING = true)
include hreq

theorem exec_mreqToggle_of_high {r : Nat} (hhigh : s.cad.mreq = true) (hrise : s.saf.mreqRise = some r) :
    exec .mreqToggle s =
      .next (((s.advance (r + 1000)).onCad fun c => { c with mreq := false }).onSaf fun f => { f with mreqFall := some (r + 1000) }) := by
  refine ((if_pos hreq).trans (if_pos hhigh)).trans ?_
  rw [hrise]
  rfl

/-- The command driven high at `due`. -/
def State.mreqRaised (s : State) (due : Nat) : State :=
  ((s.advance due).onCad fun c => { c with mreq := true }).onSaf fun f => { f with mreqRise := some due }

/-- The canary checks the rising edge: its distance to the last one, and that the unit holds tally 1. -/
theorem exec_mreqToggle_of_low {r f : Nat} (hlow : s.cad.mreq = false) (hrise : s.saf.mreqRise = some r) (hfall : s.saf.mreqFall = some f) :
    exec .mreqToggle s = .next (if (decide (f + 1000 < r + 1800 ∨ r + 2200 < f + 1000) || !s.isPithead) && s.on PWR_CLK.CANARY_RUN
      then (s.mreqRaised (f + 1000)).trip trMREQ else s.mreqRaised (f + 1000)) := by
  have hnear : f + 1000 ≤ f + 2200 := by omega
  refine ((if_pos hreq).trans (if_neg (Bool.eq_false_iff.mp hlow))).trans ?_
  rw [hrise, hfall]
  exact congrArg (fun b => Host.Outcome.next (if (b || !s.isPithead) && s.on PWR_CLK.CANARY_RUN
    then (s.mreqRaised (f + 1000)).trip trMREQ else s.mreqRaised (f + 1000))) (decide_eq_decide.mpr (and_iff_right hnear))

end

/-- Settles O17: the oscillator's two bits, the band of the count, and the check of a rising edge. -/
theorem oscillatorAndMreqAreChecked : Obligations.OscillatorAndMreqAreChecked := by
  refine ⟨fun s h => ⟨s.oscShown false, s.oscShown_only _, s.oscShown_run _, s.oscShown_live _, exec_oscMissingPulse_of_runs h⟩,
    fun s h => ⟨s.oscShown true, s.oscShown_only _, s.oscShown_run _, ?osc, exec_oscReturn_of_live h⟩, fun s => State.latchStanding_of_locked,
    fun n s => exec_canaryCount_of_near, fun n s => exec_canaryCount_of_far, fun r s hreq hhigh => exec_mreqToggle_of_high hreq hhigh,
    fun r f s hreq hlow hrise hfall => ⟨_, rfl, fun hmin hmax htally => ?apart, fun hstop => ?stopped, fun hrun hbad => ?trips⟩,
    fun s => exec_mreqToggle_of_quiet⟩
  case osc => exact (State.bitOf_putBit _ _ _ _ (by decide)).trans (if_pos rfl)
  case apart =>
    rw [exec_mreqToggle_of_low hreq hlow hrise hfall, State.isPithead_of_eq htally, decide_eq_false (by omega)]
    rfl
  case stopped =>
    rw [exec_mreqToggle_of_low hreq hlow hrise hfall, hstop, Bool.and_false]
    rfl
  case trips =>
    have hcaught : (decide (f + 1000 < r + 1800 ∨ r + 2200 < f + 1000) || !s.isPithead) = true := by
      rw [Bool.or_eq_true, decide_eq_true_eq, Bool.not_eq_true', or_assoc]
      exact hbad.imp id (Or.imp id State.isPithead_of_ne)
    rw [exec_mreqToggle_of_low hreq hlow hrise hfall, hcaught, hrun]
    rfl

end Sys2Proof.Machine
end

section
/-!
PROOF. The end of recoveries (ch. 14, R471, R478 to R480): trips cleared, the limits of the levels, the release of an L2, the restart of the chain.
-/
namespace Sys2Proof.Machine

variable {s : State}

/-! ### Latched trips cleared (R471) -/

/-- The latched bits of the causes listed go where `c` says so. -/
def State.clearTrips (s : State) (c : Nat → Bool) (is : List Nat) : State :=
  is.foldl (fun t i => if c i then t.putBit SAF_TRIP.LATCHED i false else t) s

theorem State.clearTrips_cons (s : State) (c : Nat → Bool) (i : Nat) (is : List Nat) :
    s.clearTrips c (i :: is) = (if c i then s.putBit SAF_TRIP.LATCHED i false else s).clearTrips c is := rfl

theorem State.clearTrips_only (c : Nat → Bool) (is : List Nat) (s : State) : Only [SAF_TRIP.LATCHED] s (s.clearTrips c is) := by
  induction is generalizing s with
  | nil => exact .refl _ s
  | cons i is ih =>
    rw [State.clearTrips_cons]
    split
    · exact ((Only.refl _ s).putBit i false (by simp)).trans (ih _)
    · exact ih s

theorem State.clearTrips_bitOf (c : Nat → Bool) {j : Nat} (hj : j < 11) (is : List Nat) (s : State) :
    (s.clearTrips c is).bitOf SAF_TRIP.LATCHED j = (s.bitOf SAF_TRIP.LATCHED j && !(is.contains j && c j)) := by
  induction is generalizing s with
  | nil => simp [State.clearTrips]
  | cons i is ih =>
    rw [State.clearTrips_cons, ih]
    cases hc : c i with
    | false =>
      rw [if_neg Bool.false_ne_true]
      by_cases hij : j = i <;> simp [hij, hc]
    | true =>
      rw [if_pos rfl, State.bitOf_putBit _ _ _ _ hj]
      by_cases hij : j = i <;> simp [hij, hc]

/-- Every latched trip whose live bit is 0 cleared, as the foreman does. -/
def State.deadTripsCleared (s : State) : State := s.clearTrips (fun i => !s.bitOf SAF_TRIP.LIVE i) (List.range 11)

theorem State.deadTripsCleared_only (s : State) : Only [SAF_TRIP.LATCHED] s s.deadTripsCleared := s.clearTrips_only ..

theorem State.deadTripsCleared_bitOf (s : State) {i : Nat} (hi : i < 11) :
    s.deadTripsCleared.bitOf SAF_TRIP.LATCHED i = (s.bitOf SAF_TRIP.LATCHED i && s.bitOf SAF_TRIP.LIVE i) := by
  rw [State.deadTripsCleared, State.clearTrips_bitOf _ hi, List.contains_iff_mem.mpr (List.mem_range.mpr hi), Bool.true_and, Bool.not_not]

/-- Clearing latched bits on the way leaves the live bits that it goes by. -/
theorem State.foldl_deadTrips (is : List Nat) {t : State} (h : t.get SAF_TRIP.LIVE = s.get SAF_TRIP.LIVE) :
    is.foldl (fun t i => if t.bitOf SAF_TRIP.LIVE i then t else t.putBit SAF_TRIP.LATCHED i false) t =
      t.clearTrips (fun i => !s.bitOf SAF_TRIP.LIVE i) is := by
  induction is generalizing t with
  | nil => rfl
  | cons i is ih =>
    have hbit : t.bitOf SAF_TRIP.LIVE i = s.bitOf SAF_TRIP.LIVE i := congrArg (bit · i) h
    rw [List.foldl_cons, State.clearTrips_cons, hbit]
    cases s.bitOf SAF_TRIP.LIVE i with
    | true => exact ih h
    | false => exact ih ((State.get_set_ne _ _ (by decide)).trans h)

theorem State.effTrip_of_may {p : Path} (h : s.mayWrite p SAF_TRIP.LATCHED = true) (w : Nat) :
    s.effTrip p w = (s.clearTrips (fun i => bit w i && !s.bitOf SAF_TRIP.LIVE i) (List.range 11)).noteR44.reviewForcing := by
  unfold State.effTrip State.clearTrips State.bitOf
  rw [if_pos h]

theorem exec_safTripClear_of_takes {p : Path} {w : Word} (ht : s.takes p 0x03008 w.toNat = true)
    (hmay : (s.booked p 0x03008 w.toNat).mayWrite p SAF_TRIP.LATCHED = true) :
    exec (.safTripClear p w) s = .next ((s.booked p 0x03008 w.toNat).clearTrips
      (fun i => bit w.toNat i && !(s.booked p 0x03008 w.toNat).bitOf SAF_TRIP.LIVE i) (List.range 11)).noteR44.reviewForcing := by
  have hexec : exec (.safTripClear p w) s = .next (s.regWrite p 0x03008 w.toNat fun t => t.effTrip p w.toNat) := rfl
  rw [hexec, State.regWrite_takes ht, State.effTrip_of_may hmay]

/-! ### SAF_CMD (R471, R480) -/

theorem State.effSafCmd_test {p : Path} (hmay : s.mayWrite p SAF_CMD.TEST_TRIP = true) (hrun : s.on PWR_CLK.CANARY_RUN = true) :
    s.effSafCmd p 2 = s.trip trTEST := by
  have htest : SAF_CMD.TEST_TRIP.of 2 = 1 := by decide
  have hrestart : SAF_CMD.CHAIN_RESTART.of 2 = 0 := by decide
  simp only [State.effSafCmd, htest, hrestart, hmay, hrun, decide_true, Bool.and_self, if_true, Nat.zero_ne_one, decide_false, Bool.false_and,
    Bool.false_eq_true, if_false]

theorem State.effSafCmd_restart {p : Path} (hmay : s.mayWrite p SAF_CMD.CHAIN_RESTART = true) : s.effSafCmd p 1 = s.chainRestart := by
  have htest : SAF_CMD.TEST_TRIP.of 1 = 0 := by decide
  have hrestart : SAF_CMD.CHAIN_RESTART.of 1 = 1 := by decide
  simp only [State.effSafCmd, htest, hrestart, hmay, decide_true, Bool.and_self, if_true, Nat.zero_ne_one, decide_false, Bool.false_and,
    Bool.false_eq_true, if_false]

theorem exec_testTrip_of_takes {p : Path} (ht : s.takes p 0x03014 2 = true) (hmay : (s.booked p 0x03014 2).mayWrite p SAF_CMD.TEST_TRIP = true)
    (hrun : (s.booked p 0x03014 2).on PWR_CLK.CANARY_RUN = true) : exec (.testTrip p) s = .next ((s.booked p 0x03014 2).trip trTEST) :=
  congrArg _ ((State.regWrite_takes ht _).trans (State.effSafCmd_test hmay hrun))

theorem exec_chainRestart_of_takes {p : Path} (ht : s.takes p 0x03014 1 = true)
    (hmay : (s.booked p 0x03014 1).mayWrite p SAF_CMD.CHAIN_RESTART = true) :
    exec (.chainRestart p) s = .next (s.booked p 0x03014 1).chainRestart :=
  congrArg _ ((State.regWrite_takes ht _).trans (State.effSafCmd_restart hmay))

/-- The pithead on its way to READY, the reports of the crew awaited. -/
def State.restarting (s : State) : State :=
  (if s.releaseRequest.power = stHOLD then s.releaseRequest.endHold stREADY
    else if s.releaseRequest.power = stIDLE then s.releaseRequest.intoReady else s.releaseRequest)

theorem State.chainRestart_of_refused (h : s.get CHN_STATE.TALLY ≠ 1 ∨ s.get SAF_STATUS.LEVEL ≠ 3 ∨ s.saf.restart.isSome = true ∨
    s.holdCause stREADY = true) : s.chainRestart = s := by
  refine if_neg fun hall => ?_
  simp only [Bool.and_eq_true, State.isPithead, State.tally, decide_eq_true_eq, Bool.not_eq_true'] at hall
  obtain ⟨⟨⟨htally, hlevel⟩, hrestart⟩, hcause⟩ := hall
  obtain h | h | h | h := h
  · exact h (of_decide_eq_true htally)
  · exact h hlevel
  · simp [Option.isNone_iff_eq_none.mp hrestart] at h
  · simp [hcause] at h

theorem State.chainRestart_of_taken (htally : s.get CHN_STATE.TALLY = 1) (hlevel : s.get SAF_STATUS.LEVEL = 3) (hrestart : s.saf.restart = none)
    (hcause : s.holdCause stREADY = false) :
    ∃ u : State, u = s.restarting.onSaf (fun f => { f with restart := some s.restarting.fwc, readyUnits := 0 }) ∧
      s.chainRestart = if u.notReady.isEmpty then u.endL3 else u :=
  ⟨_, rfl, if_pos (by rw [State.isPithead_of_eq htally, decide_eq_true hlevel, hrestart, hcause]; rfl)⟩

/-! ### The limits of the levels (R478, R480) -/

theorem exec_recoveryTimeout_of_none (h : s.get SAF_STATUS.LEVEL = 0) : exec .recoveryTimeout s = .next s := by
  show execRecoveryTimeout s = _
  simp [execRecoveryTimeout, h]

/-- The event of an L1 that has lasted 2 ms. -/
def State.firstLate (s : State) : State := (s.advance (s.saf.since + 4000000)).raise 0x0307 [1, s.tally]

/-- The L1 of a port ends where it is late. -/
def State.portGivenUp (s : State) : State := (s.firstLate.set SAF_STATUS.LEVEL 0).onSaf fun f => { f with l1 := none, covered := [] }

theorem State.portGivenUp_only (s : State) :
    Only [SAF_STATUS.LEVEL] (s.firstLate.onSaf fun f => { f with l1 := none, covered := [] }) s.portGivenUp :=
  (Only.refl _ (s.firstLate.onSaf fun f => { f with l1 := none, covered := [] })).set (f := SAF_STATUS.LEVEL) 0 (by simp)

theorem State.portGivenUp_level (s : State) : s.portGivenUp.get SAF_STATUS.LEVEL = 0 := State.get_set_self s.firstLate SAF_STATUS.LEVEL 0

theorem exec_recoveryTimeout_of_first {code arg : Nat} (hlevel : s.get SAF_STATUS.LEVEL = 1) (hl1 : s.saf.l1 = some (code, arg)) :
    exec .recoveryTimeout s = if isPortAction code then .next s.portGivenUp
      else .next (s.firstLate.escalate 0x0307 (if isGapAction code then [] else [(code, arg)])) := by
  refine (if_pos hlevel).trans ?_
  rw [hl1]
  rfl

theorem isPortAction_iff (code : Nat) : isPortAction code = true ↔ code ∈ [0x0C02, 0x0C03, 0x0C05] := by
  simp only [isPortAction, decide_eq_true_eq, List.mem_cons, List.not_mem_nil, or_false]
  omega

theorem exec_recoveryTimeout_of_second (hlevel : s.get SAF_STATUS.LEVEL = 2) (hfirst : s.saf.timedOut = false) :
    exec .recoveryTimeout s =
      .next (((s.advance (s.saf.since + 500000000)).onSaf fun f => { f with timedOut := true }).raise 0x0307 [2, s.tally]) :=
  (if_neg (by omega)).trans (if_pos ⟨hlevel, hfirst⟩)

theorem exec_recoveryTimeout_of_third {f : Nat} (hlevel : s.get SAF_STATUS.LEVEL = 3) (hrestart : s.saf.restart = some f) :
    exec .recoveryTimeout s = .next (((s.advance (f + 4000000000)).notReady.foldl (fun t k => (t.sendRecover k 0).raise 0x0307 [3, k])
      (s.advance (f + 4000000000))).endL3) := by
  refine ((if_neg (by omega)).trans ((if_neg fun h => by omega).trans (if_pos hlevel))).trans ?_
  rw [hrestart]
  rfl

/-! ### A deferral that expires (R478) -/

/-- The deferral noted at `f` given up when its time is over. -/
def State.deferralOver (s : State) (f : Nat) : State :=
  ((s.advance (f + s.get SAF_L1_DEFER.MS * 2000000)).set SAF_STATUS.DEFERRED 0).onSaf fun x => { x with deferred := none }

theorem State.deferralOver_only (s : State) (f : Nat) : Only [SAF_STATUS.DEFERRED]
    ((s.advance (f + s.get SAF_L1_DEFER.MS * 2000000)).onSaf fun x => { x with deferred := none }) (s.deferralOver f) :=
  (Only.refl _ ((s.advance (f + s.get SAF_L1_DEFER.MS * 2000000)).onSaf fun x => { x with deferred := none })).set (f := SAF_STATUS.DEFERRED) 0
    (by simp)

theorem State.deferralOver_deferred (s : State) (f : Nat) : (s.deferralOver f).get SAF_STATUS.DEFERRED = 0 :=
  State.get_set_self (s.advance (f + s.get SAF_L1_DEFER.MS * 2000000)) SAF_STATUS.DEFERRED 0

theorem exec_l1DeferExpired_of_none (h : s.saf.deferred = none) : exec .l1DeferExpired s = .next s := by
  show execL1DeferExpired s = _
  rw [execL1DeferExpired, h]

theorem exec_l1DeferExpired_of_deferred {code a f : Nat} (h : s.saf.deferred = some (code, a, f)) :
    exec .l1DeferExpired s = .next (((s.deferralOver f).raise 0x0308 [code]).callRecovery 0x0308 0 2 false false) := by
  show execL1DeferExpired s = _
  rw [execL1DeferExpired, h]
  rfl

/-! ### The release of an L2 (R479) -/

theorem exec_l2Release_of_stays (h : s.power ≠ stHOLD ∨ s.get SAF_STATUS.LEVEL ≠ 2 ∨ s.on SAF_CTRL.L2_RELEASE = false) :
    exec .l2Release s = .next s := by
  refine congrArg _ (if_neg fun ⟨hpower, hlevel, hask, _⟩ => ?_)
  obtain h | h | h := h
  · exact h hpower
  · exact h hlevel
  · simp [hask] at h

theorem exec_l2Release_of_clear (hpower : s.power = stHOLD) (hlevel : s.get SAF_STATUS.LEVEL = 2) (hask : s.on SAF_CTRL.L2_RELEASE = true)
    (hacting : s.saf.acting = false) (hup : s.pagesUp = true) (hboot : s.pwr.boot = 0) (hclear : s.l2Clear s.entryTarget = true) :
    ∃ t : State, t = s.deadTripsCleared.noteR44.command true s.entryTarget ∧
      exec .l2Release s =
        .next (if t.power = stHOLD then t else if s.saf.entryState = stCAPTURE then t.command true stCAPTURE else t.endRecovery) := by
  refine ⟨_, rfl, congrArg _ ((if_pos ⟨hpower, hlevel, hask, hacting, hup, hboot, hclear⟩).trans ?_)⟩
  rw [State.foldl_deadTrips (s := s) _ rfl]
  rfl

/-- Settles O20: each recovery's end by its level, and the trips cleared on the way to it. -/
theorem recoveriesEnd : Obligations.RecoveriesEnd := by
  refine ⟨fun p w s ht hmay => ⟨_, exec_safTripClear_of_takes ht hmay, State.clearTrips_only .., fun i hi => ?cleared⟩,
    fun p s ht hmay _ => exec_testTrip_of_takes ht hmay,
    fun p s ht hmay => ⟨_, rfl, fun h => ?refused, fun htally hlevel hrestart hcause => ?taken⟩,
    fun s => exec_recoveryTimeout_of_none, fun code arg s hlevel hl1 => ⟨s.firstLate, rfl, fun hport => ⟨s.portGivenUp, ?port,
      s.portGivenUp_level, s.portGivenUp_only⟩, fun hother => ?other⟩,
    fun s => exec_recoveryTimeout_of_second, fun f s hlevel hrestart => ⟨_, rfl, exec_recoveryTimeout_of_third hlevel hrestart⟩,
    fun code a f s h => ⟨s.deferralOver f, s.deferralOver_only f, s.deferralOver_deferred f, exec_l1DeferExpired_of_deferred h⟩,
    fun s => exec_l1DeferExpired_of_none, fun s hpower hlevel hask hacting hup hboot hclear => ?release, fun s => exec_l2Release_of_stays⟩
  case cleared => rw [State.clearTrips_bitOf _ hi, List.contains_iff_mem.mpr (List.mem_range.mpr hi), Bool.true_and]
  case refused => rw [exec_chainRestart_of_takes ht hmay, State.chainRestart_of_refused h]
  case taken =>
    obtain ⟨u, hu, hend⟩ := State.chainRestart_of_taken htally hlevel hrestart hcause
    exact ⟨_, _, u, rfl, rfl, hu, by rw [exec_chainRestart_of_takes ht hmay, hend]⟩
  case port => rw [exec_recoveryTimeout_of_first hlevel hl1, if_pos ((isPortAction_iff code).mpr hport)]
  case other =>
    rw [exec_recoveryTimeout_of_first hlevel hl1, if_neg fun h => hother ((isPortAction_iff code).mp h)]
    simp only [isGapAction, decide_eq_true_eq]
  case release =>
    obtain ⟨t, ht, hend⟩ := exec_l2Release_of_clear hpower hlevel hask hacting hup hboot hclear
    exact ⟨s.deadTripsCleared, t, s.deadTripsCleared_only, fun i hi => s.deadTripsCleared_bitOf hi, ht, hend⟩

end Sys2Proof.Machine
end

section
/-!
PROOF. SYSRST_N asserted and released (ch. 15, R485).
-/
namespace Sys2Proof.Machine

variable {s : State}

theorem State.above_of_lt (h : stSTANDBY < s.power) : s.above = true := decide_eq_true h

theorem State.above_of_standby (h : s.power = stSTANDBY) : s.above = false := decide_eq_false (by omega)

/-! ### The chain state (R314, R341) -/

theorem State.goSolo_only (s : State) : Only [CHN_STATE.STATE] { s with chn := s.goSolo.chn } s.goSolo :=
  (Only.refl _ { s with chn := s.goSolo.chn }).set (f := CHN_STATE.STATE) chSOLO (by simp)

theorem State.goSolo_state (s : State) : s.goSolo.get CHN_STATE.STATE = chSOLO := State.get_set_self s CHN_STATE.STATE chSOLO

/-- The blocks stopped, up to the chain state. -/
def State.blocksStopped (s : State) : State :=
  ((((((s.sysrstSessions).resetHost).haltCadence).discardArray.endLoops).stopStaged).endFrames).abortBist

theorem State.sysrstBlocks_eq (s : State) : ∃ n f : Nat, s.sysrstBlocks =
    ((s.blocksStopped.goSolo.set PWR_STATUS.PENDING n).set PWR_STATUS.BUSY 1).onHst fun h => { h with flrAt := some f } := by
  unfold State.sysrstBlocks State.blocksStopped
  exact ⟨_, _, rfl⟩

theorem State.sysrstBlocks_busy (s : State) : s.sysrstBlocks.get PWR_STATUS.BUSY = 1 := by
  obtain ⟨n, f, h⟩ := s.sysrstBlocks_eq
  rw [h, State.onHst_get, State.get_set_self]
  rfl

theorem State.sysrstBlocks_chn (s : State) : s.sysrstBlocks.chn = s.blocksStopped.goSolo.chn := by
  obtain ⟨n, f, h⟩ := s.sysrstBlocks_eq
  rw [h, State.onHst_chn, State.set_chn, State.set_chn]

/-! ### The land asserted -/

/-- The land asserted, and the lamp check ended. -/
def State.sysrstNoted (s : State) : State := s.onPwr fun p => { p with sysrst := true, lampItem := none }

/-- Start-up goes back to E4 at most, with the boot to come. -/
def State.startupBack (s : State) : State :=
  s.sysrstNoted.onPwr fun p => { p with startup := min 4 p.startup, boot := if 3 ≤ p.startup then 1 else p.boot }

theorem exec_sysrstNAssert_of_asserted (h : s.pwr.sysrst = true) : exec .sysrstNAssert s = .next s := if_pos h

section
variable (h : s.pwr.sysrst = false)
include h

theorem exec_sysrstNAssert_of_released : exec .sysrstNAssert s =
    if s.pwr.startup ≠ 0 then .next s.startupBack.reviewForcing else if s.above then .next s.sysrstNoted.sysrstBlocks.reviewForcing
    else .next s.sysrstNoted := if_neg (Bool.eq_false_iff.mp h)

theorem exec_sysrstNAssert_of_startup (hstart : s.pwr.startup ≠ 0) : exec .sysrstNAssert s = .next s.startupBack.reviewForcing := by
  rw [exec_sysrstNAssert_of_released h, if_pos hstart]

theorem exec_sysrstNAssert_of_above (hstart : s.pwr.startup = 0) (habove : stSTANDBY < s.power) :
    exec .sysrstNAssert s = .next s.sysrstNoted.sysrstBlocks.reviewForcing := by
  rw [exec_sysrstNAssert_of_released h, if_neg (not_not.mpr hstart), if_pos (State.above_of_lt habove)]

theorem exec_sysrstNAssert_of_standby (hstart : s.pwr.startup = 0) (hstandby : s.power = stSTANDBY) :
    exec .sysrstNAssert s = .next s.sysrstNoted := by
  rw [exec_sysrstNAssert_of_released h, if_neg (not_not.mpr hstart), State.above_of_standby hstandby, if_neg Bool.false_ne_true]

end

/-! ### The land released -/

theorem exec_sysrstNRelease_of_released (h : s.pwr.sysrst = false) : exec .sysrstNRelease s = .next s := if_neg (Bool.eq_false_iff.mp h)

theorem exec_sysrstNRelease_of_above (h : s.pwr.sysrst = true) (hstart : s.pwr.startup = 0) (habove : stSTANDBY < s.power) :
    exec .sysrstNRelease s = .next (s.onPwr fun p => { p with sysrst := false, boot := 2 }).reviewForcing :=
  (if_pos h).trans (if_pos (by rw [decide_eq_true hstart, State.above_of_lt habove]; rfl))

theorem exec_sysrstNRelease_of_standby (h : s.pwr.sysrst = true) (hstandby : s.power = stSTANDBY) :
    exec .sysrstNRelease s = .next (s.onPwr fun p => { p with sysrst := false }).reviewForcing :=
  (if_pos h).trans (if_neg (by rw [State.above_of_standby hstandby, Bool.and_false]; exact Bool.false_ne_true))

/-- Settles O15: each land's row by start-up and power state. -/
theorem sysrstStopsAndRebootsTheUnit : Obligations.SysrstStopsAndRebootsTheUnit := by
  refine ⟨fun s => exec_sysrstNAssert_of_asserted, fun s => exec_sysrstNAssert_of_standby,
    fun s h hstart => ⟨s.startupBack, exec_sysrstNAssert_of_startup h hstart, rfl, rfl, rfl, rfl⟩,
    fun s h hstart habove => ⟨_, exec_sysrstNAssert_of_above h hstart habove, rfl, State.sysrstBlocks_busy _, ?roll, ?claim⟩,
    fun s => ⟨s.goSolo_only, s.goSolo_state, rfl⟩, fun s h hstart habove => ⟨_, exec_sysrstNRelease_of_above h hstart habove, rfl⟩,
    fun s h hstandby _ => exec_sysrstNRelease_of_standby h hstandby, fun s => exec_sysrstNRelease_of_released⟩
  case roll => rw [State.sysrstBlocks_chn]; rfl
  case claim => rw [State.sysrstBlocks_chn]; rfl

end Sys2Proof.Machine
end

section
/-!
PROOF. Transfers of the I²C target (ch. 17, R524 to R530, R535).
-/
namespace Sys2Proof.Machine

variable {s : State}

/-! ### The end and the start of a transfer (R524, R527) -/

/-- The record of the target with no transfer going on. -/
def I2c.ended (x : I2c) : I2c := { x with partialBytes := [], reading := false, hold := 0 }

theorem State.i2cEnd_eq (s : State) : s.i2cEnd = ({ s with i2c := s.i2c.ended } : State).set I2C_STATUS.BUSY 0 ∧ s.i2c.partialBytes = [] ∨
    s.i2cEnd = (({ s with i2c := s.i2c.ended } : State).bump I2C_ERRCNT1.PARTIAL 1).set I2C_STATUS.BUSY 0 ∧ s.i2c.partialBytes ≠ [] := by
  unfold State.i2cEnd
  cases h : s.i2c.partialBytes with
  | nil => exact .inl ⟨rfl, rfl⟩
  | cons x xs => exact .inr ⟨rfl, List.cons_ne_nil x xs⟩

theorem State.i2cEnd_only (s : State) : Only [I2C_ERRCNT1.PARTIAL, I2C_STATUS.BUSY] { s with i2c := s.i2c.ended } s.i2cEnd := by
  obtain ⟨h, -⟩ | ⟨h, -⟩ := s.i2cEnd_eq <;> rw [h]
  · exact (Only.refl _ _).set 0 (by simp)
  · exact ((Only.refl _ _).bump 1 (by simp)).set 0 (by simp)

theorem State.i2cEnd_busy (s : State) : s.i2cEnd.get I2C_STATUS.BUSY = 0 := by
  obtain ⟨h, -⟩ | ⟨h, -⟩ := s.i2cEnd_eq <;> rw [h] <;> exact State.get_set_self ..

theorem State.i2cEnd_partial (s : State) : s.i2cEnd.get I2C_ERRCNT1.PARTIAL =
    if s.i2c.partialBytes = [] then s.get I2C_ERRCNT1.PARTIAL else min 65535 (s.get I2C_ERRCNT1.PARTIAL + 1) := by
  obtain ⟨h, hnone⟩ | ⟨h, hsome⟩ := s.i2cEnd_eq <;> rw [h, State.get_set_ne _ _ (by decide)]
  · rw [if_pos hnone]
    rfl
  · rw [if_neg hsome]
    exact (State.bump_one _ _).2

theorem State.i2cEnd_get (s : State) {f : Field} (hf : f.key ∉ [I2C_ERRCNT1.PARTIAL, I2C_STATUS.BUSY].map Field.key) : s.i2cEnd.get f = s.get f :=
  s.i2cEnd_only.2 f hf

theorem State.i2cEnd_fwc (s : State) : s.i2cEnd.fwc = s.fwc := by
  have h := congrArg State.fwc s.i2cEnd_only.1
  exact h

/-- The target as a start condition leaves it, its last byte acknowledged or not. -/
def State.i2cTaken (s : State) (nack : Bool) : State :=
  { s.i2cEnd with i2c := { s.i2cEnd.i2c with nack := nack, filt := s.get I2C_CFG.FILT } }

theorem State.i2cBegin_eq (s : State) : s.i2cBegin = (s.i2cTaken false).set I2C_STATUS.BUSY 1 := rfl

theorem State.i2cTaken_onI2c (s : State) (n m : Bool) : (s.i2cTaken n).onI2c (fun x => { x with nack := m }) = s.i2cTaken m := rfl

theorem State.set_onI2c (s : State) (g : I2c → I2c) (f : Field) (v : Nat) : (s.onI2c g).set f v = (s.set f v).onI2c g := rfl

theorem State.bump_onI2c (s : State) (g : I2c → I2c) (f : Field) (n : Nat) : (s.onI2c g).bump f n = (s.bump f n).onI2c g := rfl

/-! ### The access commands (R525 to R528) -/

theorem execI2c_of_noVaon (h : s.pwr.vaon = false) (k f : Bool) (ptr page win : Byte) (data : List Byte) :
    exec (.accessInc k ptr data) s = .next s ∧ exec (.accessFixed k ptr data) s = .next s ∧ exec (.select k page win f) s = .next s ∧
      exec .i2cWordRead s = .next s := by
  have hno : (!s.pwr.vaon) = true := by rw [h]; rfl
  exact ⟨if_pos hno, if_pos hno, if_pos hno, if_pos hno⟩

theorem State.not_noVaon (h : s.pwr.vaon = true) : ¬ (!s.pwr.vaon) = true := by simp [h]

/-- The target after a command byte that the table does not list. -/
theorem State.i2cBad_eq (s : State) : s.i2cBad = ((s.i2cTaken true).set I2C_STATUS.BUSY 1).bump I2C_ERRCNT1.BADCMD 1 := by
  rw [← s.i2cTaken_onI2c false, State.set_onI2c, State.bump_onI2c, ← s.i2cBegin_eq]
  rfl

theorem execI2c_of_unknown (h : s.pwr.vaon = true) (f : Bool) (ptr page win : Byte) (data : List Byte) :
    exec (.accessInc false ptr data) s = .next s.i2cBad ∧ exec (.accessFixed false ptr data) s = .next s.i2cBad ∧
      exec (.select false page win f) s = .next s.i2cBad := by
  have hvaon := State.not_noVaon h
  exact ⟨if_neg hvaon, if_neg hvaon, if_neg hvaon⟩

theorem State.i2cBad_only (s : State) : Only [I2C_STATUS.BUSY, I2C_ERRCNT1.BADCMD] (s.i2cTaken true) s.i2cBad := by
  rw [State.i2cBad_eq]
  exact ((Only.refl _ (s.i2cTaken true)).set (f := I2C_STATUS.BUSY) 1 (by simp)).bump (f := I2C_ERRCNT1.BADCMD) 1 (by simp)

theorem State.i2cBad_busy (s : State) : s.i2cBad.get I2C_STATUS.BUSY = 1 := by
  rw [State.i2cBad_eq, State.bump_eq, State.get_set_ne _ _ (by decide), State.get_set_self]
  rfl

theorem State.i2cBad_count (s : State) : s.i2cBad.get I2C_ERRCNT1.BADCMD = min 255 (s.get I2C_ERRCNT1.BADCMD + 1) := by
  have hold : ((s.i2cTaken true).set I2C_STATUS.BUSY 1).get I2C_ERRCNT1.BADCMD = s.get I2C_ERRCNT1.BADCMD :=
    (State.get_set_ne _ _ (by decide)).trans (s.i2cEnd_get (by decide))
  rw [State.i2cBad_eq, ← hold]
  exact (State.bump_one _ _).2

/-- FIXED and PTR as an ACCESS command sets them. -/
def State.i2cPointed (s : State) (fixed : Bool) (ptr : Byte) : State :=
  (((s.i2cTaken false).set I2C_STATUS.BUSY 1).put I2C_SEL.FIXED fixed).set I2C_SEL.PTR ptr.toNat

theorem execI2c_of_access (h : s.pwr.vaon = true) (ptr : Byte) (data : List Byte) :
    exec (.accessInc true ptr data) s = .next (i2cData (data.map BitVec.toNat) (s.i2cPointed false ptr)) ∧
      exec (.accessFixed true ptr data) s = .next (i2cData (data.map BitVec.toNat) (s.i2cPointed true ptr)) := by
  have hvaon := State.not_noVaon h
  exact ⟨if_neg hvaon, if_neg hvaon⟩

theorem State.i2cPointed_only (s : State) (fixed : Bool) (ptr : Byte) :
    Only [I2C_STATUS.BUSY, I2C_SEL.FIXED, I2C_SEL.PTR] (s.i2cTaken false) (s.i2cPointed fixed ptr) :=
  (((Only.refl _ _).set 1 (by simp)).put fixed (by simp)).set _ (by simp)

theorem State.i2cPointed_get (s : State) (fixed : Bool) (ptr : Byte) : (s.i2cPointed fixed ptr).get I2C_STATUS.BUSY = 1 ∧
    (s.i2cPointed fixed ptr).get I2C_SEL.FIXED = ofBool fixed ∧ (s.i2cPointed fixed ptr).get I2C_SEL.PTR = ptr.toNat := by
  refine ⟨?_, ?_, State.get_set_of_lt _ ptr.isLt⟩
  · rw [State.i2cPointed, State.get_set_ne _ _ (by decide), State.put_eq, State.get_set_ne _ _ (by decide), State.get_set_self]
    rfl
  · rw [State.i2cPointed, State.get_set_ne _ _ (by decide)]
    exact State.get_set_of_lt _ (by cases fixed <;> decide)

/-- PAGE, WIN and PTR as SELECT sets them. -/
def State.i2cSelected (s : State) (page win : Byte) (further : Bool) : State :=
  ((((s.i2cTaken further).set I2C_STATUS.BUSY 1).set I2C_SEL.PAGE page.toNat).set I2C_SEL.WIN (win.toNat % 4)).set I2C_SEL.PTR 0

theorem exec_select_of_known (h : s.pwr.vaon = true) (page win : Byte) (further : Bool) :
    exec (.select true page win further) s = .next (s.i2cSelected page win further) := by
  unfold State.i2cSelected
  rw [← s.i2cTaken_onI2c false further, State.set_onI2c, State.set_onI2c, State.set_onI2c, State.set_onI2c, ← s.i2cBegin_eq]
  exact if_neg (State.not_noVaon h)

theorem State.i2cSelected_only (s : State) (page win : Byte) (further : Bool) :
    Only [I2C_STATUS.BUSY, I2C_SEL.PAGE, I2C_SEL.WIN, I2C_SEL.PTR] (s.i2cTaken further) (s.i2cSelected page win further) :=
  ((((Only.refl _ _).set 1 (by simp)).set _ (by simp)).set _ (by simp)).set _ (by simp)

theorem State.i2cSelected_get (s : State) (page win : Byte) (further : Bool) : (s.i2cSelected page win further).get I2C_STATUS.BUSY = 1 ∧
    (s.i2cSelected page win further).get I2C_SEL.PAGE = page.toNat ∧ (s.i2cSelected page win further).get I2C_SEL.WIN = win.toNat % 4 ∧
      (s.i2cSelected page win further).get I2C_SEL.PTR = 0 := by
  refine ⟨?_, ?_, ?_, State.get_set_self ..⟩
  · rw [State.i2cSelected, State.get_set_ne _ _ (by decide), State.get_set_ne _ _ (by decide), State.get_set_ne _ _ (by decide), State.get_set_self]
    rfl
  · rw [State.i2cSelected, State.get_set_ne _ _ (by decide), State.get_set_ne _ _ (by decide)]
    exact State.get_set_of_lt _ page.isLt
  · rw [State.i2cSelected, State.get_set_ne _ _ (by decide)]
    exact State.get_set_of_lt _ (Nat.mod_lt _ (by decide))

/-! ### Data bytes, the pointer and the hold (R527, R528, R530) -/

theorem i2cData_of_part {b : Nat} {bs : List Nat} (h : s.i2c.partialBytes.length < 3) :
    i2cData (b :: bs) s = i2cData bs (s.onI2c fun x => { x with partialBytes := s.i2c.partialBytes ++ [b] }) := by
  have hlen : (s.i2c.partialBytes ++ [b]).length < 4 := by rw [List.length_append, List.length_singleton]; omega
  exact if_pos hlen

theorem ofLeBytes_four {b0 b1 b2 b3 : Nat} (h0 : b0 < 256) (h1 : b1 < 256) (h2 : b2 < 256) (h3 : b3 < 256) :
    ofLeBytes [b0, b1, b2, b3] = b0 + 256 * b1 + 65536 * b2 + 16777216 * b3 := by
  simp only [ofLeBytes]
  omega

theorem i2cData_of_whole {b b0 b1 b2 : Nat} {bs : List Nat} (h : s.i2c.partialBytes = [b0, b1, b2]) :
    i2cData (b :: bs) s = i2cData bs ((((s.onI2c fun x => { x with partialBytes := [] }).writeWord .i2c s.i2cOffset
      (ofLeBytes [b0, b1, b2, b])).i2cHold 1 s.i2cOffset).i2cAdvance) := by
  rw [i2cData, h]
  exact if_neg (show ¬ 4 < 4 by omega)

theorem State.i2cAdvance_of_fixed (h : s.get I2C_SEL.FIXED = 1) : s.i2cAdvance = s := if_pos (State.on_of_eq h)

theorem State.i2cAdvance_of_inc (h : s.get I2C_SEL.FIXED ≠ 1) : s.i2cAdvance = s.set I2C_SEL.PTR (s.get I2C_SEL.PTR + 1) :=
  if_neg (Bool.eq_false_iff.mp (State.on_of_ne h))

theorem mem_freePages {p : Nat} : p ∈ [0x01, 0x03, 0x11] ↔ p = 0x01 ∨ p = 0x03 ∨ p = 0x11 := by
  simp only [List.mem_cons, List.not_mem_nil, or_false]

theorem State.i2cHold_of_free {off : Nat} (h : pageOf off ∈ [0x01, 0x03, 0x11]) (kind : Nat) :
    s.i2cHold kind off = { s with i2c := { s.i2c with hold := 0 } } := if_pos (mem_freePages.mp h)

theorem State.i2cHold_of_held {off : Nat} (h : pageOf off ∉ [0x01, 0x03, 0x11]) (kind : Nat) :
    s.i2cHold kind off = { s with i2c := { s.i2c with hold := kind, holdAt := s.fwc } } := if_neg fun k => h (mem_freePages.mpr k)

/-! ### Reads, the end of a transfer and the timers (R524, R529, R530, R535) -/

/-- The state in which a read transfer reads its next word. -/
def State.i2cReadFrom (s : State) : State := if s.i2c.reading then s.i2cAdvance else s.i2cStart

theorem exec_i2cWordRead_of_vaon (h : s.pwr.vaon = true) : exec .i2cWordRead s =
    .next { (((s.i2cReadFrom.readWord .i2c s.i2cReadFrom.i2cOffset).1.onI2c fun x =>
      { x with reading := true, sent := leBytes (s.i2cReadFrom.readWord .i2c s.i2cReadFrom.i2cOffset).2 4 }).i2cHold 2 s.i2cReadFrom.i2cOffset)
      with answer := (s.i2cReadFrom.readWord .i2c s.i2cReadFrom.i2cOffset).2 } := if_neg (State.not_noVaon h)

theorem State.i2cSuppression_eq (s : State) : s.i2cSuppression = if stSTANDBY < s.power then 50 + 40 * s.i2c.filt else 50 := by
  unfold State.i2cSuppression State.above
  simp only [decide_eq_true_eq]
  split <;> rfl

theorem exec_i2cTransferEnd_of_word (h : s.i2c.reading = true) : exec (.i2cTransferEnd true) s = .next s.i2cAdvance.i2cEnd :=
  congrArg _ (if_pos (by rw [h]; rfl))

theorem exec_i2cTransferEnd_of_other {whole : Bool} (h : s.i2c.reading = false ∨ whole = false) : exec (.i2cTransferEnd whole) s = .next s.i2cEnd :=
  congrArg _ (if_neg (by obtain h | h := h <;> simp [h]))

theorem exec_i2cHoldTimeout_of_none (h : s.i2c.hold = 0) : exec .i2cHoldTimeout s = .next s := if_pos h

/-- The hold's millisecond over, counted. -/
def State.i2cLate (s : State) : State := (s.advance (s.i2c.holdAt + 2000000)).bump I2C_ERRCNT1.LATE 1

theorem State.i2cLate_counted (s : State) : Only [I2C_ERRCNT1.LATE] (s.advance (s.i2c.holdAt + 2000000)) s.i2cLate ∧
    s.i2cLate.get I2C_ERRCNT1.LATE = min 255 (s.get I2C_ERRCNT1.LATE + 1) := State.bump_one ..

theorem exec_i2cHoldTimeout_of_write (h : s.i2c.hold = 1) :
    exec .i2cHoldTimeout s = .next { s.i2cLate with i2c := { s.i2cLate.i2c with hold := 0, nack := true } } :=
  (if_neg (by omega)).trans (if_pos h)

theorem exec_i2cHoldTimeout_of_read (h : s.i2c.hold ≠ 0) (hread : s.i2c.hold ≠ 1) : exec .i2cHoldTimeout s =
    .next { s.i2cLate with i2c := { s.i2cLate.i2c with hold := 0, sent := [255, 255, 255, 255] }, answer := 0xFFFFFFFF } :=
  (if_neg h).trans (if_neg hread)

theorem exec_i2cStuckTimeout_of_idle (h : s.get I2C_STATUS.BUSY ≠ 1) (sda : Bool) : exec (.i2cStuckTimeout sda) s = .next s :=
  if_neg (Bool.eq_false_iff.mp (State.on_of_ne h))

theorem exec_i2cStuckTimeout_of_busy (h : s.get I2C_STATUS.BUSY = 1) :
    exec (.i2cStuckTimeout true) s = .next ((s.i2cEnd.bump I2C_ERRCNT0.SDA_REL 1).raise 0x1101 [s.fwc]) ∧
      exec (.i2cStuckTimeout false) s = .next ((s.i2cEnd.bump I2C_ERRCNT0.BUS_RST 1).raise 0x1102 [s.fwc]) := by
  rw [← s.i2cEnd_fwc]
  exact ⟨if_pos (State.on_of_eq h), if_pos (State.on_of_eq h)⟩

/-- A line counted at the end of a transfer was counted from what it held before. -/
theorem State.i2cEnd_bump (s : State) {f : Field} (hf : f.key ∉ [I2C_ERRCNT1.PARTIAL, I2C_STATUS.BUSY].map Field.key) :
    Only [f] s.i2cEnd (s.i2cEnd.bump f 1) ∧ (s.i2cEnd.bump f 1).get f = min (2 ^ f.width - 1) (s.get f + 1) := by
  rw [← s.i2cEnd_get hf]
  exact State.bump_one ..

/-- Settles O55: each row of the target by what goes on, and the word it addresses. -/
theorem i2cTransfersReachTheWordAddressed : Obligations.I2cTransfersReachTheWordAddressed := by
  refine ⟨fun k f ptr page win data s h => execI2c_of_noVaon h k f ptr page win data,
    fun s => ⟨_, rfl, s.i2cEnd_only, s.i2cEnd_busy, s.i2cEnd_partial⟩, fun f ptr page win data s h => ?bad, fun ptr data s h => ?access,
    fun b bs s => ⟨rfl, i2cData_of_part, fun b0 b1 b2 hpart h0 h1 h2 h3 => ⟨_, _, _, rfl, rfl, rfl, ?word⟩⟩,
    fun kind off s => ⟨State.i2cAdvance_of_fixed,
      fun h => ⟨_, State.i2cAdvance_of_inc h, (Only.refl _ s).set _ (by simp), State.get_set_self ..⟩,
      fun h => State.i2cHold_of_free h kind, fun h => State.i2cHold_of_held h kind⟩,
    fun page win further s h => ⟨_, _, rfl, exec_select_of_known h page win further, s.i2cSelected_only .., s.i2cSelected_get ..⟩,
    fun s h => ⟨s.i2cReadFrom, _, _, rfl, rfl, rfl, exec_i2cWordRead_of_vaon h⟩, State.i2cSuppression_eq,
    fun whole s => ⟨fun h hwhole => hwhole ▸ exec_i2cTransferEnd_of_word h, exec_i2cTransferEnd_of_other⟩,
    fun s => ⟨exec_i2cHoldTimeout_of_none, fun h => ⟨_, s.i2cLate, rfl, s.i2cLate_counted.1, s.i2cLate_counted.2, exec_i2cHoldTimeout_of_write,
      exec_i2cHoldTimeout_of_read h⟩⟩,
    fun s => ⟨exec_i2cStuckTimeout_of_idle, fun h => ?stuck⟩⟩
  case bad =>
    obtain ⟨hinc, hfixed, hselect⟩ := execI2c_of_unknown h f ptr page win data
    exact ⟨_, _, rfl, hinc, hfixed, hselect, s.i2cBad_only, s.i2cBad_busy, s.i2cBad_count⟩
  case access =>
    obtain ⟨hinc, hfixed⟩ := execI2c_of_access h ptr data
    obtain ⟨hbusy, hoff, hptr⟩ := s.i2cPointed_get false ptr
    obtain ⟨hbusy', hon, hptr'⟩ := s.i2cPointed_get true ptr
    exact ⟨_, _, _, rfl, hinc, hfixed, s.i2cPointed_only .., hbusy, hoff, hptr, s.i2cPointed_only .., hbusy', hon, hptr'⟩
  case word => rw [i2cData_of_whole hpart, ofLeBytes_four h0 h1 h2 h3]; rfl
  case stuck =>
    obtain ⟨hsda, hscl⟩ := exec_i2cStuckTimeout_of_busy h
    obtain ⟨honly, hcount⟩ := s.i2cEnd_bump (f := I2C_ERRCNT0.SDA_REL) (by decide)
    obtain ⟨honly', hcount'⟩ := s.i2cEnd_bump (f := I2C_ERRCNT0.BUS_RST) (by decide)
    exact ⟨_, _, _, rfl, hsda, honly, hcount, hscl, honly', hcount'⟩

end Sys2Proof.Machine
end

section
/-!
PROOF. Challenges, sessions, key replacement and the shift book window (ch. 16, R508 to R514, R519).
-/
namespace Sys2Proof.Machine

variable {s b t : State}

/-! ### Words of bytes -/

theorem ofLeBytes_lt (l : List Nat) : ofLeBytes l < 256 ^ l.length := by
  induction l with
  | nil => exact Nat.one_pos
  | cons a l ih =>
    rw [ofLeBytes, List.length_cons, Nat.pow_succ]
    have ha := Nat.mod_lt a (show 256 > 0 by decide)
    omega

/-- Bytes are read back from the number they spell. -/
theorem leBytes_ofLeBytes (l : List Nat) (h : ∀ a ∈ l, a < 256) : leBytes (ofLeBytes l) l.length = l := by
  induction l with
  | nil => rfl
  | cons a l ih =>
    have ha : a < 256 := h a List.mem_cons_self
    have hlow : ofLeBytes (a :: l) % 256 = a := by rw [ofLeBytes]; omega
    have hhigh : ofLeBytes (a :: l) / 256 = ofLeBytes l := by rw [ofLeBytes]; omega
    rw [List.length_cons, leBytes, hlow, hhigh, ih fun x hx => h x (List.mem_cons_of_mem a hx)]

/-- A word of four bytes or fewer fits a register of 32 bits. -/
theorem wordOf_lt (l : List Nat) (k : Nat) : ofLeBytes ((l.drop (4 * k)).take 4) < 2 ^ 32 :=
  Nat.lt_of_lt_of_le (ofLeBytes_lt _) (Nat.pow_le_pow_right (show 0 < 256 by decide) (List.length_take_le 4 _))

/-! ### Several fields set -/

/-- A field per number, each to the number's value. -/
def State.setEach (s : State) (f : Nat → Field) (v : Nat → Nat) (ks : List Nat) : State := ks.foldl (fun t k => t.set (f k) (v k)) s

theorem Only.setEach {fs : List Field} {f : Nat → Field} {v : Nat → Nat} (ks : List Nat) (h : Only fs s t) (hf : ∀ k ∈ ks, f k ∈ fs) :
    Only fs s (t.setEach f v ks) := by
  induction ks generalizing t with
  | nil => exact h
  | cons k ks ih => exact ih (h.set (v k) (hf k List.mem_cons_self)) fun j hj => hf j (List.mem_cons_of_mem k hj)

theorem State.setEach_get_of_not_mem {f : Nat → Field} {v : Nat → Nat} {g : Field} (ks : List Nat) (s : State)
    (h : g.key ∉ (ks.map f).map Field.key) : (s.setEach f v ks).get g = s.get g :=
  ((Only.refl (ks.map f) s).setEach ks fun _ hk => List.mem_map_of_mem hk).2 g h

theorem State.setEach_get {f : Nat → Field} {v : Nat → Nat} {k : Nat} (ks : List Nat) (hn : ((ks.map f).map Field.key).Nodup) (hk : k ∈ ks)
    (hv : v k < 2 ^ (f k).width) (s : State) : (s.setEach f v ks).get (f k) = v k := by
  induction ks generalizing s with
  | nil => cases hk
  | cons j ks ih =>
    rw [List.map_cons, List.map_cons, List.nodup_cons] at hn
    obtain ⟨hj, hn⟩ := hn
    rcases List.mem_cons.mp hk with rfl | hk
    · exact ((s.set (f k) (v k)).setEach_get_of_not_mem ks hj).trans (State.get_set_of_lt s hv)
    · exact ih hn hk _

/-! ### A challenge (R509, R511) -/

theorem randomBytes_eq (n : Nat) (s : State) :
    randomBytes n s = ((List.range n).map fun i => Config.freeValue (s.freeIx + i) % 256, { s with freeIx := s.freeIx + n }) := by
  induction n generalizing s with
  | zero => rfl
  | succ n ih =>
    have hshift : ∀ i, s.freeIx + 1 + i = s.freeIx + (i + 1) := by omega
    rw [randomBytes, ih, List.range_succ_eq_map, List.map_cons, List.map_map]
    simp only [State.free, Function.comp_def, hshift, Nat.succ_eq_add_one, Nat.add_zero]

/-- The challenge issued in a state. -/
def State.issued (b : State) : Chal := ⟨(List.range 16).map fun i => Config.freeValue (b.freeIx + i) % 256, b.rol.ctr, b.fwc⟩

/-- The roles block with a challenge of the state held. -/
def State.rolChallenged (b : State) (x role : Nat) : Rol :=
  { b.rol with base := if b.rol.base ≤ b.rol.ctr then b.rol.base + 65536 else b.rol.base, ctr := (b.rol.ctr + 1) % 2 ^ 64
               chal := Tbl.set none b.rol.chal (4 * x + role) (some b.issued) }

theorem State.challenge_eq (b : State) (x role : Nat) :
    b.challenge x role = ({ b with freeIx := b.freeIx + 16, rol := b.rolChallenged x role }, b.issued) := by
  simp only [State.challenge, State.rolChallenged, randomBytes_eq]
  split <;> rfl

theorem State.rolChallenged_chal (b : State) (x role : Nat) : Tbl.get none (b.rolChallenged x role).chal (4 * x + role) = some b.issued := by
  rw [State.rolChallenged, Tbl.get_set_same]

theorem State.rolChallenged_chal_ne (b : State) {x role k : Nat} (h : k ≠ 4 * x + role) :
    Tbl.get none (b.rolChallenged x role).chal k = Tbl.get none b.rol.chal k := by
  rw [State.rolChallenged, Tbl.get_set_other _ _ _ _ h.symm]

theorem State.issued_length (b : State) : b.issued.nonce.length = 16 := by simp [State.issued]

theorem State.issued_lt (b : State) : ∀ a ∈ b.issued.nonce, a < 256 := by
  intro a ha
  obtain ⟨i, -, rfl⟩ := List.mem_map.mp ha
  exact Nat.mod_lt _ (by decide)

theorem State.issued_word (b : State) {k : Nat} (hk : k < 4) :
    leBytes (ofLeBytes ((b.issued.nonce.drop (4 * k)).take 4)) 4 = (b.issued.nonce.drop (4 * k)).take 4 := by
  have hlen : ((b.issued.nonce.drop (4 * k)).take 4).length = 4 := by
    rw [List.length_take, List.length_drop, b.issued_length]
    omega
  have h := leBytes_ofLeBytes ((b.issued.nonce.drop (4 * k)).take 4) fun a ha => b.issued_lt a (List.mem_of_mem_drop (List.mem_of_mem_take ha))
  rwa [hlen] at h

/-- A challenge shown in the registers of a path. -/
def State.showChallenge (t : State) (x : Nat) (c : Chal) : State :=
  ((t.set (ROL_CTR_LO.C x) c.ctr).set (ROL_CTR_HI.C x) (c.ctr / 2 ^ 32)).setEach (ROL_NONCE.N x)
    (fun k => ofLeBytes ((c.nonce.drop (4 * k)).take 4)) (List.range 4)

theorem State.showChallenge_only (t : State) (x : Nat) (c : Chal) :
    Only ([ROL_CTR_LO.C x, ROL_CTR_HI.C x] ++ (List.range 4).map (ROL_NONCE.N x)) t (t.showChallenge x c) :=
  (((Only.refl _ t).set _ (by simp)).set _ (by simp)).setEach _ fun k hk => List.mem_append_right _ (List.mem_map_of_mem hk)

theorem nonce_key (x k : Nat) : (ROL_NONCE.N x k).key = (0x1000C + 0x100000 * x + 4 * k) * 32 := rfl

theorem State.showChallenge_counter (t : State) (x : Nat) {c : Chal} (h : c.ctr < 2 ^ 64) :
    (t.showChallenge x c).get (ROL_CTR_LO.C x) + 2 ^ 32 * (t.showChallenge x c).get (ROL_CTR_HI.C x) = c.ctr := by
  have hlo : (ROL_CTR_LO.C x).key ∉ ((List.range 4).map (ROL_NONCE.N x)).map Field.key := by
    simp [Field.key, ROL_CTR_LO.C, ROL_NONCE.N]; omega
  have hhi : (ROL_CTR_HI.C x).key ∉ ((List.range 4).map (ROL_NONCE.N x)).map Field.key := by
    simp [Field.key, ROL_CTR_HI.C, ROL_NONCE.N]; omega
  have hne : (ROL_CTR_HI.C x).key ≠ (ROL_CTR_LO.C x).key := by simp [Field.key, ROL_CTR_HI.C, ROL_CTR_LO.C]
  unfold State.showChallenge
  rw [State.setEach_get_of_not_mem _ _ hlo, State.setEach_get_of_not_mem _ _ hhi, State.get_set_ne _ _ hne, State.get_set_self, State.get_set_self]
  show c.ctr % 2 ^ 32 + 2 ^ 32 * (c.ctr / 2 ^ 32 % 2 ^ 32) = c.ctr
  omega

theorem State.showChallenge_nonce (t : State) (x : Nat) (c : Chal) {k : Nat} (hk : k < 4) :
    (t.showChallenge x c).get (ROL_NONCE.N x k) = ofLeBytes ((c.nonce.drop (4 * k)).take 4) := by
  refine State.setEach_get (List.range 4) ?_ (List.mem_range.mpr hk) (wordOf_lt _ _) _
  rw [List.map_map]
  refine List.nodup_range.map fun i j hij => ?_
  simp only [Function.comp, nonce_key] at hij
  omega

/-! ### A role's command on a path of its own -/

/-- A path with copies of the challenge registers and the number of its copies. -/
def OwnPath (p : Path) (x : Nat) : Prop := (p = .bar0 ∧ x = 0) ∨ (p = .i2c ∧ x = 1)

theorem OwnPath.copy {p : Path} {x : Nat} (h : OwnPath p x) : ownCopy p = some x := by
  rcases h with ⟨rfl, rfl⟩ | ⟨rfl, rfl⟩ <;> rfl

/-- The word that gives a command (bit 31 or bit 30) for a role. -/
theorem command_bits {role : Nat} (h : role < 4) :
    (bits (2 ^ 31 + role) 0 2 = role ∧ bit (2 ^ 31 + role) 31 = true ∧ bit (2 ^ 31 + role) 30 = false) ∧
    bits (2 ^ 30 + role) 0 2 = role ∧ bit (2 ^ 30 + role) 31 = false ∧ bit (2 ^ 30 + role) 30 = true := by
  have hall : ∀ r : Fin 4, (bits (2 ^ 31 + r) 0 2 = r ∧ bit (2 ^ 31 + r) 31 = true ∧ bit (2 ^ 31 + r) 30 = false) ∧
      bits (2 ^ 30 + r) 0 2 = r ∧ bit (2 ^ 30 + r) 31 = false ∧ bit (2 ^ 30 + r) 30 = true := by decide
  exact hall ⟨role, h⟩

section
variable {p : Path} {x role : Nat} (hp : OwnPath p x) (hr : role < 4)
include hp hr

theorem State.effChallenge_of_own (b : State) : b.effChallenge p (2 ^ 31 + role) =
    if role = 0 then b else if b.lockedOut x role then b.set (ROL_SESSION_STATUS.RESULT x) 3
    else (b.challenge x role).1.showChallenge x (b.challenge x role).2 := by
  obtain ⟨⟨hrole, hgo, -⟩, -⟩ := command_bits hr
  unfold State.effChallenge
  simp only [hp.copy, hrole, hgo, Bool.not_true, Bool.false_or, decide_eq_true_eq]
  rfl

theorem State.effSessionCmd_open (b : State) : b.effSessionCmd p (2 ^ 31 + role) = b.sessionOpen x role := by
  obtain ⟨⟨hrole, hopen, hclose⟩, -⟩ := command_bits hr
  simp only [State.effSessionCmd, hp.copy, hrole, hopen, hclose, if_true, Bool.false_eq_true, if_false]

theorem State.effSessionCmd_close (b : State) : b.effSessionCmd p (2 ^ 30 + role) = b.sessionClose x role := by
  obtain ⟨-, hrole, hopen, hclose⟩ := command_bits hr
  simp only [State.effSessionCmd, hp.copy, hrole, hopen, hclose, if_true, Bool.false_eq_true, if_false]

theorem State.effKeyCmd_of_own (b : State) : b.effKeyCmd p (2 ^ 31 + role) = b.keyReplace p x role (2 ^ 31 + role) := by
  obtain ⟨⟨hrole, hgo, -⟩, -⟩ := command_bits hr
  simp only [State.effKeyCmd, hp.copy, hrole, hgo, if_true]

theorem exec_rolChallenge_of_takes (h : s.takes p 0x10008 (2 ^ 31 + role) = true) :
    exec (.rolChallenge p role) s = .next (if role = 0 then s.booked p 0x10008 (2 ^ 31 + role)
      else if (s.booked p 0x10008 (2 ^ 31 + role)).lockedOut x role
        then (s.booked p 0x10008 (2 ^ 31 + role)).set (ROL_SESSION_STATUS.RESULT x) 3
      else ((s.booked p 0x10008 (2 ^ 31 + role)).challenge x role).1.showChallenge x
        ((s.booked p 0x10008 (2 ^ 31 + role)).challenge x role).2) := by
  have hexec : exec (.rolChallenge p role) s =
    .next (s.regWrite p 0x10008 (2 ^ 31 + role % 4) fun t => t.effChallenge p (2 ^ 31 + role % 4)) := rfl
  rw [hexec, Nat.mod_eq_of_lt hr, State.regWrite_takes h, State.effChallenge_of_own hp hr]

theorem exec_rolSessionOpen_of_takes (h : s.takes p 0x10044 (2 ^ 31 + role) = true) :
    exec (.rolSessionOpen p role) s = .next ((s.booked p 0x10044 (2 ^ 31 + role)).sessionOpen x role) := by
  have hexec : exec (.rolSessionOpen p role) s =
    .next (s.regWrite p 0x10044 (2 ^ 31 + role % 4) fun t => t.effSessionCmd p (2 ^ 31 + role % 4)) := rfl
  rw [hexec, Nat.mod_eq_of_lt hr, State.regWrite_takes h, State.effSessionCmd_open hp hr]

theorem exec_rolSessionClose_of_takes (h : s.takes p 0x10044 (2 ^ 30 + role) = true) :
    exec (.rolSessionClose p role) s = .next ((s.booked p 0x10044 (2 ^ 30 + role)).sessionClose x role) := by
  have hexec : exec (.rolSessionClose p role) s =
    .next (s.regWrite p 0x10044 (2 ^ 30 + role % 4) fun t => t.effSessionCmd p (2 ^ 30 + role % 4)) := rfl
  rw [hexec, Nat.mod_eq_of_lt hr, State.regWrite_takes h, State.effSessionCmd_close hp hr]

theorem exec_rolKeyReplace_of_takes (h : s.takes p 0x10070 (2 ^ 31 + role) = true) :
    exec (.rolKeyReplace p role) s = .next ((s.booked p 0x10070 (2 ^ 31 + role)).keyReplace p x role (2 ^ 31 + role)) := by
  have hexec : exec (.rolKeyReplace p role) s =
    .next (s.regWrite p 0x10070 (2 ^ 31 + role % 4) fun t => t.effKeyCmd p (2 ^ 31 + role % 4)) := rfl
  rw [hexec, Nat.mod_eq_of_lt hr, State.regWrite_takes h, State.effKeyCmd_of_own hp hr]
end

/-- Without copies of the registers on the path a command of a role changes nothing (R508). -/
theorem exec_role_of_noCopy {p : Path} (hp : (∃ x : Nat, p = .proxy x) ∨ p = .foreman) (role : Nat) (s : State) :
    exec (.rolChallenge p role) s = .next s ∧ exec (.rolSessionOpen p role) s = .next s ∧ exec (.rolSessionClose p role) s = .next s ∧
    exec (.rolKeyReplace p role) s = .next s := by
  have hkeep : ∀ off w e, 0x10008 ≤ off → off ≤ 0x10074 → (.next (s.regWrite p off w e) : Out) = .next s := fun off w e hlo hhi => by
    obtain ⟨hpath, -, hno⟩ := perPath_facts hlo hhi hp
    rw [State.regWrite_of_perPath hpath hno]
  exact ⟨hkeep 0x10008 _ _ (by decide) (by decide), hkeep 0x10044 _ _ (by decide) (by decide), hkeep 0x10044 _ _ (by decide) (by decide),
    hkeep 0x10070 _ _ (by decide) (by decide)⟩

/-! ### Sessions (R510, R512) -/

/-- The state with the challenge of a role on a path ended. -/
def State.challengeEnded (b : State) (x role : Nat) : State := b.onRol fun r => { r with chal := Tbl.erase r.chal (4 * x + role) }

theorem Tbl.get_erase_symm {α : Type} (d : α) (t : Tbl α) (k j : Nat) : Tbl.get d (Tbl.erase t k) j = if j = k then d else Tbl.get d t j := by
  rw [Tbl.get_erase]
  exact if_congr eq_comm rfl rfl

theorem State.sessionOpen_of_none {x role : Nat} (h : b.chalOf x role = none) (hr : role ≠ 0) (hl : b.lockedOut x role = false) :
    b.sessionOpen x role = ((b.challengeEnded x role).failSession x role).set (ROL_SESSION_STATUS.RESULT x) 2 := by
  simp only [State.sessionOpen, State.respond, h, hl, hr, if_false, Bool.false_eq_true]
  rfl

theorem State.sessionOpen_of_some {x role : Nat} {c : Chal} (h : b.chalOf x role = some c) (hr : role ≠ 0) (hl : b.lockedOut x role = false) :
    b.sessionOpen x role =
      if hmacSha256 (b.keyOf role) (c.nonce ++ leBytes c.ctr 8 ++ [role, x] ++ leBytes b.serial 8) = pathBytes b.rol.resp x
      then ((b.challengeEnded x role).openSession x role c).set (ROL_SESSION_STATUS.RESULT x) 0
      else ((b.challengeEnded x role).failSession x role).set (ROL_SESSION_STATUS.RESULT x) 2 := by
  by_cases he : hmacSha256 (b.keyOf role) (c.nonce ++ leBytes c.ctr 8 ++ [role, x] ++ leBytes b.serial 8) = pathBytes b.rol.resp x <;>
    simp only [State.sessionOpen, State.respond, State.sessionMessage, h, hl, hr, he, if_true, if_false, Bool.false_eq_true] <;> rfl

theorem State.chalOf_eq_some {x role : Nat} {c : Chal} :
    b.chalOf x role = some c ↔ Tbl.get none b.rol.chal (4 * x + role) = some c ∧ b.fwc < c.issued + 20000000000 := by
  unfold State.chalOf rolKey
  cases Tbl.get none b.rol.chal (4 * x + role) with
  | none => simp
  | some d =>
    simp only [Option.ite_none_right_eq_some, Option.some.injEq]
    exact ⟨fun ⟨h, e⟩ => ⟨e, e ▸ h⟩, fun ⟨e, h⟩ => ⟨e ▸ h, e⟩⟩

theorem State.lockedOut_iff {x role : Nat} :
    b.lockedOut x role = true ↔ ∃ f : Nat, Tbl.get none b.rol.locked (4 * x + role) = some f ∧ b.fwc < f := by
  unfold State.lockedOut rolKey
  cases Tbl.get none b.rol.locked (4 * x + role) <;> simp

/-- The state with a session of a role on a path held, its failures forgotten. -/
def State.sessionHeld (b : State) (x role : Nat) (c : Chal) : State :=
  b.onRol fun r => { r with sess := Tbl.set none r.sess (4 * x + role) (some ⟨c.nonce, c.ctr, b.fwc⟩), fails := Tbl.erase r.fails (4 * x + role) }

theorem State.sessionHeld_session (b : State) (x role : Nat) (c : Chal) :
    (b.sessionHeld x role c).sessOf x role = some ⟨c.nonce, c.ctr, b.fwc⟩ := by
  rw [State.sessionHeld, State.sessOf, rolKey, State.onRol_rol, Tbl.get_set_same]

theorem State.sessionHeld_others (b : State) {x role k : Nat} (c : Chal) (h : k ≠ 4 * x + role) :
    Tbl.get none (b.sessionHeld x role c).rol.sess k = Tbl.get none b.rol.sess k := by
  rw [State.sessionHeld, State.onRol_rol, Tbl.get_set_other _ _ _ _ h.symm]

/-- The state with one more failure of a role on a path, counted. -/
def State.failCounted (b : State) (x role : Nat) : State :=
  (b.bump ROL_ERRCNT.FAILED 1).onRol fun r => { r with fails := Tbl.set 0 r.fails (4 * x + role) (b.failsOf x role + 1) }

theorem State.failCounted_fails (b : State) (x role : Nat) : (b.failCounted x role).failsOf x role = b.failsOf x role + 1 := by
  rw [State.failCounted, State.failsOf, rolKey, State.onRol_rol, Tbl.get_set_same]

/-- The failure entered and raised. -/
def State.failEntered (b : State) (x role : Nat) : State :=
  ((b.failCounted x role).sbEnter role x 2 4 0 0 [0, b.failsOf x role + 1]).raise 0x1003 [role, x, b.failsOf x role + 1]

/-- The state with a role locked out on a path until an instant, its failures forgotten. -/
def State.lockedUntil (t : State) (x role f : Nat) : State :=
  t.onRol fun r => { r with fails := Tbl.erase r.fails (4 * x + role), locked := Tbl.set none r.locked (4 * x + role) (some f) }

theorem State.lockedUntil_locked (t : State) (x role f : Nat) : Tbl.get none (t.lockedUntil x role f).rol.locked (4 * x + role) = some f := by
  rw [State.lockedUntil, State.onRol_rol, Tbl.get_set_same]

theorem State.failSession_of_lt {x role : Nat} (h : b.failsOf x role + 1 < 5) : b.failSession x role = b.failEntered x role := if_pos h

theorem State.failSession_of_le {x role : Nat} (h : 5 ≤ b.failsOf x role + 1) :
    b.failSession x role = ((b.failEntered x role).lockedUntil x role (b.fwc + 120000000000)).sbEnter role x 2 5 0 0 [0, 0] :=
  if_neg (Nat.not_lt.mpr h)

/-- The state with the session of a role on a path ended. -/
def State.sessionEnded (b : State) (x role : Nat) : State := b.onRol fun r => { r with sess := Tbl.erase r.sess (4 * x + role) }

theorem State.closeSession_of_none {x role : Nat} (h : s.sessOf x role = none) (cause : Nat) : s.closeSession x role cause = s := by
  unfold State.closeSession
  rw [h]

theorem State.closeSession_of_some {x role : Nat} (h : s.sessOf x role ≠ none) (cause : Nat) : s.closeSession x role cause =
    (((s.sessionEnded x role).showSessions).sbEnter role x 2 0 0 0 [cause, s.failsOf x role]).raise 0x1004 [role, x, cause] := by
  obtain ⟨c, hc⟩ := Option.ne_none_iff_exists'.mp h
  unfold State.closeSession
  rw [hc]
  rfl

/-! ### Key replacement (R513, R514) -/

/-- The result of a key replacement shown. -/
def State.keyShown (s : State) (x result store : Nat) : State :=
  (s.set (ROL_KEY_STATUS.RESULT x) result).set (ROL_KEY_STATUS.STORE x) store

theorem State.keyShown_only (s : State) (x result store : Nat) :
    Only [ROL_KEY_STATUS.RESULT x, ROL_KEY_STATUS.STORE x] s (s.keyShown x result store) :=
  ((Only.refl _ s).set _ (by simp)).set _ (by simp)

theorem State.keyShown_result (s : State) (x : Nat) {result : Nat} (store : Nat) (h : result < 8) :
    (s.keyShown x result store).get (ROL_KEY_STATUS.RESULT x) = result :=
  (State.get_set_ne _ _ (by simp [Field.key, ROL_KEY_STATUS.RESULT, ROL_KEY_STATUS.STORE])).trans (State.get_set_of_lt _ h)

theorem State.keyShown_store (s : State) (x result : Nat) {store : Nat} (h : store < 16) :
    (s.keyShown x result store).get (ROL_KEY_STATUS.STORE x) = store := State.get_set_of_lt _ h

theorem State.touchSession_eq (b : State) (p : Path) (r : Role) :
    b.touchSession p r = { b with rol := { b.rol with sess := (b.touchSession p r).rol.sess } } := by
  unfold State.touchSession
  dsimp only
  split
  · split <;> rfl
  · rfl

/-- The session a replacement of a role's key is authorised by. -/
def authRole (role : Nat) : Nat := if role = 3 then 3 else 2

/-- The role of that session. -/
def authKind (role : Nat) : Role := if role = 3 then .maker else .installer

theorem authKind_eq (role : Nat) : (if authRole role = 3 then Role.maker else .installer) = authKind role := by
  unfold authRole authKind
  split <;> rfl

/-- The message a session's wrapping key is made of. -/
def Sess.seed (c : Sess) : List Nat := c.nonce ++ leBytes c.ctr 8

/-- The key a wrapped one unwraps to under a session. -/
def State.unwrapped (b : State) (x auth : Nat) (c : Sess) : List Nat :=
  List.zipWith (fun a b => a ^^^ b) (pathBytes b.rol.keyW x) (hmacSha256 (b.keyOf auth) (0x57 :: c.seed))

/-- The check value is wrong or the key is zero. -/
def State.badKey (b : State) (x : Nat) (c : Sess) (key : List Nat) : Prop :=
  (hmacSha256 key c.seed).take 4 ≠ leBytes (Tbl.get 0 b.rol.keyChk x) 4 ∨ ∀ v ∈ key, v = 0

/-- A key in force for a role, whose challenges are gone. -/
def State.keyPut (t : State) (role : Nat) (key : List Nat) : State :=
  t.onRol fun r => { r with keys := Tbl.set [] r.keys role key, keySeq := (t.rol.keySeq + 1) % 65536
                            chal := Tbl.keep (fun k => decide (k % 4 ≠ role)) r.chal }

/-- A replacement that succeeded, entered, raised, with the role's sessions closed. -/
def State.keyReplaced (t : State) (x role : Nat) (key : List Nat) : State :=
  (((((t.keyPut role key).keyResult x (authRole role) role 0 0).raise 0x1005 [role, (t.rol.keySeq + 1) % 65536]).closeSession 0 role 2).closeSession
    1 role 2)

/-- The end of a replacement whose key is good: the store takes it or not. -/
def State.keyStored (t : State) (x role : Nat) (key : List Nat) : State :=
  match t.storeRefuses with
  | some code => t.keyResult x (authRole role) role 3 code
  | none =>
    if Tbl.get false t.nvs.worn 154 || Tbl.get false t.nvs.worn 155 then t.keyResult x (authRole role) role 3 2 else t.keyReplaced x role key

section
variable {p : Path} {x role w : Nat} (h0 : role ≠ 0)
include h0

theorem State.keyReplace_of_noSession (h : b.sessOf x (authRole role) = none) :
    b.keyReplace p x role w = (b.sbReject p (authKind role) 0x10070 w).keyShown x 1 0 := by
  have h' : b.sessOf x (if role = 3 then 3 else 2) = none := h
  have hk := authKind_eq role
  unfold authRole at hk
  simp only [State.keyReplace, h0, h', hk, if_false]
  rfl

theorem State.keyReplace_of_session {c : Sess} (h : b.sessOf x (authRole role) = some c) (ht : b.touchSession p (authKind role) = t) :
    b.keyReplace p x role w = if (hmacSha256 (t.unwrapped x (authRole role) c) c.seed).take 4 ≠ leBytes (Tbl.get 0 t.rol.keyChk x) 4 ∨
      (t.unwrapped x (authRole role) c).all (fun b => decide (b = 0)) then t.keyResult x (authRole role) role 2 0
    else t.keyStored x role (t.unwrapped x (authRole role) c) := by
  have h' : b.sessOf x (if role = 3 then 3 else 2) = some c := h
  have hk := authKind_eq role
  unfold authRole at hk
  simp only [State.keyReplace, h0, h', hk, if_false, ht]
  rfl
end

theorem State.touchSession_unwrapped (b : State) (p : Path) (r : Role) (x auth : Nat) (c : Sess) :
    (b.touchSession p r).unwrapped x auth c = b.unwrapped x auth c := by
  rw [State.touchSession_eq]
  rfl

theorem State.touchSession_keyChk (b : State) (p : Path) (r : Role) : (b.touchSession p r).rol.keyChk = b.rol.keyChk := by
  rw [State.touchSession_eq]

section
variable {p : Path} {x role w : Nat} {c : Sess} (h0 : role ≠ 0) (h : b.sessOf x (authRole role) = some c)
include h0 h

theorem State.keyReplace_of_badKey (hbad : b.badKey x c (b.unwrapped x (authRole role) c)) :
    b.keyReplace p x role w = (b.touchSession p (authKind role)).keyResult x (authRole role) role 2 0 := by
  rw [State.keyReplace_of_session h0 h rfl, b.touchSession_unwrapped, b.touchSession_keyChk, if_pos]
  simpa [State.badKey] using hbad

theorem State.keyReplace_of_goodKey (hgood : ¬ b.badKey x c (b.unwrapped x (authRole role) c)) :
    b.keyReplace p x role w = (b.touchSession p (authKind role)).keyStored x role (b.unwrapped x (authRole role) c) := by
  rw [State.keyReplace_of_session h0 h rfl, b.touchSession_unwrapped, b.touchSession_keyChk, if_neg]
  simpa [State.badKey] using hgood
end

section
variable {x role : Nat} {key : List Nat}

theorem State.keyStored_of_refused {code : Nat} (h : t.storeRefuses = some code) :
    t.keyStored x role key = t.keyResult x (authRole role) role 3 code := by
  simp only [State.keyStored, h]

theorem State.keyStored_of_worn (h : t.storeRefuses = none) (hw : Tbl.get false t.nvs.worn 154 = true ∨ Tbl.get false t.nvs.worn 155 = true) :
    t.keyStored x role key = t.keyResult x (authRole role) role 3 2 := by
  simp only [State.keyStored, h, Bool.or_eq_true, hw, if_true]

theorem State.keyStored_of_free (h : t.storeRefuses = none) (h154 : Tbl.get false t.nvs.worn 154 = false)
    (h155 : Tbl.get false t.nvs.worn 155 = false) : t.keyStored x role key = t.keyReplaced x role key := by
  simp only [State.keyStored, h, h154, h155, Bool.or_self, Bool.false_eq_true, if_false]

theorem State.keyPut_keyOf : (t.keyPut role key).keyOf role = key := Tbl.get_set_same ..

theorem State.keyPut_keyOf_ne {o : Nat} (h : o ≠ role) : (t.keyPut role key).keyOf o = t.keyOf o := Tbl.get_set_other _ _ _ _ h.symm

theorem State.keyPut_chal (k : Nat) :
    Tbl.get none (t.keyPut role key).rol.chal k = if k % 4 = role then none else Tbl.get none t.rol.chal k := by
  refine (Tbl.get_keep none (fun k => decide (k % 4 ≠ role)) t.rol.chal k).trans ?_
  by_cases h : k % 4 = role <;> simp [h]
end

/-! ### Timers (R509, R512) -/

theorem exec_sessionIdleTimeout_of_none {x role : Nat} (h : s.sessOf x role = none) : exec (.sessionIdleTimeout x role) s = .next s := by
  have hexec : exec (.sessionIdleTimeout x role) s = execSessionIdleTimeout x role s := rfl
  rw [hexec, execSessionIdleTimeout, h]

theorem exec_sessionIdleTimeout_of_some {x role : Nat} {c : Sess} (h : s.sessOf x role = some c) : exec (.sessionIdleTimeout x role) s =
    .next ((s.advance (c.used + s.get ROL_CFG.IDLE_S * 2000000000)).closeSession x role 1) := by
  have hexec : exec (.sessionIdleTimeout x role) s = execSessionIdleTimeout x role s := rfl
  rw [hexec, execSessionIdleTimeout, h]
  rfl

theorem exec_lockoutEnd_of_none {x role : Nat} (h : Tbl.get none s.rol.locked (4 * x + role) = none) :
    exec (.lockoutEnd x role) s = .next s := by
  have hexec : exec (.lockoutEnd x role) s = execLockoutEnd x role s := rfl
  rw [hexec, execLockoutEnd, rolKey, h]

theorem exec_lockoutEnd_of_some {x role f : Nat} (h : Tbl.get none s.rol.locked (4 * x + role) = some f) : exec (.lockoutEnd x role) s =
    .next ((s.advance f).onRol fun r => { r with locked := Tbl.erase r.locked (4 * x + role) }) := by
  have hexec : exec (.lockoutEnd x role) s = execLockoutEnd x role s := rfl
  rw [hexec, execLockoutEnd, rolKey, h]

theorem exec_challengeExpiry_of_none {x role : Nat} (h : Tbl.get none s.rol.chal (4 * x + role) = none) :
    exec (.challengeExpiry x role) s = .next s := by
  have hexec : exec (.challengeExpiry x role) s = execChallengeExpiry x role s := rfl
  rw [hexec, execChallengeExpiry, rolKey, h]

theorem exec_challengeExpiry_of_some {x role : Nat} {c : Chal} (h : Tbl.get none s.rol.chal (4 * x + role) = some c) :
    exec (.challengeExpiry x role) s = .next ((s.advance (c.issued + 20000000000)).challengeEnded x role) := by
  have hexec : exec (.challengeExpiry x role) s = execChallengeExpiry x role s := rfl
  rw [hexec, execChallengeExpiry, rolKey, h]
  rfl

theorem State.chalOf_of_none {x role : Nat} (h : Tbl.get none b.rol.chal (4 * x + role) = none) : b.chalOf x role = none := by
  unfold State.chalOf
  rw [rolKey, h]

theorem State.lockedOut_of_none {x role : Nat} (h : Tbl.get none b.rol.locked (4 * x + role) = none) : b.lockedOut x role = false := by
  unfold State.lockedOut
  rw [rolKey, h]

/-! ### The shift book window (R519) -/

/-- The window showing the bytes of an entry, present or not. -/
def State.showEntry (b : State) (n : Nat) (valid : Bool) (bytes : List Nat) : State :=
  ((b.set ROL_SB_SEL.ENTRY n).put ROL_SB_STATUS.VALID valid).setEach ROL_SB_W.DATA
    (fun k => ofLeBytes ((bytes.drop (4 * k)).take 4)) (List.range 16)

theorem State.effSbSel_of_none {n : Nat} (h : b.entryOf n = none) : b.effSbSel n = b.showEntry n false [] := by
  simp only [State.effSbSel, h]
  rfl

theorem State.effSbSel_of_some {n : Nat} {e : SbEntry} (h : b.entryOf n = some e) : b.effSbSel n = b.showEntry n true e.bytes := by
  simp only [State.effSbSel, h]
  rfl

theorem State.showEntry_only (b : State) (n : Nat) (valid : Bool) (bytes : List Nat) :
    Only ([ROL_SB_SEL.ENTRY, ROL_SB_STATUS.VALID] ++ (List.range 16).map ROL_SB_W.DATA) b (b.showEntry n valid bytes) :=
  (((Only.refl _ b).set n (by simp)).put valid (by simp)).setEach _ fun k hk => List.mem_append_right _ (List.mem_map_of_mem hk)

theorem State.showEntry_entry (b : State) {n : Nat} (valid : Bool) (bytes : List Nat) (h : n < 2 ^ 32) :
    (b.showEntry n valid bytes).get ROL_SB_SEL.ENTRY = n := by
  unfold State.showEntry State.put
  rw [State.setEach_get_of_not_mem _ _ (by decide), State.get_set_ne _ _ (by decide)]
  exact State.get_set_of_lt _ h

theorem State.showEntry_valid (b : State) (n : Nat) (valid : Bool) (bytes : List Nat) :
    (b.showEntry n valid bytes).get ROL_SB_STATUS.VALID = ofBool valid := by
  unfold State.showEntry State.put
  rw [State.setEach_get_of_not_mem _ _ (by decide)]
  exact State.get_set_of_lt _ (by cases valid <;> decide)

theorem State.showEntry_data (b : State) (n : Nat) (valid : Bool) (bytes : List Nat) {k : Nat} (hk : k < 16) :
    (b.showEntry n valid bytes).get (ROL_SB_W.DATA k) = ofLeBytes ((bytes.drop (4 * k)).take 4) :=
  State.setEach_get (List.range 16) (by decide) (List.mem_range.mpr hk) (wordOf_lt _ _) _

theorem exec_rolSbSelWrite_of_takes {p : Path} {w : Word} (h : s.takes p 0x1007C w.toNat = true) :
    exec (.rolSbSelWrite p w) s = .next ((s.booked p 0x1007C w.toNat).effSbSel w.toNat) := by
  have hexec : exec (.rolSbSelWrite p w) s = .next (s.regWrite p 0x1007C w.toNat fun t => t.effSbSel w.toNat) := rfl
  rw [hexec, State.regWrite_takes h]

/-- Settles O58: each command is its effect on the booked state, and each effect is one of the updates named above. -/
theorem rolesChallengeOpenAndReplace : Obligations.RolesChallengeOpenAndReplace := by
  unfold Obligations.RolesChallengeOpenAndReplace
  refine ⟨fun p role s hp => exec_role_of_noCopy hp role s, fun p x role s hp hr => ⟨?challenge, ?opens, ?closes, ?key⟩, fun x role b => ?issue,
    fun x role c b => ⟨State.chalOf_eq_some, ?opened, ?failed, State.lockedOut_iff⟩,
    fun x role cause s => ⟨fun h => State.closeSession_of_none h cause, ?closed⟩,
    fun s => ((Only.refl _ s).set _ (by simp)).set _ (by simp), ?keyResult, fun x role s => ⟨exec_sessionIdleTimeout_of_none,
      fun c h => exec_sessionIdleTimeout_of_some h, exec_lockoutEnd_of_none, ?lockout, exec_challengeExpiry_of_none, ?expiry⟩, ?window⟩
  case challenge =>
    intro ht
    have hexec := exec_rolChallenge_of_takes hp hr ht
    refine ⟨_, rfl, fun h0 => ?_, fun h0 hl => ?_, fun h0 hl hctr => ?_⟩
    · rw [hexec, if_pos h0]
    · rw [if_neg h0, if_pos hl] at hexec
      exact ⟨_, hexec, (Only.refl _ _).set 3 (by simp), State.get_set_of_lt _ (show 3 < 2 ^ 2 by decide)⟩
    · rw [if_neg h0, hl, if_neg (by decide)] at hexec
      rw [State.challenge_eq] at hexec ⊢
      refine ⟨_, _, rfl, hexec, State.showChallenge_only .., State.showChallenge_counter _ _ hctr, fun k hk => ?_⟩
      rw [State.showChallenge_nonce _ _ _ hk]
      exact State.issued_word _ hk
  case opens =>
    intro ht
    have hexec := exec_rolSessionOpen_of_takes hp hr ht
    generalize s.booked p 0x10044 (2 ^ 31 + role) = b at hexec
    refine ⟨b, rfl, fun h0 => ?_, fun h0 hl => ?_, fun h0 hl => ⟨b.challengeEnded x role, rfl, fun k => Tbl.get_erase_symm .., fun h => ?_,
      fun c h => ⟨fun he => ?_, fun he => ?_⟩⟩⟩
    · rw [hexec, State.sessionOpen, if_pos h0]
    · rw [hexec, State.sessionOpen, if_neg h0, if_pos hl]
    · rw [hexec, State.sessionOpen_of_none h h0 hl]
    · rw [hexec, State.sessionOpen_of_some h h0 hl, if_pos he]
    · rw [hexec, State.sessionOpen_of_some h h0 hl, if_neg he]
  case closes =>
    intro ht
    refine ⟨_, rfl, fun h0 => ?_, fun h0 => ?_⟩
    · rw [exec_rolSessionClose_of_takes hp hr ht, State.sessionClose, if_pos h0]
    · rw [exec_rolSessionClose_of_takes hp hr ht, State.sessionClose, if_neg h0]
  case key =>
    intro ht
    have hexec := exec_rolKeyReplace_of_takes hp hr ht
    generalize s.booked p 0x10070 (2 ^ 31 + role) = b at hexec
    refine ⟨b, authRole role, authKind role, rfl, rfl, rfl, fun h0 => ?_, fun h0 h => ⟨_, ?_, State.keyShown_only _ x 1 0,
      State.keyShown_result _ x 0 (by decide), State.keyShown_store _ x 1 (by decide)⟩, fun c h0 h => ⟨b.touchSession p (authKind role), _,
      b.unwrapped x (authRole role) c, rfl, rfl, rfl, fun hbad => ?_, fun hchk hnz => ?_⟩⟩
    · rw [hexec, State.keyReplace, if_pos h0, h0]
    · rw [hexec, State.keyReplace_of_noSession h0 h]
    · rw [hexec, State.keyReplace_of_badKey h0 h]
      exact hbad
    · have hgood : ¬ b.badKey x c (b.unwrapped x (authRole role) c) := by
        rintro (hne | hz)
        · exact hne hchk
        · obtain ⟨v, hv, hv0⟩ := hnz
          exact hv0 (hz v hv)
      rw [hexec, State.keyReplace_of_goodKey h0 h hgood]
      generalize b.touchSession p (authKind role) = t
      refine ⟨fun code hs => ?_, fun hs hw => ?_, fun hs h154 h155 => ⟨t.keyPut role (b.unwrapped x (authRole role) c), rfl, State.keyPut_keyOf,
        fun o ho => State.keyPut_keyOf_ne ho, State.keyPut_chal, ?_⟩⟩
      · rw [State.keyStored_of_refused hs]
      · rw [State.keyStored_of_worn hs hw]
      · rw [State.keyStored_of_free hs h154 h155]
        rfl
  case issue =>
    exact ⟨_, b.issued, b.challenge_eq x role, rfl, rfl, rfl, rfl, b.rolChallenged_chal x role,
      fun _ hk => b.rolChallenged_chal_ne hk⟩
  case opened =>
    exact ⟨b.sessionHeld x role c, rfl, rfl, b.sessionHeld_session x role c, (Tbl.get_erase ..).trans (if_pos rfl), fun k hk =>
      ⟨b.sessionHeld_others c hk, (Tbl.get_erase ..).trans (if_neg hk.symm)⟩⟩
  case failed =>
    exact ⟨_, b.failCounted x role, b.failEntered x role, rfl, (Only.refl _ _).bump 1 (by simp), b.failCounted_fails x role,
      (State.bump_one _ _).2, rfl, State.failSession_of_lt, fun h => ⟨(b.failEntered x role).lockedUntil x role (b.fwc + 120000000000), rfl,
        (Tbl.get_erase ..).trans (if_pos rfl), State.lockedUntil_locked .., State.failSession_of_le h⟩⟩
  case closed =>
    exact fun h => ⟨s.sessionEnded x role, rfl, (Tbl.get_erase ..).trans (if_pos rfl), fun k hk => (Tbl.get_erase ..).trans (if_neg hk.symm),
      State.closeSession_of_some h cause⟩
  case keyResult =>
    exact fun x auth target result store s hr hs => ⟨s.keyShown x result store, s.keyShown_only x result store, s.keyShown_result x store hr,
      s.keyShown_store x result hs, rfl⟩
  case lockout =>
    exact fun f h => ⟨_, _, rfl, exec_lockoutEnd_of_some h, rfl, State.lockedOut_of_none ((Tbl.get_erase ..).trans (if_pos rfl))⟩
  case expiry =>
    exact fun c h => ⟨_, _, rfl, exec_challengeExpiry_of_some h, rfl, State.chalOf_of_none ((Tbl.get_erase ..).trans (if_pos rfl))⟩
  case window =>
    intro p w s ht
    have hexec := exec_rolSbSelWrite_of_takes ht
    generalize s.booked p 0x1007C w.toNat = b at hexec
    cases he : b.entryOf w.toNat with
    | none =>
      rw [State.effSbSel_of_none he] at hexec
      refine ⟨b, _, rfl, hexec, State.showEntry_only .., State.showEntry_entry _ _ _ w.isLt, fun _ => ⟨State.showEntry_valid .., fun k hk => ?_⟩,
        fun e h => absurd (he.symm.trans h) (Option.some_ne_none e).symm⟩
      rw [State.showEntry_data _ _ _ _ hk, List.drop_nil, List.take_nil, ofLeBytes]
    | some e =>
      rw [State.effSbSel_of_some he] at hexec
      refine ⟨b, _, rfl, hexec, State.showEntry_only .., State.showEntry_entry _ _ _ w.isLt,
        fun h => absurd (he.symm.trans h) (Option.some_ne_none e), fun e' h => ?_⟩
      obtain rfl := Option.some.inj (he.symm.trans h)
      exact ⟨State.showEntry_valid .., fun k hk => State.showEntry_data _ _ _ _ hk⟩

end Sys2Proof.Machine
end

section
/-!
PROOF. The self-test by command, its end, and the commit of a golden (ch. 15, R501 to R503).
-/
namespace Sys2Proof.Machine

variable {s b : State} {n kind : Nat}

/-! ### GO (R501) -/

theorem bistCmd_lbist (h : n < 512) : BIST_CMD.GO.of (2 ^ 31 + n) = 1 ∧ BIST_CMD.TARGET.of (2 ^ 31 + n) = n ∧ BIST_CMD.KIND.of (2 ^ 31 + n) = 0 := by
  simp only [Field.of, BIST_CMD.GO, BIST_CMD.TARGET, BIST_CMD.KIND, bits, Nat.shiftRight_eq_div_pow]
  omega

theorem bistCmd_mbist (h : n < 512) : BIST_CMD.GO.of (2 ^ 31 + 2 ^ 24 + n) = 1 ∧ BIST_CMD.TARGET.of (2 ^ 31 + 2 ^ 24 + n) = n ∧
    BIST_CMD.KIND.of (2 ^ 31 + 2 ^ 24 + n) = 1 := by
  simp only [Field.of, BIST_CMD.GO, BIST_CMD.TARGET, BIST_CMD.KIND, bits, Nat.shiftRight_eq_div_pow]
  omega

theorem exec_bistLbist_of_takes {p : Path} (hn : n < 512) (h : s.takes p 0x12000 (2 ^ 31 + n) = true) :
    exec (.bistLbist p n) s = .next ((s.booked p 0x12000 (2 ^ 31 + n)).bistGo n 0) := by
  have hexec : exec (.bistLbist p n) s = .next (s.regWrite p 0x12000 (2 ^ 31 + n % 512) fun t => t.effBistCmd (2 ^ 31 + n % 512)) := rfl
  obtain ⟨hgo, htarget, hkind⟩ := bistCmd_lbist hn
  rw [hexec, Nat.mod_eq_of_lt hn, State.regWrite_takes h, State.effBistCmd, if_pos hgo, htarget, hkind]

theorem exec_bistMbist_of_takes {p : Path} (hn : n < 512) (h : s.takes p 0x12000 (2 ^ 31 + 2 ^ 24 + n) = true) :
    exec (.bistMbist p n) s = .next ((s.booked p 0x12000 (2 ^ 31 + 2 ^ 24 + n)).bistGo n 1) := by
  have hexec : exec (.bistMbist p n) s =
    .next (s.regWrite p 0x12000 (2 ^ 31 + 2 ^ 24 + n % 512) fun t => t.effBistCmd (2 ^ 31 + 2 ^ 24 + n % 512)) := rfl
  obtain ⟨hgo, htarget, hkind⟩ := bistCmd_mbist hn
  rw [hexec, Nat.mod_eq_of_lt hn, State.regWrite_takes h, State.effBistCmd, if_pos hgo, htarget, hkind]

/-- STATUS naming a run. -/
def State.bistNamed (b : State) (n kind : Nat) : State := (b.set BIST_STATUS.TARGET n).set BIST_STATUS.KIND kind

/-- STATUS of a run under way. -/
def State.bistShown (b : State) (n kind : Nat) : State := ((b.bistNamed n kind).set BIST_STATUS.BUSY 1).set BIST_STATUS.RESULT 0

/-- A run under way. -/
def State.bistBegun (b : State) (n kind : Nat) : State := { b.bistShown n kind with nvs := { b.nvs with bist := some (n, kind) } }

/-- A run under way in a quadrant that it enables. -/
def State.bistEnabled (b : State) (n kind : Nat) : State :=
  { (b.bistShown n kind).putBit ENG_STATUS.QRUN (quadrantOf n) true with
    nvs := { b.nvs with bist := some (n, kind), bistQuad := some (quadrantOf n) } }

theorem State.bistNamed_only (b : State) (n kind : Nat) : Only [BIST_STATUS.TARGET, BIST_STATUS.KIND] b (b.bistNamed n kind) :=
  ((Only.refl _ b).set n (by simp)).set kind (by simp)

theorem State.bistNamed_status (b : State) (hn : n < 512) (hk : kind < 2) :
    (b.bistNamed n kind).get BIST_STATUS.TARGET = n ∧ (b.bistNamed n kind).get BIST_STATUS.KIND = kind :=
  ⟨(State.get_set_ne _ _ (by decide)).trans (State.get_set_of_lt _ hn), State.get_set_of_lt _ hk⟩

theorem State.bistShown_only (b : State) (n kind : Nat) :
    Only [BIST_STATUS.TARGET, BIST_STATUS.KIND, BIST_STATUS.BUSY, BIST_STATUS.RESULT] b (b.bistShown n kind) :=
  (((b.bistNamed_only n kind).weaken (by simp)).set 1 (by simp)).set 0 (by simp)

/-- What STATUS shows of a run under way. -/
theorem State.bistShown_status (b : State) (hn : n < 512) (hk : kind < 2) :
    (b.bistShown n kind).get BIST_STATUS.TARGET = n ∧ (b.bistShown n kind).get BIST_STATUS.KIND = kind ∧
    (b.bistShown n kind).get BIST_STATUS.BUSY = 1 ∧ (b.bistShown n kind).get BIST_STATUS.RESULT = 0 := by
  obtain ⟨htarget, hkind⟩ := b.bistNamed_status hn hk
  unfold State.bistShown
  refine ⟨?_, ?_, ?_, State.get_set_self ..⟩
  · rw [State.get_set_ne _ _ (by decide), State.get_set_ne _ _ (by decide), htarget]
  · rw [State.get_set_ne _ _ (by decide), State.get_set_ne _ _ (by decide), hkind]
  · rw [State.get_set_ne _ _ (by decide), State.get_set_self]
    rfl

/-- The store's record may be any on both sides. -/
theorem Only.withNvs {fs : List Field} {s t : State} (h : Only fs s t) (x : Nvs) : Only fs { s with nvs := x } { t with nvs := x } :=
  ⟨congrArg (fun u : State => { u with nvs := x }) h.1, h.2⟩

theorem State.bistBegun_only (b : State) (n kind : Nat) : Only [BIST_STATUS.TARGET, BIST_STATUS.KIND, BIST_STATUS.BUSY, BIST_STATUS.RESULT]
    { b with nvs := { b.nvs with bist := some (n, kind) } } (b.bistBegun n kind) := (b.bistShown_only n kind).withNvs _

theorem State.bistEnabled_only (b : State) (n kind : Nat) :
    Only [BIST_STATUS.TARGET, BIST_STATUS.KIND, BIST_STATUS.BUSY, BIST_STATUS.RESULT, ENG_STATUS.QRUN]
      { b with nvs := { b.nvs with bist := some (n, kind), bistQuad := some (quadrantOf n) } } (b.bistEnabled n kind) :=
  (((b.bistShown_only n kind).weaken (by simp)).putBit _ true (by simp)).withNvs _

theorem State.bistEnabled_get (b : State) (n kind : Nat) {f : Field} (h : ENG_STATUS.QRUN.key ≠ f.key) :
    (b.bistEnabled n kind).get f = (b.bistShown n kind).get f := State.get_set_ne (b.bistShown n kind) _ h

theorem State.bistShown_qrun (b : State) (n kind : Nat) : (b.bistShown n kind).get ENG_STATUS.QRUN = b.get ENG_STATUS.QRUN :=
  (b.bistShown_only n kind).2 _ (by decide)

theorem State.bistEnabled_qrun (b : State) (n kind : Nat) :
    (b.bistEnabled n kind).get ENG_STATUS.QRUN = setBit (b.get ENG_STATUS.QRUN) (quadrantOf n) true % 16 := by
  rw [← b.bistShown_qrun n kind]
  exact State.get_set_self (b.bistShown n kind) ENG_STATUS.QRUN _

theorem State.bistGo_of_busy (h : b.get BIST_STATUS.BUSY = 1) : b.bistGo n kind = b := if_pos (decide_eq_true h)

section
variable (hbusy : b.get BIST_STATUS.BUSY ≠ 1)
include hbusy

theorem State.bistGo_of_refused (h : b.bistAllowed n kind = false) : b.bistGo n kind = (b.bistNamed n kind).set BIST_STATUS.RESULT 3 := by
  have hon : b.on BIST_STATUS.BUSY = false := decide_eq_false hbusy
  simp only [State.bistGo, hon, h, Bool.false_eq_true, if_false]
  rfl

theorem State.bistGo_of_allowed (h : b.bistAllowed n kind = true) : b.bistGo n kind =
    if n ≤ 0x107 ∧ bit (b.get ENG_STATUS.QRUN) (quadrantOf n) = false then b.bistEnabled n kind else b.bistBegun n kind := by
  have hon : b.on BIST_STATUS.BUSY = false := decide_eq_false hbusy
  have hq : bit (b.get ENG_STATUS.QRUN) (quadrantOf n) = (b.bistBegun n kind).bitOf ENG_STATUS.QRUN (quadrantOf n) := by
    rw [← b.bistShown_qrun n kind]
    rfl
  rw [hq]
  simp only [State.bistGo, hon, h, Bool.false_eq_true, if_false, if_true, Bool.and_eq_true, Bool.not_eq_true', decide_eq_true_eq]
  rfl
end

theorem State.bistAllowed_iff : s.bistAllowed n kind = true ↔
    (n ≤ 0x107 ∧ (s.engine n).st ≠ 1 ∧ (bit (s.get ENG_STATUS.QRUN) (quadrantOf n) = true ∨ s.power = stSAFETALK)) ∨
    ((s.power = stIDLE ∨ s.power = stHOLD ∨ s.power = stSAFETALK) ∧ ((n = 0x110 ∧ kind = 1) ∨ (0x111 ≤ n ∧ n ≤ 0x114 ∧ kind = 0))) ∨
    (n = 0x115 ∧ kind = 0 ∧ s.get (LNK_STATE.STATE 0) = 0 ∧ s.get (LNK_STATE.STATE 1) = 0) := by
  unfold State.bistAllowed State.bitOf
  dsimp only
  split_ifs with hengine hstore hlogic hlink
  · simp only [Bool.and_eq_true, Bool.or_eq_true, decide_eq_true_eq]
    refine ⟨fun h => .inl ⟨hengine, h⟩, ?_⟩
    rintro (⟨-, h⟩ | ⟨-, h⟩ | ⟨h, -⟩)
    · exact h
    · omega
    · omega
  · simp only [Bool.and_eq_true, decide_eq_true_eq]
    omega
  · simp only [Bool.and_eq_true, decide_eq_true_eq]
    omega
  · simp only [Bool.and_eq_true, decide_eq_true_eq]
    omega
  · exact iff_of_false (fun h => h) (by omega)

/-! ### The end of a run (R502) -/

/-- The run over, and the quadrant it enabled disabled. -/
theorem State.endBist_only (s : State) :
    Only [BIST_STATUS.BUSY, ENG_STATUS.QRUN] { s with nvs := { s.nvs with bist := none, bistQuad := none } } s.endBist := by
  unfold State.endBist
  cases s.nvs.bistQuad with
  | none => exact (Only.refl _ _).set 0 (by simp)
  | some q => exact (((Only.refl _ s).putBit q false (by simp)).withNvs _).set 0 (by simp)

theorem State.endBist_busy (s : State) : s.endBist.get BIST_STATUS.BUSY = 0 := State.get_set_self ..

theorem State.endBist_qrun_of_none (h : s.nvs.bistQuad = none) : s.endBist.get ENG_STATUS.QRUN = s.get ENG_STATUS.QRUN := by
  simp only [State.endBist, h]
  exact State.get_set_ne _ _ (by decide)

theorem State.endBist_qrun_of_some {q : Nat} (h : s.nvs.bistQuad = some q) :
    s.endBist.get ENG_STATUS.QRUN = setBit (s.get ENG_STATUS.QRUN) q false % 16 := by
  simp only [State.endBist, h]
  exact (State.get_set_ne _ _ (by decide)).trans (State.get_set_self s ENG_STATUS.QRUN _)

theorem State.endBist_nvs (s : State) : s.endBist.nvs = { s.nvs with bist := none, bistQuad := none } := congrArg State.nvs s.endBist_only.1

/-- A golden is the banks' and what they hold. -/
theorem State.golden_congr {t : State} (hbanks : t.nvs.banks = s.nvs.banks) (hcontent : t.nvs.content = s.nvs.content) (n : Nat) :
    t.golden n = s.golden n := by
  simp only [State.golden, State.inBank, State.bankSeq, State.bankContent, hbanks, hcontent]

theorem State.stopMreq_nvs (s : State) (cause : Nat) : (s.stopMreq cause).nvs = s.nvs := by
  unfold State.stopMreq
  rw [State.raise_nvs]
  rfl

theorem State.reviewMreq_nvs (s : State) : s.reviewMreq.nvs = s.nvs := by
  unfold State.reviewMreq
  split
  · split
    · exact s.stopMreq_nvs _
    · rfl
  · rfl

theorem State.reviewMeas_nvs (s : State) : s.reviewMeas.nvs = s.nvs := by
  unfold State.reviewMeas
  dsimp only
  rw [State.reviewMreq_nvs]
  split <;> rfl

theorem State.setTrk_nvs (s : State) (m : Bool) (f : Trk → Trk) : (s.setTrk m f).nvs = s.nvs := by cases m <;> rfl

theorem State.reviewPipe_nvs (s : State) : s.reviewPipe.nvs = s.nvs := by
  have h := congrArg State.nvs s.reviewPipe_only.1
  exact h

/-! ### The march of the kibble store (R501) -/

theorem eq_zero_of_mem_zeroBytes {v k : Nat} (h : v ∈ zeroBytes k) : v = 0 := List.eq_of_mem_replicate h

/-- A map that keeps what another map shows of each element. -/
theorem map_map_of_keeps {α β : Type} (f : α → α) {g : α → β} (h : ∀ a, g (f a) = g a) (l : List α) : (l.map f).map g = l.map g := by
  rw [List.map_map]
  exact List.map_congr_left fun a _ => h a

theorem map_fst_of_keyed {α : Type} (f : α → α) (l : List (Nat × α)) : (l.map fun e => (e.1, f e.2)).map Prod.fst = l.map Prod.fst :=
  map_map_of_keeps (fun e => (e.1, f e.2)) (fun _ => rfl) l

/-! What waits in the store, each of its bytes 0. -/

def SpotItem.zeroed (it : SpotItem) : SpotItem := { it with body := zeroBytes it.body.length }
def Item.zeroed (it : Item) : Item := { it with bytes := zeroBytes it.bytes.length }
def OutSweep.zeroed (o : OutSweep) : OutSweep := { o with streams := o.streams.map fun e => (e.1, zeroBytes e.2.length) }
def Build.zeroed (b : Build) : Build :=
  { b with hdr := zeroBytes b.hdr.length, keys := zeroBytes b.keys.length, deltas := zeroBytes b.deltas.length
           stat := zeroBytes b.stat.length, aux := zeroBytes b.aux.length }
def Packet.zeroed (k : Packet) : Packet := if k.vc = 6 then { k with payload := zeroBytes k.payload.length } else k

theorem SpotItem.zeroed_bytes (it : SpotItem) : ∀ v ∈ it.zeroed.body, v = 0 := fun _ => eq_zero_of_mem_zeroBytes

theorem Item.zeroed_bytes (it : Item) : ∀ v ∈ it.zeroed.bytes, v = 0 := fun _ => eq_zero_of_mem_zeroBytes

theorem OutSweep.zeroed_bytes (o : OutSweep) : ∀ e ∈ o.zeroed.streams, ∀ v ∈ e.2, v = 0 :=
  List.forall_mem_map.mpr fun _ _ _ => eq_zero_of_mem_zeroBytes

theorem Build.zeroed_bytes (b : Build) : ∀ v ∈ b.zeroed.hdr ++ b.zeroed.keys ++ b.zeroed.deltas ++ b.zeroed.stat ++ b.zeroed.aux, v = 0 := by
  intro v hv
  simp only [List.mem_append] at hv
  rcases hv with (((h | h) | h) | h) | h <;> exact eq_zero_of_mem_zeroBytes h

theorem Packet.zeroed_payload (k : Packet) (h : k.zeroed.vc = 6) : ∀ v ∈ k.zeroed.payload, v = 0 := by
  unfold Packet.zeroed at h ⊢
  split_ifs at h ⊢ with hk
  · exact fun v hv => eq_zero_of_mem_zeroBytes hv
  · exact absurd h hk

/-- The march as one update of each block whose bytes wait in the store. -/
theorem State.zeroKibble_eq (s : State) : s.zeroKibble = { s with
    pipe := { s.pipe with table := [], blank := true, spot := s.pipe.spot.map SpotItem.zeroed }
    spot := { s.spot with queue := s.spot.queue.map SpotItem.zeroed }
    hst := { s.hst with waiting := s.hst.waiting.map Item.zeroed }
    eng := { s.eng with out := s.eng.out.map OutSweep.zeroed }
    chn := { s.chn with build := s.chn.build.map fun e => (e.1, e.2.map Build.zeroed)
                        queue := s.chn.queue.map fun e => (e.1, e.2.map Packet.zeroed) } } := by
  dsimp only [State.zeroKibble, State.onPipe, State.onSpot, State.onHst, State.onEng, State.onChn]
  rfl

/-! ### What a run leaves in its block (R501) -/

/-- Both trackers off. -/
def State.trackersOff (s : State) : State := ((s.setTrk false fun _ => {}).setTrk true fun _ => {}).reviewMeas

/-- A context off, its staged values kept. -/
def Ctx.shut (x : Ctx) : Ctx := { x with on := false, pending := none, disable := false }

/-- Every context off. -/
def State.contextsOff (s : State) : State := s.onPipe fun p => { p with ctx := p.ctx.map fun e => (e.1, e.2.shut) }

theorem State.contextsOff_ctx (s : State) (c : Nat) : s.contextsOff.ctx c = (s.ctx c).shut :=
  Tbl.get_map ({} : Ctx) Ctx.shut rfl s.pipe.ctx c

theorem State.afterBist_eq (s : State) (n kind : Nat) : s.afterBist n kind =
    if n ≤ 0x107 then (if kind = 1 then s.setEngine n fun g => { g with mem := [], bad := [] } else s)
    else if n = 0x110 then s.zeroKibble else if n = 0x111 then s.trackersOff else if n = 0x114 then s.contextsOff.reviewPipe else s := rfl

theorem State.afterBist_nvs (s : State) (n kind : Nat) : (s.afterBist n kind).nvs = s.nvs := by
  have htrackers : s.trackersOff.nvs = s.nvs := by rw [State.trackersOff, State.reviewMeas_nvs, State.setTrk_nvs, State.setTrk_nvs]
  have hcontexts : s.contextsOff.reviewPipe.nvs = s.nvs := by
    rw [State.reviewPipe_nvs]
    rfl
  have hkibble : s.zeroKibble.nvs = s.nvs := by rw [State.zeroKibble_eq]
  rw [State.afterBist_eq]
  split_ifs
  · rfl
  · rfl
  · exact hkibble
  · exact htrackers
  · exact hcontexts
  · rfl

/-! ### The result of a run (R502) -/

/-- What a run found, shown. -/
def State.bistFound (t : State) (kind sig cnt addr : Nat) : State :=
  if kind = 0 then (t.set BIST_SIG_LO.SIG sig).set BIST_SIG_HI.SIG (sig / 2 ^ 32)
  else (t.set BIST_FAIL.FAIL_CNT (min 65535 cnt)).set BIST_FAIL_ADDR.ADDR addr

/-- RESULT of a run. -/
def State.bistVerdict (t : State) (n kind sig cnt : Nat) : Nat :=
  if kind = 1 then (if cnt = 0 then 1 else 2)
  else match t.golden n with
    | none => 4
    | some g => if g = sig % 2 ^ 64 then 1 else 2

theorem State.bistVerdict_lt (t : State) (n kind sig cnt : Nat) : t.bistVerdict n kind sig cnt < 2 ^ 3 := by
  unfold State.bistVerdict
  split
  · split <;> decide
  · split
    · decide
    · split <;> decide

theorem State.bistVerdict_congr {t : State} (h : t.golden n = s.golden n) (kind sig cnt : Nat) :
    t.bistVerdict n kind sig cnt = s.bistVerdict n kind sig cnt := by
  simp only [State.bistVerdict, h]

/-- A run's findings with its RESULT. -/
def State.bistResult (t : State) (n kind sig cnt addr : Nat) : State :=
  (t.bistFound kind sig cnt addr).set BIST_STATUS.RESULT (t.bistVerdict n kind sig cnt)

theorem State.bistResult_result (t : State) (n kind sig cnt addr : Nat) :
    (t.bistResult n kind sig cnt addr).get BIST_STATUS.RESULT = t.bistVerdict n kind sig cnt :=
  State.get_set_of_lt _ (t.bistVerdict_lt n kind sig cnt)

theorem State.bistResult_lbist_only (t : State) (n sig cnt addr : Nat) :
    Only [BIST_SIG_LO.SIG, BIST_SIG_HI.SIG, BIST_STATUS.RESULT] t (t.bistResult n 0 sig cnt addr) :=
  (((Only.refl _ t).set sig (by simp)).set _ (by simp)).set _ (by simp)

theorem State.bistResult_signature (t : State) (n sig cnt addr : Nat) :
    (t.bistResult n 0 sig cnt addr).get BIST_SIG_LO.SIG + 2 ^ 32 * (t.bistResult n 0 sig cnt addr).get BIST_SIG_HI.SIG = sig % 2 ^ 64 := by
  have hlo : (t.bistResult n 0 sig cnt addr).get BIST_SIG_LO.SIG = sig % 2 ^ 32 := by
    rw [State.bistResult, State.bistFound, if_pos rfl, State.get_set_ne _ _ (by decide), State.get_set_ne _ _ (by decide), State.get_set_self]
    rfl
  have hhi : (t.bistResult n 0 sig cnt addr).get BIST_SIG_HI.SIG = sig / 2 ^ 32 % 2 ^ 32 := by
    rw [State.bistResult, State.bistFound, if_pos rfl, State.get_set_ne _ _ (by decide), State.get_set_self]
    rfl
  rw [hlo, hhi]
  omega

theorem State.bistResult_mbist_only (t : State) (n sig cnt addr : Nat) :
    Only [BIST_FAIL.FAIL_CNT, BIST_FAIL_ADDR.ADDR, BIST_STATUS.RESULT] t (t.bistResult n 1 sig cnt addr) :=
  (((Only.refl _ t).set _ (by simp)).set addr (by simp)).set _ (by simp)

theorem State.bistResult_failing (t : State) (n sig cnt addr : Nat) :
    (t.bistResult n 1 sig cnt addr).get BIST_FAIL.FAIL_CNT = min 65535 cnt ∧
    (t.bistResult n 1 sig cnt addr).get BIST_FAIL_ADDR.ADDR = addr % 2 ^ 32 := by
  unfold State.bistResult State.bistFound
  rw [if_neg (by decide)]
  constructor
  · rw [State.get_set_ne _ _ (by decide), State.get_set_ne _ _ (by decide), State.get_set_of_lt]
    exact Nat.lt_of_le_of_lt (Nat.min_le_left 65535 cnt) (by decide)
  · rw [State.get_set_ne _ _ (by decide), State.get_set_self]
    rfl

theorem exec_bistDone_of_none (h : s.nvs.bist = none) (sig cnt addr : Nat) : exec (.bistDone sig cnt addr) s = .next s := by
  have hexec : exec (.bistDone sig cnt addr) s = execBistDone sig cnt addr s := rfl
  rw [hexec, execBistDone, h]

theorem State.afterBist_golden (s : State) (n kind m : Nat) : (s.endBist.afterBist n kind).golden m = s.golden m := by
  have hnvs : (s.endBist.afterBist n kind).nvs = { s.nvs with bist := none, bistQuad := none } :=
    (s.endBist.afterBist_nvs n kind).trans s.endBist_nvs
  apply State.golden_congr <;> rw [hnvs]

theorem exec_bistDone_of_some (h : s.nvs.bist = some (n, kind)) (sig cnt addr : Nat) : exec (.bistDone sig cnt addr) s =
    let t := s.endBist.afterBist n kind
    .next (if t.bistVerdict n kind sig cnt = 1 then (t.bistResult n kind sig cnt addr).raise 0x1202 [n, kind]
      else (t.bistResult n kind sig cnt addr).raise 0x1203 [n, kind, if kind = 1 then cnt else 0]) := by
  have hexec : exec (.bistDone sig cnt addr) s = execBistDone sig cnt addr s := rfl
  dsimp only
  rw [hexec, execBistDone, h, State.bistResult, State.bistVerdict_congr (s.afterBist_golden n kind n)]
  rfl

theorem State.zeroKibble_zeroes (s : State) : ∃ u : State, s.zeroKibble = u ∧
    u = { s with pipe := u.pipe, spot := u.spot, hst := u.hst, eng := u.eng, chn := u.chn } ∧
    u.pipe = { s.pipe with table := [], blank := true, spot := u.pipe.spot } ∧ u.spot = { s.spot with queue := u.spot.queue } ∧
    u.hst = { s.hst with waiting := u.hst.waiting } ∧ u.eng = { s.eng with out := u.eng.out } ∧
    u.chn = { s.chn with build := u.chn.build, queue := u.chn.queue } ∧
    u.pipe.spot.map (fun it => { it with body := [] }) = s.pipe.spot.map (fun it => { it with body := [] }) ∧
    (∀ it ∈ u.pipe.spot, ∀ v ∈ it.body, v = 0) ∧
    u.spot.queue.map (fun it => { it with body := [] }) = s.spot.queue.map (fun it => { it with body := [] }) ∧
    (∀ it ∈ u.spot.queue, ∀ v ∈ it.body, v = 0) ∧
    u.hst.waiting.map (fun it => { it with bytes := [] }) = s.hst.waiting.map (fun it => { it with bytes := [] }) ∧
    (∀ it ∈ u.hst.waiting, ∀ v ∈ it.bytes, v = 0) ∧
    u.eng.out.map (fun o => { o with streams := [] }) = s.eng.out.map (fun o => { o with streams := [] }) ∧
    (∀ o ∈ u.eng.out, ∀ e ∈ o.streams, ∀ v ∈ e.2, v = 0) ∧
    u.chn.build.map Prod.fst = s.chn.build.map Prod.fst ∧
    (∀ e ∈ u.chn.build, ∀ b ∈ e.2, ∀ v ∈ b.hdr ++ b.keys ++ b.deltas ++ b.stat ++ b.aux, v = 0) ∧
    u.chn.queue.map Prod.fst = s.chn.queue.map Prod.fst ∧ ∀ e ∈ u.chn.queue, ∀ k ∈ e.2, k.vc = 6 → ∀ v ∈ k.payload, v = 0 := by
  refine ⟨_, s.zeroKibble_eq, rfl, rfl, rfl, rfl, rfl, rfl,
    map_map_of_keeps SpotItem.zeroed (fun _ => rfl) _, List.forall_mem_map.mpr fun it _ => it.zeroed_bytes,
    map_map_of_keeps SpotItem.zeroed (fun _ => rfl) _, List.forall_mem_map.mpr fun it _ => it.zeroed_bytes,
    map_map_of_keeps Item.zeroed (fun _ => rfl) _, List.forall_mem_map.mpr fun it _ => it.zeroed_bytes,
    map_map_of_keeps OutSweep.zeroed (fun _ => rfl) _, List.forall_mem_map.mpr fun o _ => o.zeroed_bytes,
    map_fst_of_keyed _ _, List.forall_mem_map.mpr fun e _ b hb => ?_, map_fst_of_keyed _ _,
    List.forall_mem_map.mpr fun e _ => List.forall_mem_map.mpr fun k _ => k.zeroed_payload⟩
  obtain ⟨b, -, rfl⟩ := Option.mem_map.mp hb
  exact b.zeroed_bytes

/-! ### The commit of a golden (R503) -/

theorem exec_bistGoldCommit_of_takes {p : Path} (h : s.takes p 0x12024 1 = true) : exec (.bistGoldCommit p) s =
    .next (if (s.booked p 0x12024 1).mayWrite p BIST_GOLD_CMD.COMMIT then (s.booked p 0x12024 1).goldCommit p else s.booked p 0x12024 1) := by
  have hexec : exec (.bistGoldCommit p) s = .next (s.regWrite p 0x12024 1 fun t => t.effGoldCmd p 1) := rfl
  have hbit : BIST_GOLD_CMD.COMMIT.of 1 = 1 := by decide
  rw [hexec, State.regWrite_takes h, State.effGoldCmd, hbit]
  simp only [decide_true, Bool.true_and]

theorem State.goldCommit_of_unfit {p : Path} (h : b.get BIST_STATUS.KIND = 1 ∨ b.get BIST_STATUS.BUSY = 1 ∨
    (b.get BIST_STATUS.RESULT ≠ 1 ∧ b.get BIST_STATUS.RESULT ≠ 2)) : b.goldCommit p = b := by
  refine if_pos ?_
  simpa only [State.on, Bool.or_eq_true, decide_eq_true_eq, or_assoc] using h

/-- The goldens with the signature shown for the target shown. -/
def State.goldens (b : State) : Tbl Nat :=
  Tbl.set 0 (b.bankContent 5) (goldOf (b.get BIST_STATUS.TARGET)) (b.get BIST_SIG_LO.SIG + b.get BIST_SIG_HI.SIG * 2 ^ 32 + 1)

section
variable {p : Path} (hkind : b.get BIST_STATUS.KIND ≠ 1) (hbusy : b.get BIST_STATUS.BUSY ≠ 1)
  (hresult : b.get BIST_STATUS.RESULT = 1 ∨ b.get BIST_STATUS.RESULT = 2)
include hkind hbusy hresult

theorem State.goldCommit_fit : ¬ (b.on BIST_STATUS.KIND || b.on BIST_STATUS.BUSY ||
    decide (b.get BIST_STATUS.RESULT ≠ 1 ∧ b.get BIST_STATUS.RESULT ≠ 2)) = true := by
  simp only [State.on, Bool.or_eq_true, decide_eq_true_eq]
  omega

theorem State.goldCommit_of_refused {c : Nat} (h : b.storeRefuses = some c) : b.goldCommit p = b.set NVS_STATUS.LAST_RESULT c := by
  rw [State.goldCommit, if_neg (State.goldCommit_fit hkind hbusy hresult), h]
  rfl

theorem State.goldCommit_of_free (h : b.storeRefuses = none) : b.goldCommit p = b.startOp 4 5 (pathNo p) 3 b.goldens := by
  rw [State.goldCommit, if_neg (State.goldCommit_fit hkind hbusy hresult), h]
  rfl
end

/-- Settles O60: a GO is one of three updates, the end of a run is the block's own update with its findings shown, and a commit starts or is
refused as the store's commands are. -/
theorem selfTestsRunAndGoldensAreKept : Obligations.SelfTestsRunAndGoldensAreKept := by
  unfold Obligations.SelfTestsRunAndGoldensAreKept
  refine ⟨fun p n s hn ht => exec_bistLbist_of_takes hn ht, fun p n s hn ht => exec_bistMbist_of_takes hn ht,
    fun n kind b hn hk => ⟨_, rfl, State.bistGo_of_busy, fun hbusy => ?go⟩, fun n kind s => State.bistAllowed_iff,
    fun sig cnt addr s => ⟨fun h => exec_bistDone_of_none h sig cnt addr, fun n kind h => ?done⟩, ?after, State.zeroKibble_zeroes, ?commit⟩
  case go =>
    obtain ⟨htarget, hkind, hrun, hresult⟩ := b.bistShown_status hn hk
    cases ha : b.bistAllowed n kind with
    | false =>
      rw [State.bistGo_of_refused hbusy ha]
      obtain ⟨htarget, hkind⟩ := b.bistNamed_status hn hk
      refine ⟨(State.get_set_ne _ _ (by decide)).trans htarget, (State.get_set_ne _ _ (by decide)).trans hkind, fun h => absurd h (by decide),
        fun _ => ⟨State.get_set_of_lt _ (by decide), ((b.bistNamed_only n kind).weaken (by simp)).set 3 (by simp)⟩⟩
    | true =>
      rw [State.bistGo_of_allowed hbusy ha]
      split_ifs with hquad
      · obtain ⟨hn', hq⟩ := hquad
        refine ⟨(b.bistEnabled_get n kind (by decide)).trans htarget, (b.bistEnabled_get n kind (by decide)).trans hkind, fun _ =>
          ⟨(b.bistEnabled_get n kind (by decide)).trans hrun, (b.bistEnabled_get n kind (by decide)).trans hresult, fun hor => ?_, fun _ _ =>
          ⟨b.bistEnabled_qrun n kind, b.bistEnabled_only n kind⟩⟩, fun h => absurd h (by decide)⟩
        rcases hor with h | h
        · omega
        · exact absurd (hq.symm.trans h) (by decide)
      · exact ⟨htarget, hkind, fun _ => ⟨hrun, hresult, fun _ => b.bistBegun_only n kind, fun hn' hq => absurd ⟨hn', hq⟩ hquad⟩,
          fun h => absurd h (by decide)⟩
  case done =>
    refine ⟨s.endBist, s.endBist.afterBist n kind, _, _, s.endBist_only, s.endBist_busy, State.endBist_qrun_of_none,
      fun q hq => State.endBist_qrun_of_some hq, rfl, State.bistResult_result .., exec_bistDone_of_some h sig cnt addr, ?_, ?_⟩
    · rintro rfl
      refine ⟨State.bistResult_lbist_only .., State.bistResult_signature .., fun hg => ?_, fun g hg => ?_⟩
      · simp only [State.bistVerdict, hg]
        rfl
      · simp only [State.bistVerdict, hg]
        rfl
    · rintro rfl
      obtain ⟨hcnt, haddr⟩ := (s.endBist.afterBist n 1).bistResult_failing n sig cnt addr
      exact ⟨State.bistResult_mbist_only .., hcnt, haddr, rfl⟩
  case after =>
    intro n s
    refine ⟨fun hn => ?_, fun hn kind => ?_, fun hn => ⟨s.setEngine n fun g => { g with mem := [], bad := [] }, ?_, (OnlyEngine.refl n s).setEngine _,
      State.engine_setEngine ..⟩, ⟨s.contextsOff, rfl, rfl, s.contextsOff_ctx⟩, rfl, rfl⟩
    · rw [State.afterBist_eq, if_pos hn]
      rfl
    · rw [State.afterBist_eq]
      split_ifs
      · omega
      · omega
      · omega
      · omega
      · omega
      · rfl
    · rw [State.afterBist_eq, if_pos hn]
      rfl
  case commit =>
    intro p s ht
    have hexec := exec_bistGoldCommit_of_takes ht
    generalize s.booked p 0x12024 1 = b at hexec
    refine ⟨b, rfl, fun h => ?_, fun hmay hkind hbusy hresult => ⟨fun c hc => ?_, fun hc => ⟨b.goldens, ?_, Tbl.get_set_same .., fun k hk =>
      Tbl.get_set_other _ _ _ _ hk.symm⟩⟩⟩
    · rw [hexec]
      rcases h with hmay | hunfit
      · rw [hmay, if_neg Bool.false_ne_true]
      · rw [State.goldCommit_of_unfit hunfit, ite_self]
    · rw [hexec, if_pos hmay, State.goldCommit_of_refused hkind hbusy hresult hc]
    · rw [hexec, if_pos hmay, State.goldCommit_of_free hkind hbusy hresult hc]

end Sys2Proof.Machine
end
